-- ==== Sys2Proof/Word.lean ====
section
/-! DEFINITION. The word types of the machine and their plainest arithmetic. -/

namespace Sys2Proof

/-- A byte (R2). -/
abbrev Byte := BitVec 8
/-- A 64-bit word: a scalar register, an instruction word. -/
abbrev Word := BitVec 64

end Sys2Proof
end

