-- ==== Sys2Proof/Config.lean ====
section
/-! DEFINITION. The free values: what the spec leaves open. Each is an opaque constant with no body, so nothing about it can be proved;
a number drawn from it is indexed by the counter `freeCtr` of the state (assumption 5 and the entries it names). -/

namespace Sys2Proof.Config

/-- Durations and instants the architecture does not fix (assumption 5). -/
opaque freeDelay : Nat → Nat
/-- Lovage's signatures, by the body signed and the algorithm (assumption 6). -/
opaque signature : List (BitVec 8) → Bool → List (BitVec 8)
/-- SHA-384 of Lovage's ML-DSA-87 public key (assumption 6). -/
opaque deviceIdentity : BitVec 384
/-- The digest of the Lovage firmware image, which the hub's boot ROM measures (assumption 6). -/
opaque lovageDigest : BitVec 384
/-- The defective tiles of a die, from its fuses (01_architecture.md R18), as tiles of the package; one that leaves no rectangle of R18 stands for no
defect (assumption 51). -/
opaque defectMap : Nat → List Nat
/-- The identity fused into the hub for a die position (17_link.md R363; assumption 51). -/
opaque fusedIdentity : Nat → BitVec 384
/-- SHA-384 of the leaf public key that a die presents (17_link.md R363; assumption 51). -/
opaque leafDigest : Nat → BitVec 384
/-- The firmware manifest in module flash (17_link.md R363; assumption 51). -/
opaque fwManifest : BitVec 384
/-- The secret from which the keys of a link come, by link and attestation (17_link.md R365; assumption 51). -/
opaque linkSecret : Nat → Nat → List (BitVec 8)
/-- The 8-byte header of a flit, by all that makes the flit: key, IV, counter, generation bit and ciphertext. The places of its fields, and how a CRC-16
over the whole flit stands in what the tag authenticates, are not stated (17_link.md R367; assumption 51). -/
opaque flitHeader : List (BitVec 8) → List (BitVec 8) → Nat → Nat → List (BitVec 8) → BitVec 64
/-- The value of a register or a bit the spec leaves open at that point (assumption 7). -/
opaque freeWord : Nat → BitVec 64

end Sys2Proof.Config
end

