-- ==== Sys2Proof/Syntax.lean ====
section
/-! DEFINITION. The instruction words of 04_encoding.md by format, the events of the device, and Instr, the one inductive of both. -/

namespace Sys2Proof

/-- The token bits and the predicate of a word that enters a queue (Table 34, R85). -/
structure Hdr where
  popl : Bool
  popr : Bool
  pshl : Bool
  pshr : Bool
  pred : BitVec 4
deriving DecidableEq, Repr

/-- Format C of Table 38. -/
structure FmtC where
  a : BitVec 6
  b : BitVec 6
  k4 : BitVec 4
  imm : BitVec 32
deriving DecidableEq, Repr

/-- Format S of Table 38.  In a group opcode the constructor fixes `FN`, and the field `fn` holds the same number. -/
structure FmtS where
  d : BitVec 6
  a : BitVec 6
  b : BitVec 6
  c : BitVec 6
  k12 : BitVec 12
  rsvd : BitVec 6
  fn : BitVec 6
deriving DecidableEq, Repr

/-- Format SI of Table 38. -/
structure FmtSI where
  d : BitVec 6
  a : BitVec 6
  k4 : BitVec 4
  imm : BitVec 32
deriving DecidableEq, Repr

/-- Format V of Table 38.  With `OF` = 0b01 the fields `vb` and `vc` are the two bytes of `IMM16`. -/
structure FmtV where
  vd : BitVec 8
  va : BitVec 8
  vb : BitVec 8
  vc : BitVec 8
  ty : BitVec 5
  rm : BitVec 3
  mask : BitVec 3
  of_ : BitVec 2
  fn : BitVec 3
deriving DecidableEq, Repr

/-- Format VX of Table 38. -/
structure FmtVX where
  vd : BitVec 8
  va : BitVec 8
  vb : BitVec 8
  dty : BitVec 5
  ovp : Bool
  rsvd : BitVec 2
  ty : BitVec 5
  rm : BitVec 3
  mask : BitVec 3
  of_ : BitVec 2
  fn : BitVec 3
deriving DecidableEq, Repr

/-- Format M of Table 38. -/
structure FmtM where
  ds : BitVec 8
  cp : BitVec 5
  sx : BitVec 6
  mask : BitVec 3
  sc : BitVec 3
  off : BitVec 21
  sz : BitVec 2
deriving DecidableEq, Repr

/-- Format MG of Table 38. -/
structure FmtMG where
  ds : BitVec 8
  cp : BitVec 5
  vx : BitVec 8
  mask : BitVec 3
  off : BitVec 24
deriving DecidableEq, Repr

/-- Format F of Table 38. -/
structure FmtF where
  mkn : BitVec 4
  scp : BitVec 3
  all : BitVec 1
  tix : BitVec 11
  rsvd : BitVec 29
deriving DecidableEq, Repr

/-- Format Y of Table 38. -/
structure FmtY where
  qn : BitVec 2
  bh : BitVec 6
  sem : BitVec 8
  k8 : BitVec 8
  sd : BitVec 6
  rsvd : BitVec 18
deriving DecidableEq, Repr

/-- Format Z of Table 38. -/
structure FmtZ where
  a : BitVec 6
  b : BitVec 6
  ca : BitVec 4
  imm : BitVec 32
deriving DecidableEq, Repr

/-- Format E of Table 38 with the engine operand, the word at PC + 8 (R93). -/
structure FmtE where
  ws : BitVec 8
  wt : BitVec 8
  ss : BitVec 8
  si : BitVec 8
  es : BitVec 16
  w1 : BitVec 64
deriving DecidableEq, Repr

/-- The fields of a partition record (14_group.md Table 122). -/
inductive PartField where
  | pcg
  | clmask
  | twqPcg
  | twqSeam
  | twqHub
  | twqGlink
deriving DecidableEq, Repr

/-- The registers of the host and of the functions whose writes only set a field (R7, R8) and have no event of their own. -/
inductive HostReg where
  /-- 09_page.md Table 82. -/
  | gbase (fn : Nat)
  | glen (fn : Nat)
  | s2first (fn : Nat)
  | s2count (fn : Nat)
  | s2done (fn : Nat)
  /-- 15_queue.md Table 128. -/
  | qbase (c q : Nat)
  | qsize (c q : Nat)
  | qprio (c q : Nat)
  /-- 15_queue.md Table 133. -/
  | slice (fn : Nat)
  /-- 15_queue.md Table 138. -/
  | swt (fn iface : Nat)
  | swmir (fn iface : Nat)
  /-- 16_context.md Table 141. -/
  | vf (c : Nat)
  | iface (c : Nat)
  /-- 16_context.md Table 142. -/
  | otbase (c : Nat)
  | seed (c : Nat)
  | magtab (c : Nat)
  | plbase (c : Nat)
  | pllen (c : Nat)
  | rcbase (c : Nat)
  | rclen (c : Nat)
  | pclr (c : Nat)
  /-- 17_link.md Table 156, the staged fields of a key slot: the function that asks, and whether its request has the T bit. -/
  | slotKey (slot fn : Nat) (t : Bool)
  | slotOwner (slot fn : Nat) (t : Bool)
  | slotLast (slot fn : Nat) (t : Bool)
  /-- 17_link.md R374. -/
  | ifpasid (fn iface : Nat)
  /-- An address that holds no writable field: the write is ignored (R7). -/
  | readOnly
deriving DecidableEq, Repr

/-- One constructor for each row of the opcode table: first the words of 04_encoding.md R96 and R97 by class,
then the events of the device that 95_what_each_step_holds.md lists. -/
inductive Instr where
  -- class 000 (Table 40)
  | nop (p : BitVec 4) (f : FmtC)
  | bra (p : BitVec 4) (f : FmtC)
  | brp (p : BitVec 4) (f : FmtC)
  | jmpc (p : BitVec 4) (f : FmtC)
  | call (p : BitVec 4) (f : FmtC)
  | ret (p : BitVec 4) (f : FmtC)
  | loop (p : BitVec 4) (f : FmtC)
  | lend (p : BitVec 4) (f : FmtC)
  | lstg (p : BitVec 4) (f : FmtC)
  | lbrk (p : BitVec 4) (f : FmtC)
  | stepw (p : BitVec 4) (f : FmtC)
  | halt (p : BitVec 4) (f : FmtC)
  -- class 001 (Table 40)
  | add (p : BitVec 4) (f : FmtS)
  | sub (p : BitVec 4) (f : FmtS)
  | mul (p : BitVec 4) (f : FmtS)
  | mulhs (p : BitVec 4) (f : FmtS)
  | mulhu (p : BitVec 4) (f : FmtS)
  | divs (p : BitVec 4) (f : FmtS)
  | divu (p : BitVec 4) (f : FmtS)
  | rems (p : BitVec 4) (f : FmtS)
  | remu (p : BitVec 4) (f : FmtS)
  | and (p : BitVec 4) (f : FmtS)
  | or (p : BitVec 4) (f : FmtS)
  | xor (p : BitVec 4) (f : FmtS)
  | andn (p : BitVec 4) (f : FmtS)
  | shl (p : BitVec 4) (f : FmtS)
  | shr (p : BitVec 4) (f : FmtS)
  | sar (p : BitVec 4) (f : FmtS)
  | rotr (p : BitVec 4) (f : FmtS)
  | min (p : BitVec 4) (f : FmtS)
  | max (p : BitVec 4) (f : FmtS)
  | minu (p : BitVec 4) (f : FmtS)
  | maxu (p : BitVec 4) (f : FmtS)
  | popc (p : BitVec 4) (f : FmtS)
  | clz (p : BitVec 4) (f : FmtS)
  | ctz (p : BitVec 4) (f : FmtS)
  | bswp (p : BitVec 4) (f : FmtS)
  | addi (p : BitVec 4) (f : FmtSI)
  | li (p : BitVec 4) (f : FmtSI)
  | lih (p : BitVec 4) (f : FmtSI)
  | sel (p : BitVec 4) (f : FmtS)
  | cmp (p : BitVec 4) (f : FmtS)
  | cmpi (p : BitVec 4) (f : FmtSI)
  | pand (p : BitVec 4) (f : FmtS)
  | por (p : BitVec 4) (f : FmtS)
  | pxor (p : BitVec 4) (f : FmtS)
  | pnot (p : BitVec 4) (f : FmtS)
  | extb (p : BitVec 4) (f : FmtS)
  | insb (p : BitVec 4) (f : FmtS)
  | mfsr (p : BitVec 4) (f : FmtS)
  | mtsr (p : BitVec 4) (f : FmtS)
  | rlr (p : BitVec 4) (f : FmtS)
  | cmov (p : BitVec 4) (f : FmtS)
  | cder (p : BitVec 4) (f : FmtS)
  | cseto (p : BitVec 4) (f : FmtS)
  | cinc (p : BitVec 4) (f : FmtS)
  | crgt (p : BitVec 4) (f : FmtS)
  | cget (p : BitVec 4) (f : FmtS)
  | cchk (p : BitVec 4) (f : FmtS)
  | cnul (p : BitVec 4) (f : FmtS)
  -- class 010 (Table 40)
  | vadd (h : Hdr) (f : FmtV)
  | vsub (h : Hdr) (f : FmtV)
  | vmul (h : Hdr) (f : FmtV)
  | vfma (h : Hdr) (f : FmtV)
  | vfms (h : Hdr) (f : FmtV)
  | vfnma (h : Hdr) (f : FmtV)
  | vmin (h : Hdr) (f : FmtV)
  | vmax (h : Hdr) (f : FmtV)
  | vabs (h : Hdr) (f : FmtV)
  | vneg (h : Hdr) (f : FmtV)
  | vcps (h : Hdr) (f : FmtV)
  | vdp2 (h : Hdr) (f : FmtV)
  | vrcp (h : Hdr) (f : FmtV)
  | vrsq (h : Hdr) (f : FmtV)
  | vsqr (h : Hdr) (f : FmtV)
  | vdiv (h : Hdr) (f : FmtV)
  | vex2 (h : Hdr) (f : FmtV)
  | vlg2 (h : Hdr) (f : FmtV)
  | viadd (h : Hdr) (f : FmtV)
  | visub (h : Hdr) (f : FmtV)
  | vimul (h : Hdr) (f : FmtV)
  | vimad (h : Hdr) (f : FmtV)
  | vimulh (h : Hdr) (f : FmtV)
  | vimin (h : Hdr) (f : FmtV)
  | vimax (h : Hdr) (f : FmtV)
  | vdp4 (h : Hdr) (f : FmtV)
  | vadds (h : Hdr) (f : FmtV)
  | vsubs (h : Hdr) (f : FmtV)
  | vand (h : Hdr) (f : FmtV)
  | vor (h : Hdr) (f : FmtV)
  | vxor (h : Hdr) (f : FmtV)
  | vandn (h : Hdr) (f : FmtV)
  | vpopc (h : Hdr) (f : FmtV)
  | vclz (h : Hdr) (f : FmtV)
  | vshl (h : Hdr) (f : FmtV)
  | vshr (h : Hdr) (f : FmtV)
  | vsar (h : Hdr) (f : FmtV)
  | vcmp (h : Hdr) (f : FmtV)
  | vcls (h : Hdr) (f : FmtV)
  | vsel (h : Hdr) (f : FmtV)
  | vcvt (h : Hdr) (f : FmtVX)
  | vrnd (h : Hdr) (f : FmtV)
  | vmov (h : Hdr) (f : FmtV)
  | vsplat (h : Hdr) (f : FmtV)
  | viota (h : Hdr) (f : FmtV)
  | vext (h : Hdr) (f : FmtV)
  | vins (h : Hdr) (f : FmtV)
  | vperm (h : Hdr) (f : FmtV)
  | vshuf (h : Hdr) (f : FmtV)
  | vrot (h : Hdr) (f : FmtV)
  | vcmprs (h : Hdr) (f : FmtV)
  | vexpd (h : Hdr) (f : FmtV)
  | vred (h : Hdr) (f : FmtV)
  | vredx (h : Hdr) (f : FmtV)
  | vscan (h : Hdr) (f : FmtV)
  | vmqnt (h : Hdr) (f : FmtVX)
  | vmdq (h : Hdr) (f : FmtVX)
  | vscl (h : Hdr) (f : FmtVX)
  | vlqd (h : Hdr) (f : FmtVX)
  | vpsn (h : Hdr) (f : FmtV)
  | vpid (h : Hdr) (f : FmtV)
  | vprep (h : Hdr) (f : FmtV)
  | jand (h : Hdr) (f : FmtV)
  | jor (h : Hdr) (f : FmtV)
  | jxor (h : Hdr) (f : FmtV)
  | jnot (h : Hdr) (f : FmtV)
  | jpopc (h : Hdr) (f : FmtV)
  | jffs (h : Hdr) (f : FmtV)
  -- class 011 (Table 40)
  | lds (h : Hdr) (f : FmtM)
  | ldv (h : Hdr) (f : FmtM)
  | ldvs (h : Hdr) (f : FmtM)
  | ldvg (h : Hdr) (f : FmtMG)
  | ldvb (h : Hdr) (f : FmtM)
  | ldo (h : Hdr) (f : FmtM)
  | ldc (h : Hdr) (f : FmtM)
  | rfl (h : Hdr) (f : FmtM)
  | markL (h : Hdr) (f : FmtF)
  -- class 100 (Table 40)
  | sts (h : Hdr) (f : FmtM)
  | stv (h : Hdr) (f : FmtM)
  | stvs (h : Hdr) (f : FmtM)
  | stvx (h : Hdr) (f : FmtMG)
  | stc (h : Hdr) (f : FmtM)
  | spl (h : Hdr) (f : FmtM)
  | markS (h : Hdr) (f : FmtF)
  | feno (h : Hdr) (f : FmtF)
  | fenr (h : Hdr) (f : FmtF)
  | fenq (h : Hdr) (f : FmtF)
  -- class 101 (Table 40)
  | hset (h : Hdr) (f : FmtV)
  | hswp (h : Hdr) (f : FmtV)
  | hrd (h : Hdr) (f : FmtV)
  | mxrv (h : Hdr) (f : FmtV)
  | mxwv (h : Hdr) (f : FmtV)
  | mxla (h : Hdr) (f : FmtE)
  | mxlb (h : Hdr) (f : FmtE)
  | mxmma (h : Hdr) (f : FmtE)
  | mxz (h : Hdr) (f : FmtE)
  | mxprm (h : Hdr) (f : FmtE)
  | mxst (h : Hdr) (f : FmtE)
  | mxspl (h : Hdr) (f : FmtE)
  | mxfil (h : Hdr) (f : FmtE)
  | mxgng (h : Hdr) (f : FmtE)
  | mxrp (h : Hdr) (f : FmtE)
  -- class 110 (Table 40)
  | xpop (h : Hdr) (f : FmtY)
  | semw (h : Hdr) (f : FmtY)
  | sems (h : Hdr) (f : FmtY)
  | semr (h : Hdr) (f : FmtY)
  | semi (h : Hdr) (f : FmtY)
  | bara (h : Hdr) (f : FmtY)
  | barb (h : Hdr) (f : FmtY)
  | barw (h : Hdr) (f : FmtY)
  | barq (h : Hdr) (f : FmtY)
  | xcp (h : Hdr) (f : FmtE)
  | xc2 (h : Hdr) (f : FmtE)
  | xcg (h : Hdr) (f : FmtE)
  | xaw (h : Hdr) (f : FmtE)
  | xawr (h : Hdr) (f : FmtE)
  | xcas (h : Hdr) (f : FmtE)
  | xsig (h : Hdr) (f : FmtE)
  | xhsh (h : Hdr) (f : FmtE)
  | xopn (h : Hdr) (f : FmtE)
  | xsel (h : Hdr) (f : FmtE)
  | xfil (h : Hdr) (f : FmtE)
  -- class 111 (Table 40)
  | trap (p : BitVec 4) (f : FmtZ)
  | tret (p : BitVec 4) (f : FmtZ)
  | savc (p : BitVec 4) (f : FmtZ)
  | rstc (p : BitVec 4) (f : FmtZ)
  | rgstaPlc (p : BitVec 4) (f : FmtZ)
  | rgstaGo (p : BitVec 4) (f : FmtZ)
  | rgstaRes (p : BitVec 4) (f : FmtZ)
  | rgpre (p : BitVec 4) (f : FmtZ)
  | rgfrzHold (p : BitVec 4) (f : FmtZ)
  | rgfrzRel (p : BitVec 4) (f : FmtZ)
  | rgmovMov (p : BitVec 4) (f : FmtZ)
  | rgmovOut (p : BitVec 4) (f : FmtZ)
  | rgretRel (p : BitVec 4) (f : FmtZ)
  | rgretAbt (p : BitVec 4) (f : FmtZ)
  | rgretRd (p : BitVec 4) (f : FmtZ)
  | xinvAll (p : BitVec 4) (f : FmtZ)
  | xinvCtx (p : BitVec 4) (f : FmtZ)
  | xinvObj (p : BitVec 4) (f : FmtZ)
  | xinvGfr (p : BitVec 4) (f : FmtZ)
  | otwrWr (p : BitVec 4) (f : FmtZ)
  | otwrRd (p : BitVec 4) (f : FmtZ)
  | otwrFpop (p : BitVec 4) (f : FmtZ)
  | otwrFret (p : BitVec 4) (f : FmtZ)
  | otwrFflt (p : BitVec 4) (f : FmtZ)
  | otwrFrm (p : BitVec 4) (f : FmtZ)
  | otwrGwr (p : BitVec 4) (f : FmtZ)
  | otwrFcp (p : BitVec 4) (f : FmtZ)
  | otwrQrd (p : BitVec 4) (f : FmtZ)
  | smapWr (p : BitVec 4) (f : FmtZ)
  | smapRd (p : BitVec 4) (f : FmtZ)
  | smapAdj (p : BitVec 4) (f : FmtZ)
  | bmapBind (p : BitVec 4) (f : FmtZ)
  | bmapUnbind (p : BitVec 4) (f : FmtZ)
  | bmapRd (p : BitVec 4) (f : FmtZ)
  | bmapRst (p : BitVec 4) (f : FmtZ)
  | lnkcUp (p : BitVec 4) (f : FmtZ)
  | lnkcDown (p : BitVec 4) (f : FmtZ)
  | lnkcRkey (p : BitVec 4) (f : FmtZ)
  | lnkcAlgn (p : BitVec 4) (f : FmtZ)
  | lnkcRun (p : BitVec 4) (f : FmtZ)
  | lnkcQrl (p : BitVec 4) (f : FmtZ)
  | lnkcDrst (p : BitVec 4) (f : FmtZ)
  | lnkcDqrl (p : BitVec 4) (f : FmtZ)
  | lnkqLnk (p : BitVec 4) (f : FmtZ)
  | lnkqDie (p : BitVec 4) (f : FmtZ)
  | lnkqDom (p : BitVec 4) (f : FmtZ)
  | measExt (p : BitVec 4) (f : FmtZ)
  | measRd (p : BitVec 4) (f : FmtZ)
  | measSha (p : BitVec 4) (f : FmtZ)
  | measNode (p : BitVec 4) (f : FmtZ)
  | rcpt (p : BitVec 4) (f : FmtZ)
  | ksldLd (p : BitVec 4) (f : FmtZ)
  | ksldRes (p : BitVec 4) (f : FmtZ)
  | ksldEvc (p : BitVec 4) (f : FmtZ)
  | ksldRd (p : BitVec 4) (f : FmtZ)
  | csigAlc (p : BitVec 4) (f : FmtZ)
  | csigFre (p : BitVec 4) (f : FmtZ)
  | csigAdd (p : BitVec 4) (f : FmtZ)
  | csigSet (p : BitVec 4) (f : FmtZ)
  | csigRd (p : BitVec 4) (f : FmtZ)
  -- events of the device and of the agents around it
  | powerOn
  | supplyInRegulation (d : Nat)
  | supplyLost (d : Nat)
  | dieResetRelease (d : Nat)
  | dieMeasurementDone (d : Nat) (pass : Bool) (digest : BitVec 384)
  | dieAdmissionCheckEnd (d : Nat) (qcode : Nat)
  | dieWatchdog (d : Nat)
  | telemetrySample (temps : List Int) (droops : List Nat)
  | pwrMinTick
  | telemetryFlashWrite
  | snap (v : BitVec 32)
  | snapshotComplete (mgmt : Bool)
  | telemetryUnsupportedAccess (wr : Bool) (off : Nat) (width : Nat)
  | mctpSnapshotRequest
  | mctpTelemetryRead (off : Nat) (len : Nat)
  | leaseRenew (d : Nat)
  | leaseLapse
  | stepwRelease (t : Nat)
  | tilePartEnd (t : Nat)
  | fenrRequest (t : Nat) (src : Nat)
  | fenrAck (t : Nat) (owner : Nat)
  | dramAccessAtPort (t : Nat) (k : Nat)
  | resultWriteback (t : Nat)
  | tokenPushWaitEnd (t : Nat)
  | meCommandStart (t : Nat)
  | meCommandComplete (t : Nat) (id : Nat)
  | gangImageArrival (t : Nat)
  | xeCommandStart (t : Nat)
  | xeCommandComplete (t : Nat) (id : Nat)
  | xopnHeaderAtHub (t : Nat) (id : Nat)
  | accumulateArrival (t : Nat) (id : Nat)
  | remoteIncrement (k : Nat)
  | peerCommandArrival (t : Nat) (id : Nat) (running : Bool) (ntiles : Nat)
  | regionStepClose (rg : Nat)
  | probeSend (t : Nat) (agent : Nat)
  | probeReceive (k : Nat)
  | accumulateCloseTimeout (rg : Nat)
  | handlerTimeout (t : Nat)
  | regionColumnStart (rg : Nat) (col : Nat)
  | regionFreeze (rg : Nat)
  | regionSaveComplete (rg : Nat)
  | regionResumeStart (rg : Nat)
  | regionMoveComplete (rg : Nat)
  | stepPeriodChange (ms : List Nat)
  | invalidationComplete (k : Nat)
  | translationWalkEnd (d : Nat) (k : Nat)
  | stallWireDrop (rg : Nat)
  | dramUe (addr : Nat)
  | linkTrainingEnd (i : Nat) (ok : Bool)
  | linkAttestEnd (i : Nat) (qcode : Nat) (peer : BitVec 384)
  | linkErrorBurst (i : Nat)
  | flitReceive (i : Nat) (dir : Nat) (crcOk : Bool) (tagOk : Bool) (g : Nat) (cnt : Nat)
  | rolloverStart (i : Nat) (dir : Nat)
  | rolloverAck (i : Nat) (dir : Nat)
  | rolloverEnd (i : Nat) (dir : Nat)
  | domainStallRaise (i : Nat)
  | domainStallDrop (i : Nat)
  | hostLinkRetrain
  | ideKeyRefresh
  | hostErrorCompletion (c : Nat) (q : Nat) (xopn : Option (Nat × Nat))
  | ideKm (fn : Nat) (key : BitVec 256)
  | tdispLock (fn : Nat)
  | tdispRun (fn : Nat)
  | tdispError (fn : Nat)
  | flr (fn : Nat)
  | ksldCheckEnd (c : Nat) (slot : Nat)
  | doorbell (c : Nat) (q : Nat) (v : Nat)
  | queueEnable (c : Nat) (q : Nat)
  | queueDisable (c : Nat) (q : Nat)
  | queueSelect (fn : Nat)
  | timeSliceEnd (fn : Nat)
  | launchPacket (c : Nat) (q : Nat)
  | selectPacket (c : Nat) (q : Nat)
  | signalPacketWait (c : Nat) (q : Nat)
  | signalPacketAdd (c : Nat) (q : Nat)
  | signalPacketSet (c : Nat) (q : Nat)
  | queueWaitEnd (c : Nat) (q : Nat)
  | packetComplete (c : Nat) (q : Nat)
  | signalOperation (k : Nat)
  | swcmd (fn : Nat) (iface : Nat) (v : Nat)
  | unbar (c : Nat)
  | glimWrite (fn : Nat) (v : Nat)
  | contextBind (c : Nat)
  | contextUnbind (c : Nat)
  | scrub (c : Nat)
  | scrubComplete (c : Nat)
  | ctxenSet (c : Nat)
  | ctxenClear (c : Nat)
  | plheadWrite (c : Nat) (v : Nat)
  | s2go (fn : Nat)
  | guarWrite (fn : Nat) (v : Nat)
  | burstWrite (fn : Nat) (v : Nat)
  | partitionWrite (fn : Nat) (field : PartField) (v : Nat)
  | powerCapWrite (v : Nat)
  | peerEntryWrite (c : Nat) (e : Nat) (v : Nat)
  | peeridWrite (port : Nat) (v : BitVec 384)
  | ksvf (slot : Nat) (v : Nat)
  | keySlotLoad (slot : Nat) (fn : Nat) (tbit : Bool)
  | keySlotClr (slot : Nat) (fn : Nat) (tbit : Bool)
  | registerWrite (reg : HostReg) (v : Nat)
  | remoteInvalidation (port : Nat) (c : Nat) (oid : Nat) (first : Nat) (count : Nat)
  | peerFaultAnswer (t : Nat) (id : Nat) (retry : Bool) (rec : List (BitVec 64))
  | peerPairConfirm (c : Nat) (e : Nat)
deriving DecidableEq, Repr

end Sys2Proof
end

