-- ==== Sys2Proof/Machine/Legal.lean ====
section
/-! DEFINITION. Which values of its fields make a word an instruction: the operand rules of R87 to R94 and the field tables of
the owning chapters.  A word that fails its row raises ILL (R92, R101). -/

namespace Sys2Proof.Machine

/-- A 6-bit field that names a predicate or a capability register, 0 to 15 (R88). -/
def isQ (x : BitVec 6) : Bool := x < 16
/-- A specifier that names `v0`–`v63` (Table 35). -/
def isV (x : BitVec 8) : Bool := x < 0x40
/-- A specifier that names `o0`–`o7` (Table 35). -/
def isO (x : BitVec 8) : Bool := 0x40 ≤ x && x < 0x48
/-- A specifier allowed as a destination: `v` or `o` (Table 35). -/
def dstOk (x : BitVec 8) : Bool := x < 0x48
/-- A specifier allowed as a source: `v`, `o` or `y` (Table 35). -/
def srcOk (x : BitVec 8) : Bool := x < 0x4C
/-- A specifier that names an accumulator quarter (Table 35). -/
def isM (x : BitVec 8) : Bool := 0x50 ≤ x && x < 0x54
/-- A specifier that names a lane mask (R88). -/
def isJ (x : BitVec 8) : Bool := x < 8
/-- The rounding codes of Table 17, RS included. -/
def rmAny (x : BitVec 3) : Bool := x < 6
/-- The special register numbers of Table 29 and Table 144 (R71). -/
def isSr (x : BitVec 12) : Bool :=
  x ≤ 0x009 || (0x010 ≤ x && x ≤ 0x017) || (0x100 ≤ x && x ≤ 0x107) || (0x110 ≤ x && x ≤ 0x118)
/-- The field of `extb` and `insb`: pos + len is at most 64 (R129). -/
def bfOk (k : BitVec 12) : Bool := k.toNat / 64 + k.toNat % 64 + 1 ≤ 64
/-- Bits [11:6] of format S are reserved (R122). -/
def s0 (f : FmtS) : Bool := f.rsvd == 0
/-- The type code is one of a list (R89). -/
def tyIn (f : FmtV) (l : List Nat) : Bool := l.contains f.ty.toNat
/-- The second operand of R138: a register, with `imm` an immediate (whose high byte is 0 for the packed bytes, Table 57), or
a scalar with bits [31:30] zero. -/
def opnd2 (f : FmtV) (imm : Bool) : Bool :=
  (f.of_ == 0 && srcOk f.vb) || (imm && f.of_ == 1 && ((f.ty != 10 && f.ty != 11) || f.vb == 0)) || (f.of_ == 2 && f.vb < 64)
/-- `VC` unused: zero unless it is part of `IMM16`. -/
def vcZero (f : FmtV) : Bool := f.of_ == 1 || f.vc == 0
/-- Second operand immediate or scalar only, `VC` unused. -/
def immOrScal (f : FmtV) : Bool := f.of_ != 0 && opnd2 f true && vcZero f
/-- The index operand of R155: an immediate from 0 to 63 or a scalar. -/
def index64 (f : FmtV) : Bool :=
  (f.of_ == 1 && f.vb == 0 && f.vc < 64) || (f.of_ == 2 && f.vb < 64 && f.vc == 0)
/-- A one-source row of Table 56 or Table 68. -/
def wf1 (f : FmtV) (l : List Nat) : Bool :=
  dstOk f.vd && srcOk f.va && f.vb == 0 && f.vc == 0 && f.of_ == 0 && tyIn f l
/-- A two-source row. -/
def wf2 (f : FmtV) (imm : Bool) (l : List Nat) : Bool :=
  dstOk f.vd && srcOk f.va && opnd2 f imm && vcZero f && tyIn f l
/-- A three-source row, `OF` 00 or 10. -/
def wf3 (f : FmtV) (l : List Nat) : Bool :=
  dstOk f.vd && srcOk f.va && opnd2 f false && srcOk f.vc && tyIn f l
/-- The rows of `vred` in Table 69. -/
def redOk (f : FmtV) : Bool :=
  if f.fn == 0 then (f.ty == 0 && f.rm < 5) || (tyIn f [6, 7] && f.rm == 0)
  else if f.fn < 3 then tyIn f [0, 6, 7] && f.rm == 0
  else f.fn < 6 && f.ty == 12 && f.rm == 0
/-- The rows of `vscan` in Table 69. -/
def scanOk (f : FmtV) : Bool :=
  if f.fn == 0 || f.fn == 3 then (f.ty == 0 && f.rm < 5) || (tyIn f [6, 7] && f.rm == 0)
  else f.fn < 3 && tyIn f [0, 6, 7] && f.rm == 0
/-- Elements per lane of a numeric type code (Table 36). -/
def elems (t : Nat) : Nat :=
  match t with
  | 1 | 2 | 8 | 9 => 2
  | 3 | 4 | 10 | 11 => 4
  | 5 => 8
  | _ => 1
/-- The type code names an integer type. -/
def isIntTy (t : Nat) : Bool := 6 ≤ t && t < 12
/-- A group of `k` consecutive `v` registers whose first number is a multiple of `k` (R152). -/
def grpV (x : BitVec 8) (k : Nat) : Bool := isV x && x.toNat % k == 0
/-- Table 64 and Table 65. -/
def wfCvt (f : FmtVX) : Bool :=
  let sc := elems f.ty.toNat
  let dc := elems f.dty.toNat
  f.of_ == 0 && f.fn == 0 && f.vb == 0 && f.rsvd == 0 && f.dty < 12 && f.ty < 12 && f.ty != f.dty
    && (!f.ovp || f.dty == 3)
    && (if isIntTy f.ty.toNat && isIntTy f.dty.toNat then f.rm == 0 else rmAny f.rm)
    && (if sc < dc then grpV f.va (dc / sc) && dstOk f.vd
        else if dc < sc then grpV f.vd (sc / dc) && srcOk f.va
        else dstOk f.vd && srcOk f.va)
/-- The `vmqnt` row of Table 72. -/
def wfQnt (f : FmtVX) : Bool :=
  f.of_ == 0 && f.fn == 0 && f.rsvd == 0 && isV f.vd && f.vd.toNat % 2 == 0 && f.vb == 0 && (f.dty == 3 || f.dty == 5)
    && f.ty < 3 && grpV f.va (elems f.dty.toNat / elems f.ty.toNat) && rmAny f.rm && f.mask == 0
/-- The `vmdq` row of Table 72. -/
def wfDq (f : FmtVX) : Bool :=
  f.of_ == 0 && f.fn == 0 && f.rsvd == 0 && f.dty < 3 && (f.ty == 3 || f.ty == 5) && !f.ovp
    && grpV f.vd (elems f.ty.toNat / elems f.dty.toNat) && srcOk f.va && srcOk f.vb && rmAny f.rm && f.mask == 0
/-- The `vscl` row of Table 72. -/
def wfScl (f : FmtVX) : Bool :=
  f.of_ == 0 && f.fn == 0 && f.rsvd == 0 && dstOk f.vd && srcOk f.va && isV f.vb && f.vb.toNat % 2 == 0
    && f.dty == 0 && f.ty == 0 && !f.ovp && rmAny f.rm
/-- The `vlqd` row of Table 72. -/
def wfLqd (f : FmtVX) : Bool :=
  f.of_ == 0 && f.fn == 0 && f.rsvd == 0 && grpV f.vd 4 && srcOk f.va && f.vb == 0 && f.dty == 3 && f.ty == 9 && !f.ovp
    && f.rm == 0 && f.mask == 0
/-- R93: no wait has `WS` 0, no signal has `SS` 0. -/
def semOk (f : FmtE) : Bool := (f.wt != 0 || f.ws == 0) && (f.si != 0 || f.ss == 0)
/-- Bits [lo + n - 1 : lo] of an engine operand, as a number. -/
def wbits (w : BitVec 64) (lo n : Nat) : Nat := w.toNat / 2 ^ lo % 2 ^ n
/-- The memory operand of R242: its reserved bits are zero. A shift `SC` without an index, `SX` = 0, is accepted and has no effect (DESIGN
CHOICE, assumption 45). -/
def memOk (w : BitVec 64) : Bool := wbits w 14 2 == 0 && wbits w 48 16 == 0
/-- Word 1 of `mxmma` (Table 104). -/
def mmaOk (w : BitVec 64) : Bool :=
  wbits w 25 39 == 0 && wbits w 2 2 < 3 && wbits w 6 7 + wbits w 13 7 + 1 ≤ 128
    && (wbits w 2 2 == 1 || wbits w 4 2 == 0) && (wbits w 2 2 == 2 || 32 % (wbits w 20 5 + 1) == 0)
/-- `ES` of `mxst` (Table 104). -/
def mxstOk (es : BitVec 16) : Bool :=
  let n := es.toNat
  n % 16 != 0 && n / 64 % 4 < 3 && (if n / 64 % 4 == 0 then n / 256 % 8 == 0 else n / 256 % 8 < 5) && n < 0x800
/-- `ES` of `mxspl` and `mxfil` (Table 104). -/
def splOk (es : BitVec 16) : Bool :=
  let n := es.toNat
  n < 32 && ((n % 2 == 0 && n / 2 != 0) || n == 1)
/-- A group of `k` scalars beginning at `sB`: B from 1 to 64 − k (Table 86 and its like). -/
def grpOk (b : BitVec 6) (k : Nat) : Bool := b != 0 && b.toNat + k ≤ 64

/-- Where the destination may be remote or at a peer (Table 109): `DPR` at most 12, and with `DR` = 0 no `DTX` and no `RSIG`
(R268). -/
def remOk (f : FmtE) (rsig : Bool) : Bool :=
  wbits f.w1 40 4 < 13 && (wbits f.w1 39 1 == 1 || (wbits f.w1 28 11 == 0 && !rsig))
/-- The `DR`, `DTX`, `DPR` fields of a row that marks them 0. -/
def remNone (f : FmtE) : Bool := wbits f.w1 28 16 == 0
/-- `BC` 0. -/
def bcNone (f : FmtE) : Bool := wbits f.w1 50 1 == 0
/-- A length: in `LIMM` when `LSX` = 0, and then not 0. With `LSX` not 0 no row marks `LIMM` 0, and with `BC` 0 none marks `BH` 0
(R268). -/
def lenOk (f : FmtE) : Bool := wbits f.w1 22 6 != 0 || wbits f.w1 51 13 != 0
/-- No length. -/
def lenNone (f : FmtE) : Bool := wbits f.w1 22 6 == 0 && wbits f.w1 51 13 == 0
/-- `FCP` 0. -/
def fcpNone (f : FmtE) : Bool := wbits f.w1 11 5 == 0
/-- `RSIG` set. -/
def rsigOf (f : FmtE) : Bool := f.es.toNat % 2 == 1
/-- The `OP`, `TY`, `RM` and `LAG` of `xaw` and `xawr` (Table 109, Table 111). -/
def awOk (f : FmtE) : Bool :=
  let n := f.es.toNat
  let op := n / 2 % 8
  let ty := n / 16 % 4
  let rm := n / 64 % 8
  n < 0x2000 && n / 512 % 16 != 0 && ((op < 3 && ty < 3) || (3 ≤ op && op < 7 && ty == 3))
    && (if op == 0 && ty == 0 then rm < 5 else rm == 0)
/-- The rows of Table 109. -/
def xcpOk (f : FmtE) : Bool := f.es < 4 && remOk f (rsigOf f) && lenOk f
/-- `xc2`: `LSX` names three scalars. -/
def xc2Ok (f : FmtE) : Bool :=
  f.es < 2 && remOk f (rsigOf f) && wbits f.w1 22 6 != 0 && wbits f.w1 22 6 ≤ 61 && wbits f.w1 51 13 == 0
/-- `xcg`: `LSX` names the offset of the index list, `LIMM` is the count. -/
def xcgOk (f : FmtE) : Bool :=
  f.es < 32 && f.es.toNat / 4 < 7 && remOk f (rsigOf f) && wbits f.w1 22 6 != 0 && wbits f.w1 51 13 != 0
/-- `xaw`. -/
def xawOk (f : FmtE) : Bool := awOk f && remOk f (rsigOf f) && lenOk f
/-- `xawr`. -/
def xawrOk (f : FmtE) : Bool := awOk f && remOk f (rsigOf f) && bcNone f && fcpNone f && lenNone f
/-- `xcas`. -/
def xcasOk (f : FmtE) : Bool :=
  f.es.toNat / 2 % 256 == 0 && f.es.toNat / 512 % 16 != 0 && f.es < 0x2000 && remOk f (rsigOf f) && bcNone f && fcpNone f
    && wbits f.w1 22 6 != 0 && wbits f.w1 51 13 == 0
/-- `xsig`. -/
def xsigOk (f : FmtE) : Bool :=
  f.es == 0 && f.si != 0 && wbits f.w1 5 6 == 0 && (wbits f.w1 40 4 != 0 || wbits f.w1 0 5 == 0) && fcpNone f
    && wbits f.w1 16 6 == 0 && lenNone f && remOk f false && bcNone f
/-- `xhsh`. -/
def xhshOk (f : FmtE) : Bool := f.es == 0 && remNone f && bcNone f && lenOk f
/-- `xopn`. -/
def xopnOk (f : FmtE) : Bool := f.es < 256 && remNone f && bcNone f && lenOk f
/-- `xsel`. -/
def xselOk (f : FmtE) : Bool :=
  f.es == 0 && wbits f.w1 0 16 == 0 && remNone f && bcNone f && lenNone f
/-- `xfil`. -/
def xfilOk (f : FmtE) : Bool := f.es < 2 && fcpNone f && remOk f (rsigOf f) && lenOk f

/-- The values of its fields with which a word is an instruction (R92, R97, R101), row by row.  An event is not a
word: its row is well formed when its numbers name something (checked where it acts), so it answers true here.
Without an index (`SX` 0) the `SC` of format M is not looked at (DESIGN CHOICE, assumption 45). -/
def legal : Instr → Bool
  | .nop _ f => f.a == 0 && f.b == 0 && f.k4 == 0 && f.imm == 0
  | .bra _ f => f.a == 0 && f.b == 0 && f.k4 == 0
  | .brp _ f => isQ f.a && f.k4 < 4 && (if f.k4 < 2 then f.b == 0 else isQ f.b)
  | .jmpc _ f => f.b == 0 && f.k4 == 0
  | .call _ f => f.a == 0 && f.b == 0 && 1 <= f.k4 && f.k4 <= 6
  | .ret _ f => f.a == 0 && f.b == 0 && 1 <= f.k4 && f.k4 <= 6 && f.imm == 0
  | .loop _ f => f.b == 0 && f.k4 < 8 && 1 <= f.imm && f.imm < 0x80000000
  | .lend _ f => f.a == 0 && f.b == 0 && f.k4 < 8 && f.imm == 0
  | .lstg _ f => f.a == 0 && f.b == 0 && f.k4 < 8 && 1 <= f.imm && f.imm <= 8
  | .lbrk _ f => f.a == 0 && f.b == 0 && f.k4 < 8
  | .stepw _ f => f.b == 0 && f.k4 == 0
  | .halt _ f => f.a == 0 && f.b == 0 && f.k4 == 0 && f.imm == 0
  | .add _ f => s0 f && f.c == 0 && f.k12 == 0 && f.fn == 0
  | .sub _ f => s0 f && f.c == 0 && f.k12 == 0 && f.fn == 1
  | .mul _ f => s0 f && f.c == 0 && f.k12 == 0 && f.fn == 2
  | .mulhs _ f => s0 f && f.c == 0 && f.k12 == 0 && f.fn == 3
  | .mulhu _ f => s0 f && f.c == 0 && f.k12 == 0 && f.fn == 4
  | .divs _ f => s0 f && f.c == 0 && f.k12 == 0 && f.fn == 5
  | .divu _ f => s0 f && f.c == 0 && f.k12 == 0 && f.fn == 6
  | .rems _ f => s0 f && f.c == 0 && f.k12 == 0 && f.fn == 7
  | .remu _ f => s0 f && f.c == 0 && f.k12 == 0 && f.fn == 8
  | .and _ f => s0 f && f.c == 0 && f.k12 == 0 && f.fn == 9
  | .or _ f => s0 f && f.c == 0 && f.k12 == 0 && f.fn == 10
  | .xor _ f => s0 f && f.c == 0 && f.k12 == 0 && f.fn == 11
  | .andn _ f => s0 f && f.c == 0 && f.k12 == 0 && f.fn == 12
  | .shl _ f => s0 f && f.c == 0 && f.k12 == 0 && f.fn == 13
  | .shr _ f => s0 f && f.c == 0 && f.k12 == 0 && f.fn == 14
  | .sar _ f => s0 f && f.c == 0 && f.k12 == 0 && f.fn == 15
  | .rotr _ f => s0 f && f.c == 0 && f.k12 == 0 && f.fn == 16
  | .min _ f => s0 f && f.c == 0 && f.k12 == 0 && f.fn == 17
  | .max _ f => s0 f && f.c == 0 && f.k12 == 0 && f.fn == 18
  | .minu _ f => s0 f && f.c == 0 && f.k12 == 0 && f.fn == 19
  | .maxu _ f => s0 f && f.c == 0 && f.k12 == 0 && f.fn == 20
  | .popc _ f => s0 f && f.b == 0 && f.c == 0 && f.k12 == 0 && f.fn == 21
  | .clz _ f => s0 f && f.b == 0 && f.c == 0 && f.k12 == 0 && f.fn == 22
  | .ctz _ f => s0 f && f.b == 0 && f.c == 0 && f.k12 == 0 && f.fn == 23
  | .bswp _ f => s0 f && f.b == 0 && f.c == 0 && f.k12 == 0 && f.fn == 24
  | .addi _ f => f.k4 == 0
  | .li _ f => f.a == 0 && f.k4 == 0
  | .lih _ f => f.a == 0 && f.k4 == 0
  | .sel _ f => s0 f && isQ f.c && f.k12 == 0 && f.fn == 0
  | .cmp _ f => s0 f && isQ f.d && f.c == 0 && f.k12 == 0 && f.fn < 12
  | .cmpi _ f => isQ f.d && f.k4 < 12
  | .pand _ f => s0 f && isQ f.d && isQ f.a && isQ f.b && f.c == 0 && f.k12 == 0 && f.fn == 0
  | .por _ f => s0 f && isQ f.d && isQ f.a && isQ f.b && f.c == 0 && f.k12 == 0 && f.fn == 1
  | .pxor _ f => s0 f && isQ f.d && isQ f.a && isQ f.b && f.c == 0 && f.k12 == 0 && f.fn == 2
  | .pnot _ f => s0 f && isQ f.d && isQ f.a && f.b == 0 && f.c == 0 && f.k12 == 0 && f.fn == 3
  | .extb _ f => s0 f && f.b == 0 && f.c == 0 && f.fn == 0 && bfOk f.k12
  | .insb _ f => s0 f && f.b == 0 && f.c == 0 && f.fn == 0 && bfOk f.k12
  | .mfsr _ f => s0 f && f.a == 0 && f.b == 0 && f.c == 0 && f.fn == 0 && isSr f.k12
  | .mtsr _ f => s0 f && f.d == 0 && f.b == 0 && f.c == 0 && f.fn == 0 && isSr f.k12
  | .rlr _ f => s0 f && isQ f.d && isQ f.a && f.b == 0 && f.c == 0 && f.k12 == 0 && f.fn == 0
  | .cmov _ f => s0 f && isQ f.d && isQ f.a && f.b == 0 && f.c == 0 && f.k12 == 0 && f.fn == 0
  | .cder _ f => s0 f && isQ f.d && isQ f.a && f.c == 0 && f.k12 < 512 && f.fn == 0
  | .cseto _ f => s0 f && isQ f.d && isQ f.a && f.c == 0 && f.k12 == 0 && f.fn == 0
  | .cinc _ f => s0 f && isQ f.d && isQ f.a && f.c == 0 && f.fn == 0
  | .crgt _ f => s0 f && isQ f.d && isQ f.a && f.b == 0 && f.c == 0 && f.k12 < 256 && f.fn == 0
  | .cget _ f => s0 f && isQ f.a && f.b == 0 && f.c == 0 && f.k12 < 10 && f.fn == 0
  | .cchk _ f => s0 f && isQ f.d && isQ f.a && f.c == 0 && f.fn == 0
  | .cnul _ f => s0 f && isQ f.d && f.a == 0 && f.b == 0 && f.c == 0 && f.k12 == 0 && f.fn == 0
  | .vadd _ f => wf2 f true [0, 1, 2] && rmAny f.rm && f.fn == 0
  | .vsub _ f => wf2 f true [0, 1, 2] && rmAny f.rm && f.fn == 1
  | .vmul _ f => wf2 f true [0, 1, 2] && rmAny f.rm && f.fn == 2
  | .vfma _ f => wf3 f [0, 1, 2] && rmAny f.rm && f.fn == 3
  | .vfms _ f => wf3 f [0, 1, 2] && rmAny f.rm && f.fn == 4
  | .vfnma _ f => wf3 f [0, 1, 2] && rmAny f.rm && f.fn == 5
  | .vmin _ f => wf2 f true [0, 1, 2] && f.rm == 0 && f.fn == 6
  | .vmax _ f => wf2 f true [0, 1, 2] && f.rm == 0 && f.fn == 7
  | .vabs _ f => wf1 f [0, 1, 2] && f.rm == 0 && f.fn == 0
  | .vneg _ f => wf1 f [0, 1, 2] && f.rm == 0 && f.fn == 1
  | .vcps _ f => wf2 f true [0, 1, 2] && f.rm == 0 && f.fn == 2
  | .vdp2 _ f => wf3 f [1] && rmAny f.rm && f.fn == 3
  | .vrcp _ f => wf1 f [0] && rmAny f.rm && f.fn == 0
  | .vrsq _ f => wf1 f [0] && rmAny f.rm && f.fn == 1
  | .vsqr _ f => wf1 f [0] && rmAny f.rm && f.fn == 2
  | .vdiv _ f => wf2 f true [0] && rmAny f.rm && f.fn == 3
  | .vex2 _ f => wf1 f [0] && rmAny f.rm && f.fn == 4
  | .vlg2 _ f => wf1 f [0] && rmAny f.rm && f.fn == 5
  | .viadd _ f => wf2 f true [6, 7, 8, 9, 10, 11] && f.rm == 0 && f.fn == 0
  | .visub _ f => wf2 f true [6, 7, 8, 9, 10, 11] && f.rm == 0 && f.fn == 1
  | .vimul _ f => wf2 f true [6, 7, 8, 9, 10, 11] && f.rm == 0 && f.fn == 2
  | .vimad _ f => wf3 f [6, 7, 8, 9, 10, 11] && f.rm == 0 && f.fn == 3
  | .vimulh _ f => wf2 f true [6, 7, 8, 9, 10, 11] && f.rm == 0 && f.fn == 4
  | .vimin _ f => wf2 f true [6, 7, 8, 9, 10, 11] && f.rm == 0 && f.fn == 5
  | .vimax _ f => wf2 f true [6, 7, 8, 9, 10, 11] && f.rm == 0 && f.fn == 6
  | .vdp4 _ f => wf3 f [10, 11] && f.rm == 0 && f.fn == 7
  | .vadds _ f => wf2 f true [6, 7, 8, 9, 10, 11] && f.rm == 0 && f.fn == 0
  | .vsubs _ f => wf2 f true [6, 7, 8, 9, 10, 11] && f.rm == 0 && f.fn == 1
  | .vand _ f => wf2 f true [12] && f.rm == 0 && f.fn == 0
  | .vor _ f => wf2 f true [12] && f.rm == 0 && f.fn == 1
  | .vxor _ f => wf2 f true [12] && f.rm == 0 && f.fn == 2
  | .vandn _ f => wf2 f true [12] && f.rm == 0 && f.fn == 3
  | .vpopc _ f => wf1 f [12] && f.rm == 0 && f.fn == 4
  | .vclz _ f => wf1 f [12] && f.rm == 0 && f.fn == 5
  | .vshl _ f => wf2 f true [6, 7, 8, 9, 10, 11, 12] && f.rm == 0 && f.fn == 0
  | .vshr _ f => wf2 f true [6, 7, 8, 9, 10, 11, 12] && f.rm == 0 && f.fn == 1
  | .vsar _ f => wf2 f true [6, 7, 8, 9, 10, 11, 12] && f.rm == 0 && f.fn == 2
  | .vcmp _ f => isJ f.vd && srcOk f.va && opnd2 f true && vcZero f && tyIn f [0, 6, 7] && f.rm == 0
  | .vcls _ f => wf1 f [0, 1, 2] && f.rm == 0 && f.fn == 0
  | .vsel _ f => dstOk f.vd && srcOk f.va && opnd2 f false && isJ f.vc && tyIn f [12] && f.rm == 0 && f.fn == 0
  | .vcvt _ f => wfCvt f
  | .vrnd _ f => wf1 f [0, 1, 2] && rmAny f.rm && f.fn == 0
  | .vmov _ f => wf1 f [12] && f.rm == 0 && f.fn == 0
  | .vsplat _ f => dstOk f.vd && f.va == 0 && immOrScal f && tyIn f [0, 1, 2, 6, 7, 8, 9, 10, 11, 12] && f.rm == 0 && f.fn == 0
  | .viota _ f => dstOk f.vd && f.va == 0 && immOrScal f && tyIn f [6, 7, 12] && f.rm == 0 && f.fn == 0
  | .vext _ f => dstOk f.vd && isO f.va && index64 f && tyIn f [12] && f.rm == 0 && f.fn == 0
  | .vins _ f => dstOk f.vd && srcOk f.va && index64 f && tyIn f [12] && f.rm == 0 && f.fn == 0
  | .vperm _ f => dstOk f.vd && srcOk f.va && f.of_ == 0 && srcOk f.vb && f.vc == 0 && tyIn f [12] && f.rm == 0 && f.fn == 0
  | .vshuf _ f => dstOk f.vd && srcOk f.va && f.of_ == 0 && srcOk f.vb && srcOk f.vc && tyIn f [12] && f.rm == 0 && f.fn == 0
  | .vrot _ f => dstOk f.vd && srcOk f.va && index64 f && tyIn f [12] && f.rm == 0 && f.fn == 0
  | .vcmprs _ f => wf1 f [12] && f.rm == 0 && f.fn == 0
  | .vexpd _ f => wf1 f [12] && f.rm == 0 && f.fn == 0
  | .vred _ f => dstOk f.vd && srcOk f.va && f.of_ == 0 && f.vb == 0 && f.vc == 0 && redOk f
  | .vredx _ f => isV f.vd && f.vd % 2 == 0 && srcOk f.va && f.of_ == 0 && f.vb == 0 && f.vc == 0 && f.fn < 2 && tyIn f [0, 6, 7] && f.rm == 0
  | .vscan _ f => dstOk f.vd && srcOk f.va && f.of_ == 0 && f.vb == 0 && f.vc == 0 && scanOk f
  | .vmqnt _ f => wfQnt f
  | .vmdq _ f => wfDq f
  | .vscl _ f => wfScl f
  | .vlqd _ f => wfLqd f
  | .vpsn _ f => dstOk f.vd && f.va == 0 && f.vb == 0 && f.vc == 0 && f.of_ == 0 && tyIn f [0, 12] && f.rm == 0 && f.fn == 0
  | .vpid _ f => wf1 f [0, 1, 2, 12] && f.rm == 0 && f.fn == 1
  | .vprep _ f => wf2 f true [0, 12] && f.rm == 0 && f.fn == 2
  | .jand _ f => isJ f.vd && isJ f.va && isJ f.vb && f.vc == 0 && f.ty == 0 && f.rm == 0 && f.mask == 0 && f.of_ == 0 && f.fn == 0
  | .jor _ f => isJ f.vd && isJ f.va && isJ f.vb && f.vc == 0 && f.ty == 0 && f.rm == 0 && f.mask == 0 && f.of_ == 0 && f.fn == 1
  | .jxor _ f => isJ f.vd && isJ f.va && isJ f.vb && f.vc == 0 && f.ty == 0 && f.rm == 0 && f.mask == 0 && f.of_ == 0 && f.fn == 2
  | .jnot _ f => isJ f.vd && isJ f.va && f.vb == 0 && f.vc == 0 && f.ty == 0 && f.rm == 0 && f.mask == 0 && f.of_ == 0 && f.fn == 3
  | .jpopc _ f => dstOk f.vd && isJ f.va && f.vb == 0 && f.vc == 0 && tyIn f [12] && f.rm == 0 && f.of_ == 0 && f.fn == 4
  | .jffs _ f => dstOk f.vd && isJ f.va && f.vb == 0 && f.vc == 0 && tyIn f [12] && f.rm == 0 && f.of_ == 0 && f.fn == 5
  | .lds _ f => f.ds < 128 && f.mask == 0 && !(f.ds >= 64 && f.sz == 3)
  | .ldv _ f => isV f.ds && f.sz == 0
  | .ldvs _ f => isV f.ds && f.sz < 3
  | .ldvg _ f => isV f.ds && srcOk f.vx
  | .ldvb _ f => dstOk f.ds && f.sz < 3
  | .ldo _ f => isO f.ds && f.sz == 0
  | .ldc _ f => f.ds < 16 && f.mask == 0 && f.sz == 0
  | .rfl _ f => isV f.ds && f.mask == 0 && f.sz == 0
  | .markL h f => h.pred == 0 && f.scp == 0 && f.all == 0 && f.tix == 0 && f.rsvd == 0
  | .sts _ f => f.ds < 64 && f.mask == 0
  | .stv _ f => srcOk f.ds && f.sz == 0
  | .stvs _ f => srcOk f.ds && f.sz < 3
  | .stvx _ f => srcOk f.ds && srcOk f.vx
  | .stc _ f => f.ds < 16 && f.mask == 0 && f.sz == 0
  | .spl _ f => isV f.ds && f.mask == 0 && f.sz == 0
  | .markS h f => h.pred == 0 && f.scp == 0 && f.all == 0 && f.tix == 0 && f.rsvd == 0
  | .feno _ f => f.mkn == 0 && f.scp < 6 && f.all == 0 && f.tix == 0 && f.rsvd == 0
  | .fenr _ f => f.mkn == 0 && 1 <= f.scp && f.scp < 6 && (f.all == 0 || f.tix == 0) && f.rsvd == 0
  | .fenq _ f => f.mkn == 0 && f.scp < 6 && f.tix == 0 && f.rsvd == 0
  | .hset _ f => f.vd < 4 && f.va == 0 && f.of_ == 2 && f.vb < 64 && f.vc == 0 && f.ty == 0 && f.rm == 0 && f.mask == 0 && f.fn < 2
  | .hswp _ f => f.vd < 4 && f.va == 0 && f.of_ == 0 && f.vb == 0 && f.vc == 0 && f.ty == 0 && f.rm == 0 && f.mask == 0 && f.fn == 0
  | .hrd _ f => f.vd == 0 && f.va < 4 && f.of_ == 2 && f.vb < 64 && f.vc == 0 && f.ty == 0 && f.rm == 0 && f.mask == 0 && f.fn < 2
  | .mxrv _ f => dstOk f.vd && isM f.va && index64 f && f.ty == 0 && f.rm == 0 && f.fn == 0
  | .mxwv _ f => isM f.vd && srcOk f.va && index64 f && f.ty == 0 && f.rm == 0 && f.fn == 0
  | .mxla _ f => semOk f && f.es < 128 && f.es / 2 % 8 < 4 && memOk f.w1
  | .mxlb _ f => semOk f && f.es < 64 && f.es / 2 % 8 < 4 && memOk f.w1
  | .mxmma _ f => semOk f && f.es == 0 && mmaOk f.w1
  | .mxz _ f => semOk f && f.es < 32 && f.es != 0 && f.w1 == 0
  | .mxprm _ f => semOk f && f.es == 0 && f.w1 == 0
  | .mxst _ f => semOk f && mxstOk f.es && memOk f.w1
  | .mxspl _ f => semOk f && splOk f.es && memOk f.w1
  | .mxfil _ f => semOk f && splOk f.es && memOk f.w1
  | .mxgng _ f => semOk f && f.es < 4 && f.w1 == 0
  | .mxrp _ f => semOk f && f.es < 2 && f.w1 == 0
  | .xpop _ f => f.qn == 0 && f.bh == 0 && f.sem == 0 && f.k8 == 0 && f.rsvd == 0
  | .semw _ f => f.qn < 3 && f.rsvd == 0 && f.bh == 0 && f.k8 != 0 && f.sd == 0
  | .sems _ f => f.qn < 3 && f.rsvd == 0 && f.bh == 0 && f.k8 != 0 && f.sd == 0
  | .semr _ f => f.qn < 3 && f.rsvd == 0 && f.bh == 0 && f.k8 == 0
  | .semi _ f => f.qn < 3 && f.rsvd == 0 && f.bh == 0 && f.k8 == 0
  | .bara _ f => f.qn < 3 && f.rsvd == 0 && f.sem == 0 && f.k8 == 0 && f.sd == 0
  | .barb _ f => f.qn < 3 && f.rsvd == 0 && f.sem == 0 && f.k8 == 0
  | .barw _ f => f.qn < 3 && f.rsvd == 0 && f.sem == 0 && f.k8 == 0 && f.sd == 0
  | .barq _ f => f.qn < 3 && f.rsvd == 0 && f.sem == 0 && f.k8 == 0
  | .xcp _ f => semOk f && xcpOk f
  | .xc2 _ f => semOk f && xc2Ok f
  | .xcg _ f => semOk f && xcgOk f
  | .xaw _ f => semOk f && xawOk f
  | .xawr _ f => semOk f && xawrOk f
  | .xcas _ f => semOk f && xcasOk f
  | .xsig _ f => semOk f && xsigOk f
  | .xhsh _ f => semOk f && xhshOk f
  | .xopn _ f => semOk f && xopnOk f
  | .xsel _ f => semOk f && xselOk f
  | .xfil _ f => semOk f && xfilOk f
  | .trap _ f => f.ca == 0 && f.a == 0 && f.b == 0 && f.imm < 65536
  | .tret _ f => f.ca == 0 && f.a == 0 && f.b == 0 && f.imm == 0
  | .savc _ f => f.ca == 0 && f.imm == 0 && 1 <= f.b
  | .rstc _ f => f.ca == 0 && f.imm == 0 && 1 <= f.b
  | .rgstaPlc _ f => f.ca == 0 && f.imm == 0 && grpOk f.b 1
  | .rgstaGo _ f => f.ca == 0 && f.imm == 1 && f.b == 0
  | .rgstaRes _ f => f.ca == 0 && f.imm == 2 && f.b == 0
  | .rgpre _ f => f.ca == 0 && f.imm == 0 && f.b == 0
  | .rgfrzHold _ f => f.ca == 0 && f.imm == 0 && f.b == 0
  | .rgfrzRel _ f => f.ca == 0 && f.imm == 1 && f.b == 0
  | .rgmovMov _ f => f.ca == 0 && f.imm == 0 && grpOk f.b 1
  | .rgmovOut _ f => f.ca == 0 && f.imm == 1 && grpOk f.b 1
  | .rgretRel _ f => f.ca == 0 && f.imm == 0 && f.b == 0
  | .rgretAbt _ f => f.ca == 0 && f.imm == 1 && f.b == 0
  | .rgretRd _ f => f.ca == 0 && f.imm == 2 && grpOk f.b 4
  | .xinvAll _ f => f.ca == 0 && f.imm / 8 == f.imm / 8 % 2 && f.imm % 8 == 0 && f.a == 0 && f.b == 0
  | .xinvCtx _ f => f.ca == 0 && f.imm / 8 == f.imm / 8 % 2 && f.imm % 8 == 1 && f.b == 0
  | .xinvObj _ f => f.ca == 0 && f.imm / 8 == f.imm / 8 % 2 && f.imm % 8 == 2 && f.b == 0
  | .xinvGfr _ f => f.ca == 0 && f.imm % 8 == 3 && f.imm / 16 % 16 == 0 && 1 <= f.imm / 256 && f.imm / 256 <= 393216
  | .otwrWr _ f => f.ca == 0 && f.imm == 0 && grpOk f.b 8
  | .otwrRd _ f => f.ca == 0 && f.imm == 1 && grpOk f.b 8
  | .otwrFpop _ f => f.ca == 0 && f.imm == 2 && grpOk f.b 4
  | .otwrFret _ f => f.ca == 0 && f.imm == 3 && f.b == 0
  | .otwrFflt _ f => f.ca == 0 && f.imm == 4 && f.b == 0
  | .otwrFrm _ f => f.ca == 0 && f.imm == 5 && grpOk f.b 1
  | .otwrGwr _ f => f.ca == 0 && f.imm == 6 && grpOk f.b 1
  | .otwrFcp _ f => f.ca == 0 && f.imm == 7 && grpOk f.b 1
  | .otwrQrd _ f => f.ca == 0 && f.imm == 8 && grpOk f.b 2
  | .smapWr _ f => f.ca == 0 && f.imm == 0 && grpOk f.b 1
  | .smapRd _ f => f.ca == 0 && f.imm == 1 && grpOk f.b 1
  | .smapAdj _ f => f.ca == 0 && f.imm == 2 && grpOk f.b 1
  | .bmapBind _ f => f.ca == 0 && f.imm == 0 && grpOk f.b 2
  | .bmapUnbind _ f => f.ca == 0 && f.imm == 1 && f.b == 0
  | .bmapRd _ f => f.ca == 0 && f.imm == 2 && grpOk f.b 3
  | .bmapRst _ f => f.ca == 0 && f.imm == 3 && f.b == 0
  | .lnkcUp _ f => f.ca == 0 && f.imm == 0 && f.b == 0
  | .lnkcDown _ f => f.ca == 0 && f.imm == 1 && f.b == 0
  | .lnkcRkey _ f => f.ca == 0 && f.imm == 2 && f.b == 0
  | .lnkcAlgn _ f => f.ca == 0 && f.imm == 3 && f.b == 0
  | .lnkcRun _ f => f.ca == 0 && f.imm == 4 && f.b == 0
  | .lnkcQrl _ f => f.ca == 0 && f.imm == 5 && f.b == 0
  | .lnkcDrst _ f => f.ca == 0 && f.imm == 6 && f.b == 0
  | .lnkcDqrl _ f => f.ca == 0 && f.imm == 7 && f.b == 0
  | .lnkqLnk _ f => f.ca == 0 && f.imm == 0 && grpOk f.b 2
  | .lnkqDie _ f => f.ca == 0 && f.imm == 1 && grpOk f.b 1
  | .lnkqDom _ f => f.ca == 0 && f.imm == 2 && grpOk f.b 3
  | .measExt _ f => f.ca == 0 && f.imm == 0 && grpOk f.b 6
  | .measRd _ f => f.ca == 0 && f.imm == 1 && grpOk f.b 6
  | .measSha _ f => f.ca == 0 && f.imm == 2 && grpOk f.b 6
  | .measNode _ f => f.ca == 0 && f.imm == 3 && grpOk f.b 12
  | .rcpt _ f => f.ca == 0 && f.imm == 0 && 1 <= f.b
  | .ksldLd _ f => f.ca == 0 && f.imm == 0 && grpOk f.b 6
  | .ksldRes _ f => f.ca == 0 && f.imm == 1 && grpOk f.b 1
  | .ksldEvc _ f => f.ca == 0 && f.imm == 2 && f.b == 0
  | .ksldRd _ f => f.ca == 0 && f.imm == 3 && grpOk f.b 8
  | .csigAlc _ f => f.ca == 0 && f.imm == 0 && grpOk f.b 1
  | .csigFre _ f => f.ca == 0 && f.imm == 1 && f.b == 0
  | .csigAdd _ f => f.ca == 0 && f.imm == 2 && grpOk f.b 1
  | .csigSet _ f => f.ca == 0 && f.imm == 3 && grpOk f.b 1
  | .csigRd _ f => f.ca == 0 && f.imm == 4 && grpOk f.b 2
  | .powerOn => true
  | .supplyInRegulation _ => true
  | .supplyLost _ => true
  | .dieResetRelease _ => true
  | .dieMeasurementDone _ _ _ => true
  | .dieAdmissionCheckEnd _ _ => true
  | .dieWatchdog _ => true
  | .telemetrySample _ _ => true
  | .pwrMinTick => true
  | .telemetryFlashWrite => true
  | .snap _ => true
  | .snapshotComplete _ => true
  | .telemetryUnsupportedAccess _ _ _ => true
  | .mctpSnapshotRequest => true
  | .mctpTelemetryRead _ _ => true
  | .leaseRenew _ => true
  | .leaseLapse => true
  | .stepwRelease _ => true
  | .tilePartEnd _ => true
  | .fenrRequest _ _ => true
  | .fenrAck _ _ => true
  | .dramAccessAtPort _ _ => true
  | .resultWriteback _ => true
  | .tokenPushWaitEnd _ => true
  | .meCommandStart _ => true
  | .meCommandComplete _ _ => true
  | .gangImageArrival _ => true
  | .xeCommandStart _ => true
  | .xeCommandComplete _ _ => true
  | .xopnHeaderAtHub _ _ => true
  | .accumulateArrival _ _ => true
  | .remoteIncrement _ => true
  | .peerCommandArrival _ _ _ _ => true
  | .regionStepClose _ => true
  | .probeSend _ _ => true
  | .probeReceive _ => true
  | .accumulateCloseTimeout _ => true
  | .handlerTimeout _ => true
  | .regionColumnStart _ _ => true
  | .regionFreeze _ => true
  | .regionSaveComplete _ => true
  | .regionResumeStart _ => true
  | .regionMoveComplete _ => true
  | .stepPeriodChange _ => true
  | .invalidationComplete _ => true
  | .translationWalkEnd _ _ => true
  | .stallWireDrop _ => true
  | .dramUe _ => true
  | .linkTrainingEnd _ _ => true
  | .linkAttestEnd _ _ _ => true
  | .linkErrorBurst _ => true
  | .flitReceive _ _ _ _ _ _ => true
  | .rolloverStart _ _ => true
  | .rolloverAck _ _ => true
  | .rolloverEnd _ _ => true
  | .domainStallRaise _ => true
  | .domainStallDrop _ => true
  | .hostLinkRetrain => true
  | .ideKeyRefresh => true
  | .hostErrorCompletion _ _ _ => true
  | .ideKm _ _ => true
  | .tdispLock _ => true
  | .tdispRun _ => true
  | .tdispError _ => true
  | .flr _ => true
  | .ksldCheckEnd _ _ => true
  | .doorbell _ _ _ => true
  | .queueEnable _ _ => true
  | .queueDisable _ _ => true
  | .queueSelect _ => true
  | .timeSliceEnd _ => true
  | .launchPacket _ _ => true
  | .selectPacket _ _ => true
  | .signalPacketWait _ _ => true
  | .signalPacketAdd _ _ => true
  | .signalPacketSet _ _ => true
  | .queueWaitEnd _ _ => true
  | .packetComplete _ _ => true
  | .signalOperation _ => true
  | .swcmd _ _ _ => true
  | .unbar _ => true
  | .glimWrite _ _ => true
  | .contextBind _ => true
  | .contextUnbind _ => true
  | .scrub _ => true
  | .scrubComplete _ => true
  | .ctxenSet _ => true
  | .ctxenClear _ => true
  | .plheadWrite _ _ => true
  | .s2go _ => true
  | .guarWrite _ _ => true
  | .burstWrite _ _ => true
  | .partitionWrite _ _ _ => true
  | .powerCapWrite _ => true
  | .peerEntryWrite _ _ _ => true
  | .peeridWrite _ _ => true
  | .ksvf _ _ => true
  | .keySlotLoad _ _ _ => true
  | .keySlotClr _ _ _ => true
  | .registerWrite _ _ => true
  | .remoteInvalidation _ _ _ _ _ => true
  | .peerFaultAnswer _ _ _ _ => true
  | .peerPairConfirm _ _ => true

end Sys2Proof.Machine
end

