-- ==== Sys2Proof/WellFormed.lean ====
section
/-! DEFINITION. The well-formed instructions: those whose fields R92 and the owning chapters allow. -/

namespace Sys2Proof

/-- An instruction is well formed when its fields hold the values its row allows (R92, R101). -/
def Instr.wf (i : Instr) : Bool := Machine.legal i

end Sys2Proof
end

