-- ==== Sys2Proof/Decode.lean ====
section
/-! DEFINITION. The decoder of 04_encoding.md, total on any two words, which names why it rejects one; after it the encoder, written
from the same tables. -/

namespace Sys2Proof

/-- Bits [lo + n - 1 : lo] of a word. -/
def fld (w lo n : Nat) : BitVec n := BitVec.ofNat n (w / 2 ^ lo)

/-- `CLS` (Table 34). -/
def clsOf (w : Nat) : Nat := w / 2 ^ 61 % 8
/-- `OPC` (Table 34). -/
def opcOf (w : Nat) : Nat := w / 2 ^ 56 % 32
/-- Bits [55:52], the token bits (Table 34). -/
def tokOf (w : Nat) : Nat := w / 2 ^ 52 % 16
/-- `PRED` (Table 34). -/
def predOf (w : Nat) : BitVec 4 := fld w 48 4
/-- The token bits and the predicate. -/
def hdrOf (w : Nat) : Hdr where
  popl := w / 2 ^ 55 % 2 == 1
  popr := w / 2 ^ 54 % 2 == 1
  pshl := w / 2 ^ 53 % 2 == 1
  pshr := w / 2 ^ 52 % 2 == 1
  pred := predOf w
/-- Format C (Table 38). -/
def fmtC (w : Nat) : FmtC := ⟨fld w 42 6, fld w 36 6, fld w 32 4, fld w 0 32⟩
/-- Format S. -/
def fmtS (w : Nat) : FmtS := ⟨fld w 42 6, fld w 36 6, fld w 30 6, fld w 24 6, fld w 12 12, fld w 6 6, fld w 0 6⟩
/-- Format SI. -/
def fmtSI (w : Nat) : FmtSI := ⟨fld w 42 6, fld w 36 6, fld w 32 4, fld w 0 32⟩
/-- Format V. -/
def fmtV (w : Nat) : FmtV :=
  ⟨fld w 40 8, fld w 32 8, fld w 24 8, fld w 16 8, fld w 11 5, fld w 8 3, fld w 5 3, fld w 3 2, fld w 0 3⟩
/-- Format VX. -/
def fmtVX (w : Nat) : FmtVX :=
  ⟨fld w 40 8, fld w 32 8, fld w 24 8, fld w 19 5, w / 2 ^ 18 % 2 == 1, fld w 16 2, fld w 11 5, fld w 8 3, fld w 5 3, fld w 3 2,
    fld w 0 3⟩
/-- Format M. -/
def fmtM (w : Nat) : FmtM := ⟨fld w 40 8, fld w 35 5, fld w 29 6, fld w 26 3, fld w 23 3, fld w 2 21, fld w 0 2⟩
/-- Format MG. -/
def fmtMG (w : Nat) : FmtMG := ⟨fld w 40 8, fld w 35 5, fld w 27 8, fld w 24 3, fld w 0 24⟩
/-- Format F. -/
def fmtF (w : Nat) : FmtF := ⟨fld w 44 4, fld w 41 3, fld w 40 1, fld w 29 11, fld w 0 29⟩
/-- Format Y. -/
def fmtY (w : Nat) : FmtY := ⟨fld w 46 2, fld w 40 6, fld w 32 8, fld w 24 8, fld w 18 6, fld w 0 18⟩
/-- Format Z. -/
def fmtZ (w : Nat) : FmtZ := ⟨fld w 42 6, fld w 36 6, fld w 32 4, fld w 0 32⟩
/-- Format E with its engine operand (R93). -/
def fmtE (w w1 : Nat) : FmtE := ⟨fld w 40 8, fld w 32 8, fld w 24 8, fld w 16 8, fld w 0 16, fld w1 0 64⟩
/-- `FN` of format S. -/
def fnSOf (w : Nat) : Nat := w % 64
/-- `FN` of format V. -/
def fnVOf (w : Nat) : Nat := w % 8
/-- The operation of a format-Z group, in `IMM32`. -/
def zopOf (w : Nat) : Nat := w % 2 ^ 32
/-- The kind of `xinv`, [2:0] of `IMM32` (09_page.md Table 84). -/
def zop3Of (w : Nat) : Nat := w % 8

/-- Class 000 (Table 40 and Table 41): the instruction of an opcode, its fields not yet checked. -/
def candControl (w0 : Nat) : Option Instr :=
  match opcOf w0 with
  | 0 => some (.nop (predOf w0) (fmtC w0))
  | 1 => some (.bra (predOf w0) (fmtC w0))
  | 2 => some (.brp (predOf w0) (fmtC w0))
  | 3 => some (.jmpc (predOf w0) (fmtC w0))
  | 4 => some (.call (predOf w0) (fmtC w0))
  | 5 => some (.ret (predOf w0) (fmtC w0))
  | 6 => some (.loop (predOf w0) (fmtC w0))
  | 7 => some (.lend (predOf w0) (fmtC w0))
  | 8 => some (.lstg (predOf w0) (fmtC w0))
  | 9 => some (.lbrk (predOf w0) (fmtC w0))
  | 10 => some (.stepw (predOf w0) (fmtC w0))
  | 11 => some (.halt (predOf w0) (fmtC w0))
  | _ => none

/-- Class 001 (Table 40 and Table 41): the instruction of an opcode and function, its fields not yet checked. -/
def candScalar (w0 : Nat) : Option Instr :=
  match opcOf w0 with
  | 0 =>
    match fnSOf w0 with
    | 0 => some (.add (predOf w0) (fmtS w0))
    | 1 => some (.sub (predOf w0) (fmtS w0))
    | 2 => some (.mul (predOf w0) (fmtS w0))
    | 3 => some (.mulhs (predOf w0) (fmtS w0))
    | 4 => some (.mulhu (predOf w0) (fmtS w0))
    | 5 => some (.divs (predOf w0) (fmtS w0))
    | 6 => some (.divu (predOf w0) (fmtS w0))
    | 7 => some (.rems (predOf w0) (fmtS w0))
    | 8 => some (.remu (predOf w0) (fmtS w0))
    | 9 => some (.and (predOf w0) (fmtS w0))
    | 10 => some (.or (predOf w0) (fmtS w0))
    | 11 => some (.xor (predOf w0) (fmtS w0))
    | 12 => some (.andn (predOf w0) (fmtS w0))
    | 13 => some (.shl (predOf w0) (fmtS w0))
    | 14 => some (.shr (predOf w0) (fmtS w0))
    | 15 => some (.sar (predOf w0) (fmtS w0))
    | 16 => some (.rotr (predOf w0) (fmtS w0))
    | 17 => some (.min (predOf w0) (fmtS w0))
    | 18 => some (.max (predOf w0) (fmtS w0))
    | 19 => some (.minu (predOf w0) (fmtS w0))
    | 20 => some (.maxu (predOf w0) (fmtS w0))
    | 21 => some (.popc (predOf w0) (fmtS w0))
    | 22 => some (.clz (predOf w0) (fmtS w0))
    | 23 => some (.ctz (predOf w0) (fmtS w0))
    | 24 => some (.bswp (predOf w0) (fmtS w0))
    | _ => none
  | 1 => some (.addi (predOf w0) (fmtSI w0))
  | 2 => some (.li (predOf w0) (fmtSI w0))
  | 3 => some (.lih (predOf w0) (fmtSI w0))
  | 4 => some (.sel (predOf w0) (fmtS w0))
  | 5 => some (.cmp (predOf w0) (fmtS w0))
  | 6 => some (.cmpi (predOf w0) (fmtSI w0))
  | 7 =>
    match fnSOf w0 with
    | 0 => some (.pand (predOf w0) (fmtS w0))
    | 1 => some (.por (predOf w0) (fmtS w0))
    | 2 => some (.pxor (predOf w0) (fmtS w0))
    | 3 => some (.pnot (predOf w0) (fmtS w0))
    | _ => none
  | 8 => some (.extb (predOf w0) (fmtS w0))
  | 9 => some (.insb (predOf w0) (fmtS w0))
  | 10 => some (.mfsr (predOf w0) (fmtS w0))
  | 11 => some (.mtsr (predOf w0) (fmtS w0))
  | 12 => some (.rlr (predOf w0) (fmtS w0))
  | 16 => some (.cmov (predOf w0) (fmtS w0))
  | 17 => some (.cder (predOf w0) (fmtS w0))
  | 18 => some (.cseto (predOf w0) (fmtS w0))
  | 19 => some (.cinc (predOf w0) (fmtS w0))
  | 20 => some (.crgt (predOf w0) (fmtS w0))
  | 21 => some (.cget (predOf w0) (fmtS w0))
  | 22 => some (.cchk (predOf w0) (fmtS w0))
  | 23 => some (.cnul (predOf w0) (fmtS w0))
  | _ => none

/-- Class 010 (Table 40 and Table 41): the instruction of an opcode and function, its fields not yet checked. -/
def candVector (w0 : Nat) : Option Instr :=
  match opcOf w0 with
  | 0 =>
    match fnVOf w0 with
    | 0 => some (.vadd (hdrOf w0) (fmtV w0))
    | 1 => some (.vsub (hdrOf w0) (fmtV w0))
    | 2 => some (.vmul (hdrOf w0) (fmtV w0))
    | 3 => some (.vfma (hdrOf w0) (fmtV w0))
    | 4 => some (.vfms (hdrOf w0) (fmtV w0))
    | 5 => some (.vfnma (hdrOf w0) (fmtV w0))
    | 6 => some (.vmin (hdrOf w0) (fmtV w0))
    | 7 => some (.vmax (hdrOf w0) (fmtV w0))
    | _ => none
  | 1 =>
    match fnVOf w0 with
    | 0 => some (.vabs (hdrOf w0) (fmtV w0))
    | 1 => some (.vneg (hdrOf w0) (fmtV w0))
    | 2 => some (.vcps (hdrOf w0) (fmtV w0))
    | 3 => some (.vdp2 (hdrOf w0) (fmtV w0))
    | _ => none
  | 2 =>
    match fnVOf w0 with
    | 0 => some (.vrcp (hdrOf w0) (fmtV w0))
    | 1 => some (.vrsq (hdrOf w0) (fmtV w0))
    | 2 => some (.vsqr (hdrOf w0) (fmtV w0))
    | 3 => some (.vdiv (hdrOf w0) (fmtV w0))
    | 4 => some (.vex2 (hdrOf w0) (fmtV w0))
    | 5 => some (.vlg2 (hdrOf w0) (fmtV w0))
    | _ => none
  | 3 =>
    match fnVOf w0 with
    | 0 => some (.viadd (hdrOf w0) (fmtV w0))
    | 1 => some (.visub (hdrOf w0) (fmtV w0))
    | 2 => some (.vimul (hdrOf w0) (fmtV w0))
    | 3 => some (.vimad (hdrOf w0) (fmtV w0))
    | 4 => some (.vimulh (hdrOf w0) (fmtV w0))
    | 5 => some (.vimin (hdrOf w0) (fmtV w0))
    | 6 => some (.vimax (hdrOf w0) (fmtV w0))
    | 7 => some (.vdp4 (hdrOf w0) (fmtV w0))
    | _ => none
  | 4 =>
    match fnVOf w0 with
    | 0 => some (.vadds (hdrOf w0) (fmtV w0))
    | 1 => some (.vsubs (hdrOf w0) (fmtV w0))
    | _ => none
  | 5 =>
    match fnVOf w0 with
    | 0 => some (.vand (hdrOf w0) (fmtV w0))
    | 1 => some (.vor (hdrOf w0) (fmtV w0))
    | 2 => some (.vxor (hdrOf w0) (fmtV w0))
    | 3 => some (.vandn (hdrOf w0) (fmtV w0))
    | 4 => some (.vpopc (hdrOf w0) (fmtV w0))
    | 5 => some (.vclz (hdrOf w0) (fmtV w0))
    | _ => none
  | 6 =>
    match fnVOf w0 with
    | 0 => some (.vshl (hdrOf w0) (fmtV w0))
    | 1 => some (.vshr (hdrOf w0) (fmtV w0))
    | 2 => some (.vsar (hdrOf w0) (fmtV w0))
    | _ => none
  | 7 => some (.vcmp (hdrOf w0) (fmtV w0))
  | 8 => some (.vcls (hdrOf w0) (fmtV w0))
  | 9 => some (.vsel (hdrOf w0) (fmtV w0))
  | 10 => some (.vcvt (hdrOf w0) (fmtVX w0))
  | 11 => some (.vrnd (hdrOf w0) (fmtV w0))
  | 12 => some (.vmov (hdrOf w0) (fmtV w0))
  | 13 => some (.vsplat (hdrOf w0) (fmtV w0))
  | 14 => some (.viota (hdrOf w0) (fmtV w0))
  | 15 => some (.vext (hdrOf w0) (fmtV w0))
  | 16 => some (.vins (hdrOf w0) (fmtV w0))
  | 17 => some (.vperm (hdrOf w0) (fmtV w0))
  | 18 => some (.vshuf (hdrOf w0) (fmtV w0))
  | 19 => some (.vrot (hdrOf w0) (fmtV w0))
  | 20 => some (.vcmprs (hdrOf w0) (fmtV w0))
  | 21 => some (.vexpd (hdrOf w0) (fmtV w0))
  | 22 => some (.vred (hdrOf w0) (fmtV w0))
  | 23 => some (.vredx (hdrOf w0) (fmtV w0))
  | 24 => some (.vscan (hdrOf w0) (fmtV w0))
  | 25 => some (.vmqnt (hdrOf w0) (fmtVX w0))
  | 26 => some (.vmdq (hdrOf w0) (fmtVX w0))
  | 27 => some (.vscl (hdrOf w0) (fmtVX w0))
  | 28 => some (.vlqd (hdrOf w0) (fmtVX w0))
  | 29 =>
    match fnVOf w0 with
    | 0 => some (.vpsn (hdrOf w0) (fmtV w0))
    | 1 => some (.vpid (hdrOf w0) (fmtV w0))
    | 2 => some (.vprep (hdrOf w0) (fmtV w0))
    | _ => none
  | 30 =>
    match fnVOf w0 with
    | 0 => some (.jand (hdrOf w0) (fmtV w0))
    | 1 => some (.jor (hdrOf w0) (fmtV w0))
    | 2 => some (.jxor (hdrOf w0) (fmtV w0))
    | 3 => some (.jnot (hdrOf w0) (fmtV w0))
    | 4 => some (.jpopc (hdrOf w0) (fmtV w0))
    | 5 => some (.jffs (hdrOf w0) (fmtV w0))
    | _ => none
  | _ => none

/-- Class 011 (Table 40 and Table 41): the instruction of an opcode, its fields not yet checked. -/
def candLoad (w0 : Nat) : Option Instr :=
  match opcOf w0 with
  | 0 => some (.lds (hdrOf w0) (fmtM w0))
  | 1 => some (.ldv (hdrOf w0) (fmtM w0))
  | 2 => some (.ldvs (hdrOf w0) (fmtM w0))
  | 3 => some (.ldvg (hdrOf w0) (fmtMG w0))
  | 4 => some (.ldvb (hdrOf w0) (fmtM w0))
  | 5 => some (.ldo (hdrOf w0) (fmtM w0))
  | 6 => some (.ldc (hdrOf w0) (fmtM w0))
  | 7 => some (.rfl (hdrOf w0) (fmtM w0))
  | 8 => some (.markL (hdrOf w0) (fmtF w0))
  | _ => none

/-- Class 100 (Table 40 and Table 41): the instruction of an opcode, its fields not yet checked. -/
def candStore (w0 : Nat) : Option Instr :=
  match opcOf w0 with
  | 0 => some (.sts (hdrOf w0) (fmtM w0))
  | 1 => some (.stv (hdrOf w0) (fmtM w0))
  | 2 => some (.stvs (hdrOf w0) (fmtM w0))
  | 3 => some (.stvx (hdrOf w0) (fmtMG w0))
  | 4 => some (.stc (hdrOf w0) (fmtM w0))
  | 5 => some (.spl (hdrOf w0) (fmtM w0))
  | 6 => some (.markS (hdrOf w0) (fmtF w0))
  | 7 => some (.feno (hdrOf w0) (fmtF w0))
  | 8 => some (.fenr (hdrOf w0) (fmtF w0))
  | 9 => some (.fenq (hdrOf w0) (fmtF w0))
  | _ => none

/-- Class 101 (Table 40 and Table 41): the instruction of an opcode, its fields not yet checked. -/
def candMatrix (w0 w1 : Nat) : Option Instr :=
  match opcOf w0 with
  | 0 => some (.hset (hdrOf w0) (fmtV w0))
  | 1 => some (.hswp (hdrOf w0) (fmtV w0))
  | 2 => some (.hrd (hdrOf w0) (fmtV w0))
  | 3 => some (.mxrv (hdrOf w0) (fmtV w0))
  | 4 => some (.mxwv (hdrOf w0) (fmtV w0))
  | 16 => some (.mxla (hdrOf w0) (fmtE w0 w1))
  | 17 => some (.mxlb (hdrOf w0) (fmtE w0 w1))
  | 18 => some (.mxmma (hdrOf w0) (fmtE w0 w1))
  | 19 => some (.mxz (hdrOf w0) (fmtE w0 w1))
  | 20 => some (.mxprm (hdrOf w0) (fmtE w0 w1))
  | 21 => some (.mxst (hdrOf w0) (fmtE w0 w1))
  | 22 => some (.mxspl (hdrOf w0) (fmtE w0 w1))
  | 23 => some (.mxfil (hdrOf w0) (fmtE w0 w1))
  | 24 => some (.mxgng (hdrOf w0) (fmtE w0 w1))
  | 25 => some (.mxrp (hdrOf w0) (fmtE w0 w1))
  | _ => none

/-- Class 110 (Table 40 and Table 41): the instruction of an opcode, its fields not yet checked. -/
def candCopySync (w0 w1 : Nat) : Option Instr :=
  match opcOf w0 with
  | 0 => some (.xpop (hdrOf w0) (fmtY w0))
  | 1 => some (.semw (hdrOf w0) (fmtY w0))
  | 2 => some (.sems (hdrOf w0) (fmtY w0))
  | 3 => some (.semr (hdrOf w0) (fmtY w0))
  | 4 => some (.semi (hdrOf w0) (fmtY w0))
  | 5 => some (.bara (hdrOf w0) (fmtY w0))
  | 6 => some (.barb (hdrOf w0) (fmtY w0))
  | 7 => some (.barw (hdrOf w0) (fmtY w0))
  | 8 => some (.barq (hdrOf w0) (fmtY w0))
  | 16 => some (.xcp (hdrOf w0) (fmtE w0 w1))
  | 17 => some (.xc2 (hdrOf w0) (fmtE w0 w1))
  | 18 => some (.xcg (hdrOf w0) (fmtE w0 w1))
  | 19 => some (.xaw (hdrOf w0) (fmtE w0 w1))
  | 20 => some (.xawr (hdrOf w0) (fmtE w0 w1))
  | 21 => some (.xcas (hdrOf w0) (fmtE w0 w1))
  | 22 => some (.xsig (hdrOf w0) (fmtE w0 w1))
  | 23 => some (.xhsh (hdrOf w0) (fmtE w0 w1))
  | 24 => some (.xopn (hdrOf w0) (fmtE w0 w1))
  | 25 => some (.xsel (hdrOf w0) (fmtE w0 w1))
  | 26 => some (.xfil (hdrOf w0) (fmtE w0 w1))
  | _ => none

/-- Class 111 (Table 40 and Table 41): the instruction of an opcode and function, its fields not yet checked. -/
def candSystem (w0 : Nat) : Option Instr :=
  match opcOf w0 with
  | 0 => some (.trap (predOf w0) (fmtZ w0))
  | 1 => some (.tret (predOf w0) (fmtZ w0))
  | 2 => some (.savc (predOf w0) (fmtZ w0))
  | 3 => some (.rstc (predOf w0) (fmtZ w0))
  | 4 =>
    match zopOf w0 with
    | 0 => some (.rgstaPlc (predOf w0) (fmtZ w0))
    | 1 => some (.rgstaGo (predOf w0) (fmtZ w0))
    | 2 => some (.rgstaRes (predOf w0) (fmtZ w0))
    | _ => none
  | 5 => some (.rgpre (predOf w0) (fmtZ w0))
  | 6 =>
    match zopOf w0 with
    | 0 => some (.rgfrzHold (predOf w0) (fmtZ w0))
    | 1 => some (.rgfrzRel (predOf w0) (fmtZ w0))
    | _ => none
  | 7 =>
    match zopOf w0 with
    | 0 => some (.rgmovMov (predOf w0) (fmtZ w0))
    | 1 => some (.rgmovOut (predOf w0) (fmtZ w0))
    | _ => none
  | 8 =>
    match zopOf w0 with
    | 0 => some (.rgretRel (predOf w0) (fmtZ w0))
    | 1 => some (.rgretAbt (predOf w0) (fmtZ w0))
    | 2 => some (.rgretRd (predOf w0) (fmtZ w0))
    | _ => none
  | 9 =>
    match zop3Of w0 with
    | 0 => some (.xinvAll (predOf w0) (fmtZ w0))
    | 1 => some (.xinvCtx (predOf w0) (fmtZ w0))
    | 2 => some (.xinvObj (predOf w0) (fmtZ w0))
    | 3 => some (.xinvGfr (predOf w0) (fmtZ w0))
    | _ => none
  | 10 =>
    match zopOf w0 with
    | 0 => some (.otwrWr (predOf w0) (fmtZ w0))
    | 1 => some (.otwrRd (predOf w0) (fmtZ w0))
    | 2 => some (.otwrFpop (predOf w0) (fmtZ w0))
    | 3 => some (.otwrFret (predOf w0) (fmtZ w0))
    | 4 => some (.otwrFflt (predOf w0) (fmtZ w0))
    | 5 => some (.otwrFrm (predOf w0) (fmtZ w0))
    | 6 => some (.otwrGwr (predOf w0) (fmtZ w0))
    | 7 => some (.otwrFcp (predOf w0) (fmtZ w0))
    | 8 => some (.otwrQrd (predOf w0) (fmtZ w0))
    | _ => none
  | 11 =>
    match zopOf w0 with
    | 0 => some (.smapWr (predOf w0) (fmtZ w0))
    | 1 => some (.smapRd (predOf w0) (fmtZ w0))
    | 2 => some (.smapAdj (predOf w0) (fmtZ w0))
    | _ => none
  | 12 =>
    match zopOf w0 with
    | 0 => some (.bmapBind (predOf w0) (fmtZ w0))
    | 1 => some (.bmapUnbind (predOf w0) (fmtZ w0))
    | 2 => some (.bmapRd (predOf w0) (fmtZ w0))
    | 3 => some (.bmapRst (predOf w0) (fmtZ w0))
    | _ => none
  | 13 =>
    match zopOf w0 with
    | 0 => some (.lnkcUp (predOf w0) (fmtZ w0))
    | 1 => some (.lnkcDown (predOf w0) (fmtZ w0))
    | 2 => some (.lnkcRkey (predOf w0) (fmtZ w0))
    | 3 => some (.lnkcAlgn (predOf w0) (fmtZ w0))
    | 4 => some (.lnkcRun (predOf w0) (fmtZ w0))
    | 5 => some (.lnkcQrl (predOf w0) (fmtZ w0))
    | 6 => some (.lnkcDrst (predOf w0) (fmtZ w0))
    | 7 => some (.lnkcDqrl (predOf w0) (fmtZ w0))
    | _ => none
  | 14 =>
    match zopOf w0 with
    | 0 => some (.lnkqLnk (predOf w0) (fmtZ w0))
    | 1 => some (.lnkqDie (predOf w0) (fmtZ w0))
    | 2 => some (.lnkqDom (predOf w0) (fmtZ w0))
    | _ => none
  | 15 =>
    match zopOf w0 with
    | 0 => some (.measExt (predOf w0) (fmtZ w0))
    | 1 => some (.measRd (predOf w0) (fmtZ w0))
    | 2 => some (.measSha (predOf w0) (fmtZ w0))
    | 3 => some (.measNode (predOf w0) (fmtZ w0))
    | _ => none
  | 16 => some (.rcpt (predOf w0) (fmtZ w0))
  | 17 =>
    match zopOf w0 with
    | 0 => some (.ksldLd (predOf w0) (fmtZ w0))
    | 1 => some (.ksldRes (predOf w0) (fmtZ w0))
    | 2 => some (.ksldEvc (predOf w0) (fmtZ w0))
    | 3 => some (.ksldRd (predOf w0) (fmtZ w0))
    | _ => none
  | 18 =>
    match zopOf w0 with
    | 0 => some (.csigAlc (predOf w0) (fmtZ w0))
    | 1 => some (.csigFre (predOf w0) (fmtZ w0))
    | 2 => some (.csigAdd (predOf w0) (fmtZ w0))
    | 3 => some (.csigSet (predOf w0) (fmtZ w0))
    | 4 => some (.csigRd (predOf w0) (fmtZ w0))
    | _ => none
  | _ => none

/-- Why a word is not an instruction (R101). -/
inductive Reject where
  /-- `CLS`, `OPC` and the function select no row of Table 40 or Table 41. -/
  | unassigned
  /-- A token bit is set in class 000, 001 or 111 (R85). -/
  | tokenBit
  /-- A field holds a value its row does not allow, or a reserved field is not zero (R92). -/
  | field
deriving DecidableEq, Repr

/-- The row a word selects, its fields not yet checked. -/
def cand (w0 w1 : Nat) : Option Instr :=
  match clsOf w0 with
  | 0 => candControl w0
  | 1 => candScalar w0
  | 2 => candVector w0
  | 3 => candLoad w0
  | 4 => candStore w0
  | 5 => candMatrix w0 w1
  | 6 => candCopySync w0 w1
  | _ => candSystem w0

/-- Classes 000, 001 and 111 carry no token bits (R85). -/
def tokensOk (w0 : Nat) : Bool :=
  tokOf w0 == 0 || !(clsOf w0 == 0 || clsOf w0 == 1 || clsOf w0 == 7)

/-- A word opens a two-word engine command: class 101 or 110 with bit [60] set (R93). -/
def isTwoWord (w0 : Nat) : Bool := (clsOf w0 == 5 || clsOf w0 == 6) && 16 ≤ opcOf w0

/-- Decode the word `w0`; `w1` is the word at PC + 8, read only by a two-word engine command.  Total: every pair of words is an
instruction or is rejected by name (R101). -/
def decode (w0 w1 : Nat) : Except Reject Instr :=
  match cand w0 w1 with
  | none => .error .unassigned
  | some i => if tokensOk w0 then if i.wf then .ok i else .error .field else .error .tokenBit

/-- The instruction of an opcode-table word: bits 63..0 are the word at the PC and bits 127..64 the word at PC + 8, each
stored little-endian at rising addresses (R3); the bits above `nbits` are zero. -/
def decodeTableWord (nbits w : Nat) : Option Instr :=
  match decode (w % 2 ^ nbits % 2 ^ 64) (w % 2 ^ nbits / 2 ^ 64 % 2 ^ 64) with
  | .ok i => some i
  | .error _ => none

/-- `CLS`, `OPC` and the predicate of a word without token bits. -/
def encP (cls opc : Nat) (p : BitVec 4) : Nat := cls * 2 ^ 61 + opc * 2 ^ 56 + p.toNat * 2 ^ 48
/-- One token bit. -/
def bit01 (b : Bool) : Nat := if b then 1 else 0
/-- `CLS`, `OPC`, the token bits and the predicate. -/
def encQ (cls opc : Nat) (h : Hdr) : Nat :=
  cls * 2 ^ 61 + opc * 2 ^ 56 + bit01 h.popl * 2 ^ 55 + bit01 h.popr * 2 ^ 54 + bit01 h.pshl * 2 ^ 53
    + bit01 h.pshr * 2 ^ 52 + h.pred.toNat * 2 ^ 48
/-- Bits [47:0] in format C (Table 38). -/
def encC (f : FmtC) : Nat := f.a.toNat * 2 ^ 42 + f.b.toNat * 2 ^ 36 + f.k4.toNat * 2 ^ 32 + f.imm.toNat
/-- Format S. -/
def encS (f : FmtS) : Nat :=
  f.d.toNat * 2 ^ 42 + f.a.toNat * 2 ^ 36 + f.b.toNat * 2 ^ 30 + f.c.toNat * 2 ^ 24 + f.k12.toNat * 2 ^ 12
    + f.rsvd.toNat * 2 ^ 6 + f.fn.toNat
/-- Format SI. -/
def encSI (f : FmtSI) : Nat := f.d.toNat * 2 ^ 42 + f.a.toNat * 2 ^ 36 + f.k4.toNat * 2 ^ 32 + f.imm.toNat
/-- Format V. -/
def encV (f : FmtV) : Nat :=
  f.vd.toNat * 2 ^ 40 + f.va.toNat * 2 ^ 32 + f.vb.toNat * 2 ^ 24 + f.vc.toNat * 2 ^ 16 + f.ty.toNat * 2 ^ 11
    + f.rm.toNat * 2 ^ 8 + f.mask.toNat * 2 ^ 5 + f.of_.toNat * 2 ^ 3 + f.fn.toNat
/-- Format VX. -/
def encVX (f : FmtVX) : Nat :=
  f.vd.toNat * 2 ^ 40 + f.va.toNat * 2 ^ 32 + f.vb.toNat * 2 ^ 24 + f.dty.toNat * 2 ^ 19 + bit01 f.ovp * 2 ^ 18
    + f.rsvd.toNat * 2 ^ 16 + f.ty.toNat * 2 ^ 11 + f.rm.toNat * 2 ^ 8 + f.mask.toNat * 2 ^ 5 + f.of_.toNat * 2 ^ 3 + f.fn.toNat
/-- Format M. -/
def encM (f : FmtM) : Nat :=
  f.ds.toNat * 2 ^ 40 + f.cp.toNat * 2 ^ 35 + f.sx.toNat * 2 ^ 29 + f.mask.toNat * 2 ^ 26 + f.sc.toNat * 2 ^ 23
    + f.off.toNat * 2 ^ 2 + f.sz.toNat
/-- Format MG. -/
def encMG (f : FmtMG) : Nat :=
  f.ds.toNat * 2 ^ 40 + f.cp.toNat * 2 ^ 35 + f.vx.toNat * 2 ^ 27 + f.mask.toNat * 2 ^ 24 + f.off.toNat
/-- Format F. -/
def encF (f : FmtF) : Nat :=
  f.mkn.toNat * 2 ^ 44 + f.scp.toNat * 2 ^ 41 + f.all.toNat * 2 ^ 40 + f.tix.toNat * 2 ^ 29 + f.rsvd.toNat
/-- Format Y. -/
def encY (f : FmtY) : Nat :=
  f.qn.toNat * 2 ^ 46 + f.bh.toNat * 2 ^ 40 + f.sem.toNat * 2 ^ 32 + f.k8.toNat * 2 ^ 24 + f.sd.toNat * 2 ^ 18 + f.rsvd.toNat
/-- Format Z. -/
def encZ (f : FmtZ) : Nat := f.a.toNat * 2 ^ 42 + f.b.toNat * 2 ^ 36 + f.ca.toNat * 2 ^ 32 + f.imm.toNat
/-- Format E, word 0. -/
def encE (f : FmtE) : Nat :=
  f.ws.toNat * 2 ^ 40 + f.wt.toNat * 2 ^ 32 + f.ss.toNat * 2 ^ 24 + f.si.toNat * 2 ^ 16 + f.es.toNat

/-- The words of an instruction (Table 34, Table 38, Table 40, Table 41): the first, and 0 or the engine operand for
the second.  An event has no word. -/
def words : Instr → Option (Nat × Nat)
  | .nop p f => some (encP 0 0 p + encC f, 0)
  | .bra p f => some (encP 0 1 p + encC f, 0)
  | .brp p f => some (encP 0 2 p + encC f, 0)
  | .jmpc p f => some (encP 0 3 p + encC f, 0)
  | .call p f => some (encP 0 4 p + encC f, 0)
  | .ret p f => some (encP 0 5 p + encC f, 0)
  | .loop p f => some (encP 0 6 p + encC f, 0)
  | .lend p f => some (encP 0 7 p + encC f, 0)
  | .lstg p f => some (encP 0 8 p + encC f, 0)
  | .lbrk p f => some (encP 0 9 p + encC f, 0)
  | .stepw p f => some (encP 0 10 p + encC f, 0)
  | .halt p f => some (encP 0 11 p + encC f, 0)
  | .add p f => some (encP 1 0 p + encS f, 0)
  | .sub p f => some (encP 1 0 p + encS f, 0)
  | .mul p f => some (encP 1 0 p + encS f, 0)
  | .mulhs p f => some (encP 1 0 p + encS f, 0)
  | .mulhu p f => some (encP 1 0 p + encS f, 0)
  | .divs p f => some (encP 1 0 p + encS f, 0)
  | .divu p f => some (encP 1 0 p + encS f, 0)
  | .rems p f => some (encP 1 0 p + encS f, 0)
  | .remu p f => some (encP 1 0 p + encS f, 0)
  | .and p f => some (encP 1 0 p + encS f, 0)
  | .or p f => some (encP 1 0 p + encS f, 0)
  | .xor p f => some (encP 1 0 p + encS f, 0)
  | .andn p f => some (encP 1 0 p + encS f, 0)
  | .shl p f => some (encP 1 0 p + encS f, 0)
  | .shr p f => some (encP 1 0 p + encS f, 0)
  | .sar p f => some (encP 1 0 p + encS f, 0)
  | .rotr p f => some (encP 1 0 p + encS f, 0)
  | .min p f => some (encP 1 0 p + encS f, 0)
  | .max p f => some (encP 1 0 p + encS f, 0)
  | .minu p f => some (encP 1 0 p + encS f, 0)
  | .maxu p f => some (encP 1 0 p + encS f, 0)
  | .popc p f => some (encP 1 0 p + encS f, 0)
  | .clz p f => some (encP 1 0 p + encS f, 0)
  | .ctz p f => some (encP 1 0 p + encS f, 0)
  | .bswp p f => some (encP 1 0 p + encS f, 0)
  | .addi p f => some (encP 1 1 p + encSI f, 0)
  | .li p f => some (encP 1 2 p + encSI f, 0)
  | .lih p f => some (encP 1 3 p + encSI f, 0)
  | .sel p f => some (encP 1 4 p + encS f, 0)
  | .cmp p f => some (encP 1 5 p + encS f, 0)
  | .cmpi p f => some (encP 1 6 p + encSI f, 0)
  | .pand p f => some (encP 1 7 p + encS f, 0)
  | .por p f => some (encP 1 7 p + encS f, 0)
  | .pxor p f => some (encP 1 7 p + encS f, 0)
  | .pnot p f => some (encP 1 7 p + encS f, 0)
  | .extb p f => some (encP 1 8 p + encS f, 0)
  | .insb p f => some (encP 1 9 p + encS f, 0)
  | .mfsr p f => some (encP 1 10 p + encS f, 0)
  | .mtsr p f => some (encP 1 11 p + encS f, 0)
  | .rlr p f => some (encP 1 12 p + encS f, 0)
  | .cmov p f => some (encP 1 16 p + encS f, 0)
  | .cder p f => some (encP 1 17 p + encS f, 0)
  | .cseto p f => some (encP 1 18 p + encS f, 0)
  | .cinc p f => some (encP 1 19 p + encS f, 0)
  | .crgt p f => some (encP 1 20 p + encS f, 0)
  | .cget p f => some (encP 1 21 p + encS f, 0)
  | .cchk p f => some (encP 1 22 p + encS f, 0)
  | .cnul p f => some (encP 1 23 p + encS f, 0)
  | .vadd h f => some (encQ 2 0 h + encV f, 0)
  | .vsub h f => some (encQ 2 0 h + encV f, 0)
  | .vmul h f => some (encQ 2 0 h + encV f, 0)
  | .vfma h f => some (encQ 2 0 h + encV f, 0)
  | .vfms h f => some (encQ 2 0 h + encV f, 0)
  | .vfnma h f => some (encQ 2 0 h + encV f, 0)
  | .vmin h f => some (encQ 2 0 h + encV f, 0)
  | .vmax h f => some (encQ 2 0 h + encV f, 0)
  | .vabs h f => some (encQ 2 1 h + encV f, 0)
  | .vneg h f => some (encQ 2 1 h + encV f, 0)
  | .vcps h f => some (encQ 2 1 h + encV f, 0)
  | .vdp2 h f => some (encQ 2 1 h + encV f, 0)
  | .vrcp h f => some (encQ 2 2 h + encV f, 0)
  | .vrsq h f => some (encQ 2 2 h + encV f, 0)
  | .vsqr h f => some (encQ 2 2 h + encV f, 0)
  | .vdiv h f => some (encQ 2 2 h + encV f, 0)
  | .vex2 h f => some (encQ 2 2 h + encV f, 0)
  | .vlg2 h f => some (encQ 2 2 h + encV f, 0)
  | .viadd h f => some (encQ 2 3 h + encV f, 0)
  | .visub h f => some (encQ 2 3 h + encV f, 0)
  | .vimul h f => some (encQ 2 3 h + encV f, 0)
  | .vimad h f => some (encQ 2 3 h + encV f, 0)
  | .vimulh h f => some (encQ 2 3 h + encV f, 0)
  | .vimin h f => some (encQ 2 3 h + encV f, 0)
  | .vimax h f => some (encQ 2 3 h + encV f, 0)
  | .vdp4 h f => some (encQ 2 3 h + encV f, 0)
  | .vadds h f => some (encQ 2 4 h + encV f, 0)
  | .vsubs h f => some (encQ 2 4 h + encV f, 0)
  | .vand h f => some (encQ 2 5 h + encV f, 0)
  | .vor h f => some (encQ 2 5 h + encV f, 0)
  | .vxor h f => some (encQ 2 5 h + encV f, 0)
  | .vandn h f => some (encQ 2 5 h + encV f, 0)
  | .vpopc h f => some (encQ 2 5 h + encV f, 0)
  | .vclz h f => some (encQ 2 5 h + encV f, 0)
  | .vshl h f => some (encQ 2 6 h + encV f, 0)
  | .vshr h f => some (encQ 2 6 h + encV f, 0)
  | .vsar h f => some (encQ 2 6 h + encV f, 0)
  | .vcmp h f => some (encQ 2 7 h + encV f, 0)
  | .vcls h f => some (encQ 2 8 h + encV f, 0)
  | .vsel h f => some (encQ 2 9 h + encV f, 0)
  | .vcvt h f => some (encQ 2 10 h + encVX f, 0)
  | .vrnd h f => some (encQ 2 11 h + encV f, 0)
  | .vmov h f => some (encQ 2 12 h + encV f, 0)
  | .vsplat h f => some (encQ 2 13 h + encV f, 0)
  | .viota h f => some (encQ 2 14 h + encV f, 0)
  | .vext h f => some (encQ 2 15 h + encV f, 0)
  | .vins h f => some (encQ 2 16 h + encV f, 0)
  | .vperm h f => some (encQ 2 17 h + encV f, 0)
  | .vshuf h f => some (encQ 2 18 h + encV f, 0)
  | .vrot h f => some (encQ 2 19 h + encV f, 0)
  | .vcmprs h f => some (encQ 2 20 h + encV f, 0)
  | .vexpd h f => some (encQ 2 21 h + encV f, 0)
  | .vred h f => some (encQ 2 22 h + encV f, 0)
  | .vredx h f => some (encQ 2 23 h + encV f, 0)
  | .vscan h f => some (encQ 2 24 h + encV f, 0)
  | .vmqnt h f => some (encQ 2 25 h + encVX f, 0)
  | .vmdq h f => some (encQ 2 26 h + encVX f, 0)
  | .vscl h f => some (encQ 2 27 h + encVX f, 0)
  | .vlqd h f => some (encQ 2 28 h + encVX f, 0)
  | .vpsn h f => some (encQ 2 29 h + encV f, 0)
  | .vpid h f => some (encQ 2 29 h + encV f, 0)
  | .vprep h f => some (encQ 2 29 h + encV f, 0)
  | .jand h f => some (encQ 2 30 h + encV f, 0)
  | .jor h f => some (encQ 2 30 h + encV f, 0)
  | .jxor h f => some (encQ 2 30 h + encV f, 0)
  | .jnot h f => some (encQ 2 30 h + encV f, 0)
  | .jpopc h f => some (encQ 2 30 h + encV f, 0)
  | .jffs h f => some (encQ 2 30 h + encV f, 0)
  | .lds h f => some (encQ 3 0 h + encM f, 0)
  | .ldv h f => some (encQ 3 1 h + encM f, 0)
  | .ldvs h f => some (encQ 3 2 h + encM f, 0)
  | .ldvg h f => some (encQ 3 3 h + encMG f, 0)
  | .ldvb h f => some (encQ 3 4 h + encM f, 0)
  | .ldo h f => some (encQ 3 5 h + encM f, 0)
  | .ldc h f => some (encQ 3 6 h + encM f, 0)
  | .rfl h f => some (encQ 3 7 h + encM f, 0)
  | .markL h f => some (encQ 3 8 h + encF f, 0)
  | .sts h f => some (encQ 4 0 h + encM f, 0)
  | .stv h f => some (encQ 4 1 h + encM f, 0)
  | .stvs h f => some (encQ 4 2 h + encM f, 0)
  | .stvx h f => some (encQ 4 3 h + encMG f, 0)
  | .stc h f => some (encQ 4 4 h + encM f, 0)
  | .spl h f => some (encQ 4 5 h + encM f, 0)
  | .markS h f => some (encQ 4 6 h + encF f, 0)
  | .feno h f => some (encQ 4 7 h + encF f, 0)
  | .fenr h f => some (encQ 4 8 h + encF f, 0)
  | .fenq h f => some (encQ 4 9 h + encF f, 0)
  | .hset h f => some (encQ 5 0 h + encV f, 0)
  | .hswp h f => some (encQ 5 1 h + encV f, 0)
  | .hrd h f => some (encQ 5 2 h + encV f, 0)
  | .mxrv h f => some (encQ 5 3 h + encV f, 0)
  | .mxwv h f => some (encQ 5 4 h + encV f, 0)
  | .mxla h f => some (encQ 5 16 h + encE f, f.w1.toNat)
  | .mxlb h f => some (encQ 5 17 h + encE f, f.w1.toNat)
  | .mxmma h f => some (encQ 5 18 h + encE f, f.w1.toNat)
  | .mxz h f => some (encQ 5 19 h + encE f, f.w1.toNat)
  | .mxprm h f => some (encQ 5 20 h + encE f, f.w1.toNat)
  | .mxst h f => some (encQ 5 21 h + encE f, f.w1.toNat)
  | .mxspl h f => some (encQ 5 22 h + encE f, f.w1.toNat)
  | .mxfil h f => some (encQ 5 23 h + encE f, f.w1.toNat)
  | .mxgng h f => some (encQ 5 24 h + encE f, f.w1.toNat)
  | .mxrp h f => some (encQ 5 25 h + encE f, f.w1.toNat)
  | .xpop h f => some (encQ 6 0 h + encY f, 0)
  | .semw h f => some (encQ 6 1 h + encY f, 0)
  | .sems h f => some (encQ 6 2 h + encY f, 0)
  | .semr h f => some (encQ 6 3 h + encY f, 0)
  | .semi h f => some (encQ 6 4 h + encY f, 0)
  | .bara h f => some (encQ 6 5 h + encY f, 0)
  | .barb h f => some (encQ 6 6 h + encY f, 0)
  | .barw h f => some (encQ 6 7 h + encY f, 0)
  | .barq h f => some (encQ 6 8 h + encY f, 0)
  | .xcp h f => some (encQ 6 16 h + encE f, f.w1.toNat)
  | .xc2 h f => some (encQ 6 17 h + encE f, f.w1.toNat)
  | .xcg h f => some (encQ 6 18 h + encE f, f.w1.toNat)
  | .xaw h f => some (encQ 6 19 h + encE f, f.w1.toNat)
  | .xawr h f => some (encQ 6 20 h + encE f, f.w1.toNat)
  | .xcas h f => some (encQ 6 21 h + encE f, f.w1.toNat)
  | .xsig h f => some (encQ 6 22 h + encE f, f.w1.toNat)
  | .xhsh h f => some (encQ 6 23 h + encE f, f.w1.toNat)
  | .xopn h f => some (encQ 6 24 h + encE f, f.w1.toNat)
  | .xsel h f => some (encQ 6 25 h + encE f, f.w1.toNat)
  | .xfil h f => some (encQ 6 26 h + encE f, f.w1.toNat)
  | .trap p f => some (encP 7 0 p + encZ f, 0)
  | .tret p f => some (encP 7 1 p + encZ f, 0)
  | .savc p f => some (encP 7 2 p + encZ f, 0)
  | .rstc p f => some (encP 7 3 p + encZ f, 0)
  | .rgstaPlc p f => some (encP 7 4 p + encZ f, 0)
  | .rgstaGo p f => some (encP 7 4 p + encZ f, 0)
  | .rgstaRes p f => some (encP 7 4 p + encZ f, 0)
  | .rgpre p f => some (encP 7 5 p + encZ f, 0)
  | .rgfrzHold p f => some (encP 7 6 p + encZ f, 0)
  | .rgfrzRel p f => some (encP 7 6 p + encZ f, 0)
  | .rgmovMov p f => some (encP 7 7 p + encZ f, 0)
  | .rgmovOut p f => some (encP 7 7 p + encZ f, 0)
  | .rgretRel p f => some (encP 7 8 p + encZ f, 0)
  | .rgretAbt p f => some (encP 7 8 p + encZ f, 0)
  | .rgretRd p f => some (encP 7 8 p + encZ f, 0)
  | .xinvAll p f => some (encP 7 9 p + encZ f, 0)
  | .xinvCtx p f => some (encP 7 9 p + encZ f, 0)
  | .xinvObj p f => some (encP 7 9 p + encZ f, 0)
  | .xinvGfr p f => some (encP 7 9 p + encZ f, 0)
  | .otwrWr p f => some (encP 7 10 p + encZ f, 0)
  | .otwrRd p f => some (encP 7 10 p + encZ f, 0)
  | .otwrFpop p f => some (encP 7 10 p + encZ f, 0)
  | .otwrFret p f => some (encP 7 10 p + encZ f, 0)
  | .otwrFflt p f => some (encP 7 10 p + encZ f, 0)
  | .otwrFrm p f => some (encP 7 10 p + encZ f, 0)
  | .otwrGwr p f => some (encP 7 10 p + encZ f, 0)
  | .otwrFcp p f => some (encP 7 10 p + encZ f, 0)
  | .otwrQrd p f => some (encP 7 10 p + encZ f, 0)
  | .smapWr p f => some (encP 7 11 p + encZ f, 0)
  | .smapRd p f => some (encP 7 11 p + encZ f, 0)
  | .smapAdj p f => some (encP 7 11 p + encZ f, 0)
  | .bmapBind p f => some (encP 7 12 p + encZ f, 0)
  | .bmapUnbind p f => some (encP 7 12 p + encZ f, 0)
  | .bmapRd p f => some (encP 7 12 p + encZ f, 0)
  | .bmapRst p f => some (encP 7 12 p + encZ f, 0)
  | .lnkcUp p f => some (encP 7 13 p + encZ f, 0)
  | .lnkcDown p f => some (encP 7 13 p + encZ f, 0)
  | .lnkcRkey p f => some (encP 7 13 p + encZ f, 0)
  | .lnkcAlgn p f => some (encP 7 13 p + encZ f, 0)
  | .lnkcRun p f => some (encP 7 13 p + encZ f, 0)
  | .lnkcQrl p f => some (encP 7 13 p + encZ f, 0)
  | .lnkcDrst p f => some (encP 7 13 p + encZ f, 0)
  | .lnkcDqrl p f => some (encP 7 13 p + encZ f, 0)
  | .lnkqLnk p f => some (encP 7 14 p + encZ f, 0)
  | .lnkqDie p f => some (encP 7 14 p + encZ f, 0)
  | .lnkqDom p f => some (encP 7 14 p + encZ f, 0)
  | .measExt p f => some (encP 7 15 p + encZ f, 0)
  | .measRd p f => some (encP 7 15 p + encZ f, 0)
  | .measSha p f => some (encP 7 15 p + encZ f, 0)
  | .measNode p f => some (encP 7 15 p + encZ f, 0)
  | .rcpt p f => some (encP 7 16 p + encZ f, 0)
  | .ksldLd p f => some (encP 7 17 p + encZ f, 0)
  | .ksldRes p f => some (encP 7 17 p + encZ f, 0)
  | .ksldEvc p f => some (encP 7 17 p + encZ f, 0)
  | .ksldRd p f => some (encP 7 17 p + encZ f, 0)
  | .csigAlc p f => some (encP 7 18 p + encZ f, 0)
  | .csigFre p f => some (encP 7 18 p + encZ f, 0)
  | .csigAdd p f => some (encP 7 18 p + encZ f, 0)
  | .csigSet p f => some (encP 7 18 p + encZ f, 0)
  | .csigRd p f => some (encP 7 18 p + encZ f, 0)
  | .powerOn => none
  | .supplyInRegulation _ => none
  | .supplyLost _ => none
  | .dieResetRelease _ => none
  | .dieMeasurementDone _ _ _ => none
  | .dieAdmissionCheckEnd _ _ => none
  | .dieWatchdog _ => none
  | .telemetrySample _ _ => none
  | .pwrMinTick => none
  | .telemetryFlashWrite => none
  | .snap _ => none
  | .snapshotComplete _ => none
  | .telemetryUnsupportedAccess _ _ _ => none
  | .mctpSnapshotRequest => none
  | .mctpTelemetryRead _ _ => none
  | .leaseRenew _ => none
  | .leaseLapse => none
  | .stepwRelease _ => none
  | .tilePartEnd _ => none
  | .fenrRequest _ _ => none
  | .fenrAck _ _ => none
  | .dramAccessAtPort _ _ => none
  | .resultWriteback _ => none
  | .tokenPushWaitEnd _ => none
  | .meCommandStart _ => none
  | .meCommandComplete _ _ => none
  | .gangImageArrival _ => none
  | .xeCommandStart _ => none
  | .xeCommandComplete _ _ => none
  | .xopnHeaderAtHub _ _ => none
  | .accumulateArrival _ _ => none
  | .remoteIncrement _ => none
  | .peerCommandArrival _ _ _ _ => none
  | .regionStepClose _ => none
  | .probeSend _ _ => none
  | .probeReceive _ => none
  | .accumulateCloseTimeout _ => none
  | .handlerTimeout _ => none
  | .regionColumnStart _ _ => none
  | .regionFreeze _ => none
  | .regionSaveComplete _ => none
  | .regionResumeStart _ => none
  | .regionMoveComplete _ => none
  | .stepPeriodChange _ => none
  | .invalidationComplete _ => none
  | .translationWalkEnd _ _ => none
  | .stallWireDrop _ => none
  | .dramUe _ => none
  | .linkTrainingEnd _ _ => none
  | .linkAttestEnd _ _ _ => none
  | .linkErrorBurst _ => none
  | .flitReceive _ _ _ _ _ _ => none
  | .rolloverStart _ _ => none
  | .rolloverAck _ _ => none
  | .rolloverEnd _ _ => none
  | .domainStallRaise _ => none
  | .domainStallDrop _ => none
  | .hostLinkRetrain => none
  | .ideKeyRefresh => none
  | .hostErrorCompletion _ _ _ => none
  | .ideKm _ _ => none
  | .tdispLock _ => none
  | .tdispRun _ => none
  | .tdispError _ => none
  | .flr _ => none
  | .ksldCheckEnd _ _ => none
  | .doorbell _ _ _ => none
  | .queueEnable _ _ => none
  | .queueDisable _ _ => none
  | .queueSelect _ => none
  | .timeSliceEnd _ => none
  | .launchPacket _ _ => none
  | .selectPacket _ _ => none
  | .signalPacketWait _ _ => none
  | .signalPacketAdd _ _ => none
  | .signalPacketSet _ _ => none
  | .queueWaitEnd _ _ => none
  | .packetComplete _ _ => none
  | .signalOperation _ => none
  | .swcmd _ _ _ => none
  | .unbar _ => none
  | .glimWrite _ _ => none
  | .contextBind _ => none
  | .contextUnbind _ => none
  | .scrub _ => none
  | .scrubComplete _ => none
  | .ctxenSet _ => none
  | .ctxenClear _ => none
  | .plheadWrite _ _ => none
  | .s2go _ => none
  | .guarWrite _ _ => none
  | .burstWrite _ _ => none
  | .partitionWrite _ _ _ => none
  | .powerCapWrite _ => none
  | .peerEntryWrite _ _ _ => none
  | .peeridWrite _ _ => none
  | .ksvf _ _ => none
  | .keySlotLoad _ _ _ => none
  | .keySlotClr _ _ _ => none
  | .registerWrite _ _ => none
  | .remoteInvalidation _ _ _ _ _ => none
  | .peerFaultAnswer _ _ _ _ => none
  | .peerPairConfirm _ _ => none

/-- The two words of an instruction as one number: the first in bits 63..0, the engine operand in bits 127..64.  An event
answers none. -/
def encode (i : Instr) : Option Nat := (words i).map fun w => w.1 + w.2 * 2 ^ 64

end Sys2Proof
end

