-- ==== Sys2Proof/Machine/State.lean ====
section
/-! DEFINITION. The state of one Glimet G3 package as plain data, the reasons a step can stop, and the machine right after reset.
Every field names the rule of the spec that gives it; the fields that are the model's own are said to be so. -/

namespace Sys2Proof.Machine

/-- A table: values by number in rising order, every number not listed holding the table's stated default. -/
abbrev Tab (α : Type) := List (Nat × α)

/-- Bytes of a memory by address, strictly rising, no byte equal to what an unlisted address reads as. -/
abbrev Memory := List Host.Cell

/-- What a byte that nothing has written reads as (assumption 2). -/
def unlisted : Byte := 0

/-- The canonical form of a memory: addresses strictly rising and no entry that an unlisted address would read as. -/
def Memory.wf : Memory → Bool
  | [] => true
  | [c] => c.2 != unlisted
  | c :: d :: m => c.2 != unlisted && c.1 < d.1 && Memory.wf (d :: m)

/-- One lane of a vector register: 32 bits and its poison tag (03_tile.md R65). -/
structure Lane where
  bits : BitVec 32
  tag : Bool
deriving DecidableEq, Repr

/-- A scalar register: 64 bits and its poison tag (R65). -/
structure Scal where
  bits : BitVec 64
  tag : Bool
deriving DecidableEq, Repr

/-- A capability: 128 bits and the tag kept out of band (09_page.md R200). -/
structure Cap where
  bits : BitVec 128
  tag : Bool
deriving DecidableEq, Repr

/-- The lanes of a vector-width value, lane 0 first; a lane beyond the list is zero with its tag clear. -/
abbrev Vec := List Lane

/-- A loop level (R79, R118; the stopped flag and the resume values of R81). -/
structure Loop where
  active : Bool := false
  start : Nat := 0
  stop : Nat := 0
  x : Nat := 0
  f : Nat := 0
  p : Nat := 0
  n : Nat := 1
  kind : Nat := 0
  pre : Bool := false
  stopped : Bool := false
  xr : Nat := 0
  fr : Nat := 0
deriving DecidableEq, Repr

/-- The trap registers of 16_context.md Table 144. `tstat` holds `SKIP` and the reserved fields as written. -/
structure TrapRegs where
  tstat : BitVec 64 := 0
  tcause : BitVec 8 := 0
  tpc : BitVec 32 := 0
  trpc : BitVec 32 := 0
  tval : BitVec 64 := 0
  tvec : BitVec 32 := 0
  tahead : BitVec 24 := 0
  trec : List (BitVec 64) := []
deriving DecidableEq, Repr

/-- One cycle of a spill or a fill of the register window (05_control_scalar.md R117). -/
inductive WinOp where
  | spill (u : Nat)
  | spillLink (u ret : Nat)
  | fill (u : Nat)
  | idle
deriving DecidableEq, Repr

/-- A front end with its registers: of a tile, or of a die's Sorrel (R65, R67, R79, R100, R115, R118, R346). -/
structure Core where
  /-- Byte offset of the next word to handle in the stream (R84). -/
  pc : Nat := 0
  /-- The 512 physical scalar registers (R67). -/
  sreg : Tab Scal := []
  /-- `q1` to `q15`: value and poison tag. -/
  q : Tab (Bool × Bool) := []
  /-- `c1` to `c15`. -/
  c : Tab Cap := []
  /-- `rl0` to `rl15`, of a tile. -/
  rl : Tab Cap := []
  /-- The window counts W and Lo. -/
  w : Nat := 0
  lo : Nat := 0
  /-- The eight loop levels and their pending stage counts (default 1). -/
  loops : Tab Loop := []
  pend : Tab Nat := []
  trap : TrapRegs := {}
  /-- `halt` has been handled (R121); on Sorrel, halted by a trap (R349). -/
  halted : Bool := false
  /-- Stopped for a freeze (R119). -/
  stopped : Bool := false
  /-- The step a `stepw` waits for (R120). -/
  stepw : Option Nat := none
  /-- The cycles a `call` or `ret` still takes (R117). -/
  win : List WinOp := []
  /-- Units of a Sorrel's `ret` that have been read: the cycles until each is written, and its registers (R117, R136). -/
  filled : List (Nat × List (Nat × Scal)) := []
  /-- A Sorrel word that has not completed holds the front end: what it waits for, and the number of that (R218, R321, R352). -/
  hold : Option (Nat × Nat) := none
  /-- The register that takes the status of the held word. -/
  holdA : Nat := 0
  /-- PC where the front end dispatch stopped when a queue trapped (R348). -/
  feHalted : Bool := false
  feStopped : Bool := false
  fePc : Nat := 0
  /-- Physical scalar registers, and 512 + n for `cN`, that a front-end word has written in this cycle (R69). -/
  wrote : List Nat := []
deriving DecidableEq, Repr

/-- A word in the L, C or S queue, with the registers it took at dispatch (R58) and its place in program order. -/
structure QEntry where
  instr : Instr
  pc : Nat
  w0 : Nat
  w1 : Nat
  seq : Nat
  /-- The first schedule cycle in which it may issue (R61). -/
  disp : Nat
  pred : Bool
  snap : Core
deriving DecidableEq, Repr

/-- A destination a result is written to. -/
inductive Dest where
  /-- Register specifier, the value and the lanes written. -/
  | vec (r : Nat) (v : Vec) (act : BitVec 64)
  | scal (phys : Nat) (v : Scal)
  | cap (n : Nat) (v : Cap)
  | mask (n : Nat) (v : BitVec 64) (act : BitVec 64)
deriving DecidableEq, Repr

/-- A due-list entry: a result not yet written (R69, R78) and the pushes its word makes when it is (R62). -/
structure Due where
  at_ : Nat
  seq : Nat
  q : Nat
  dst : List Dest
  /-- The `y` register of the pipe and the register whose image it takes (R66). -/
  y : Option (Nat × Nat)
  pshl : Bool
  pshr : Bool
  /-- The DRAM access whose sample gives the value. -/
  acc : Option Nat
deriving DecidableEq, Repr

/-- How a DRAM load's bytes become its destination (R180). -/
inductive LoadForm where
  | scal (phys : Nat) (sgn : Bool)
  | vec (r : Nat) (act : BitVec 64)
  /-- One access of every active lane with the same bytes (`ldvb`). -/
  | splat (r : Nat) (act : BitVec 64)
  | cap (n : Nat) (tagOk : Bool)
  /-- A record of `spl` (R185): lanes 0 to 63, and then their tags. -/
  | rec_ (r : Nat)
deriving DecidableEq, Repr

/-- One byte range of an access: lane, byte offset in the object, and for a store its bytes. -/
structure Part where
  lane : Nat
  off : Nat
  n : Nat
  data : List Byte
deriving DecidableEq, Repr

/-- A DRAM access of a queue issued and not yet sampled or landed (08_memory_order.md R187), or an SRAM load that waits behind one for the numbers of its
origins. -/
structure DAcc where
  /-- Issue order in the tile. -/
  id : Nat
  pc : Nat
  w0 : Nat
  step : Nat
  write : Bool
  /-- Stores before a `feno` have a smaller epoch than those after it (R191). -/
  epoch : Nat
  oid : Nat
  parts : List Part
  form : Option LoadForm
  /-- A capability store's tag (R182). -/
  ctag : Option Bool
  /-- 0 travelling, 1 a walk is outstanding, 2 a fault record waits for its answer, 3 sampled. -/
  st : Nat
  left : Nat
  /-- The sampled value of a load. -/
  val : List Dest
  /-- A scratchpad or pool load whose origins are numbered after those of an older load that a fault holds (R45): the uncorrectable granules it read, by
  offset and number; its parts have the bytes, as it sampled them at issue. -/
  ues : Option (List (Nat × Nat))
deriving DecidableEq, Repr

/-- A command in the ME queue (11_matrix.md R238, R242, R249). -/
structure MeCmd where
  id : Nat
  instr : Instr
  pc : Nat
  w0 : Nat
  w1 : Nat
  cap : Cap
  off : Int
  shape : BitVec 64
  started : Bool
  /-- Rows or records done; `finished` when only the time to completion is left. -/
  row : Nat
  finished : Bool
  left : Nat
  /-- 0 none, 1 walk outstanding, 2 fault record waits. -/
  park : Nat
  /-- UE origins of granules already met in this command. -/
  ue : Tab Nat
  /-- Gang load number (R255), 0 when it takes part in none; the members whose paired `mxrp` has completed. -/
  gang : Nat
  got : List Nat
  /-- Stores of the tile that issued before it (R250). -/
  ord : Nat
deriving DecidableEq, Repr

/-- A piece of a copy: destination and source offsets in their objects, length, and its place in the command. -/
structure Piece where
  d : Option Nat
  f : Option Nat
  n : Nat
  i : Nat
deriving DecidableEq, Repr

/-- Bytes of a piece that lie in a granule with an uncorrectable error (R274): first byte and count, the granule, its offset in the object. -/
structure UePart where
  at_ : Nat
  n : Nat
  gran : Nat
  off : Nat
deriving DecidableEq, Repr

/-- Source bytes of a piece as they were read: its place, the bytes, those that are uncorrectable, and the tags of its granules. -/
structure ReadBuf where
  i : Nat
  bytes : List Byte
  ues : List UePart
  tags : List Bool
deriving DecidableEq, Repr

/-- A command of the XE (12_copy.md R266 to R269). -/
structure XeCmd where
  /-- Engine sequence number. -/
  seq : Nat
  instr : Instr
  pc : Nat
  w0 : Nat
  w1 : Nat
  /-- Destination and source objects and offsets; the operand's offset for an indexed side. -/
  dobj : Option Nat
  dofs : Int
  fobj : Option Nat
  fofs : Int
  dcap : Cap
  fcap : Cap
  /-- The tile whose memory the command's landings or its signal reach. -/
  dtile : Option Nat
  /-- Stores of the tile that issued before it (R194). -/
  ord : Nat
  len : Nat
  /-- The scalars of `FSX`, `LSX`, `LSX`+1 and `LSX`+2 as taken at dispatch. -/
  vals : List Nat
  /-- Due step of an accumulate (R276). -/
  due : Nat
  started : Bool := false
  /-- The progress record: bytes done (R266), the pieces still to do, and the source bytes read, by place in the command. -/
  prog : Nat := 0
  todo : List Piece := []
  buf : List ReadBuf := []
  /-- Destination bytes that hold bytes of an uncorrectable granule, with the id (R274). -/
  pois : List (Nat × Nat) := []
  /-- What a command toward a peer lands there, in order: offset, bytes, and for `xcp.t` the tags of their granules (R270, R273). -/
  out : List (Nat × List Byte × List Bool) := []
  /-- The trap a failing element of `xcg` ends with. -/
  bad : Option (Nat × Nat) := none
  /-- Every byte has landed; the cycles until it completes. -/
  finished : Bool := false
  left : Nat := 0
  /-- 0 none, 1 walk outstanding, 2 fault record waits, 3 it waits for the peer (R270), 4 for the hub (R283). -/
  park : Nat := 0
  /-- The ids of the granules that have been numbered (R45). -/
  ue : Tab Nat := []
  /-- The arrivals of an accumulate: offset, value, poison. They are in at their port; they have been applied. -/
  elems : List (Nat × BitVec 32 × Option Nat) := []
  ain : Bool := false
  applied : Bool := false
  /-- Toward a peer: its port has told the old value, and the origins it made for the command that are not numbered yet (R277, R278). -/
  told : Bool := false
  porg : List Nat := []
  /-- The result entry: value and status. -/
  res : Nat × Nat := (0, 0)
  /-- Domain step since which a close waits for it (R276). -/
  late : Option Nat := none
deriving DecidableEq, Repr

/-- A pending count change of R223: class (1 `semi`, 2 `sems`, 3 engine, 4 remote), order in its class, physical semaphore, amount, and the word or
command that raises SEMOVF: semaphore name, PC, agent and tile. Agent 6 is the XE of a peer package: `pc` is the number of its increment, `src` the
port that brought it. -/
structure SemOp where
  kind : Nat
  ord : Nat
  phys : Nat
  amount : Nat
  en : Nat
  pc : Nat
  w0 : Nat
  agent : Nat
  src : Nat
deriving DecidableEq, Repr

/-- A remote signal increment on its way (R196, R225): the tile it goes to, the semaphore, and the command that sent it. One toward a peer
package names the port, word 1 and the id of the capability that authorises it, and stands until the peer has answered. -/
structure RemInc where
  id : Nat
  dtile : Nat
  en : Nat
  amount : Nat
  tile : Nat
  seq : Nat
  pc : Nat
  w0 : Nat
  left : Nat
  peer : Option (Nat × Nat × Nat) := none
  sent : Bool := false
deriving DecidableEq, Repr

/-- A probe on its way (R235): the identities on its path, the sender first, and the agent it goes to. -/
structure Probe where
  id : Nat
  path : List (BitVec 32)
  sender : Nat
  tile : Nat
  agent : Nat
  left : Nat
deriving DecidableEq, Repr

/-- A semaphore map entry (10_barrier.md R222). -/
structure SMapE where
  valid : Bool := false
  phys : Nat := 0
deriving DecidableEq, Repr

/-- A blocked agent: identity published and blocked-step count (R235). -/
structure Block where
  ident : BitVec 32
  count : Nat
  pc : Nat
  /-- The word or command that is blocked, by its program-order number or its number in its engine. -/
  key : Nat
  /-- The close brought the count to a multiple of 4,096 and the probe has not been sent. -/
  due : Bool
deriving DecidableEq, Repr

/-- A `fenr` or `fenq` that holds the S queue (R192, R193). -/
structure Fence where
  rel : Bool
  scope : Nat
  all : Bool
  /-- Accesses and copy commands issued before it. -/
  ord : Nat
  xseq : Nat
  /-- The requests of a `fenr` have been sent; owners that have not acknowledged. -/
  asked : Bool
  owners : List Nat
  seq : Nat
  pshl : Bool
  pshr : Bool
  left : Nat
deriving DecidableEq, Repr

/-- A tile (03_tile.md R54). -/
structure Tile where
  core : Core := {}
  /-- The region handle and region tile index it runs for, 0 when none. -/
  rgn : Nat := 0
  tix : Nat := 0
  /-- `v`, `o`, `y` by register specifier. -/
  vreg : Tab Vec := []
  j : Tab (BitVec 64) := []
  /-- `h0` to `h3` at 0 to 3, the shadows at 4 to 7. -/
  h : Tab (BitVec 64) := []
  lq : List QEntry := []
  cq : List QEntry := []
  sq : List QEntry := []
  /-- Program-order number of the next word handled. -/
  seqno : Nat := 0
  /-- Queues that have issued in this cycle (R61). -/
  issued : List Nat := []
  /-- The queue that took the first word of this cycle's fetch pair, while a second may follow it (R56). -/
  pair : Option Nat := none
  /-- Token counts in `TOKF` order: L→C, C→S, S→L, L→S, S→C, C→L. -/
  tok : Tab Nat := []
  /-- Pushes that wait for space, oldest first: program-order number and FIFO (R63). -/
  pushw : List (Nat × Nat) := []
  /-- Pushes made in this cycle, added at its end: program-order number and FIFO. -/
  pushnow : List (Nat × Nat) := []
  due : List Due := []
  dacc : List DAcc := []
  dord : Nat := 0
  depoch : Nat := 0
  step : Nat := 0
  cyc : Nat := 0
  /-- Started and not frozen out of its region's schedule. -/
  live : Bool := false
  psnc : Tab Nat := []
  /-- Forwarding table: byte ranges of `spl` words in flight, by program-order number (R186). -/
  fwd : List (Nat × Nat) := []
  wph : Tab (BitVec 16) := []
  bndc : Nat := 0
  rstep : Nat := 0
  rcyc : Nat := 0
  roff : Nat := 0
  /-- Region schedule step of the boundary at which the tile stopped. -/
  bstep : Nat := 0
  sem : Tab (BitVec 16) := []
  smap0 : Tab SMapE := []
  smap1 : Tab SMapE := []
  semops : List SemOp := []
  semTaken : Tab Nat := []
  /-- By physical semaphore: the DRAM stores that the last `sems` of the S queue released to the tile's engines (R226). -/
  semOrd : Tab Nat := []
  scr : Memory := []
  scrTag : List Nat := []
  scrUE : List Nat := []
  /-- Matrix engine (11_matrix.md Table 97): rows of the accumulator, the cells (sum or FP32 bits), their poison ids, n, the pending
  key as class and scale codes. -/
  acc : Tab (List (BitVec 32)) := []
  cell : Tab (List Int) := []
  cellp : Tab (List (Option Nat)) := []
  celln : Nat := 0
  keyCls : Nat := 3
  keyA : List Nat := []
  keyB : List Nat := []
  bank : Tab (List Byte) := []
  side : Tab Nat := []
  gsize : Nat := 1
  gpos : Nat := 0
  /-- Gang loads sent, and received, since the last `mxgng`. -/
  gsent : Nat := 0
  grecv : Nat := 0
  meq : List MeCmd := []
  meid : Nat := 0
  /-- No command starts in the cycle in which one has started (R249, R271). -/
  meStarted : Bool := false
  xeStarted : Bool := false
  /-- An engine trap has stopped further starts (R253, R286). -/
  meDead : Bool := false
  xeDead : Bool := false
  xeq : List XeCmd := []
  xrun : List XeCmd := []
  xfifo : List (BitVec 64) := []
  xseq : Nat := 0
  blk : Tab Block := []
  slot0 : Memory := []
  slot1 : Memory := []
  mag : List (BitVec 32) := []
  ended : Bool := false
  hcyc : Nat := 0
  /-- Issued words of this stream with the cycle, for the ahead count (R344): program-order number and queue. -/
  ahead : List (Nat × Nat) := []
  /-- The tile has trapped and its handler runs or waits for `tret` (R344). -/
  trapped : Bool := false
  /-- After `tret` the tile waits to run the rest of its step alone (R348). -/
  catchup : Bool := false
  fence : Option Fence := none
  /-- `fenr` requests received and not acknowledged: source tile and the bound of the accesses issued before. -/
  fenrIn : List (Nat × Nat) := []
deriving DecidableEq, Repr

/-- A barrier object (R227). `state`: 0 Unbound, 1 Armed, 2 Released, 3 Error. -/
structure Barrier where
  mode : Bool := false
  count : Nat := 0
  arrived : Nat := 0
  phase : BitVec 16 := 0
  state : Nat := 0
  rgn : Nat := 0
deriving DecidableEq, Repr

/-- The pool of a cluster and its controller (R74, R227). -/
structure Pool where
  mem : Memory := []
  tags : List Nat := []
  ue : List Nat := []
  bar : Tab Barrier := []
deriving DecidableEq, Repr

/-- A fault record (09_page.md Table 84) with what its answer must find: the parked requester. -/
structure FaultRec where
  ctx : Nat
  oid : Nat
  srcu : Nat
  wr : Bool
  kind : Nat
  held : Bool
  tix : Nat
  off : Nat
  step : Nat
  rgn : Nat
  seq : Nat
  tile : Nat
  acc : Nat
  /-- The landing of a peer's command that waits for the answer, when a peer's it is (17_link.md R373). -/
  peer : Option Nat := none
deriving DecidableEq, Repr

/-- An object-table walk under way (R209, R217). -/
structure Walk where
  id : Nat
  ctx : Nat
  oid : Nat
  frame : Nat
  off : Nat
  /-- The epoch it reads under, and the one it first started under (R217). -/
  epoch : Nat
  born : Nat
  tile : Nat
  srcu : Nat
  wr : Bool
  acc : Nat
  left : Nat
deriving DecidableEq, Repr

/-- An entry of the extent translation cache (R209): a run of object frames and its first host frame; the guest frame and the
function it maps, for `.gfr`. -/
structure Xlat where
  ctx : Nat
  oid : Nat
  frame : Nat
  run : Nat
  host : Nat
  guest : Nat
  fn : Nat
deriving DecidableEq, Repr

/-- An invalidation that has not completed (R217): the epochs it raised by die, what it waits for, the number of the Sorrel die that waits, or
the function whose `S2GO` asked for it. -/
structure Inval where
  id : Nat
  epochs : List (Nat × Nat)
  /-- Accumulates with an arrival that was translated through a removed entry: a peer's port and 1, or 0; launch sequence number, tile index,
  engine number. -/
  through : List (Nat × Nat × Nat × Nat)
  /-- Glimet ports whose packages cache a removed run and have not said that it is gone, with those runs (17_link.md R373). -/
  ports : List (Nat × List Xlat)
  s2 : Bool
  who : Nat
  left : Nat
deriving DecidableEq, Repr

/-- A compute die (01_architecture.md R22, 17_link.md R362 R379). `state`: 0 Off, 1 Reset, 2 Attesting, 3 Quarantined, 4 Admitted,
5 Running. -/
structure Die where
  state : Nat := 0
  qcode : Nat := 0
  resets : Nat := 0
  /-- Digest of its Sorrel firmware that the boot ROM measured (R359). -/
  fwDigest : Option (BitVec 384) := none
  sorrel : Core := { trap := { tvec := 0xFFFFFFFF } }
  sram : Memory := []
  sem : Tab (BitVec 16) := []
  fbuf : List FaultRec := []
  fheld : List FaultRec := []
  /-- Records popped and not yet answered. -/
  fpop : List FaultRec := []
  fover : Nat := 0
  fseq : Nat := 0
  firq : Bool := false
  epoch : Nat := 0
  etc : List Xlat := []
  walks : List Walk := []
  walkid : Nat := 0
  /-- Migrating frames that were Guaranteed when they became so (R208). -/
  migG : List Nat := []
  /-- The defective tiles, read from fuses in Reset (R18): tile numbers in package coordinates. -/
  defect : List Nat := []
  /-- SHA-384 of the public key of its leaf certificate (R363). -/
  leaf : BitVec 384 := 0
  /-- Lovage's checks of the die have ended in this attempt (Table 153). -/
  checked : Bool := false
deriving DecidableEq, Repr

/-- Why a region's stall wire is raised (R210, R276, R309, R344). -/
structure Stall where
  /-- A fault record of the region is in a buffer, held, or popped and not answered. -/
  fault : Nat := 0
  walk : Nat := 0
  trap : Nat := 0
  late : Bool := false
deriving DecidableEq, Repr

/-- An accumulate arrival that is in at its port (12_copy.md R276, 08 R197): its due step and its key, the word it goes to, the operation
with its type and rounding mode, and the value; for a compare, the value expected. -/
structure Arrival where
  rgn : Nat
  due : Nat
  lseq : Nat
  tix : Nat
  seq : Nat
  elem : Nat
  tile : Nat
  /-- 0 the scratchpad of tile `unit`, 1 the pool of cluster `unit`, 2 DRAM, 3 a peer's memory. -/
  space : Nat
  unit : Nat
  addr : Nat
  op : Nat
  ty : Nat
  rm : Nat
  v : BitVec 32
  vp : Option Nat
  exp : Option (BitVec 32)
  pc : Nat
  w0 : Nat
  /-- The translation it went through, of one frame. -/
  via : Option Xlat := none
  /-- The Glimet port that brought it, when it is a peer's. -/
  port : Option Nat := none
deriving DecidableEq, Repr

/-- What a launch takes from its packet and its slot (13_kernel.md, 15_queue.md R322, R327 to R330). -/
structure Launch where
  ctx : Nat := 0
  q : Nat := 0
  n : Nat := 0
  slot : Nat := 0
  stage : Nat := 0
  lseq : Nat := 0
  rl : List Cap := []
  args : List Byte := []
  hmask : Nat := 0
  rcpt : Bool := false
  ecdsa : Bool := false
  sigh : Nat := 0xFFFF
  sigop : Nat := 0
  sigval : Nat := 0
  /-- Which taking of the handle the packet found at stage 2 (R336). -/
  sinst : Nat := 0
  nonce : List Byte := []
  before : BitVec 384 := 0
  argd : BitVec 384 := 0
  code : Nat := 0
  rgn : Nat := 0
  /-- Chain entries before the launch's argument entry, and the slot's code digest at stage 3 (R358). -/
  nch : Nat := 0
  dig : BitVec 384 := 0
deriving DecidableEq, Repr

/-- The trap report of 16_context.md Table 145. -/
structure Report where
  cause : Nat := 0
  srca : Nat := 0
  nest : Bool := false
  tix : Nat := 0
  pc : Nat := 0
  val : Nat := 0
  step : Nat := 0
  /-- Cycle of the step, by which reports are ordered (R350). -/
  cyc : Nat := 0
  lseq : Nat := 0
  words : List (BitVec 64) := []
deriving DecidableEq, Repr

/-- A barrier arrival or byte credit and the region step of its close (R228, R280): home pool, slot, mode (true bytes), amount. -/
structure BarArr where
  step : Nat
  pool : Nat
  slot : Nat
  mode : Bool
  amount : Nat
deriving DecidableEq, Repr

/-- A region record (14_group.md Table 124, R310 to R318). -/
structure Region where
  /-- As `STATE` of Table 124; Stalled is shown while a wire is up and the state is one it is entered from. -/
  state : Nat := 0
  preq : Bool := false
  hold : Bool := false
  out : Bool := false
  ctx : Nat := 0
  slot : Nat := 0
  ox : Nat := 0
  oy : Nat := 0
  rot : Nat := 0
  bank : Nat := 0
  w : Nat := 0
  h : Nat := 0
  seam0 : Nat := 0
  seam1 : Nat := 0
  tw : List Nat := []
  tgt : Nat := 0
  sstep : Nat := 0
  savef : Nat := 0
  /-- Steps still to pass before column 0 starts. -/
  startIn : Nat := 0
  /-- Columns started so far; the offset of a resume. -/
  resume : Bool := false
  /-- Region schedule step of the current step (R310). -/
  rstep : Nat := 0
  /-- The schedule stands still in this domain step. -/
  frozen : Bool := false
  /-- A schedule step is under way and not closed. -/
  mid : Bool := false
  /-- Region step at which the first tile of a resume starts. -/
  rbase : Nat := 0
  /-- A `rgpre` waits for a step close, a `rgfrz.hold` for a step boundary. -/
  preReq : Bool := false
  holdReq : Bool := false
  stall : Stall := {}
  launch : Launch := {}
  /-- The kernel image as it stood at launch (R103), by byte offset. -/
  image : Memory := []
  /-- Area of `savc`, its first frame, while the slots are out (R352). -/
  slotsOut : Option Nat := none
  /-- Where a Moving region goes: rotation, origin, bank (R318). -/
  move : Option (Nat × Nat × Nat × Nat) := none
  /-- A transfer that a Sorrel word has under way: 0 `rgmov.out`, 1 `savc`, 2 `rstc`; its first frame; the bank it fills (R316, R352). -/
  op : Option (Nat × Nat × Nat) := none
  /-- Dies whose reset faulted the region: their tiles are no longer its own (R312). -/
  lost : List Nat := []
  /-- Causes of `smap.adj` that wait for a tile's next word: region tile index, cause, `TVAL` (R221, R232). -/
  adj : List (Nat × Nat × Nat) := []
  /-- The loop table: kind and pre-emptible flag by level (R289). -/
  loops : Tab (Nat × Bool) := []
  /-- Origins of the launch and their smallest id (R355); executed steps; result word candidate. -/
  origins : Nat := 0
  minid : Nat := 0
  xsteps : Nat := 0
  rword : Option (Nat × Nat × BitVec 32) := none
  /-- The trap that ended the grid: cause, source, nest, tile index, pc, value, step, record. -/
  report : Option Report := none
  /-- Barrier arrivals by region step of application: step, home cluster, slot, mode, amount (R228). -/
  barq : List BarArr := []
deriving DecidableEq, Repr

/-- A kernel slot of a context (R296). `state`: 0 Empty, 1 Loading, 2 Measured, 3 Resident, 4 In use, 5 Evicting. -/
structure Slot where
  state : Nat := 0
  digest : BitVec 384 := 0
  len : Nat := 0
  frame : Nat := 0
  count : Nat := 0
  loading : List Nat := []
deriving DecidableEq, Repr

/-- Half of a control block (15_queue.md Table 135). -/
structure CtlHalf where
  qrd : Nat := 0
  qstate : Nat := 0
  waitk : Nat := 0
  selr : Nat := 0
  selk : Nat := 0
  lrw : Nat := 0
  lstat : Nat := 0
  rgn : Nat := 0
deriving DecidableEq, Repr

/-- A queue of a context with its control block (15_queue.md Table 130, Table 135, R333, R334). -/
structure Queue where
  qbase : Nat := 0
  size : Nat := 0
  prio : Nat := 3
  en : Bool := false
  qwr : Nat := 0
  seq : Nat := 0
  half0 : CtlHalf := {}
  half1 : CtlHalf := {}
  /-- Sequence of the last signal operation applied for it (R333). -/
  lastseq : Nat := 0
  launch : Option Launch := none
  /-- The packet under way as it was read at stage 2 (R327), and the code, cause and result word it completes with. -/
  pkt : List Byte := []
  done : Option (Nat × Nat × Nat) := none
  /-- `STAT` and `RWORD` have landed and the signal operation has been sent (R333). -/
  landed : Bool := false
  /-- The followers of a malformed select complete with code 1 (R328). -/
  selBad : Bool := false
  /-- How a device-side waiter was released: the code the packet completes with (R330). -/
  woke : Option Nat := none
  /-- The count of regions returned when placement was last refused (R330). -/
  freed : Nat := 0
deriving DecidableEq, Repr

/-- An event of the host that reaches one context. One that comes while the context is Scrubbing is applied after the scrub (R342). -/
inductive CtxEv where
  | doorbell (c q v : Nat)
  | queueEnable (c q : Nat)
  | queueDisable (c q : Nat)
  | swcmd (fn iface v : Nat)
  | unbar (c : Nat)
  | contextUnbind (c : Nat)
  | scrub (c : Nat)
  | ctxenSet (c : Nat)
  | ctxenClear (c : Nat)
  | plheadWrite (c v : Nat)
  | contextBind (c : Nat)
  | register (reg : HostReg) (v : Nat)
  | hostError (c q : Nat)
deriving DecidableEq, Repr

/-- A context (16_context.md Table 141, Table 142). `state` as `CSTATE`. -/
structure Ctx where
  state : Nat := 0
  vf : Nat := 0
  iface : Nat := 0
  scrubbed : Bool := false
  savab : Bool := false
  bindc : Nat := 0
  otbase : Nat := 0
  seed : BitVec 64 := 0
  magtab : Nat := 0
  plbase : Nat := 0
  pllen : Nat := 0
  plhead : Nat := 0
  pldrop : Nat := 0
  rcbase : Nat := 0
  rclen : Nat := 0
  rcnt : Nat := 0
  ctxen : Bool := false
  pclr : Bool := false
  chain : BitVec 384 := 0
  chainn : Nat := 0
  guilt : Nat := 0
  barred : Bool := false
  slots : Tab Slot := []
  /-- Barrier map: handle to region cluster's package cluster and slot (R227). -/
  bmap : Tab (Nat × Nat) := []
  queues : Tab Queue := []
  /-- Peer entries (17_link.md Table 155). -/
  peers : Tab (BitVec 64) := []
  /-- A scrub under way: 0 none, 1 by SCRUB, 2 from Barred, 3 by FLR. -/
  scrub : Nat := 0
  /-- Events that reached the context while it was Scrubbing (R342). -/
  deferred : List CtxEv := []
  /-- The queue last served at each priority (R331). -/
  rr : Tab Nat := []
deriving DecidableEq, Repr

/-- A signal handle (15_queue.md R336). -/
structure Signal where
  owner : Nat := 0
  used : Bool := false
  value : BitVec 64 := 0
  /-- Which taking of the handle this is: the hub tells an operation of an earlier owner by it (R336). -/
  inst : Nat := 0
deriving DecidableEq, Repr

/-- A registered waiter (R337): a host interface (function, interface, vector) or a queue's signal packet. -/
structure Waiter where
  handle : Nat
  target : BitVec 64
  fn : Nat
  iface : Nat
  vec : Nat
  mirror : Nat
  isQueue : Bool
  ctx : Nat
  q : Nat
deriving DecidableEq, Repr

/-- A tagged signal operation on its way to the hub (R333, R336). -/
structure SigOp where
  id : Nat
  handle : Nat
  op : Nat
  value : BitVec 64
  ctx : Nat
  q : Nat
  seq : Nat
  /-- Which taking of the handle it is meant for (R336). -/
  inst : Nat := 0
deriving DecidableEq, Repr

/-- A key slot of the hub cipher (17_link.md Table 156) with its staged fields. -/
structure KeySlot where
  valid : Bool := false
  owner : Nat := 0
  key : BitVec 256 := 0
  last : BitVec 64 := 0
  stKey : BitVec 256 := 0
  stOwner : Nat := 0
  stLast : BitVec 64 := 0
deriving DecidableEq, Repr

/-- The registers of a function: frame budget (09 Table 82), partition (14 Table 122), scheduling (15 Table 133), interfaces
(15 Table 138), TDISP and IDE (17 R375). -/
structure Fn where
  guar : Nat := 0
  burst : Nat := 0
  used : Nat := 0
  gbase : Nat := 0
  glen : Nat := 0
  s2first : Nat := 0
  s2count : Nat := 0
  s2busy : Bool := false
  s2done : Bool := false
  pcg : Nat := 0
  clmask : Nat := 0
  twq : List Nat := []
  slice : Nat := 9
  glim : Nat := 64
  /-- Regions of the function that have reached Unplaced (R330). -/
  freed : Nat := 0
  /-- The context whose interface holds the time slice (R331). -/
  holder : Option Nat := none
  /-- What is left of the time slice, in ns (R331). -/
  sliceLeft : Nat := 0
  swt : Tab (BitVec 64) := []
  swmir : Tab Nat := []
  swsts : Tab Nat := []
  pasid : Tab Nat := []
  /-- The trap report at offset 0xC80 of each interface block (16_context.md R350). -/
  reports : Tab Report := []
  /-- 0 CONFIG_UNLOCKED, 1 CONFIG_LOCKED, 2 RUN, 3 ERROR. -/
  tdisp : Nat := 0
  idekm : Bool := false
  idekey : BitVec 256 := 0
deriving DecidableEq, Repr

/-- One direction of a link (17_link.md R367 to R369): 0 from the lower end to the higher end. Its keys follow from what it holds
(`linkKey`). -/
structure Dir where
  /-- Generation with which the sender sends. -/
  gen : Nat := 0
  /-- A rollover is under way; the receiver holds two generations; the sender has switched. -/
  roll : Bool := false
  two : Bool := false
  sw : Bool := false
  /-- A request that waits until the link is Running. -/
  wait : Bool := false
  /-- Oldest generation the receiver delivers, the next counter of it, and the flits that wait for earlier ones. -/
  rgen : Nat := 0
  rcnt : Nat := 0
  held : List (Nat × Nat) := []
  /-- The sender's flit counter: the flits sent in its generation; how many the generation before it had, once known; flits it may not send before
  it switches (R367, R368). -/
  scnt : Nat := 0
  slast : Option Nat := none
  stop : List (List Byte) := []
  /-- Flits sent and not acknowledged, for a replay bit for bit: generation, counter, payload (R367, R369). -/
  sent : List (Nat × Nat × List Byte) := []
  /-- Tag failures in a row. -/
  fails : Nat := 0
deriving DecidableEq, Repr

/-- A link (17_link.md R361, R365). `state`: 0 Down, 1 Training, 2 Attesting, 3 Keyed, 4 Aligned, 5 Running, 6 Rekeying, 7 Quarantined,
8 Failed. -/
structure Link where
  state : Nat := 0
  qcode : Nat := 0
  /-- The training under way is a retrain, with its keys kept; the retrain count has been raised for it. -/
  retrain : Bool := false
  d0 : Dir := {}
  d1 : Dir := {}
  /-- The attested identity of a Glimet peer (R377). -/
  peer : BitVec 384 := 0
  /-- The peer's domain as last heard: members, the diameter of the joined domain, and how far its step count is ahead of ours (R370). -/
  pmem : List Nat := []
  pdia : Nat := 0
  pofs : Int := 0
  /-- Columns of the region in Running of a context of the peer, as last told: which of its tiles share a pool (R270, R271). -/
  pwid : Tab Nat := []
  /-- Attestations of the link that have ended well: which secret its keys come from (R365). -/
  sess : Nat := 0
  /-- The port raises the domain stall wire (R371). -/
  stall : Bool := false
  /-- Remote translations cached for the port; runs of this package that the peer caches; and what the peer invalidates while commands that went
  through it are in flight: context, object, first frame, count, and those commands by tile and number (R373). -/
  cache : List Xlat := []
  served : List Xlat := []
  rinv : List ((Nat × Nat × Nat × Nat) × List (Nat × Nat)) := []
deriving DecidableEq, Repr

/-- A message to an agent outside the package: what was sent and its numbers. -/
structure Msg where
  kind : String
  args : List Nat
deriving DecidableEq, Repr

/-- A telemetry snapshot and its control (01_architecture.md R27 to R30). -/
structure Snapshot where
  busy : Bool := false
  valid : Bool := false
  seq : Nat := 0
  recs : Tab Nat := []
  /-- The records as they stood at the instant of the request, and the step boundaries that pass before it completes. -/
  next : Tab Nat := []
  left : Nat := 0
deriving DecidableEq, Repr

/-- The bytes of a peer's command that land in this package (12_copy.md R270, 17_link.md R373): the port, the paired context and its region; the tile
whose memory it is with `DR` = 1; the object, the offset, the bytes; tile index and step of the requester; whether it waits at a fault; the tags of
the bytes' granules when the command copies them; and, for an element of an accumulate, its arrival, which lands no bytes of its own. -/
structure PeerStore where
  id : Nat
  port : Nat
  ctx : Nat
  rgn : Nat
  dtx : Option Nat
  oid : Nat
  off : Nat
  data : List Byte
  tix : Nat
  step : Nat
  parked : Bool := false
  tags : List Bool := []
  arr : Option Arrival := none
deriving DecidableEq, Repr

/-- What the host reads (00_scope.md R7): a writable field, or a word whose fields have their own events or are read only. -/
inductive HostRead where
  | field (r : HostReg)
  /-- 09_page.md Table 82. -/
  | guar (fn : Nat)
  | burst (fn : Nat)
  | used (fn : Nat)
  | s2sts (fn : Nat)
  /-- 14_group.md Table 122, and `CAPW` with `STEPM`. -/
  | part (fn : Nat) (f : PartField)
  | power
  /-- 15_queue.md Table 130, Table 133, Table 137, Table 138. -/
  | queueEn (c q : Nat)
  | qrd (c q : Nat)
  | qstate (c q : Nat)
  | glim (fn : Nat)
  | ctxg (c : Nat)
  | swsts (fn i : Nat)
  /-- 16_context.md Table 141, Table 142, and word i of the trap report of an interface. -/
  | ctl (c : Nat)
  | bindc (c : Nat)
  | plhead (c : Nat)
  | pldrop (c : Nat)
  | rcnt (c : Nat)
  | ctxen (c : Nat)
  | report (fn iface i : Nat)
  /-- 17_link.md Table 155 to Table 157, R376. -/
  | peer (c e : Nat)
  | peerid (p : Nat)
  | ppkg (p : Nat)
  | lstate (p : Nat)
  | ksvf (n : Nat)
  /-- A field that only takes writes: `QWR`, `SCRUB`, `GO`, `S2GO`, `LOAD` and the like. -/
  | writeOnly
deriving DecidableEq, Repr

/-- A peer's increment of a semaphore (10_barrier.md R223, 12_copy.md R272, R281): the port, its number there, the paired context, the tile and the
semaphore, the amount, and its place in R223's order: tile index and engine sequence number of the command that makes it. -/
structure PeerSig where
  port : Nat
  n : Nat
  ctx : Nat
  dtx : Nat
  en : Nat
  amount : Nat
  tix : Nat
  seq : Nat
deriving DecidableEq, Repr

/-- What an outside agent does next: an event of the table, an access of its own memory or of a register, or what the packages and parts around
the device do. -/
inductive Input where
  | event (delay : Nat) (i : Instr)
  /-- The host writes its memory in the address space of a PASID (17_link.md R374). -/
  | hostStore (delay : Nat) (pasid addr : Nat) (data : List Byte)
  /-- The host reads a register; a function's read of its key slot is trusted when it comes on its IDE stream with the T bit (17_link.md R375). -/
  | hostRead (delay : Nat) (r : HostRead) (fn : Nat) (trusted : Bool)
  /-- The physical function reads its telemetry window (01_architecture.md R27, R29). -/
  | winRead (delay : Nat) (off width : Nat)
  /-- A corrected error of a DRAM granule (01_architecture.md R25). -/
  | dramCe (delay : Nat) (addr : Nat)
  /-- What a flash bank holds when the hub reads it: records, retired frames and CRC-32 (01_architecture.md R26). -/
  | flashBank (delay : Nat) (second : Bool) (recs : Tab Nat) (retired : List Nat) (crc : BitVec 32)
  /-- The sender of a direction of link i has a flit with this payload to send (17_link.md R367, R368). -/
  | flitSend (delay : Nat) (i dir : Nat) (payload : List Byte)
  /-- The physical function's driver writes device DRAM, where the guest frame tables lie (09_page.md R205). -/
  | driverStore (delay : Nat) (addr : Nat) (data : List Byte)
  /-- What the package at the far end of Glimet link i says of its domain (R370). -/
  | peerDomain (delay : Nat) (i : Nat) (members : List Nat) (diameter : Nat) (step : Nat)
  /-- The receiver of a direction of link i acknowledges the flits of generation g up to counter n, or has flit n replayed (R367, R369). -/
  | flitAck (delay : Nat) (i dir g n : Nat) (replay : Bool)
  /-- The sender at the far end of a direction of link i has switched: its generation before had n flits (R368). -/
  | flitLast (delay : Nat) (i dir n : Nat)
  /-- The package at the far end of Glimet link i tells how many columns the region in Running of its context c has (R270, R271). -/
  | peerRegion (delay : Nat) (i c w : Nat)
  /-- A peer's copy lands bytes, and with `xcp.t` the tags of their granules, in an object of the context it is paired with; with `DR` = 1 in the
scratchpad or pool of a tile (12_copy.md R270, R273, 17_link.md R373). -/
  | peerStore (delay : Nat) (port c : Nat) (dtx : Option Nat) (oid off : Nat) (data : List Byte) (tags : List Bool) (tix step : Nat)
  /-- A peer's signal raises semaphore `en` of a tile of the context it is paired with (10_barrier.md R223, 12_copy.md R281). -/
  | peerSignal (delay : Nat) (x : PeerSig)
  /-- An element of a peer's accumulate comes for an offset of an object of the context it is paired with, as `peerStore`; where it goes is found here
(12_copy.md R270, R276, 17_link.md R373). -/
  | peerArrival (delay : Nat) (port c : Nat) (dtx : Option Nat) (oid off step : Nat) (a : Arrival)
  /-- The peer's region that runs launch `lseq` closes its step: the arrivals of it due by then are applied (08 R197, 12_copy.md R276). With it comes, for
a command by tile index and engine number, the number that the next origin it makes here takes in its tile's XE (R277). -/
  | peerClose (delay : Nat) (port lseq step : Nat) (nums : List (Nat × Nat × Nat))
  /-- The peer's port, in applying arrivals of a command of tile k, has made an origin of this kind (12_copy.md R277). -/
  | peerOrigin (delay : Nat) (tile seq kind : Nat)
  /-- A peer tells the old value that a returning accumulate of tile k found (12_copy.md R278). -/
  | peerOld (delay : Nat) (tile seq v : Nat)
  /-- A peer answers increment k: 0 made, 1 saturated, 2 its map entry is not valid (12_copy.md R286). -/
  | peerAnswer (delay : Nat) (k code phys : Nat)
  /-- A command of tile k has been lost at the peer, on a way through a link of it that carries no data (17_link.md R364, R366). -/
  | peerLost (delay : Nat) (tile seq link : Nat)
  /-- A command of tile k has met a fault at the peer (17_link.md R373). -/
  | peerFault (delay : Nat) (tile seq : Nat)
  /-- The peer of port i has removed what invalidation k covers (17_link.md R373). -/
  | peerInvalidated (delay : Nat) (i k : Nat)
  /-- The peer of a context's entry has withdrawn or rewritten its mirror entry (17_link.md R372). -/
  | peerUnpair (delay : Nat) (c e : Nat)
deriving DecidableEq, Repr

/-- An event that the device makes of itself, of those in the opcode table (the model's own list of what is due). -/
inductive DevEv where
  | walkEnd (d k : Nat)
  | accAtPort (t k : Nat)
  | fenrRequest (t src : Nat)
  | fenrAck (t owner : Nat)
  | meEnd (t id : Nat)
  | gangImage (t : Nat)
  | xeEnd (t id : Nat)
  | xopnAtHub (t id : Nat)
  | awIn (t id : Nat)
  | remInc (k : Nat)
  | invalEnd (k : Nat)
  | partEnd (t : Nat)
  | handlerLimit (t : Nat)
  | stepClose (rg : Nat)
  | columnStart (rg col : Nat)
  | resumeStart (rg : Nat)
  | freeze (rg : Nat)
  | saveDone (rg : Nat)
  | moveDone (rg : Nat)
  | wireDrop (rg : Nat)
  | awLimit (rg : Nat)
  | probeSend (t a : Nat)
  | probe (k : Nat)
  | queueSelect (v : Nat)
  | sliceEnd (v : Nat)
  | packet (c q : Nat)
  | waitEnd (c q : Nat)
  | packetDone (c q : Nat)
  | sigOp (k : Nat)
  | scrubDone (c : Nat)
  | leaseRenew (d : Nat)
  | leaseLapse
  | ksldEnd (c sl : Nat)
  | snapshotDone (mgmt : Bool)
  /-- A minute with the supply in regulation ends: `PWR_MIN` rises, and the telemetry store goes to flash (01_architecture.md R25, R26). -/
  | minute
  | flashWrite
  /-- A sample of each die's sensors, each ms (01_architecture.md R25). -/
  | sample
  /-- A transfer of `rgmov.out`, `savc` or `rstc` completes (R316, R352; no event of the table). -/
  | opDone (rg : Nat)
  /-- The leading Sorrel returns a region whose launch has completed (R322). No event of the table. -/
  | giveBack (rg : Nat)
deriving DecidableEq, Repr

/-- What is left to do in the current cycle (the model's own): timers; the trial of a tile's queue heads; a front end's word of the cycle;
the issue of a queue; a cycle of the window; the start and the completions of an engine's commands; the end of a tile's, a Sorrel's and
the package's cycle; an event of a host that
a context had deferred; an event of the device; the boundary of a domain step, the events after its closes, and the start of the next. -/
inductive Task where
  | timers
  | trial (k : Nat)
  /-- A front end's slot: of a tile, its first or second; of a Sorrel, the one for a word that resets a die, or for any other (R10). -/
  | fetch (sorrel : Bool) (k : Nat) (second : Bool)
  | issue (k q : Nat)
  | engine (k : Nat) (xe : Bool)
  | window (k : Nat)
  | engineEnds (k : Nat)
  /-- Remote increments whose way takes no cycle. -/
  | arrive
  | endTile (k : Nat)
  | endSorrel (d : Nat)
  | endCycle
  | host (e : CtxEv)
  | dev (e : DevEv)
  | boundary
  | events
  | newStep
deriving DecidableEq, Repr

/-- The agent that executes a word or whose event it is. -/
inductive Agent where
  | tile (k : Nat)
  | sorrel (d : Nat)
  | dev
deriving DecidableEq, Repr

/-- The word being executed: agent, detection point (0 front end, 1 L, 2 C, 3 S), PC, words, program-order number, and for a
queued word the predicate and the registers it took at dispatch (the model's own; R58). -/
structure Cur where
  agent : Agent := .tile 0
  q : Nat := 0
  pc : Nat := 0
  w0 : Nat := 0
  w1 : Nat := 0
  seq : Nat := 0
  pred : Bool := true
  snap : Core := {}
deriving DecidableEq, Repr

/-- The hub (01 R25 to R30, 15 R336, 17 R376). -/
structure Hub where
  /-- Telemetry records by byte offset in their block (01 Table 9). -/
  tel : Tab Nat := []
  host : Snapshot := {}
  mgmt : Snapshot := {}
  /-- The two flash banks: records and retired frames, none where a bank is not valid (R26, R215). -/
  flash0 : Option (Tab Nat × List Nat) := none
  flash1 : Option (Tab Nat × List Nat) := none
  fresh : Bool := false
  retired : List Nat := []
  sig : Tab Signal := []
  waiters : List Waiter := []
  /-- Device waits that ask for a waiter, oldest first: handle, context and queue (R330). -/
  waitq : List (Nat × Nat × Nat) := []
  sigops : List SigOp := []
  sigid : Nat := 0
  /-- Handles taken so far (R336). -/
  sigAlloc : Nat := 0
  keys : Tab KeySlot := []
  lease : Option Nat := none
  leaseLeft : Nat := 0
  lseq : Nat := 0
  capw : Nat := 4500
  /-- The smallest m that the domain's packages request, and the m of the step under way, which follows it at a step boundary (R320). -/
  stepm : Nat := 64
  curm : Nat := 64
  /-- The part of a ns that has passed beyond whole ones; domain steps until the leader renews; ns until the next minute and flash write. -/
  frac : Nat := 0
  renew : Nat := 0
  minLeft : Nat := 60000000000
  /-- Ns since the dies' sensors were last sampled (R25). -/
  msAge : Nat := 0
  ksvf : Tab Nat := []
  peerid : Tab (BitVec 384) := []
deriving DecidableEq, Repr

/-- The sync domain as this package sees it (17 R370, R371). -/
structure Domain where
  step : Nat := 0
  cyc : Nat := 0
  wire : Bool := false
  /-- The schedule stands still in this step. -/
  frozen : Bool := false
  /-- The `PKGID`s of the other members, and the diameter (R370). -/
  members : List Nat := []
  diameter : Nat := 0
  /-- The step after whose close the members freeze (R371). -/
  freezeAt : Option Nat := none
  /-- How far the count to adopt at the next step boundary is ahead (R370). -/
  adopt : Option Int := none
deriving DecidableEq, Repr

/-- The whole package. -/
structure State where
  tiles : Tab Tile := []
  pools : Tab Pool := []
  dram : Memory := []
  dramTag : List Nat := []
  dramUE : List Nat := []
  dies : Tab Die := []
  regions : Tab Region := []
  ctxs : Tab Ctx := []
  fns : Tab Fn := []
  hub : Hub := {}
  links : Tab Link := []
  dom : Domain := {}
  arrivals : List Arrival := []
  /-- Landings of peers' commands that are not done. -/
  pstores : List PeerStore := []
  pstoreid : Nat := 0
  /-- Increments of peers that a frozen domain holds at their port (17_link.md R371). -/
  psigs : List PeerSig := []
  incs : List RemInc := []
  incid : Nat := 0
  probes : List Probe := []
  probeid : Nat := 0
  invals : List Inval := []
  invalid : Nat := 0
  hostMem : Memory := []
  powered : Bool := false
  /-- The model's own: events of outside agents in order, the rest of the current cycle, the word being executed, the counter of
  free values, messages sent to outside agents. -/
  inputs : List Input := []
  agenda : List Task := []
  cur : Cur := {}
  freeCtr : Nat := 0
  outbox : List Msg := []
deriving DecidableEq, Repr

/-- Why the machine stops with a fault. -/
inductive Fault where
  /-- An event names a die, tile, region, context or link the package does not have.  Raised by the meanings of events.  Safe: the
  spec gives such an event no effect. -/
  | noSuchAgent (what : String)
  /-- A physical DRAM address outside the three dies' 393,216 host frames (01 R16).  Raised by the DRAM operations.  Safe. -/
  | noSuchFrame
deriving DecidableEq, Repr

/-- Why the model declines to go on. -/
inductive Refusal where
  /-- The instruction has no meaning yet.  Raised by the dispatch.  Safe. -/
  | notModelled (mnemonic : String)
deriving DecidableEq, Repr

/-- The machine right after reset: nothing powered, every register at the value of its Reset column, and where the spec gives none
at zero (assumptions 1 and 2). -/
def State.reset : State := {}

end Sys2Proof.Machine
end

