-- ==== Sys2Proof/Machine/Ops.lean ====
section
/-! DEFINITION. The named operations over tables, memories, registers and capabilities; poison origins and their log; taking a trap
and returning from one. -/

namespace Sys2Proof.Machine

/-! ### Tables -/

/-- The value of a key, `d` when the table does not list it. -/
def tget {α : Type} (d : α) : Tab α → Nat → α
  | [], _ => d
  | (k', v) :: t, k => if k' == k then v else tget d t k

/-- Set the value of a key. -/
def tset {α : Type} : Tab α → Nat → α → Tab α
  | [], k, v => [(k, v)]
  | (k', v') :: t, k, v =>
    if k < k' then (k, v) :: (k', v') :: t else if k = k' then (k, v) :: t else (k', v') :: tset t k v

/-- Update the value of a key. -/
def tmod {α : Type} (d : α) (t : Tab α) (k : Nat) (f : α → α) : Tab α := tset t k (f (tget d t k))

/-! ### Memories -/

/-- The byte at an address. -/
def mget : Memory → Nat → Byte
  | [], _ => unlisted
  | (a', b) :: m, a => if a' = a then b else mget m a

/-- Put a byte at an address, in canonical form. -/
def mset : Memory → Nat → Byte → Memory
  | [], a, b => if b = unlisted then [] else [(a, b)]
  | (a', b') :: m, a, b =>
    if a < a' then (if b = unlisted then (a', b') :: m else (a, b) :: (a', b') :: m)
    else if a = a' then (if b = unlisted then m else (a, b) :: m)
    else (a', b') :: mset m a b

/-- `n` bytes from an address, the lowest first. -/
def mread (m : Memory) (a n : Nat) : List Byte := (List.range n).map fun i => mget m (a + i)

/-- Bytes written at rising addresses. -/
def mwrite : Memory → Nat → List Byte → Memory
  | m, _, [] => m
  | m, a, b :: bs => mwrite (mset m a b) (a + 1) bs

/-- Little-endian value of bytes (00_scope.md R3). -/
def leVal : List Byte → Nat
  | [] => 0
  | b :: bs => b.toNat + 256 * leVal bs

/-- The `n` little-endian bytes of a value. -/
def leBytes : Nat → Nat → List Byte
  | 0, _ => []
  | n + 1, v => BitVec.ofNat 8 v :: leBytes n (v / 256)

/-- A set of numbers as a rising list: insert. -/
def sins : List Nat → Nat → List Nat
  | [], x => [x]
  | y :: l, x => if x < y then x :: y :: l else if x = y then y :: l else y :: sins l x

/-- Remove from a set. -/
def srem (l : List Nat) (x : Nat) : List Nat := l.filter (· != x)

/-- The granules of `g` bytes that a range of `n` bytes at `a` touches, ascending. -/
def granules (a n g : Nat) : List Nat :=
  if n = 0 then [] else (List.range ((a + n - 1) / g - a / g + 1)).map (a / g + ·)

/-! ### Numbers -/

/-- Sign extension of the low `n` bits. -/
def sextN (n x : Nat) : Int :=
  let y := x % 2 ^ n
  if y < 2 ^ (n - 1) then y else (y : Int) - 2 ^ n

/-- A value reduced modulo 2^n. -/
def wrapN (n : Nat) (x : Int) : Nat := (x % (2 ^ n : Int)).toNat

/-- Bits [lo + n - 1 : lo]. -/
def bitsN (x lo n : Nat) : Nat := x / 2 ^ lo % 2 ^ n

/-- Bit i of a number. -/
def bitN (x i : Nat) : Bool := x / 2 ^ i % 2 == 1

/-- Count of one bits among the low `n`. -/
def popN : Nat → Nat → Nat
  | 0, _ => 0
  | n + 1, x => x % 2 + popN n (x / 2)

/-- Count of leading zeros of an `n`-bit value. -/
def clzN : Nat → Nat → Nat
  | 0, _ => 0
  | n + 1, x => if bitN x n then 0 else 1 + clzN n x

/-- Count of trailing zeros of an `n`-bit value. -/
def ctzN : Nat → Nat → Nat
  | 0, _ => 0
  | n + 1, x => if x % 2 = 1 then 0 else 1 + ctzN n (x / 2)

/-! ### The package -/

/-- Tile, die, region, context and function by number. -/
def State.tile (s : State) (k : Nat) : Tile := tget {} s.tiles k
def State.setTile (s : State) (k : Nat) (t : Tile) : State := { s with tiles := tset s.tiles k t }
def State.die (s : State) (d : Nat) : Die := tget {} s.dies d
def State.setDie (s : State) (d : Nat) (x : Die) : State := { s with dies := tset s.dies d x }
def State.region (s : State) (r : Nat) : Region := tget {} s.regions r
def State.setRegion (s : State) (r : Nat) (x : Region) : State := { s with regions := tset s.regions r x }
def State.ctx (s : State) (c : Nat) : Ctx := tget {} s.ctxs c
def State.setCtx (s : State) (c : Nat) (x : Ctx) : State := { s with ctxs := tset s.ctxs c x }
def State.fn (s : State) (f : Nat) : Fn := tget {} s.fns f
def State.setFn (s : State) (f : Nat) (x : Fn) : State := { s with fns := tset s.fns f x }
def State.pool (s : State) (k : Nat) : Pool := tget {} s.pools k
def State.setPool (s : State) (k : Nat) (x : Pool) : State := { s with pools := tset s.pools k x }

/-- The interface of function v is CONFIG_LOCKED or RUN: the physical function's writes to its blocks are ignored (17_link.md R375). -/
def State.locked (s : State) (v : Nat) : Bool := (s.fn v).tdisp == 1 || (s.fn v).tdisp == 2

/-- The pool of the cluster that holds tile k = 96 y + x (01_architecture.md R17): cluster 48 (y / 2) + x / 2. -/
def clusterOf (k : Nat) : Nat := 48 * (k / 96 / 2) + k % 96 / 2
/-- The compute die of tile k: 32 columns each (R17). -/
def dieOfTile (k : Nat) : Nat := k % 96 / 32
/-- The region and the context a tile runs for. -/
def State.rgnOf (s : State) (k : Nat) : Region := s.region (s.tile k).rgn
def State.ctxNo (s : State) (k : Nat) : Nat := (s.rgnOf k).ctx

/-- A telemetry counter of 01_architecture.md Table 9, at its byte offset, raised by one; it saturates at its width (R25). -/
def State.tel (s : State) (off : Nat) : State :=
  { s with hub := { s.hub with tel := tmod 0 s.hub.tel off fun n => min (n + 1) (if 0x2000 ≤ off then 2 ^ 32 - 1 else 2 ^ 64 - 1) } }

/-- A message to an agent outside the package. -/
def State.send (s : State) (kind : String) (args : List Nat) : State :=
  { s with outbox := s.outbox ++ [⟨kind, args⟩] }

/-- The Sorrel that does the leader's work: the one that holds the lease, unless a trap has halted it (01_architecture.md R23, 16_context.md R349). -/
def State.leader (s : State) : Option Nat := s.hub.lease.filter fun d => !(s.die d).sorrel.halted

/-- An event for the leading Sorrel: its semaphore rises, stopping at 65,535 (15_queue.md R326). -/
def State.leadSem (s : State) (e : Nat) : State :=
  match s.hub.lease with
  | none => s
  | some d =>
    let D := s.die d
    s.setDie d { D with sem := tset D.sem e (BitVec.ofNat 16 (min ((tget 0 D.sem e).toNat + 1) 65535)) }

/-- Take the next free number: its index and the state with the counter advanced. -/
def State.free (s : State) : Nat × State := (s.freeCtr, { s with freeCtr := s.freeCtr + 1 })

/-- A duration the architecture does not fix (assumption 5), in cycles. -/
def State.delay (s : State) : Nat × State := (Config.freeDelay s.freeCtr, { s with freeCtr := s.freeCtr + 1 })

/-- Write bytes of device DRAM at a physical address. A write clears the tags of the granules it touches (R200), and clears the
error of a granule it covers whole (R183). -/
def State.dramWr (s : State) (a : Nat) (bs : List Byte) : State :=
  { s with
    dram := mwrite s.dram a bs
    dramTag := (granules a bs.length 16).foldl srem s.dramTag
    dramUE := s.dramUE.filter fun g => !(a ≤ g * 32 && g * 32 + 32 ≤ a + bs.length) }

/-- A memory a tile's accesses reach: its scratchpad, a pool, or device DRAM by physical address. -/
inductive Space where
  | scr (k : Nat)
  | pool (c : Nat)
  | dram
deriving DecidableEq, Repr

/-- Bytes of a memory. -/
def State.rd (s : State) (sp : Space) (a n : Nat) : List Byte :=
  match sp with
  | .scr k => mread (s.tile k).scr a n
  | .pool c => mread (s.pool c).mem a n
  | .dram => mread s.dram a n

/-- Write bytes: they land, the tags of the granules touched clear (R181, R200), an error of a granule written whole clears
(R183). -/
def State.wr (s : State) (sp : Space) (a : Nat) (bs : List Byte) : State :=
  match sp with
  | .scr k =>
    let t := s.tile k
    s.setTile k { t with
      scr := mwrite t.scr a bs
      scrTag := (granules a bs.length 16).foldl srem t.scrTag
      scrUE := t.scrUE.filter fun g => !(a ≤ g * 16 && g * 16 + 16 ≤ a + bs.length) }
  | .pool c =>
    let p := s.pool c
    s.setPool c { p with
      mem := mwrite p.mem a bs
      tags := (granules a bs.length 16).foldl srem p.tags
      ue := p.ue.filter fun g => !(a ≤ g * 16 && g * 16 + 16 ≤ a + bs.length) }
  | .dram => s.dramWr a bs

/-- Every byte of granule g of size n lies in one of the ranges. -/
def covered (rs : List (Nat × Nat)) (n g : Nat) : Bool :=
  (List.range n).all fun j => rs.any fun r => r.1 ≤ g * n + j && g * n + j < r.1 + r.2

/-- The errors that one store over several ranges clears: those of the granules its ranges cover together (R183). -/
def State.clearUE (s : State) (sp : Space) (rs : List (Nat × Nat)) : State :=
  match sp with
  | .scr k => let t := s.tile k; s.setTile k { t with scrUE := t.scrUE.filter fun g => !covered rs 16 g }
  | .pool c => let p := s.pool c; s.setPool c { p with ue := p.ue.filter fun g => !covered rs 16 g }
  | .dram => { s with dramUE := s.dramUE.filter fun g => !covered rs 32 g }

/-- The tag of the 16-byte granule at `a`. -/
def State.tagAt (s : State) (sp : Space) (a : Nat) : Bool :=
  match sp with
  | .scr k => (s.tile k).scrTag.contains (a / 16)
  | .pool c => (s.pool c).tags.contains (a / 16)
  | .dram => s.dramTag.contains (a / 16)

/-- Set or clear the tag of the granule at `a`. -/
def State.setTag (s : State) (sp : Space) (a : Nat) (b : Bool) : State :=
  let f := fun (l : List Nat) => if b then sins l (a / 16) else srem l (a / 16)
  match sp with
  | .scr k => let t := s.tile k; s.setTile k { t with scrTag := f t.scrTag }
  | .pool c => let p := s.pool c; s.setPool c { p with tags := f p.tags }
  | .dram => { s with dramTag := f s.dramTag }

/-- Bytes of an uncorrectable granule: 32 in DRAM, 16 in an SRAM (R183). -/
def Space.gran : Space → Nat
  | .dram => 32
  | _ => 16

/-- The uncorrectable granules of a range, ascending. -/
def State.ueIn (s : State) (sp : Space) (a n : Nat) : List Nat :=
  let l := match sp with
    | .scr k => (s.tile k).scrUE
    | .pool c => (s.pool c).ue
    | .dram => s.dramUE
  (granules a n sp.gran).filter l.contains

/-- Mark a granule uncorrectable. -/
def State.markUE (s : State) (sp : Space) (g : Nat) : State :=
  match sp with
  | .scr k => let t := s.tile k; s.setTile k { t with scrUE := sins t.scrUE g }
  | .pool c => let p := s.pool c; s.setPool c { p with ue := sins p.ue g }
  | .dram => { s with dramUE := sins s.dramUE g }

/-! ### Registers -/

def Lane.zero : Lane := ⟨0, false⟩
def Scal.zero : Scal := ⟨0, false⟩
def Cap.null : Cap := ⟨0, false⟩

/-- The physical register of `sN` (R67): 1 to 15 for themselves, `s16`+i at 16 + ((WBASE + i) mod 496). -/
def Core.phys (c : Core) (n : Nat) : Nat := if n < 16 then n else 16 + (8 * (c.w % 62) + (n - 16)) % 496

/-- `sN`; `s0` reads 0 and is never poison (R65, R123). -/
def Core.s (c : Core) (n : Nat) : Scal := if n = 0 then Scal.zero else tget Scal.zero c.sreg (c.phys n)
/-- Write `sN`; a write to `s0` is discarded. -/
def Core.setS (c : Core) (n : Nat) (v : Scal) : Core :=
  if n = 0 then c else { c with sreg := tset c.sreg (c.phys n) v, wrote := c.phys n :: c.wrote }
/-- `qN` with its poison tag; `q0` reads true (R65). -/
def Core.qv (c : Core) (n : Nat) : Bool × Bool := if n = 0 then (true, false) else tget (false, false) c.q n
/-- Write `qN`; a write to `q0` is discarded. -/
def Core.setQ (c : Core) (n : Nat) (v p : Bool) : Core := if n = 0 then c else { c with q := tset c.q n (v, p) }
/-- `cN`; `c0` is the null capability (R68). -/
def Core.cap (c : Core) (n : Nat) : Cap := if n = 0 then Cap.null else tget Cap.null c.c n
/-- Write `cN`; a write to `c0` is discarded. -/
def Core.setCap (c : Core) (n : Nat) (v : Cap) : Core :=
  if n = 0 then c else { c with c := tset c.c n v, wrote := (512 + n) :: c.wrote }
/-- The capability a 5-bit `CP` names: `c0`–`c15`, then `rl0`–`rl15` (R88). -/
def Core.capP (c : Core) (n : Nat) : Cap := if n < 16 then c.cap n else tget Cap.null c.rl (n - 16)
/-- Loop level L. -/
def Core.loop (c : Core) (l : Nat) : Loop := tget {} c.loops l
/-- The pending stage count, 1 when none has been set. -/
def Core.pendOf (c : Core) (l : Nat) : Nat := tget 1 c.pend l
/-- `qN` is owned by the loop engine (R80). -/
def Core.owned (c : Core) (n : Nat) : Bool :=
  (List.range 8).any fun l => (c.loop l).active && 2 ≤ (c.loop l).n && 8 ≤ n && n < 8 + (c.loop l).n

/-- Lane i of a vector value. -/
def Vec.at (v : Vec) (i : Nat) : Lane := v.getD i Lane.zero
/-- The vector register of a specifier. -/
def Tile.v (t : Tile) (r : Nat) : Vec := tget [] t.vreg r
/-- Lane mask `jN`; `j0` reads all ones (R65). -/
def Tile.mask (t : Tile) (n : Nat) : BitVec 64 := if n = 0 then BitVec.allOnes 64 else tget 0 t.j n
/-- `Active` (R83). -/
def activeL (m : BitVec 64) (i : Nat) : Bool := m.getLsbD i
/-- A vector value given lane by lane. -/
def mkVec (f : Nat → Lane) : Vec := (List.range 64).map f
/-- A vector value written over an old one in the active lanes (`WriteLanes`, R83). -/
def Vec.merge (old new : Vec) (act : BitVec 64) : Vec :=
  mkVec fun i => if activeL act i then new.at i else old.at i

/-! ### The executing agent -/

/-- The front end that executes the current word. -/
def State.core (s : State) : Core :=
  match s.cur.agent with
  | .tile k => (s.tile k).core
  | .sorrel d => (s.die d).sorrel
  | .dev => {}

/-- Replace it. -/
def State.setCore (s : State) (c : Core) : State :=
  match s.cur.agent with
  | .tile k => s.setTile k { s.tile k with core := c }
  | .sorrel d => s.setDie d { s.die d with sorrel := c }
  | .dev => s

/-- The tile that executes the current word; tile 0 when none does. -/
def State.me (s : State) : Nat :=
  match s.cur.agent with
  | .tile k => k
  | _ => 0

/-- The tile that executes the current word. -/
def State.myTile (s : State) : Tile := s.tile s.me
def State.setMyTile (s : State) (t : Tile) : State := s.setTile s.me t

/-- The executing agent is a Sorrel. -/
def State.onSorrel (s : State) : Bool :=
  match s.cur.agent with
  | .sorrel _ => true
  | _ => false

/-- The schedule cycle of a tile since its start: 128 × STEP + CYC. -/
def Tile.now (t : Tile) : Nat := 128 * t.step + t.cyc

/-! ### Frames that the device refuses elsewhere (13_kernel.md R297, 14_group.md R316) -/

/-- Bytes of a frame. -/
abbrev frameB := 2097152

/-- Host frames bound to a slot: those that a resident slot's code occupies (R297). -/
def slotFrames (x : Slot) : List Nat :=
  if 3 ≤ x.state then (List.range ((x.len + frameB - 1) / frameB)).map (x.frame + ·) else []

/-- Frames of a region's slot area (R352). -/
def Region.areaFrames (R : Region) : Nat := (98304 * (R.w * R.h) + frameB - 1) / frameB

/-- Frames that a `rgmov.out` or a `savc` under way writes (R316, R352). -/
def Region.opFrames (R : Region) : List Nat :=
  match R.op with
  | some (0, f, _) => (List.range (R.w * R.h / 2)).map (f + ·)
  | some (1, f, _) => (List.range R.areaFrames).map (f + ·)
  | _ => []

/-- Host frames that hold a region's SRAM image or its shadow-slot images, or are being written with them (R316, R352). -/
def regionFrames (R : Region) : List Nat :=
  (if R.state != 0 && R.out then (List.range (R.w * R.h / 2)).map (R.savef + ·) else [])
    ++ ((R.slotsOut.map fun f => (List.range R.areaFrames).map (f + ·)).getD []) ++ R.opFrames

/-- Host frames bound to a slot or a region, which the device refuses elsewhere (R297, R316). -/
def State.boundFrames (s : State) : List Nat :=
  (s.ctxs.flatMap fun c => c.2.slots.flatMap fun x => slotFrames x.2) ++ s.regions.flatMap fun r => regionFrames r.2

/-- Some of n bytes from DRAM address a on lies in a bound frame. -/
def State.inBound (s : State) (a n : Nat) : Bool := s.boundFrames.any fun f => a < (f + 1) * frameB && f * frameB < a + n

/-- A write of the driver, or by the device itself of a log entry or a receipt: into a bound frame it is refused (R297; that it is lost whole is
DEDUCED, assumption 17). -/
def State.devWr (s : State) (a : Nat) (bs : List Byte) : State := if s.inBound a bs.length then s else s.dramWr a bs

/-! ### Poison origins and their log (02_numbers.md R44 R45, 16_context.md R354 R355) -/

/-- Origin kinds of Table 149. -/
abbrev okUE := 1
abbrev okINV := 2
abbrev okSNAN := 3
abbrev okFOREIGN := 4
abbrev okOVF := 5
abbrev okSOFT := 6
abbrev okCLEAR := 7

/-- What a log entry says beside its kind: the tile, the source of R44, the PC, the object and `WHAT`. -/
structure OrgAt where
  tile : Nat
  src : Nat
  pc : Nat
  oid : Nat
  what : Nat
  step : Nat
deriving DecidableEq, Repr

/-- Write one entry of the poison-origin log, or count it in `PLDROP` (R354). -/
def State.logEntry (s : State) (o : OrgAt) (kind id cnt : Nat) : State :=
  let r := s.rgnOf o.tile
  let c := s.ctx r.ctx
  if c.pllen = 0 then s
  else if c.plhead = c.pllen then s.setCtx r.ctx { c with pldrop := min (c.pldrop + 1) (2 ^ 32 - 1) }
  else
    let w0 := kind + id * 2 ^ 8 + cnt * 2 ^ 32 + (s.tile o.tile).tix * 2 ^ 40
    let w1 := o.pc % 2 ^ 32 + o.oid * 2 ^ 32
    let w3 := o.step % 2 ^ 40 + r.launch.lseq % 2 ^ 24 * 2 ^ 40
    (s.devWr (c.plbase + 32 * c.plhead) (leBytes 8 w0 ++ leBytes 8 w1 ++ leBytes 8 o.what ++ leBytes 8 w3)).setCtx r.ctx
      { c with plhead := c.plhead + 1 }

/-- `NewOrigin` (R45, R50): take the next id of the source, log it, and count it in the launch's summary (R355). -/
def State.newOrigin (s : State) (o : OrgAt) (kind : Nat) : State × Nat :=
  let t := s.tile o.tile
  let n := tget 0 t.psnc o.src
  let id := 2 ^ 21 + t.tix % 2 ^ 11 * 2 ^ 10 + o.src * 2 ^ 7 + n
  let s1 := s.setTile o.tile { t with psnc := tset t.psnc o.src (min (n + 1) 127) }
  let r := s1.region t.rgn
  let s2 := s1.setRegion t.rgn { r with
    origins := min (r.origins + 1) (2 ^ 32 - 1)
    minid := if r.origins = 0 then id else min r.minid id }
  (s2.logEntry o kind id 0, id)

/-- The anonymous id (R44). -/
def anonId : Nat := 0x3FFFFF
/-- `PoisonMerge` (R49): the smallest id. -/
def poisonMerge : List Nat → Nat
  | [] => anonId
  | [x] => x
  | x :: l => min x (poisonMerge l)

/-- A poisoned scalar (R46, R123): the id in [21:0], zero above, the tag set. -/
def Scal.poison (id : Nat) : Scal := ⟨BitVec.ofNat 64 (id % 2 ^ 22), true⟩
/-- A poisoned integer or `b32` lane (R46). -/
def Lane.ipoison (id : Nat) : Lane := ⟨BitVec.ofNat 32 (id % 2 ^ 22), true⟩
/-- The id a tagged lane or scalar holds. -/
def idOf (n : Nat) (x : BitVec n) : Nat := x.toNat % 2 ^ 22

/-! ### Traps (16_context.md R343 to R350) -/

abbrev cILL := 0x01
abbrev cPRIV := 0x02
abbrev cALIGN := 0x03
abbrev cCAPTAG := 0x10
abbrev cCAPBND := 0x11
abbrev cCAPRGT := 0x12
abbrev cCAPNUL := 0x13
abbrev cOBJFLT := 0x20
abbrev cLINKLOST := 0x21
abbrev cPOISST := 0x30
abbrev cPOISBR := 0x31
abbrev cPOISADR := 0x32
abbrev cSEMOVF := 0x40
abbrev cSEMUND := 0x41
abbrev cWAITCYC := 0x42
abbrev cSWTRAP := 0x60
abbrev cBADSTAT := 0x61
abbrev cABORT := 0x70

/-- A trap to raise: cause, `TVAL` and `TREC` (R347). -/
structure TrapInfo where
  cause : Nat
  val : Nat := 0
  words : List (BitVec 64) := []
deriving DecidableEq, Repr

/-- The causes a handler may take (R345). -/
def handlerMay (cause : Nat) : Bool :=
  [cILL, cPRIV, cALIGN, cCAPTAG, cCAPBND, cCAPRGT, cCAPNUL, cPOISST, cPOISBR, cPOISADR, cSEMOVF, cSEMUND, cWAITCYC,
    cSWTRAP].contains cause

/-- `TSTAT.HND`. -/
def TrapRegs.hnd (t : TrapRegs) : Bool := t.tstat.getLsbD 0
/-- `TSTAT.SKIP`. -/
def TrapRegs.skip (t : TrapRegs) : Bool := t.tstat.getLsbD 1
/-- `TSTAT.DQ`. -/
def TrapRegs.dq (t : TrapRegs) : Nat := t.tstat.toNat / 4 % 4

/-- Where and why a grid ends: the report of Table 145, to be chosen among those of one cycle (R350). -/
def Report.before (a b : Report) : Bool :=
  let ka := ((a.step * 128 + a.cyc) * 2048 + a.tix) * 8 + a.srca
  let kb := ((b.step * 128 + b.cyc) * 2048 + b.tix) * 8 + b.srca
  ka < kb

/-- An unhandled trap of tile k: the tile stops at once and the report waits for the end of the cycle, when the grid ends with the
lowest one (R350). -/
def State.endBy (s : State) (k srca pc : Nat) (nest : Bool) (t : TrapInfo) : State :=
  let T := s.tile k
  let r := s.region T.rgn
  let rep : Report :=
    { cause := t.cause, srca := srca, nest := nest, tix := T.tix, pc := pc % 2 ^ 32, val := t.val % 2 ^ 64, step := T.step,
      cyc := T.cyc, lseq := r.launch.lseq, words := t.words }
  let best := match r.report with
    | none => rep
    | some o => if rep.before o then rep else o
  (s.setTile k { T with live := false, core := { T.core with halted := true } }).setRegion T.rgn { r with report := some best }

/-- Words younger than `seq` that each queue issued (R344), saturating at 255. -/
def aheadOf (T : Tile) (seq q : Nat) : Nat := min 255 (T.ahead.filter fun x => seq < x.1 && x.2 == q).length

/-- Handler entry of a tile (R345, R346): which registers hold what, and where the front end goes. -/
def State.enterHandler (s : State) (k q pc seq : Nat) (t : TrapInfo) : State :=
  let T := s.tile k
  let c := T.core
  let trpc := if q ≠ 0 then c.pc else if t.cause = cSWTRAP then pc + 8 else pc
  let ah := if q = 0 then 0 else aheadOf T seq 1 + aheadOf T seq 2 * 2 ^ 8 + aheadOf T seq 3 * 2 ^ 16
  let tr : TrapRegs :=
    { c.trap with
      tstat := BitVec.ofNat 64 (1 + q * 4 + c.trap.tstat.toNat / 16 % 2 ^ 12 * 16 + T.due.length % 2 ^ 16 * 2 ^ 16
        + c.trap.tstat.toNat / 2 ^ 32 * 2 ^ 32)
      tcause := BitVec.ofNat 8 t.cause
      tpc := BitVec.ofNat 32 pc
      trpc := BitVec.ofNat 32 trpc
      tval := BitVec.ofNat 64 t.val
      tahead := BitVec.ofNat 24 ah
      trec := t.words }
  let r := s.region T.rgn
  (s.setTile k { T with
    trapped := true, catchup := false, hcyc := 0
    core := { c with
      trap := tr, pc := c.trap.tvec.toNat, fePc := c.pc, feHalted := c.halted, feStopped := c.stopped, halted := false,
      stopped := false } }).setRegion T.rgn { r with stall := { r.stall with trap := r.stall.trap + if T.catchup then 0 else 1 } }

/-- Taking a trap on tile k, detected by the front end (q = 0) or a queue (1 L, 2 C, 3 S) at the word `pc` (R344, R345, R350). -/
def State.trapTile (s : State) (k q pc seq : Nat) (t : TrapInfo) : State :=
  let s := s.tel (0x100 + 8 * t.cause)
  let c := (s.tile k).core
  if c.trap.hnd then s.endBy k q pc true t
  else if handlerMay t.cause && c.trap.tvec != 0xFFFFFFFF then s.enterHandler k q pc seq t
  else s.endBy k q pc false t

/-- Taking a trap on the Sorrel of die d (R349): at `TVEC`, or halted when there is no handler or a handler runs. Bits [2:0] of `TVEC` do not
count: a word is fetched from a multiple of 8 (R84; DESIGN CHOICE, assumption 44). -/
def State.trapSorrel (s : State) (d pc : Nat) (t : TrapInfo) : State :=
  let D := s.die d
  let c := D.sorrel
  if c.trap.hnd || c.trap.tvec == 0xFFFFFFFF then
    s.setDie d { D with sorrel := { c with halted := true } }
  else
    let tr : TrapRegs :=
      { c.trap with
        tstat := BitVec.ofNat 64 (1 + c.trap.tstat.toNat / 16 % 2 ^ 12 * 16 + c.trap.tstat.toNat / 2 ^ 32 * 2 ^ 32)
        tcause := BitVec.ofNat 8 t.cause
        tpc := BitVec.ofNat 32 pc
        trpc := BitVec.ofNat 32 (if t.cause = cSWTRAP then pc + 8 else pc)
        tval := BitVec.ofNat 64 t.val
        tahead := 0
        trec := t.words }
    s.setDie d { D with sorrel := { c with trap := tr, pc := c.trap.tvec.toNat / 8 * 8 } }

/-- Taking a trap at the word being executed. -/
def State.take (s : State) (t : TrapInfo) : State :=
  match s.cur.agent with
  | .tile k => s.trapTile k s.cur.q s.cur.pc s.cur.seq t
  | .sorrel d => s.trapSorrel d s.cur.pc t
  | .dev => s

/-- What a word comes to: a next state, a trap raised in a state, or a wait that leaves the word where it is. -/
inductive Res where
  | ok (s : State)
  | trap (s : State) (t : TrapInfo)
deriving DecidableEq, Repr

/-- The state a word leaves. -/
def Res.state : Res → State
  | .ok s => s
  | .trap s t => s.take t

/-- The outcome of a word. -/
def Res.out (r : Res) : Host.Outcome State Fault Refusal := .next r.state

/-- Guilt added to a context (15_queue.md R335), saturating at 0xFFFF. -/
def State.addGuilt (s : State) (c n : Nat) : State :=
  let x := s.ctx c
  s.setCtx c { x with guilt := min (x.guilt + n) 0xFFFF }

/-! ### Capabilities (03_tile.md R83) -/

/-- Fields of Table 78. -/
def Cap.oid (c : Cap) : Nat := c.bits.toNat / 2 ^ 104
def Cap.rights (c : Cap) : Nat := c.bits.toNat / 2 ^ 96 % 2 ^ 8
def Cap.cur (c : Cap) : Nat := c.bits.toNat / 2 ^ 48 % 2 ^ 48
def Cap.exp (c : Cap) : Nat := c.bits.toNat / 2 ^ 42 % 2 ^ 6
def Cap.lo (c : Cap) : Nat := c.bits.toNat / 2 ^ 21 % 2 ^ 21 * 2 ^ c.exp
def Cap.hi (c : Cap) : Nat := c.bits.toNat % 2 ^ 21 * 2 ^ c.exp

/-- A capability from its fields. -/
def mkCap (oid rights cur e base top : Nat) (tag : Bool) : Cap :=
  ⟨BitVec.ofNat 128 (oid % 2 ^ 24 * 2 ^ 104 + rights % 2 ^ 8 * 2 ^ 96 + cur % 2 ^ 48 * 2 ^ 48 + e % 2 ^ 6 * 2 ^ 42
    + base % 2 ^ 21 * 2 ^ 21 + top % 2 ^ 21), tag⟩

/-- Rights of Table 52. -/
abbrev rtR := 1
abbrev rtW := 2
abbrev rtX := 4
abbrev rtA := 8
abbrev rtS := 16
abbrev rtH := 32
abbrev rtD := 64
abbrev rtP := 128

/-- Every right of the mask `m` is held. -/
def Cap.has (c : Cap) (m : Nat) : Bool := m &&& c.rights == m

/-- `CapNTR` of R269: the null, tag and rights tests; the id or the cause. -/
def capNTR (c : Cap) (m : Nat) : Except Nat Nat :=
  if c.bits = 0 ∧ c.tag = false then .error cCAPNUL
  else if c.tag = false then .error cCAPTAG
  else if !c.has m then .error cCAPRGT
  else .ok c.oid

/-- `Cap.Check` (R83), the offset not poisoned: the object id and byte offset, or the cause. -/
def capCheck (c : Cap) (off : Int) (n m align : Nat) : Except Nat (Nat × Nat) :=
  match capNTR c m with
  | .error e => .error e
  | .ok oid =>
    let addr : Int := c.cur + off
    if c.exp < 6 ∨ 40 < c.exp ∨ addr < c.lo ∨ (c.hi : Int) < addr + n then .error cCAPBND
    else if addr % align ≠ 0 then .error cALIGN
    else .ok (oid, addr.toNat)

/-- The scratchpad and pool objects of Table 79. -/
abbrev oidScr := 0xFFFFF0
abbrev oidPool := 0xFFFFF1

end Sys2Proof.Machine
end

