-- ==== Sys2Proof/Machine/Flags.lean ====
section
/-! DEFINITION. The conditions of the compares and branches: the machine has no flags register; a compare writes a predicate or a lane
mask. -/

namespace Sys2Proof.Machine

/-- Table 51, on 64-bit operands. -/
def cond64 (code : Nat) (a b : BitVec 64) : Bool :=
  match code with
  | 0 => a == b
  | 1 => a != b
  | 2 => a.slt b
  | 3 => !a.slt b
  | 4 => a.ult b
  | 5 => !a.ult b
  | 6 => !b.slt a
  | 7 => b.slt a
  | 8 => !b.ult a
  | 9 => b.ult a
  | 10 => a &&& b != 0
  | _ => a &&& b == 0

/-- Table 46: whether `brp` is taken. -/
def condBrp (code : Nat) (a b : Bool) : Bool :=
  match code with
  | 0 => a
  | 1 => !a
  | 2 => a && b
  | _ => a || b

/-- Table 62: from less, equal and unordered. -/
def condVec (fn : Nat) (lt eq un : Bool) : Bool :=
  match fn with
  | 0 => !un && eq
  | 1 => un || !eq
  | 2 => !un && lt
  | 3 => !un && (lt || eq)
  | 4 => !un && !(lt || eq)
  | 5 => !un && !lt
  | 6 => un
  | _ => !un

end Sys2Proof.Machine
end

