-- ==== Sys2Proof/Machine/Float.lean ====
section
/-! DEFINITION. Number formats, exact values and rounding of 02_numbers.md: decoding, the five IEEE modes and RS, the poison rule of R47,
and the exact functions of R146. -/

namespace Sys2Proof.Machine

/-- A floating-point format of Table 13: fraction bits, exponent bits, bias, whether all-ones exponents are infinities and NaNs, and
the largest finite value as m × 2^e. -/
structure Fmt where
  fb : Nat
  eb : Nat
  bias : Nat
  ieee : Bool
  maxM : Nat
  maxE : Int
deriving DecidableEq, Repr

def fFP32 : Fmt := ⟨23, 8, 127, true, 2 ^ 24 - 1, 104⟩
def fFP16 : Fmt := ⟨10, 5, 15, true, 2 ^ 11 - 1, 5⟩
def fBF16 : Fmt := ⟨7, 8, 127, true, 2 ^ 8 - 1, 120⟩
def fE5M2 : Fmt := ⟨2, 5, 15, true, 7, 13⟩
def fE4M3 : Fmt := ⟨3, 4, 7, false, 14, 5⟩
def fE2M1 : Fmt := ⟨1, 2, 1, false, 3, 1⟩

/-- Width of an encoding. -/
def Fmt.width (f : Fmt) : Nat := 1 + f.eb + f.fb

/-- The exponent of the lowest bit of a subnormal. -/
def Fmt.ulpMin (f : Fmt) : Int := 1 - (f.bias : Int) - f.fb

/-- A decoded source element (R32, R33, R46): (−1)^neg × m × 2^e, an infinity, device poison with its id, a foreign quiet NaN, or a
signalling NaN. -/
inductive FV where
  | fin (neg : Bool) (m : Nat) (e : Int)
  | inf (neg : Bool)
  | poison (id : Nat)
  | quiet
  | signalling
deriving DecidableEq, Repr

/-- The device poison encoding of a format without an id (Table 14): FP16 0x7F00, BF16 0x7FE0, E5M2 and E4M3 0x7F. -/
def Fmt.marker (f : Fmt) : Nat :=
  if f.width = 16 then (if f.eb = 5 then 0x7F00 else 0x7FE0) else if f.width = 32 then 0x7FE00000 else 0x7F

/-- `Decode` of one encoding, tags apart (R32, R33). -/
def decodeF (f : Fmt) (x : Nat) : FV :=
  let neg := bitN x (f.eb + f.fb)
  let ef := x / 2 ^ f.fb % 2 ^ f.eb
  let fr := x % 2 ^ f.fb
  if f.ieee && ef == 2 ^ f.eb - 1 then
    if fr = 0 then .inf neg
    else if fr < 2 ^ (f.fb - 1) then .signalling
    else if f.width = 32 then (if !neg && bitN fr 21 then .poison (fr % 2 ^ 22) else .quiet)
    else if x % 2 ^ f.width = f.marker then .poison anonId else .quiet
  else if f.width = 8 && !f.ieee && x % 128 == 127 then (if neg then .quiet else .poison anonId)
  else if ef = 0 then .fin neg fr f.ulpMin
  else .fin neg (2 ^ f.fb + fr) ((ef : Int) - f.bias - f.fb)

/-- Rounding modes of Table 17 by code; RS carries its draw of R39. -/
structure Mode where
  code : Nat
  rnd : Nat := 0
deriving DecidableEq, Repr

/-- An exact result: a zero with its sign, a non-zero value ± num / den (plus less than one unit of 1 / den when `more`), an infinity,
or an invalid operation (R48). -/
inductive Ex where
  | zero (neg : Bool)
  | num (neg : Bool) (n d : Nat) (more : Bool)
  | inf (neg : Bool)
  | invalid
deriving DecidableEq, Repr

/-- A dyadic value as an exact result; `z` is the sign of a zero. -/
def exDyadic (neg : Bool) (m : Nat) (e : Int) : Ex :=
  if m = 0 then .zero neg
  else if 0 ≤ e then .num neg (m * 2 ^ e.toNat) 1 false else .num neg m (2 ^ (-e).toNat) false

/-- floor(log2 (n / d)) for n, d > 0. -/
def ilog (n d : Nat) : Int :=
  let g : Int := (Nat.log2 n : Int) - Nat.log2 d
  -- 2^(g-1) < n/d < 2^(g+1)
  if 0 ≤ g then (if d * 2 ^ g.toNat ≤ n then g else g - 1) else (if d ≤ n * 2 ^ (-g).toNat then g else g - 1)

/-- The magnitude chosen in step 2 of R38, as m × 2^u, for |x| = n / d (and a little more when `more`) on a grid whose lowest bit is
2^u. -/
def roundAt (md : Mode) (neg : Bool) (n d : Nat) (more : Bool) (u : Int) : Nat :=
  let N := if 0 ≤ u then n else n * 2 ^ (-u).toNat
  let D := if 0 ≤ u then d * 2 ^ u.toNat else d
  let q := N / D
  let r := N % D
  if r = 0 && !more then q
  else
    let up : Bool := match md.code with
      | 0 => D < 2 * r || (2 * r == D && (more || q % 2 == 1))
      | 1 => false
      | 2 => !neg
      | 3 => neg
      | 4 => D ≤ 2 * r
      | _ => md.rnd < 2 ^ 32 * r / D
    if up then q + 1 else q

/-- Bits of a magnitude m × 2^u of a format's grid. -/
def encodeM (f : Fmt) (neg : Bool) (m : Nat) (u : Int) : Nat :=
  let sg := if neg then 2 ^ (f.eb + f.fb) else 0
  let m' := if m = 2 ^ (f.fb + 1) then 2 ^ f.fb else m
  let u' := if m = 2 ^ (f.fb + 1) then u + 1 else u
  if m' < 2 ^ f.fb then sg + m' else sg + (u' + f.fb + f.bias).toNat * 2 ^ f.fb + (m' - 2 ^ f.fb)

/-- Infinity of a format that has one. -/
def Fmt.infBits (f : Fmt) (neg : Bool) : Nat :=
  (if neg then 2 ^ (f.eb + f.fb) else 0) + (2 ^ f.eb - 1) * 2 ^ f.fb
/-- The largest finite value. -/
def Fmt.maxBits (f : Fmt) (neg : Bool) : Nat := encodeM f neg f.maxM f.maxE

/-- The overflow result of Table 18. -/
def overflowBits (f : Fmt) (md : Mode) (neg : Bool) : Nat :=
  if !f.ieee then f.maxBits neg
  else match md.code with
    | 1 => f.maxBits neg
    | 2 => if neg then f.maxBits neg else f.infBits neg
    | 3 => if neg then f.infBits neg else f.maxBits neg
    | _ => f.infBits neg

/-- `Round` (R38, R41): the encoding, and whether step 3 overflowed or the value was infinite in a format without infinity. -/
def roundEx (f : Fmt) (md : Mode) : Ex → Nat × Bool
  | .zero neg => (if neg then 2 ^ (f.eb + f.fb) else 0, false)
  | .inf neg => if f.ieee then (f.infBits neg, false) else (f.maxBits neg, true)
  | .invalid => (0, false)
  | .num neg n d more =>
    let e := ilog n d
    let u := max (e - f.fb) f.ulpMin
    let m := roundAt md neg n d more u
    if m = 0 then (if neg then 2 ^ (f.eb + f.fb) else 0, false)
    else
      let tooBig : Bool := if u ≤ f.maxE then f.maxM * 2 ^ (f.maxE - u).toNat < m else f.maxM < m * 2 ^ (u - f.maxE).toNat
      if tooBig then (overflowBits f md neg, true) else (encodeM f neg m u, false)

/-- A value rounded to an integer under a mode: sign and magnitude. -/
def roundInt (md : Mode) : Ex → Option Int
  | .zero _ => some 0
  | .num neg n d more => some (let m := roundAt md neg n d more 0; if neg then -m else m)
  | _ => none

/-! ### Exact operations on decoded values -/

/-- Sum of two dyadic values; the sign of an exact zero by R41. -/
def addEx (md : Mode) (n1 : Bool) (m1 : Nat) (e1 : Int) (n2 : Bool) (m2 : Nat) (e2 : Int) : Ex :=
  let e := min e1 e2
  let a : Int := (m1 * 2 ^ (e1 - e).toNat : Nat)
  let b : Int := (m2 * 2 ^ (e2 - e).toNat : Nat)
  let t := (if n1 then -a else a) + (if n2 then -b else b)
  if t = 0 then .zero (if n1 == n2 && (m1 == 0) && (m2 == 0) then n1 else md.code == 3)
  else exDyadic (t < 0) t.natAbs e

/-- a + b (R41, R48). -/
def fAdd (md : Mode) : FV → FV → Ex
  | .fin n1 m1 e1, .fin n2 m2 e2 => addEx md n1 m1 e1 n2 m2 e2
  | .inf n1, .inf n2 => if n1 == n2 then .inf n1 else .invalid
  | .inf n1, _ => .inf n1
  | _, .inf n2 => .inf n2
  | _, _ => .invalid

/-- −a. -/
def fNeg : FV → FV
  | .fin n m e => .fin (!n) m e
  | .inf n => .inf (!n)
  | x => x

/-- a × b as a decoded value, `none` when invalid. -/
def fProd : FV → FV → Option FV
  | .fin n1 m1 e1, .fin n2 m2 e2 => some (.fin (n1 != n2) (m1 * m2) (e1 + e2))
  | .inf n1, .fin n2 m2 _ => if m2 = 0 then none else some (.inf (n1 != n2))
  | .fin n1 m1 _, .inf n2 => if m1 = 0 then none else some (.inf (n1 != n2))
  | .inf n1, .inf n2 => some (.inf (n1 != n2))
  | _, _ => none

/-- The exact result that is a decoded value itself. -/
def fExact : FV → Ex
  | .fin n m e => exDyadic n m e
  | .inf n => .inf n
  | _ => .invalid

/-- a × b. -/
def fMul (a b : FV) : Ex :=
  match fProd a b with
  | some p => fExact p
  | none => .invalid

/-- a × b + c with one rounding (R143). -/
def fFma (md : Mode) (a b c : FV) : Ex :=
  match fProd a b with
  | some p => fAdd md p c
  | none => .invalid

/-- a / b (R40, R48). -/
def fDiv : FV → FV → Ex
  | .fin n1 m1 e1, .fin n2 m2 e2 =>
    if m2 = 0 then (if m1 = 0 then .invalid else .inf (n1 != n2))
    else if m1 = 0 then .zero (n1 != n2)
    else
      let e := e1 - e2
      if 0 ≤ e then .num (n1 != n2) (m1 * 2 ^ e.toNat) m2 false else .num (n1 != n2) m1 (m2 * 2 ^ (-e).toNat) false
  | .fin n1 _ _, .inf n2 => .zero (n1 != n2)
  | .inf n1, .fin n2 _ _ => .inf (n1 != n2)
  | _, _ => .invalid

/-- floor(√n), by binary digits. -/
def isqrt : Nat → Nat → Nat
  | 0, _ => 0
  | k + 1, n => let r := 2 * isqrt k (n / 4); if (r + 1) * (r + 1) ≤ n then r + 1 else r

/-- √a (Table 59). -/
def fSqrt : FV → Ex
  | .fin neg m e =>
    if m = 0 then .zero neg else if neg then .invalid
    else
      let m := if e % 2 = 0 then m else 2 * m
      let e := if e % 2 = 0 then e else e - 1
      let r := isqrt 160 (m * 2 ^ 256)
      let h := e / 2 - 128
      if 0 ≤ h then .num false (r * 2 ^ h.toNat) 1 (r * r != m * 2 ^ 256)
      else .num false r (2 ^ (-h).toNat) (r * r != m * 2 ^ 256)
  | .inf neg => if neg then .invalid else .inf false
  | _ => .invalid

/-- 1 / √a (Table 59). -/
def fRsqrt : FV → Ex
  | .fin neg m e =>
    if m = 0 then .inf neg else if neg then .invalid
    else
      let m := if e % 2 = 0 then m else 2 * m
      let e := if e % 2 = 0 then e else e - 1
      let r := isqrt 160 (2 ^ 256 / m)
      let h := -(e / 2) - 128
      if 0 ≤ h then .num false (r * 2 ^ h.toNat) 1 (r * r * m != 2 ^ 256)
      else .num false r (2 ^ (-h).toNat) (r * r * m != 2 ^ 256)
  | .inf neg => if neg then .invalid else .zero false
  | _ => .invalid

/-- 2^(0.b1 b2 … bt) × 2^P with P = 256, for the `t` fraction bits of `f`, highest first, by successive square roots. -/
def exp2Frac : Nat → Nat → Nat → Nat → Nat
  | 0, _, _, acc => acc
  | t + 1, f, root, acc =>
    let root' := isqrt 257 (root * 2 ^ 256)
    exp2Frac t (f % 2 ^ t) root' (if 2 ^ t ≤ f then acc * root' / 2 ^ 256 else acc)

/-- 2^a (Table 59). -/
def fExp2 : FV → Ex
  | .fin neg m e =>
    if m = 0 then .num false 1 1 false
    else
      let v : Int := if neg then -m else m
      -- a = v × 2^e
      if 0 ≤ e then
        let k := v * 2 ^ e.toNat
        if 1000 < k then .num false (2 ^ 1000) 1 false
        else if k < -1000 then .num false 1 (2 ^ 1000) false
        else if 0 ≤ k then .num false (2 ^ k.toNat) 1 false else .num false 1 (2 ^ (-k).toNat) false
      else
        let t := (-e).toNat
        let k := v / 2 ^ t
        let f := (v % 2 ^ t).toNat
        if 1000 < k then .num false (2 ^ 1000) 1 false
        else if k < -1000 then .num false 1 (2 ^ 1000) false
        else
          let x := exp2Frac t f (2 * 2 ^ 256) (2 ^ 256)
          if 0 ≤ k then .num false (x * 2 ^ k.toNat) (2 ^ 256) (f != 0)
          else .num false x (2 ^ 256 * 2 ^ (-k).toNat) (f != 0)
  | .inf neg => if neg then .zero false else .inf false
  | _ => .invalid

/-- `t` bits of log2 x for x = y / 2^400 in [1, 2), by repeated squaring. -/
def log2Bits : Nat → Nat → Nat → Nat
  | 0, _, acc => acc
  | t + 1, y, acc =>
    let z := y * y / 2 ^ 400
    if 2 ^ 401 ≤ z then log2Bits t (z / 2) (2 * acc + 1) else log2Bits t z (2 * acc)

/-- log2 a (Table 59). -/
def fLog2 : FV → Ex
  | .fin neg m e =>
    if m = 0 then .inf true else if neg then .invalid
    else
      let l := Nat.log2 m
      let E : Int := e + l
      if m = 2 ^ l then (if E = 0 then .zero false else .num (E < 0) E.natAbs 1 false)
      else
        let b := log2Bits 160 (m * 2 ^ (400 - l)) 0
        if 0 ≤ E then .num false (E.toNat * 2 ^ 160 + b) (2 ^ 160) true
        else .num true ((-E).toNat * 2 ^ 160 - b - 1) (2 ^ 160) true
  | .inf neg => if neg then .invalid else .inf false
  | _ => .invalid

/-- The order of numbers with −0 below +0 (R143), on decoded values that are not NaN or poison: a < b. -/
def fLess : FV → FV → Bool
  | .inf n1, .inf n2 => n1 && !n2
  | .inf n1, _ => n1
  | _, .inf n2 => !n2
  | .fin n1 m1 e1, .fin n2 m2 e2 =>
    let e := min e1 e2
    let a : Int := (m1 * 2 ^ (e1 - e).toNat : Nat)
    let b : Int := (m2 * 2 ^ (e2 - e).toNat : Nat)
    let a' := if n1 then -a else a
    let b' := if n2 then -b else b
    a' < b' || (a' == b' && n1 && !n2)
  | _, _ => false

/-- a = b numerically: −0 equals +0. -/
def fEq : FV → FV → Bool
  | .inf n1, .inf n2 => n1 == n2
  | .fin n1 m1 e1, .fin n2 m2 e2 =>
    let e := min e1 e2
    let a : Int := (m1 * 2 ^ (e1 - e).toNat : Nat)
    let b : Int := (m2 * 2 ^ (e2 - e).toNat : Nat)
    (if n1 then -a else a) == (if n2 then -b else b)
  | _, _ => false

/-! ### Deterministic stochastic rounding (R39) -/

/-- `Mix` of R39, on 64 bits. -/
def mix (z : BitVec 64) : BitVec 64 :=
  let z := (z ^^^ (z >>> 30)) * 0xBF58476D1CE4E5B9#64
  let z := (z ^^^ (z >>> 27)) * 0x94D049BB133111EB#64
  z ^^^ (z >>> 31)

/-- The 32-bit draw for an element: seed K, tile index T, step S, cycle C, 8 × lane + element L, word index W. -/
def drawRS (K : BitVec 64) (T S C L W : Nat) : Nat :=
  let ctrA := BitVec.ofNat 64 (T % 2 ^ 11 * 2 ^ 40 + L % 2 ^ 9 * 2 ^ 31 + C % 2 ^ 7 * 2 ^ 24 + W % 2 ^ 24)
  ((mix (mix (ctrA ^^^ K) ^^^ BitVec.ofNat 64 S)) >>> 32).toNat

/-! ### The poison rule (R47) -/

/-- The result of one element: bits, or poison with its id. -/
inductive Elt where
  | val (bits : Nat)
  | pois (id : Nat)
deriving DecidableEq, Repr

/-- Consume source elements in operand order: ids of poison, and new origins for foreign and signalling NaNs. -/
def consume (s : State) (o : OrgAt) : List FV → State × List Nat
  | [] => (s, [])
  | .poison id :: l => let r := consume s o l; (r.1, id :: r.2)
  | .quiet :: l =>
    let x := s.newOrigin o okFOREIGN
    let r := consume x.1 o l
    (r.1, x.2 :: r.2)
  | .signalling :: l =>
    let x := s.newOrigin o okSNAN
    let r := consume x.1 o l
    (r.1, x.2 :: r.2)
  | _ :: l => consume s o l

/-- `Arith` (R47, R50): the full per-element rule for a result in a format. -/
def arith (s : State) (o : OrgAt) (f : Fmt) (md : Mode) (srcs : List FV) (ex : Ex) : State × Elt :=
  let r := consume s o srcs
  if r.2 ≠ [] then (r.1, .pois (poisonMerge r.2))
  else match ex with
    | .invalid => let x := r.1.newOrigin o okINV; (x.1, .pois x.2)
    | e => (r.1, .val (roundEx f md e).1)

/-- As `arith`, for an operation that returns one of its inputs bit for bit. -/
def arithBits (s : State) (o : OrgAt) (srcs : List FV) (bits : Nat) : State × Elt :=
  let r := consume s o srcs
  if r.2 ≠ [] then (r.1, .pois (poisonMerge r.2)) else (r.1, .val bits)

end Sys2Proof.Machine
end

