-- ==== Sys2Proof/Machine/Operands.lean ====
section
/-! DEFINITION. Operand forms: vector lanes and their elements, the second operand of R138, memory operands of formats M and MG, and the
writing of results by type (R46, R140). -/

namespace Sys2Proof.Machine

/-- The format of a floating type code of Table 36. -/
def fmtOfTy (ty : Nat) : Fmt :=
  match ty with
  | 0 => fFP32
  | 1 => fBF16
  | 2 => fFP16
  | 3 => fE4M3
  | 4 => fE5M2
  | _ => fE2M1

/-- Bits of one element of a type. -/
def elemW (ty : Nat) : Nat := 32 / elems ty

/-- Element e of a lane, as bits (R89: element 0 lowest). -/
def elemBits (ty : Nat) (x : BitVec 32) (e : Nat) : Nat := x.toNat / 2 ^ (elemW ty * e) % 2 ^ elemW ty

/-- The id of a tagged lane: [21:0], and the anonymous id when [21] is clear (R46, R166). -/
def Lane.id (l : Lane) : Nat := if bitN l.bits.toNat 21 then l.bits.toNat % 2 ^ 22 else anonId

/-- Device poison, as a decoded element. -/
def FV.isPoison : FV → Bool
  | .poison _ => true
  | _ => false

/-- The elements of a floating lane (R46). -/
def laneFV (ty : Nat) (l : Lane) : List FV :=
  let els := (List.range (elems ty)).map fun e => decodeF (fmtOfTy ty) (elemBits ty l.bits e)
  if l.tag && (ty == 0 || !els.any FV.isPoison) then els.map fun _ => .poison l.id else els

/-- Concatenate element bits, element 0 lowest. -/
def packBits (w : Nat) : List Nat → Nat
  | [] => 0
  | x :: xs => x % 2 ^ w + 2 ^ w * packBits w xs

/-- The FP32 poison encoding (Table 14). -/
def poison32 (id : Nat) : Nat := 0x7FE00000 ||| id % 2 ^ 22

/-- A floating result lane (R140): FP32 poison by encoding and tag, packed poison by marker and tag. -/
def packF (ty : Nat) (els : List Elt) : Lane :=
  if ty = 0 then
    match els with
    | .pois id :: _ => ⟨BitVec.ofNat 32 (poison32 id), true⟩
    | .val b :: _ => ⟨BitVec.ofNat 32 b, false⟩
    | [] => Lane.zero
  else
    ⟨BitVec.ofNat 32 (packBits (elemW ty) (els.map fun e => match e with
        | .val b => b
        | .pois _ => (fmtOfTy ty).marker)),
      els.any fun e => match e with
        | .val _ => false
        | .pois _ => true⟩

/-- An integer or `b32` result lane: its elements, or the whole lane poison (R140). -/
def packI (ty : Nat) (els : List Elt) : Lane :=
  let ids := els.filterMap fun e => match e with
    | .val _ => none
    | .pois id => some id
  if ids ≠ [] then Lane.ipoison (poisonMerge ids)
  else ⟨BitVec.ofNat 32 (packBits (elemW ty) (els.map fun e => match e with
      | .val b => b
      | .pois _ => 0)), false⟩

/-- The value an immediate or a scalar gives every lane (Table 57): `x` is `IMM16` or the scalar's bits. -/
def immLane (ty imm : Nat) : BitVec 32 :=
  match ty with
  | 0 => BitVec.ofNat 32 (imm * 2 ^ 16)
  | 6 => BitVec.ofInt 32 (sextN 16 imm)
  | 1 | 2 | 8 | 9 => BitVec.ofNat 32 (imm + imm * 2 ^ 16)
  | 10 | 11 => BitVec.ofNat 32 (imm % 256 * 0x01010101)
  | _ => BitVec.ofNat 32 imm

/-- Table 57, a scalar. -/
def scalLane (ty x : Nat) : BitVec 32 :=
  match ty with
  | 1 | 2 | 8 | 9 => BitVec.ofNat 32 (x % 2 ^ 16 * 0x00010001)
  | 10 | 11 => BitVec.ofNat 32 (x % 2 ^ 8 * 0x01010101)
  | _ => BitVec.ofNat 32 x

/-- The second operand of R138, lane by lane, from the tile as it stands and the scalars taken at dispatch. An immediate has its tag clear: that it is
`never poison` is read of the tag, and an immediate that is the poison encoding of a floating type is judged by its pattern like any other data (R33, R46),
`#0x7FE0` of f32 and bf16x2 and `#0x7F00` of f16x2 (DEDUCED, assumption 64). -/
def opndB (s : State) (f : FmtV) : Nat → Lane :=
  if f.of_ = 0 then let v := s.myTile.v f.vb.toNat; fun i => v.at i
  else if f.of_ = 1 then
    let l : Lane := ⟨immLane f.ty.toNat (f.vb.toNat * 256 + f.vc.toNat), false⟩
    fun _ => l
  else
    let x := s.cur.snap.s (f.vb.toNat % 64)
    let l : Lane := if x.tag then Lane.ipoison (idOf 64 x.bits) else ⟨scalLane f.ty.toNat x.bits.toNat, false⟩
    fun _ => l

/-- The index of R155: a number, or the id of a poisoned scalar. -/
def opndIdx (s : State) (f : FmtV) : Nat ⊕ Nat :=
  if f.of_ = 1 then .inl (f.vc.toNat % 64)
  else
    let x := s.cur.snap.s (f.vb.toNat % 64)
    if x.tag then .inr (idOf 64 x.bits) else .inl (x.bits.toNat % 64)

/-- Lane by lane in ascending order, threading the state; an inactive lane is neither read nor counted (R139, R45). -/
def lanesM (act : BitVec 64) (g : State → Nat → State × Lane) : List Nat → State → State × Vec
  | [], s => (s, [])
  | i :: l, s =>
    let x := if activeL act i then g s i else (s, Lane.zero)
    let r := lanesM act g l x.1
    (r.1, x.2 :: r.2)

/-- All 64 lanes. -/
def lanes64 (act : BitVec 64) (g : State → Nat → State × Lane) (s : State) : State × Vec :=
  lanesM act g (List.range 64) s

/-- Element by element within a lane, threading the state. -/
def eltsM (g : State → Nat → State × Elt) : List Nat → State → State × List Elt
  | [], s => (s, [])
  | e :: l, s =>
    let x := g s e
    let r := eltsM g l x.1
    (r.1, x.2 :: r.2)

/-- The place of the origins of a C-queue word (R141: `SRC` 1). -/
def State.orgC (s : State) : OrgAt :=
  { tile := s.me, src := 1, pc := s.cur.pc, oid := 0, what := s.cur.w0, step := s.myTile.step }

/-- The rounding mode of element e of lane i (R39). -/
def State.modeAt (s : State) (rm : BitVec 3) (i e : Nat) : Mode :=
  if rm = 5 then
    let t := s.myTile
    ⟨5, drawRS (s.ctx (s.ctxNo s.me)).seed t.tix t.step t.cyc (8 * i + e) (s.cur.pc / 8)⟩
  else ⟨rm.toNat, 0⟩

/-- The base offset of format M, and the poisoned index when there is one (R91, R178). -/
def memOff (s : State) (f : FmtM) : Int × Option Scal :=
  let x := s.cur.snap.s f.sx.toNat
  if f.sx = 0 then (sextN 21 f.off.toNat, none)
  else (sextN 21 f.off.toNat + x.bits.toInt * 2 ^ f.sc.toNat, if x.tag then some x else none)

/-- The stride of the strided forms (R178). -/
def memStride (s : State) (f : FmtM) : Int × Option Scal :=
  let x := s.cur.snap.s f.sx.toNat
  if f.sx = 0 then (0, none) else (x.bits.toInt * 2 ^ f.sc.toNat, if x.tag then some x else none)

end Sys2Proof.Machine
end

