-- ==== Sys2Proof/Machine/Issue.lean ====
section
/-! DEFINITION. What every word does around its own effect: predicates, the program counter, token pops and pushes, the queues, and the
results that are written later (03_tile.md R55 to R69). -/

namespace Sys2Proof.Machine

/-! ### Front-end words -/

/-- What a front-end word comes to: the next word follows; control moves; the word waits where it is; a trap. -/
inductive FRes where
  | step (s : State)
  | goto (s : State) (pc : Nat)
  | stay (s : State)
  | trap (s : State) (t : TrapInfo)
deriving DecidableEq, Repr

/-- The front end goes to a PC. -/
def State.setPc (s : State) (pc : Nat) : State := s.setCore { s.core with pc := pc % 2 ^ 64 }

/-- The state after a front-end word. -/
def FRes.state : FRes → State
  | .step s => s.setPc (s.cur.pc + 8)
  | .goto s pc => s.setPc pc
  | .stay s => s
  | .trap s t => s.take t

/-- A word under its predicate (R59): poisoned raises POISBR, false has no effect. -/
def predGate (p : BitVec 4) (s : State) (body : State → FRes) : FRes :=
  let v := s.core.qv p.toNat
  if v.2 then .trap s { cause := cPOISBR, val := p.toNat }
  else if v.1 then body s
  else .step s

/-- A control, scalar or capability word. -/
def feWord (p : BitVec 4) (s : State) (body : State → FRes) : Host.Outcome State Fault Refusal :=
  .next (predGate p s body).state

/-- A tile has drained: its queues are empty and every result is written (R57, R121). A fence that still holds the S queue counts as in it
(DEDUCED, assumption 10). -/
def Tile.drained (t : Tile) : Bool :=
  t.lq.isEmpty && t.cq.isEmpty && t.sq.isEmpty && t.due.isEmpty && t.fence.isNone

/-- A supervisor word (R100): a tile stream raises PRIV; Sorrel has no queues, so its drain is immediate. -/
def svWord (p : BitVec 4) (s : State) (body : State → FRes) : Host.Outcome State Fault Refusal :=
  .next (if s.onSorrel then predGate p s body else .trap s { cause := cPRIV, val := s.cur.w0 }).state

/-- ILL at the current word (R347: `TVAL` is the word). -/
def illHere (s : State) : FRes := .trap s { cause := cILL, val := s.cur.w0 }

/-! ### Tokens (Table 24) -/

/-- The FIFO, in `TOKF` order, that a pop from the left of queue q takes from. -/
def popLeft (q : Nat) : Nat := if q = 1 then 2 else if q = 2 then 0 else 1
def popRight (q : Nat) : Nat := if q = 1 then 5 else if q = 2 then 4 else 3
def pushLeft (q : Nat) : Nat := if q = 1 then 3 else if q = 2 then 5 else 4
def pushRight (q : Nat) : Nat := if q = 1 then 0 else if q = 2 then 1 else 2
/-- The queue that pushes to a FIFO. -/
def pusherOf (f : Nat) : Nat := if f = 0 ∨ f = 3 then 1 else if f = 1 ∨ f = 5 then 2 else 3

/-- The entries of queue q. -/
def Tile.queue (t : Tile) (q : Nat) : List QEntry := if q = 1 then t.lq else if q = 2 then t.cq else t.sq
def Tile.setQueue (t : Tile) (q : Nat) (l : List QEntry) : Tile :=
  if q = 1 then { t with lq := l } else if q = 2 then { t with cq := l } else { t with sq := l }

/-- The head of queue q may issue as far as the conditions go that every word has (Table 25): it was dispatched in an earlier cycle, the queue
has not issued in this cycle, its tokens are there, no push waits, and no fence holds the S queue. -/
def Tile.canIssue (t : Tile) (q : Nat) : Bool :=
  match (t.queue q).head? with
  | none => false
  | some e =>
    let h := hdrOf e.w0
    !t.issued.contains q && e.disp ≤ t.now && (!h.popl || 0 < tget 0 t.tok (popLeft q)) && (!h.popr || 0 < tget 0 t.tok (popRight q))
      && t.pushw.all (fun f => pusherOf f.2 != q) && (q != 3 || t.fence.isNone)

/-- Take one token. -/
def takeTok (t : Tile) (f : Nat) : Tile := { t with tok := tset t.tok f (tget 0 t.tok f - 1) }

/-- The oldest word still in a queue, `n` when none is. -/
def Tile.oldest (t : Tile) (n : Nat) : Nat :=
  ((t.lq.head?.toList ++ t.cq.head?.toList ++ t.sq.head?.toList).map QEntry.seq).foldl min n

/-- The head of the current queue leaves it: its tokens are taken, and it counts among the words issued (R61, R344). -/
def issueHead (h : Hdr) (s : State) : State :=
  let q := s.cur.q
  let t := s.myTile
  let t := if h.popl then takeTok t (popLeft q) else t
  let t := if h.popr then takeTok t (popRight q) else t
  let t := t.setQueue q ((t.queue q).drop 1)
  let t := { t with issued := q :: t.issued }
  let old := t.oldest s.cur.seq
  s.setMyTile { t with ahead := (t.ahead ++ [(s.cur.seq, q)]).filter fun x => old < x.1 }

/-- The pushes of a word that completes in this cycle; they are added at the cycle's end in queue order (R62, R63). -/
def pushDone (h : Hdr) (s : State) : State :=
  let q := s.cur.q
  let t := s.myTile
  let l := (if h.pshl then [(s.cur.seq, pushLeft q)] else []) ++ (if h.pshr then [(s.cur.seq, pushRight q)] else [])
  s.setMyTile { t with pushnow := t.pushnow ++ l }

/-- What the issue of a queued word comes to: it waits; it traps; it completes in this cycle; it issues and completes later (a fence); it completes
when its result is written, `lat` − 1 cycles later (R69), with the `y` register of its pipe (R66) or the DRAM access that gives its value. -/
inductive QRes where
  | wait
  | trap (s : State) (t : TrapInfo)
  | done (s : State)
  | held (s : State)
  | result (s : State) (lat : Nat) (dst : List Dest) (y : Option (Nat × Nat)) (acc : Option Nat)
deriving DecidableEq, Repr

/-- A result put in the due-list (R78). -/
def putDue (h : Hdr) (s : State) (lat : Nat) (dst : List Dest) (y : Option (Nat × Nat)) (acc : Option Nat) : State :=
  let t := s.myTile
  s.setMyTile { t with
    due := t.due ++ [⟨t.now + lat - 1, s.cur.seq, s.cur.q, dst, y, h.pshl, h.pshr, acc⟩] }

/-- The issue of a queued word (R59, R61, R62): under a false predicate it only takes its tokens and makes its pushes, and waits for nothing that its
effect would need, such as a result entry of `xpop` or a place in an engine's queue (DEDUCED, assumption 56). -/
def qWord (h : Hdr) (s : State) (body : State → QRes) : Host.Outcome State Fault Refusal :=
  .next (if s.onSorrel then s.take { cause := cILL, val := s.cur.w0 }
    else if s.cur.pred then
      match body s with
      | .wait => s
      | .trap s' t => s'.take t
      | .done s' => pushDone h (issueHead h s')
      | .held s' => issueHead h s'
      | .result s' lat dst y acc => putDue h (issueHead h s') lat dst y acc
    else pushDone h (issueHead h s))

/-- A vector result of the lanes `act`, from a pipe. -/
def vecRes (s : State) (lat y : Nat) (r : Nat) (v : Vec) (act : BitVec 64) : QRes :=
  .result s lat [.vec r v act] (some (y, r)) none

end Sys2Proof.Machine
end

