-- ==== Sys2Proof/Machine/Scalar.lean ====
section
/-! DEFINITION. The scalar, predicate and special-register instructions of 05_control_scalar.md R122 to R130. -/

namespace Sys2Proof.Machine

/-- A scalar result from its sources (R123): poison merges the poisoned sources' ids, any other result has its tag clear. -/
def scalRes (srcs : List Scal) (v : BitVec 64) : Scal :=
  let ids := (srcs.filter Scal.tag).map fun x => idOf 64 x.bits
  if ids ≠ [] then Scal.poison (poisonMerge ids) else ⟨v, false⟩

/-- A word that writes one scalar register computed from others (R123). -/
def scalWord (p : BitVec 4) (d : BitVec 6) (s : State) (g : Core → Scal) : Host.Outcome State Fault Refusal :=
  feWord p s fun s => .step (s.setCore (s.core.setS d.toNat (g s.core)))

/-- A two-source row of the ALU group (Table 50). -/
def aluWord (p : BitVec 4) (f : FmtS) (s : State) (op : BitVec 64 → BitVec 64 → BitVec 64) : Host.Outcome State Fault Refusal :=
  scalWord p f.d s fun c =>
    let a := c.s f.a.toNat
    let b := c.s f.b.toNat
    scalRes [a, b] (op a.bits b.bits)

/-- A one-source row of the ALU group. -/
def alu1Word (p : BitVec 4) (f : FmtS) (s : State) (op : BitVec 64 → BitVec 64) : Host.Outcome State Fault Refusal :=
  scalWord p f.d s fun c =>
    let a := c.s f.a.toNat
    scalRes [a] (op a.bits)

/-- Signed quotient toward zero with the corners of Table 50. -/
def divS (a b : BitVec 64) : BitVec 64 := if b = 0 then BitVec.allOnes 64 else BitVec.sdiv a b
/-- Signed remainder: a − b × quotient. -/
def remS (a b : BitVec 64) : BitVec 64 := if b = 0 then a else a - b * BitVec.sdiv a b
/-- The shift amount b[5:0]. -/
def shAmt (b : BitVec 64) : Nat := b.toNat % 64
/-- Byte reversal. -/
def bswp (a : BitVec 64) : BitVec 64 := BitVec.ofNat 64 (leVal (leBytes 8 a.toNat).reverse)

def execAdd (p : BitVec 4) (f : FmtS) (s : State) := aluWord p f s fun a b => a + b
def execSub (p : BitVec 4) (f : FmtS) (s : State) := aluWord p f s fun a b => a - b
def execMul (p : BitVec 4) (f : FmtS) (s : State) := aluWord p f s fun a b => a * b
/-- Bits [127:64] of the exact signed product. -/
def execMulhs (p : BitVec 4) (f : FmtS) (s : State) := aluWord p f s fun a b => BitVec.ofInt 64 (a.toInt * b.toInt / 2 ^ 64)
/-- Bits [127:64] of the exact unsigned product. -/
def execMulhu (p : BitVec 4) (f : FmtS) (s : State) := aluWord p f s fun a b => BitVec.ofNat 64 (a.toNat * b.toNat / 2 ^ 64)
def execDivs (p : BitVec 4) (f : FmtS) (s : State) := aluWord p f s divS
def execDivu (p : BitVec 4) (f : FmtS) (s : State) := aluWord p f s fun a b => if b = 0 then BitVec.allOnes 64 else a / b
def execRems (p : BitVec 4) (f : FmtS) (s : State) := aluWord p f s remS
def execRemu (p : BitVec 4) (f : FmtS) (s : State) := aluWord p f s fun a b => if b = 0 then a else a % b
def execAnd (p : BitVec 4) (f : FmtS) (s : State) := aluWord p f s fun a b => a &&& b
def execOr (p : BitVec 4) (f : FmtS) (s : State) := aluWord p f s fun a b => a ||| b
def execXor (p : BitVec 4) (f : FmtS) (s : State) := aluWord p f s fun a b => a ^^^ b
def execAndn (p : BitVec 4) (f : FmtS) (s : State) := aluWord p f s fun a b => a &&& ~~~b
def execShl (p : BitVec 4) (f : FmtS) (s : State) := aluWord p f s fun a b => a <<< shAmt b
def execShr (p : BitVec 4) (f : FmtS) (s : State) := aluWord p f s fun a b => a >>> shAmt b
def execSar (p : BitVec 4) (f : FmtS) (s : State) := aluWord p f s fun a b => a.sshiftRight (shAmt b)
def execRotr (p : BitVec 4) (f : FmtS) (s : State) := aluWord p f s fun a b => a.rotateRight (shAmt b)
def execMin (p : BitVec 4) (f : FmtS) (s : State) := aluWord p f s fun a b => if a.slt b then a else b
def execMax (p : BitVec 4) (f : FmtS) (s : State) := aluWord p f s fun a b => if a.slt b then b else a
def execMinu (p : BitVec 4) (f : FmtS) (s : State) := aluWord p f s fun a b => if a.ult b then a else b
def execMaxu (p : BitVec 4) (f : FmtS) (s : State) := aluWord p f s fun a b => if a.ult b then b else a
def execPopc (p : BitVec 4) (f : FmtS) (s : State) := alu1Word p f s fun a => BitVec.ofNat 64 (popN 64 a.toNat)
def execClz (p : BitVec 4) (f : FmtS) (s : State) := alu1Word p f s fun a => BitVec.ofNat 64 (clzN 64 a.toNat)
def execCtz (p : BitVec 4) (f : FmtS) (s : State) := alu1Word p f s fun a => BitVec.ofNat 64 (ctzN 64 a.toNat)
def execBswp (p : BitVec 4) (f : FmtS) (s : State) := alu1Word p f s bswp

/-- R125. -/
def execAddi (p : BitVec 4) (f : FmtSI) (s : State) :=
  scalWord p f.d s fun c => scalRes [c.s f.a.toNat] ((c.s f.a.toNat).bits + f.imm.signExtend 64)
/-- R125: reads no source. -/
def execLi (p : BitVec 4) (f : FmtSI) (s : State) := scalWord p f.d s fun _ => ⟨f.imm.signExtend 64, false⟩
/-- R125: the low half of `sD` is kept, and `sD` is a source. -/
def execLih (p : BitVec 4) (f : FmtSI) (s : State) :=
  scalWord p f.d s fun c =>
    let d := c.s f.d.toNat
    scalRes [d] (BitVec.ofNat 64 (f.imm.toNat * 2 ^ 32 + d.bits.toNat % 2 ^ 32))

/-- R126: a choice copies bits and tag; a poisoned `qC` merges the anonymous id with the poisoned sources. -/
def execSel (p : BitVec 4) (f : FmtS) (s : State) :=
  scalWord p f.d s fun c =>
    let a := c.s f.a.toNat
    let b := c.s f.b.toNat
    let q := c.qv f.c.toNat
    if q.2 then Scal.poison (poisonMerge (anonId :: ([a, b].filter Scal.tag).map fun x => idOf 64 x.bits))
    else if q.1 then a else b

/-- A word that writes one predicate (R123): ILL when the loop engine owns it (R80), false with the tag set from a poisoned source. -/
def predWord (p : BitVec 4) (d : BitVec 6) (s : State) (g : Core → Bool × Bool) : Host.Outcome State Fault Refusal :=
  feWord p s fun s =>
    if s.core.owned d.toNat then illHere s
    else
      let r := g s.core
      .step (s.setCore (s.core.setQ d.toNat (r.1 && !r.2) r.2))

/-- R127. -/
def execCmp (p : BitVec 4) (f : FmtS) (s : State) :=
  predWord p f.d s fun c =>
    let a := c.s f.a.toNat
    let b := c.s f.b.toNat
    (cond64 f.fn.toNat a.bits b.bits, a.tag || b.tag)
/-- R127. -/
def execCmpi (p : BitVec 4) (f : FmtSI) (s : State) :=
  predWord p f.d s fun c =>
    let a := c.s f.a.toNat
    (cond64 f.k4.toNat a.bits (f.imm.signExtend 64), a.tag)
/-- R128. -/
def prdWord (p : BitVec 4) (f : FmtS) (s : State) (op : Bool → Bool → Bool) : Host.Outcome State Fault Refusal :=
  predWord p f.d s fun c =>
    let a := c.qv f.a.toNat
    let b := c.qv f.b.toNat
    (op a.1 b.1, a.2 || b.2)
def execPand (p : BitVec 4) (f : FmtS) (s : State) := prdWord p f s and
def execPor (p : BitVec 4) (f : FmtS) (s : State) := prdWord p f s or
def execPxor (p : BitVec 4) (f : FmtS) (s : State) := prdWord p f s xor
def execPnot (p : BitVec 4) (f : FmtS) (s : State) :=
  predWord p f.d s fun c =>
    let a := c.qv f.a.toNat
    (!a.1, a.2)

/-- R129: the field of `K12`: pos and len. -/
def execExtb (p : BitVec 4) (f : FmtS) (s : State) :=
  scalWord p f.d s fun c =>
    let a := c.s f.a.toNat
    scalRes [a] (BitVec.ofNat 64 (a.bits.toNat / 2 ^ (f.k12.toNat / 64) % 2 ^ (f.k12.toNat % 64 + 1)))
def execInsb (p : BitVec 4) (f : FmtS) (s : State) :=
  scalWord p f.d s fun c =>
    let d := c.s f.d.toNat
    let a := c.s f.a.toNat
    let pos := f.k12.toNat / 64
    let len := f.k12.toNat % 64 + 1
    let keep := d.bits.toNat % 2 ^ pos + d.bits.toNat / 2 ^ (pos + len) * 2 ^ (pos + len)
    scalRes [d, a] (BitVec.ofNat 64 (keep + a.bits.toNat % 2 ^ len * 2 ^ pos))

/-- `TOKF` (Table 29). -/
def tokF (t : Tile) : Nat :=
  (List.range 6).foldl (fun n i => n + tget 0 t.tok i * 2 ^ (4 * i)) 0
/-- `PSNC` (Table 29). -/
def psncR (t : Tile) : Nat := (List.range 5).foldl (fun n i => n + tget 0 t.psnc i * 2 ^ (7 * i)) 0
/-- `LPST` (Table 29). -/
def lpst (c : Core) : Nat :=
  let act := (List.range 8).filter fun l => (c.loop l).active
  let pipe := act.filter fun l => 2 ≤ (c.loop l).n
  let inner := act.foldl max 0
  let pl := pipe.headD 0
  inner + (if act ≠ [] then 8 else 0) + pl * 16 + (if pipe ≠ [] then 2 ^ 7 + ((c.loop pl).n - 1) * 2 ^ 8 else 0)

/-- The registers of Table 29 on a tile: `LPASS` has bits [31:0] of the pass number. -/
def tileSr (s : State) (n : Nat) : Nat :=
  let t := s.myTile
  let r := s.rgnOf s.me
  let c := s.core
  if n = 0 then t.tix
  else if n = 1 then (if r.w = 0 then 0 else t.tix % r.w + t.tix / r.w * 2 ^ 8)
  else if n = 2 then r.w + r.h * 2 ^ 8
  else if n = 3 then t.step
  else if n = 4 then t.cyc
  else if n = 5 then (s.ctx r.ctx).seed.toNat
  else if n = 6 then 8 * (c.w % 62)
  else if n = 7 then tokF t
  else if n = 8 then psncR t
  else if n = 9 then lpst c
  else let l := c.loop (n - 16); if l.active then l.p % 2 ^ 32 else 0

/-- `CTXID` (Table 144). -/
def ctxId (s : State) : Nat :=
  let r := s.rgnOf s.me
  let c := s.ctx r.ctx
  (if c.pclr then 1 else 0) + r.ctx * 2 ^ 8 + c.vf * 2 ^ 16 + c.iface * 2 ^ 24

/-- `mfsr` (R130, R346, R136): Table 29 and Table 144; on Sorrel a number of Table 29 reads 0, and so does `CTXID`, for which it has no context
(DESIGN CHOICE, assumption 57). -/
def readSr (s : State) (n : Nat) : Nat :=
  let tr := s.core.trap
  if n < 0x100 then (if s.onSorrel then 0 else tileSr s n)
  else if n = 0x100 then tr.tstat.toNat
  else if n = 0x101 then tr.tcause.toNat
  else if n = 0x102 then tr.tpc.toNat
  else if n = 0x103 then tr.trpc.toNat
  else if n = 0x104 then tr.tval.toNat
  else if n = 0x105 then tr.tvec.toNat
  else if n = 0x106 then tr.tahead.toNat
  else if n = 0x107 then (if s.onSorrel then 0 else ctxId s)
  else (tr.trec.getD (n - 0x110) 0).toNat

/-- R130. -/
def execMfsr (p : BitVec 4) (f : FmtS) (s : State) :=
  feWord p s fun s => .step (s.setCore (s.core.setS f.d.toNat ⟨BitVec.ofNat 64 (readSr s f.k12.toNat), false⟩))

/-- The writable registers of Table 144: `TSTAT` and `TRPC` in a handler, `TVEC` on Sorrel; any other write is ignored (R71). -/
def writeSr (sorrel : Bool) (tr : TrapRegs) (n : Nat) (v : BitVec 64) : TrapRegs :=
  if n = 0x100 ∧ tr.hnd = true then
    let keep := tr.tstat &&& 0x00000000FFFF000D#64
    { tr with tstat := keep ||| (v &&& 0xFFFFFFFF0000FFF2#64) }
  else if n = 0x103 ∧ tr.hnd = true ∧ tr.dq = 0 then { tr with trpc := BitVec.ofNat 32 (v.toNat / 8 * 8) }
  else if n = 0x105 ∧ sorrel = true then { tr with tvec := BitVec.ofNat 32 v.toNat }
  else tr

/-- R130: a poisoned `sA` raises POISST and nothing is written. -/
def execMtsr (p : BitVec 4) (f : FmtS) (s : State) :=
  feWord p s fun s =>
    let a := s.core.s f.a.toNat
    if a.tag then .trap s { cause := cPOISST, val := 1 }
    else .step (s.setCore { s.core with trap := writeSr s.onSorrel s.core.trap f.k12.toNat a.bits })

/-- R130; ILL on Sorrel (R136). -/
def execRlr (p : BitVec 4) (f : FmtS) (s : State) :=
  if s.onSorrel then .next (illHere s).state
  else feWord p s fun s => .step (s.setCore (s.core.setCap f.d.toNat (tget Cap.null s.core.rl f.a.toNat)))

end Sys2Proof.Machine
end

