-- ==== Sys2Proof/Machine/Capability.lean ====
section
/-! DEFINITION. The capability instructions of 05_control_scalar.md R131 to R135. -/

namespace Sys2Proof.Machine

/-- A word that writes one capability register: the value, or a trap. -/
def capWord (p : BitVec 4) (d : BitVec 6) (s : State) (g : Core → Except TrapInfo Cap) : Host.Outcome State Fault Refusal :=
  feWord p s fun s =>
    match g s.core with
    | .ok c => .step (s.setCore (s.core.setCap d.toNat c))
    | .error t => .trap s t

/-- The POISADR of a poisoned scalar operand (R131, R347). -/
def poisAdr (x : Scal) : TrapInfo := { cause := cPOISADR, val := x.bits.toNat }

/-- A capability with its cursor replaced. -/
def Cap.withCur (c : Cap) (x : Nat) : Cap :=
  ⟨BitVec.ofNat 128 (c.bits.toNat / 2 ^ 96 * 2 ^ 96 + x % 2 ^ 48 * 2 ^ 48 + c.bits.toNat % 2 ^ 48), c.tag⟩
/-- A capability with its rights replaced. -/
def Cap.withRights (c : Cap) (x : Nat) : Cap :=
  ⟨BitVec.ofNat 128 (c.bits.toNat / 2 ^ 104 * 2 ^ 104 + x % 2 ^ 8 * 2 ^ 96 + c.bits.toNat % 2 ^ 96), c.tag⟩

/-- R132. -/
def execCmov (p : BitVec 4) (f : FmtS) (s : State) := capWord p f.d s fun c => .ok (c.cap f.a.toNat)
def execCnul (p : BitVec 4) (f : FmtS) (s : State) := capWord p f.d s fun _ => .ok Cap.null
def execCrgt (p : BitVec 4) (f : FmtS) (s : State) :=
  capWord p f.d s fun c => .ok ((c.cap f.a.toNat).withRights ((c.cap f.a.toNat).rights &&& f.k12.toNat))
def execCseto (p : BitVec 4) (f : FmtS) (s : State) :=
  capWord p f.d s fun c =>
    let b := c.s f.b.toNat
    if b.tag then .error (poisAdr b)
    else if 2 ^ 48 ≤ b.bits.toNat then .error { cause := cCAPBND }
    else .ok ((c.cap f.a.toNat).withCur b.bits.toNat)
def execCinc (p : BitVec 4) (f : FmtS) (s : State) :=
  capWord p f.d s fun c =>
    let b := c.s f.b.toNat
    let x : Int := (c.cap f.a.toNat).cur + b.bits.toInt + sextN 12 f.k12.toNat
    if b.tag then .error (poisAdr b)
    else if x < 0 ∨ 2 ^ 48 ≤ x then .error { cause := cCAPBND }
    else .ok ((c.cap f.a.toNat).withCur x.toNat)

/-- The smallest exponent from 6 to 40 whose granules let the top fit (R133). -/
def cderExp (hi : Nat) : Option Nat :=
  ((List.range 35).map (· + 6)).find? fun e => (hi + 2 ^ e - 1) / 2 ^ e < 2 ^ 21

/-- R133. -/
def derive (p : Cap) (n : Scal) (k12 : Nat) : Except TrapInfo Cap :=
  if n.tag then .error (poisAdr n)
  else if p.bits = 0 ∧ p.tag = false then .error { cause := cCAPNUL }
  else if p.tag = false then .error { cause := cCAPTAG }
  else if !p.has rtD then .error { cause := cCAPRGT }
  else if p.exp < 6 ∨ 40 < p.exp then .error { cause := cCAPBND }
  else
    let lo := p.cur
    let hi := lo + n.bits.toNat
    match cderExp hi with
    | none => .error { cause := cCAPBND }
    | some e =>
      let b := lo / 2 ^ e
      let t := (hi + 2 ^ e - 1) / 2 ^ e
      if b * 2 ^ e < p.lo ∨ p.hi < t * 2 ^ e then .error { cause := cCAPBND }
      else if bitN k12 8 ∧ (b * 2 ^ e ≠ lo ∨ t * 2 ^ e ≠ hi) then .error { cause := cCAPBND }
      else .ok (mkCap p.oid (p.rights &&& k12 % 256) lo e b t true)

def execCder (p : BitVec 4) (f : FmtS) (s : State) :=
  capWord p f.d s fun c => derive (c.cap f.a.toNat) (c.s f.b.toNat) f.k12.toNat

/-- Table 53. -/
def capField (c : Cap) (k : Nat) : Nat :=
  match k with
  | 0 => c.oid
  | 1 => c.rights
  | 2 => c.cur
  | 3 => c.exp
  | 4 => c.lo
  | 5 => c.hi
  | 6 => c.hi - c.lo
  | 7 => if c.tag then 1 else 0
  | 8 => c.bits.toNat % 2 ^ 64
  | _ => c.bits.toNat / 2 ^ 64

/-- R134. -/
def execCget (p : BitVec 4) (f : FmtS) (s : State) :=
  scalWord p f.d s fun c => ⟨BitVec.ofNat 64 (capField (c.cap f.a.toNat) f.k12.toNat), false⟩

/-- R135. The offset in `sB` is signed, as R83's check takes that of a load or a store (DEDUCED, assumption 58). -/
def execCchk (p : BitVec 4) (f : FmtS) (s : State) :=
  predWord p f.d s fun c =>
    let b := c.s f.b.toNat
    let k := f.k12.toNat
    ((match capCheck (c.cap f.a.toNat) b.bits.toInt (2 ^ (k / 256)) (k % 256) 1 with
      | .ok _ => true
      | .error _ => false), b.tag)

end Sys2Proof.Machine
end

