-- ==== Sys2Proof/Machine/Crypto.lean ====
section
/-! DEFINITION. SHA-384 (FIPS 180-4) and AES-256-GCM (FIPS 197, SP 800-38D), which the spec names for digests and sealed records. -/

namespace Sys2Proof.Machine

/-! ### SHA-384 -/

def shaK0 : List (BitVec 64) :=
  [0x428a2f98d728ae22, 0x7137449123ef65cd, 0xb5c0fbcfec4d3b2f, 0xe9b5dba58189dbbc,
   0x3956c25bf348b538, 0x59f111f1b605d019, 0x923f82a4af194f9b, 0xab1c5ed5da6d8118]
def shaK1 : List (BitVec 64) :=
  [0xd807aa98a3030242, 0x12835b0145706fbe, 0x243185be4ee4b28c, 0x550c7dc3d5ffb4e2,
   0x72be5d74f27b896f, 0x80deb1fe3b1696b1, 0x9bdc06a725c71235, 0xc19bf174cf692694]
def shaK2 : List (BitVec 64) :=
  [0xe49b69c19ef14ad2, 0xefbe4786384f25e3, 0x0fc19dc68b8cd5b5, 0x240ca1cc77ac9c65,
   0x2de92c6f592b0275, 0x4a7484aa6ea6e483, 0x5cb0a9dcbd41fbd4, 0x76f988da831153b5]
def shaK3 : List (BitVec 64) :=
  [0x983e5152ee66dfab, 0xa831c66d2db43210, 0xb00327c898fb213f, 0xbf597fc7beef0ee4,
   0xc6e00bf33da88fc2, 0xd5a79147930aa725, 0x06ca6351e003826f, 0x142929670a0e6e70]
def shaK4 : List (BitVec 64) :=
  [0x27b70a8546d22ffc, 0x2e1b21385c26c926, 0x4d2c6dfc5ac42aed, 0x53380d139d95b3df,
   0x650a73548baf63de, 0x766a0abb3c77b2a8, 0x81c2c92e47edaee6, 0x92722c851482353b]
def shaK5 : List (BitVec 64) :=
  [0xa2bfe8a14cf10364, 0xa81a664bbc423001, 0xc24b8b70d0f89791, 0xc76c51a30654be30,
   0xd192e819d6ef5218, 0xd69906245565a910, 0xf40e35855771202a, 0x106aa07032bbd1b8]
def shaK6 : List (BitVec 64) :=
  [0x19a4c116b8d2d0c8, 0x1e376c085141ab53, 0x2748774cdf8eeb99, 0x34b0bcb5e19b48a8,
   0x391c0cb3c5c95a63, 0x4ed8aa4ae3418acb, 0x5b9cca4f7763e373, 0x682e6ff3d6b2b8a3]
def shaK7 : List (BitVec 64) :=
  [0x748f82ee5defb2fc, 0x78a5636f43172f60, 0x84c87814a1f0ab72, 0x8cc702081a6439ec,
   0x90befffa23631e28, 0xa4506cebde82bde9, 0xbef9a3f7b2c67915, 0xc67178f2e372532b]
def shaK8 : List (BitVec 64) :=
  [0xca273eceea26619c, 0xd186b8c721c0c207, 0xeada7dd6cde0eb1e, 0xf57d4f7fee6ed178,
   0x06f067aa72176fba, 0x0a637dc5a2c898a6, 0x113f9804bef90dae, 0x1b710b35131c471b]
def shaK9 : List (BitVec 64) :=
  [0x28db77f523047d84, 0x32caab7b40c72493, 0x3c9ebe0a15c9bebc, 0x431d67c49c100d4c,
   0x4cc5d4becb3e42b6, 0x597f299cfc657e2a, 0x5fcb6fab3ad6faec, 0x6c44198c4a475817]
/-- The 80 round constants. -/
def shaK : List (BitVec 64) := shaK0 ++ shaK1 ++ shaK2 ++ shaK3 ++ shaK4 ++ shaK5 ++ shaK6 ++ shaK7 ++ shaK8 ++ shaK9

/-- The initial hash value. -/
def shaIV : List (BitVec 64) :=
  [0xcbbb9d5dc1059ed8, 0x629a292a367cd507, 0x9159015a3070dd17, 0x152fecd8f70e5939,
   0x67332667ffc00b31, 0x8eb44a8768581511, 0xdb0c2e0d64f98fa7, 0x47b5481dbefa4fa4]

/-- The six functions of the 64-bit words. -/
def shaS0 (x : BitVec 64) : BitVec 64 := x.rotateRight 28 ^^^ x.rotateRight 34 ^^^ x.rotateRight 39
def shaS1 (x : BitVec 64) : BitVec 64 := x.rotateRight 14 ^^^ x.rotateRight 18 ^^^ x.rotateRight 41
def shas0 (x : BitVec 64) : BitVec 64 := x.rotateRight 1 ^^^ x.rotateRight 8 ^^^ x >>> 7
def shas1 (x : BitVec 64) : BitVec 64 := x.rotateRight 19 ^^^ x.rotateRight 61 ^^^ x >>> 6
def shaCh (x y z : BitVec 64) : BitVec 64 := (x &&& y) ^^^ (~~~x &&& z)
def shaMaj (x y z : BitVec 64) : BitVec 64 := (x &&& y) ^^^ (x &&& z) ^^^ (y &&& z)

/-- One round, with the window of the next sixteen schedule words. -/
def shaRound (k : BitVec 64) (h w : List (BitVec 64)) : List (BitVec 64) × List (BitVec 64) :=
  match h, w with
  | [a, b, c, d, e, f, g, x], w0 :: ws =>
    let t1 := x + shaS1 e + shaCh e f g + k + w0
    let t2 := shaS0 a + shaMaj a b c
    ([t1 + t2, a, b, c, d + t1, e, f, g],
      ws ++ [shas1 (w.getD 14 0) + w.getD 9 0 + shas0 (w.getD 1 0) + w0])
  | _, _ => (h, w)

def shaRounds : List (BitVec 64) → List (BitVec 64) → List (BitVec 64) → List (BitVec 64)
  | [], h, _ => h
  | k :: ks, h, w => let r := shaRound k h w; shaRounds ks r.1 r.2

/-- Big-endian value of bytes, and big-endian bytes of a value. -/
def beVal (l : List Byte) : Nat := l.foldl (fun n b => 256 * n + b.toNat) 0
def beBytes (n v : Nat) : List Byte := (leBytes n v).reverse

/-- One block of 128 bytes. -/
def shaBlock (h : List (BitVec 64)) (blk : List Byte) : List (BitVec 64) :=
  let w := (List.range 16).map fun i => BitVec.ofNat 64 (beVal ((blk.drop (8 * i)).take 8))
  (h.zip (shaRounds shaK h w)).map fun x => x.1 + x.2

def shaBlocks : Nat → List (BitVec 64) → List Byte → List (BitVec 64)
  | 0, h, _ => h
  | n + 1, h, l => shaBlocks n (shaBlock h (l.take 128)) (l.drop 128)

/-- SHA-384 of bytes: 48 bytes. -/
def sha384 (m : List Byte) : List Byte :=
  let z := (239 - m.length % 128) % 128
  let p := m ++ [0x80] ++ List.replicate z 0 ++ beBytes 16 (8 * m.length)
  ((shaBlocks (p.length / 128) shaIV p).flatMap fun x => beBytes 8 x.toNat).take 48

/-- HMAC-SHA-384 (RFC 2104). -/
def hmac384 (key m : List Byte) : List Byte :=
  let k := (if 128 < key.length then sha384 key else key)
  let k := k ++ List.replicate (128 - k.length) 0
  sha384 (k.map (· ^^^ 0x5C) ++ sha384 (k.map (· ^^^ 0x36) ++ m))

/-- The first n bytes, 48 at most, of HKDF-Expand-SHA-384 (RFC 5869). -/
def hkdfExpand (prk info : List Byte) (n : Nat) : List Byte := (hmac384 prk (info ++ [1])).take n

/-- A digest held as a number whose byte i (little-endian) is byte i of the digest, and back. -/
def digNum (l : List Byte) : BitVec 384 := BitVec.ofNat 384 (leVal l)
def digBytes (d : BitVec 384) : List Byte := leBytes 48 d.toNat

/-! ### AES-256 -/

/-- Multiplication by x and by a byte in GF(2^8) of FIPS 197. -/
def xtime (x : BitVec 8) : BitVec 8 := if x.msb then (x <<< 1) ^^^ 0x1b else x <<< 1
def gmul : Nat → BitVec 8 → BitVec 8 → BitVec 8
  | 0, _, _ => 0
  | n + 1, a, b => (if b.getLsbD 0 then a else 0) ^^^ gmul n (xtime a) (b >>> 1)

/-- Inverse in GF(2^8): x^254. -/
def ginv (x : BitVec 8) : BitVec 8 :=
  let m := gmul 8
  let x2 := m x x
  let x4 := m x2 x2
  let x8 := m x4 x4
  let x16 := m x8 x8
  let x32 := m x16 x16
  let x64 := m x32 x32
  let x128 := m x64 x64
  m x128 (m x64 (m x32 (m x16 (m x8 (m x4 x2)))))

def sbox (x : BitVec 8) : BitVec 8 :=
  let y := ginv x
  y ^^^ y.rotateLeft 1 ^^^ y.rotateLeft 2 ^^^ y.rotateLeft 3 ^^^ y.rotateLeft 4 ^^^ 0x63

def xorB (a b : List Byte) : List Byte := (a.zip b).map fun x => x.1 ^^^ x.2

/-- Key schedule: the 60 words of AES-256, from the last eight words kept newest first. -/
def aesExpand : Nat → Nat → BitVec 8 → List (List Byte) → List (List Byte)
  | 0, _, _, ws => ws
  | n + 1, i, rc, ws =>
    let t := ws.headD []
    let u := if i % 8 = 0 then xorB (((t.drop 1) ++ t.take 1).map sbox) [rc, 0, 0, 0] else if i % 8 = 4 then t.map sbox else t
    aesExpand n (i + 1) (if i % 8 = 0 then xtime rc else rc) (xorB (ws.getD 7 []) u :: ws)

/-- The 15 round keys of 16 bytes. -/
def aesKeys (key : List Byte) : List (List Byte) :=
  let w0 := (List.range 8).map fun i => (key.drop (4 * i)).take 4
  let ws := (aesExpand 52 8 1 w0.reverse).reverse
  (List.range 15).map fun r => ((ws.drop (4 * r)).take 4).flatten

def shiftRows (s : List Byte) : List Byte := (List.range 16).map fun i => s.getD ((i + 4 * (i % 4)) % 16) 0

def mixCol (c : List Byte) : List Byte :=
  (List.range 4).map fun i =>
    let g := fun j => c.getD ((i + j) % 4) 0
    xtime (g 0) ^^^ (xtime (g 1) ^^^ g 1) ^^^ g 2 ^^^ g 3

def mixCols (s : List Byte) : List Byte := (List.range 4).flatMap fun i => mixCol ((s.drop (4 * i)).take 4)

def aesRounds : List (List Byte) → List Byte → List Byte
  | [], s => s
  | [k], s => xorB (shiftRows (s.map sbox)) k
  | k :: ks, s => aesRounds ks (xorB (mixCols (shiftRows (s.map sbox))) k)

/-- AES-256 of one block under expanded keys. -/
def aesBlock (ks : List (List Byte)) (x : List Byte) : List Byte := aesRounds (ks.drop 1) (xorB x (ks.headD []))

/-! ### GCM -/

/-- Multiplication in GF(2^128) as SP 800-38D orders its bits, on big-endian values. -/
def ghMul : Nat → Nat → BitVec 128 → BitVec 128 → BitVec 128
  | 0, _, _, _ => 0
  | n + 1, i, x, v =>
    (if x.getLsbD (127 - i) then v else 0) ^^^
      ghMul n (i + 1) x (if v.getLsbD 0 then (v >>> 1) ^^^ (0xe1 <<< 120) else v >>> 1)

def ghash (h : BitVec 128) : List (List Byte) → BitVec 128 → BitVec 128
  | [], y => y
  | b :: bs, y => ghash h bs (ghMul 128 0 (y ^^^ BitVec.ofNat 128 (beVal b)) h)

/-- Bytes in blocks of 16, the last padded with zeros. -/
def blocks16 (l : List Byte) : List (List Byte) :=
  (List.range ((l.length + 15) / 16)).map fun i => let b := (l.drop (16 * i)).take 16; b ++ List.replicate (16 - b.length) 0

/-- AES-256-GCM with a 12-byte nonce: the keystream applied to `data`, and the tag over `aad` and the ciphertext `ct`. -/
def gcm (key iv aad data ct : List Byte) : List Byte × List Byte :=
  let ks := aesKeys key
  let h := BitVec.ofNat 128 (beVal (aesBlock ks (List.replicate 16 0)))
  let n := (data.length + 15) / 16
  let strm := (List.range n).flatMap fun i => aesBlock ks (iv ++ beBytes 4 (i + 2))
  let y := ghash h (blocks16 aad ++ blocks16 ct ++ [beBytes 8 (8 * aad.length) ++ beBytes 8 (8 * ct.length)]) 0
  (xorB data strm, xorB (beBytes 16 y.toNat) (aesBlock ks (iv ++ beBytes 4 1)))

end Sys2Proof.Machine
end

