-- ==== Sys2Proof/Machine/Control.lean ====
section
/-! DEFINITION. The control instructions of 05_control_scalar.md: transfers, calls and the register window, the loop engine, step wait
and halt. -/

namespace Sys2Proof.Machine

/-- PC + 8 × sext(IMM32) (R112). -/
def relPc (s : State) (imm : BitVec 32) : Nat := wrapN 64 (s.cur.pc + 8 * imm.toInt)

/-- R113. -/
def execNop (p : BitVec 4) (_f : FmtC) (s : State) := feWord p s fun s => .step s
def execBra (p : BitVec 4) (f : FmtC) (s : State) := feWord p s fun s => .goto s (relPc s f.imm)

/-- POISBR decided by a register (R347): bit 6 says a scalar. -/
def poisBr (n : Nat) (scal : Bool) : TrapInfo := { cause := cPOISBR, val := n + if scal then 64 else 0 }

/-- R113, R114. -/
def execBrp (p : BitVec 4) (f : FmtC) (s : State) :=
  feWord p s fun s =>
    let a := s.core.qv f.a.toNat
    let b := s.core.qv f.b.toNat
    if a.2 then .trap s (poisBr f.a.toNat false)
    else if 2 ≤ f.k4.toNat ∧ b.2 = true then .trap s (poisBr f.b.toNat false)
    else if condBrp f.k4.toNat a.1 b.1 then .goto s (relPc s f.imm) else .step s

/-- R113. -/
def execJmpc (p : BitVec 4) (f : FmtC) (s : State) :=
  feWord p s fun s =>
    let a := s.core.s f.a.toNat
    let t := (a.bits + f.imm.signExtend 64).toNat
    if a.tag then .trap s { cause := cPOISADR, val := a.bits.toNat }
    else if t % 8 ≠ 0 then .trap s { cause := cALIGN, val := t }
    else .goto s t

/-- The frame area of R115 and R136: offset B and unit count U. A tile's comes from its kernel image header (13_kernel.md Table 117,
`FRAME` and `FBASE`); Sorrel's is the 64 KiB at 0x30000 of its SRAM. -/
def frameArea (s : State) : Nat × Nat :=
  if s.onSorrel then (0x30000, 1008)
  else
    let im := (s.rgnOf s.me).image
    let fr := leVal (mread im 0x10 4)
    (leVal (mread im 0x14 4), fr / 65)

/-- Whether a queued word that writes `s16` to `s63` has not written it yet (R117): it waits in its queue under a true predicate (a word
under a false one writes none, R59), or its result is due, a DRAM load's when it has been sampled. -/
def pendingScalar (t : Tile) : Bool :=
  let writes := fun (e : QEntry) => e.pred && match e.instr with
    | .lds _ f => 16 ≤ f.ds.toNat % 64
    | .semr _ f => 16 ≤ f.sd.toNat
    | .xpop _ f => 16 ≤ f.sd.toNat
    | .barq _ f => 16 ≤ f.sd.toNat
    | .hrd _ f => 16 ≤ f.vb.toNat % 64
    | _ => false
  let loads := fun (a : DAcc) => match a.form with
    | some (.scal ph _) => 16 ≤ ph
    | _ => false
  t.lq.any writes || t.cq.any writes || t.sq.any writes || t.dacc.any loads
    || t.due.any fun d => d.dst.any fun x => match x with
      | .scal ph _ => 16 ≤ ph
      | _ => false

/-- A `call` or `ret` of a tile is not handled yet: a scalar write is pending (R117). It waits whatever its predicate. -/
def State.scalarWaits (s : State) : Bool := !s.onSorrel && pendingScalar s.myTile

/-- A `call` or `ret` waits: for a pending scalar write, and for an empty S queue when it spills or fills (R117). A fence that still holds
the queue counts as in it (DEDUCED, assumption 10). -/
def windowWaits (s : State) (moves : Bool) : Bool :=
  s.scalarWaits || (moves && !s.onSorrel && (!s.myTile.sq.isEmpty || s.myTile.fence.isSome))

/-- A `call` or `ret` under its predicate, once no scalar write is pending (R117). -/
def callWord (p : BitVec 4) (s : State) (body : State → FRes) : Host.Outcome State Fault Refusal :=
  if s.scalarWaits then .next s else feWord p s body

/-- Numbers from a to b − 1. -/
def upTo (a b : Nat) : List Nat := (List.range (b - a)).map (a + ·)

/-- The units a `call` spills; the return address is written with the last one, after it (R116). -/
def spills (ret : Nat) : List Nat → List WinOp
  | [] => []
  | [u] => [.spillLink u ret]
  | u :: l => .spill u :: spills ret l

/-- `call` (R116, R117). The unit records are written in the cycles that follow, one each. -/
def execCall (p : BitVec 4) (f : FmtC) (s : State) :=
  callWord p s fun s =>
    let c := s.core
    let w2 := c.w + f.k4.toNat
    let lo2 := max c.lo (w2 + 6 - 62)
    if (frameArea s).2 < lo2 then .trap s { cause := cCAPBND }
    else if windowWaits s (c.lo < lo2) then .stay s
    else
      let c1 := { c with w := w2, lo := lo2, win := spills (s.cur.pc + 8) (upTo c.lo lo2) }
      let link : Scal := ⟨BitVec.ofNat 64 (s.cur.pc + 8), false⟩
      .goto (s.setCore (if c.lo < lo2 then c1 else c1.setS 63 link)) (relPc s f.imm)

/-- `ret` (R116, R117). One that would fill waits for an empty S queue before it looks at its link (DEDUCED, assumption 10). -/
def execRet (p : BitVec 4) (f : FmtC) (s : State) :=
  callWord p s fun s =>
    let c := s.core
    let n := f.k4.toNat
    let link := c.s 63
    if c.w < n then .trap s { cause := cCAPBND }
    else if windowWaits s (c.w - n < c.lo) then .stay s
    else if link.tag then .trap s { cause := cPOISADR, val := link.bits.toNat }
    else if link.bits.toNat % 8 ≠ 0 then .trap s { cause := cALIGN, val := link.bits.toNat }
    else
      let w := c.w - n
      let fills := (upTo w c.lo).map WinOp.fill
      let idle := if fills = [] then [] else List.replicate 9 WinOp.idle
      .goto (s.setCore { c with w := w, lo := min c.lo w, win := fills ++ idle }) link.bits.toNat

/-- The physical registers of unit u (R115). -/
def unitBase (u : Nat) : Nat := 16 + 8 * (u % 62)

/-- The memory of the frame area. -/
def frameSpace (s : State) : Memory := match s.cur.agent with
  | .tile k => (s.tile k).scr
  | .sorrel d => (s.die d).sram
  | .dev => []

/-- Write bytes to the frame area. -/
def frameWr (s : State) (a : Nat) (bs : List Byte) : State := match s.cur.agent with
  | .tile k => s.wr (.scr k) a bs
  | .sorrel d => let D := s.die d; s.setDie d { D with sram := mwrite D.sram a bs }
  | .dev => s

/-- `SpillUnit` (R115, R116). -/
def spillUnit (s : State) (u : Nat) : State :=
  let c := s.core
  let fa := frameArea s
  let regs := (List.range 8).map fun i => tget Scal.zero c.sreg (unitBase u + i)
  let tagb := (List.range 8).foldl (fun n i => n + if (regs.getD i Scal.zero).tag then 2 ^ i else 0) 0
  frameWr (frameWr s (fa.1 + 64 * u) (regs.flatMap fun r => leBytes 8 r.bits.toNat)) (fa.1 + 64 * fa.2 + u) [BitVec.ofNat 8 tagb]

/-- The registers of unit u from its record, for `FillUnit`. The bytes of a granule with an uncorrectable error are taken as they stand: R183
gives poison to loads only (DESIGN CHOICE, assumption 39). -/
def fillVals (s : State) (u : Nat) : List (Nat × Scal) :=
  let fa := frameArea s
  let m := frameSpace s
  let tagb := (mget m (fa.1 + 64 * fa.2 + u)).toNat
  (List.range 8).map fun i =>
    (unitBase u + i, ⟨BitVec.ofNat 64 (leVal (mread m (fa.1 + 64 * u + 8 * i) 8)), bitN tagb i⟩)

/-- A level whose stage predicates are written for pass p (R80). -/
def stagePreds (c : Core) (l : Loop) : Core :=
  if l.n < 2 then c
  else (List.range l.n).foldl (fun c i => c.setQ (8 + i) (l.f + i ≤ l.p && l.p < l.x + i) false) c

/-- Set a level. -/
def Core.setLoop (c : Core) (k : Nat) (l : Loop) : Core := { c with loops := tset c.loops k l }
/-- The levels that are active, ascending. -/
def Core.active (c : Core) : List Nat := (List.range 8).filter fun l => (c.loop l).active

/-- `lstg` (R118). -/
def execLstg (p : BitVec 4) (f : FmtC) (s : State) :=
  feWord p s fun s =>
    let c := s.core
    let L := f.k4.toNat
    let N := f.imm.toNat
    if 2 ≤ N ∧ (List.range 8).any (fun k => k != L && (((c.loop k).active && 2 ≤ (c.loop k).n) || 2 ≤ c.pendOf k)) = true then
      illHere s
    else .step (s.setCore { c with pend := tset c.pend L N })

/-- Kind and pre-emptible flag of a level from the loop table (R118; R136 on Sorrel). -/
def loopKind (s : State) (L : Nat) : Nat × Bool :=
  if s.onSorrel then (0, false) else tget (0, false) (s.rgnOf s.me).loops L

/-- `loop` (R118). -/
def execLoop (p : BitVec 4) (f : FmtC) (s : State) :=
  feWord p s fun s =>
    let c := s.core
    let L := f.k4.toNat
    let a := c.s f.a.toNat
    if c.active.any (L ≤ ·) = true then illHere s
    else if a.tag then .trap s (poisBr f.a.toNat true)
    else
      let x := a.bits.toNat % 2 ^ 32
      let n := c.pendOf L
      let c := { c with pend := tset c.pend L 1 }
      let stop := s.cur.pc + 8 * f.imm.toNat
      if x + n < 2 then .goto (s.setCore (c.setLoop L { c.loop L with start := s.cur.pc + 8, stop := stop })) (stop + 8)
      else
        let kp := loopKind s L
        let l : Loop := { active := true, start := s.cur.pc + 8, stop := stop, x := x, n := n, kind := kp.1, pre := kp.2 }
        .goto (s.setCore (stagePreds (c.setLoop L l) l)) (s.cur.pc + 8)

/-- The outermost active pre-emptible level (R81). -/
def Core.outerPre (c : Core) : Option Nat := c.active.find? fun l => (c.loop l).pre

/-- `lend` (R118, with the boundary and the latch of R313 and R314). -/
def execLend (p : BitVec 4) (f : FmtC) (s : State) :=
  feWord p s fun s =>
    let c := s.core
    let L := f.k4.toNat
    let l := c.loop L
    if c.active.getLast? ≠ some L ∨ s.cur.pc ≠ l.stop then illHere s
    else
      let l := { l with p := l.p + 1 }
      let boundary := !s.onSorrel && c.outerPre == some L && l.p < l.x
      let t := s.myTile
      let r := s.rgnOf s.me
      let stopNow := boundary && r.preq && r.tgt ≤ t.bndc + 1
      let s1 := if boundary then
          s.setMyTile (if stopNow then
              { t with bndc := t.bndc + 1, rstep := (t.now + 1) / 128, rcyc := (t.now + 1) % 128,
                       bstep := r.rstep + (t.now + 1) / 128 - t.step }
            else { t with bndc := t.bndc + 1 })
        else s
      let c := s1.core
      let l := if stopNow then { l with xr := l.x, fr := l.p, x := l.p, stopped := true } else l
      if l.p + 2 ≤ l.x + l.n then .goto (s1.setCore (stagePreds (c.setLoop L l) l)) l.start
      else
        let c := c.setLoop L { l with active := false }
        if l.stopped then .stay (s1.setCore { c with stopped := true })
        else .step (s1.setCore c)

/-- `lbrk` (R118). A level that drains for a freeze is left with it: no stop follows, and the request stays pending (R119). -/
def execLbrk (p : BitVec 4) (f : FmtC) (s : State) :=
  feWord p s fun s =>
    let c := s.core
    let L := f.k4.toNat
    if !(c.loop L).active then illHere s
    else
      let c := (c.active.filter (L ≤ ·)).foldl (fun c k => c.setLoop k { c.loop k with active := false, stopped := false }) c
      .goto (s.setCore c) (relPc s f.imm)

/-- `stepw` (R120); ILL on Sorrel (R136). -/
def execStepw (p : BitVec 4) (f : FmtC) (s : State) :=
  if s.onSorrel then .next (illHere s).state
  else feWord p s fun s =>
    let a := s.core.s f.a.toNat
    let target := (a.bits.toNat + f.imm.toNat) % 2 ^ 64
    if a.tag then .trap s (poisBr f.a.toNat true)
    else if s.myTile.step < target then .step (s.setCore { s.core with stepw := some target })
    else .step s

/-- `halt` (R121): the front end handles no word after it. -/
def execHalt (p : BitVec 4) (_f : FmtC) (s : State) :=
  feWord p s fun s => .stay (s.setCore { s.core with halted := true })

end Sys2Proof.Machine
end

