-- ==== Sys2Proof/Machine/Page.lean ====
section
/-! DEFINITION. Object tables, guest frame tables, frame tables and the extent translation cache; walks, fault records and their
answers; `xinv` and `otwr` (09_page.md R200 to R220). -/

namespace Sys2Proof.Machine

/-! ### Supervisor operands (R218, R220, R321) -/

/-- Write a scalar register of the executing front end, tag clear. -/
def State.putReg (s : State) (n v : Nat) : State := s.setCore (s.core.setS n ⟨BitVec.ofNat 64 v, false⟩)

/-- Write a group of registers. -/
def State.putRegs : State → Nat → List Nat → State
  | s, _, [] => s
  | s, n, v :: vs => State.putRegs (s.putReg n v) (n + 1) vs

/-- A status in [1:0]; one in [1:0] with bit 2 (R321, R352). -/
def statusIn (st x : Nat) : Nat := x / 4 * 4 + st % 4
def statusIn3 (st x : Nat) : Nat := x / 8 * 8 + st % 8

/-- Status in `sA`[1:0], the other bits unchanged. -/
def State.putStatus (s : State) (a st : Nat) : State :=
  s.putReg a (statusIn st (s.core.s a).bits.toNat)

/-- A supervisor word with status: `sA` and a group of `k` input registers from `sB`, read at the start. A poisoned input gives
status 1 and changes nothing. -/
def svOp (p : BitVec 4) (f : FmtZ) (k : Nat) (s : State) (body : State → Nat → List Nat → State × Nat) :
    Host.Outcome State Fault Refusal :=
  svWord p s fun s =>
    let a := s.core.s f.a.toNat
    let g := (List.range k).map fun i => s.core.s (f.b.toNat + i)
    if a.tag || g.any Scal.tag then .step (s.putStatus f.a.toNat 1)
    else
      let r := body s a.bits.toNat (g.map fun x => x.bits.toNat)
      .step (r.1.putStatus f.a.toNat r.2)

/-- The die whose Sorrel executes the word. -/
def State.myDie (s : State) : Nat :=
  match s.cur.agent with
  | .sorrel d => d
  | _ => 0

/-- Hold the executing front end for a completion. -/
def State.holdFor (s : State) (what key : Nat) : State := s.setCore { s.core with hold := some (what, key) }

/-- Hold it for a completion that writes its status then, to `sA`. -/
def State.holdOp (s : State) (what key a : Nat) : State := s.setCore { s.core with hold := some (what, key), holdA := a }

/-- The word that a Sorrel holds for a completion ends: its `sA` takes the value that `put` gives. -/
def State.finish (s : State) (what key : Nat) (put : Nat → Nat) : State :=
  [0, 1, 2].foldl (fun s d =>
    let D := s.die d
    let c := D.sorrel
    if c.hold = some (what, key) then
      s.setDie d { D with
        sorrel := { c.setS c.holdA ⟨BitVec.ofNat 64 (put (c.s c.holdA).bits.toNat), false⟩ with hold := none } }
    else s) s

/-- Release every Sorrel that waits for this completion. -/
def State.unhold (s : State) (what key : Nat) : State :=
  [0, 1, 2].foldl (fun s d =>
    let D := s.die d
    if D.sorrel.hold = some (what, key) then s.setDie d { D with sorrel := { D.sorrel with hold := none } } else s) s

/-! ### Frames (R205, R206) -/

/-- Host frames of a compute die and of the package (R16, R206). -/
abbrev dieFrames := 131072
abbrev allFrames := 393216

/-- Die of a host frame. -/
def dieOfFrame (h : Nat) : Nat := h / dieFrames

/-- Address of the frame-table entry of host frame h, in frame 0 of its die. -/
def ftAddr (h : Nat) : Nat := dieOfFrame h * dieFrames * frameB + 8 * (h % dieFrames)
/-- The entry. -/
def State.ft (s : State) (h : Nat) : Nat := leVal (mread s.dram (ftAddr h) 8)
def State.setFt (s : State) (h v : Nat) : State := s.dramWr (ftAddr h) (leBytes 8 v)
/-- Fields of R206. -/
def ftState (e : Nat) : Nat := e % 8
def ftVf (e : Nat) : Nat := e / 8 % 32
def ftGfr (e : Nat) : Nat := e / 2 ^ 8 % 2 ^ 19
def ftUe (e : Nat) : Nat := e / 2 ^ 27 % 2 ^ 16
def mkFt (st vf gfr ue : Nat) : Nat := st % 8 + vf % 32 * 8 + gfr % 2 ^ 19 * 2 ^ 8 + ue % 2 ^ 16 * 2 ^ 27

/-- Frame states. -/
abbrev fsFree := 0
abbrev fsGuar := 1
abbrev fsBurst := 2
abbrev fsPinned := 3
abbrev fsMigr := 4
abbrev fsRetired := 5

/-- Guest frame g of function v: its host frame, unless it is invalid (R205). Bits [31:20] of the entry are not looked at (DESIGN CHOICE,
assumption 40). -/
def State.gft (s : State) (v g : Nat) : Option Nat :=
  if v = 0 then some g
  else
    let F := s.fn v
    if F.glen ≤ g then none
    else
      let e := leVal (mread s.dram (F.gbase + 4 * g) 4)
      if bitN e 19 then some (e % 2 ^ 19) else none

/-! ### The object table (R202, R203) -/

/-- An entry of Table 80. -/
structure OtEnt where
  w0 : Nat
  w1 : Nat
  ext : List Nat
  rest : Nat
deriving DecidableEq, Repr

def OtEnt.state (e : OtEnt) : Nat := e.w0 % 8
def OtEnt.extn (e : OtEnt) : Nat := e.w0 / 16 % 16
def OtEnt.chain (e : OtEnt) : Nat := e.w0 / 2 ^ 8 % 2 ^ 24
def OtEnt.nfrm (e : OtEnt) : Nat := e.w0 / 2 ^ 32 % 2 ^ 27
def OtEnt.first (e : OtEnt) : Nat := e.w1 % 2 ^ 27
/-- The extents in use. -/
def OtEnt.exts (e : OtEnt) : List Nat := e.ext.take e.extn
/-- Frames of an extent descriptor, its first guest frame, and its `RES` (Table 81). -/
def extCnt (x : Nat) : Nat := x / 2 ^ 19 % 2 ^ 10 + 1
def extG (x : Nat) : Nat := x % 2 ^ 19
def extRes (x : Nat) : Bool := bitN x 29
/-- Frames an entry covers. -/
def OtEnt.frames (e : OtEnt) : Nat := (e.exts.map extCnt).foldl (· + ·) 0

/-- An entry from its eight words. -/
def mkEnt (w : List Nat) : OtEnt :=
  let h := fun i => w.getD i 0
  ⟨h 0, h 1, [h 2, h 3, h 4, h 5].flatMap fun x => [x % 2 ^ 32, x / 2 ^ 32], h 6 + h 7⟩

/-- Table base and `LEN` of a context. -/
def State.otBase (s : State) (c : Nat) : Nat := (s.ctx c).otbase
def State.otLen (s : State) (c : Nat) : Nat := leVal (mread s.dram (s.otBase c + 8) 8) % 2 ^ 24
/-- The eight words of entry i. -/
def State.otWords (s : State) (c i : Nat) : List Nat :=
  (List.range 8).map fun k => leVal (mread s.dram (s.otBase c + 64 * i + 8 * k) 8)

/-- Reserved bits zero and `EXTN` as R203 asks, for a head or a continuation. -/
def OtEnt.fieldsOk (e : OtEnt) (head : Bool) : Bool :=
  !bitN e.w0 3 && e.w0 / 2 ^ 59 == 0 && e.w1 / 2 ^ 27 == 0 && e.rest == 0 && e.ext.all (fun x => !bitN x 31)
    && e.extn ≤ 8 && (e.chain == 0 || e.extn == 8)
    && (if head then e.first == 0 && e.state ≤ 4 else e.nfrm == 0 && e.state == 5)

/-- The extents before frame `at` meet entry i: there is none, or it is a continuation entry whose first frame is `at` (R203). -/
def State.meets (s : State) (c i at_ : Nat) : Bool :=
  i == 0 || (i < s.otLen c && (let e := mkEnt (s.otWords c i); e.fieldsOk false && e.first == at_))

/-- The entries of a chain after the head, up to the one that covers frame `n` − 1: none when it is malformed. `at` is the first
frame the next entry must cover; the last of them must meet the entry after it too. -/
def State.chainFrom (s : State) (c : Nat) : Nat → Nat → Nat → Nat → Option (List OtEnt)
  | 0, _, _, _ => none
  | fuel + 1, i, at_, n =>
    if !s.meets c i at_ then none
    else if n ≤ at_ then some []
    else if i = 0 then none
    else
      let e := mkEnt (s.otWords c i)
      (s.chainFrom c fuel e.chain (at_ + e.frames) n).map (e :: ·)

/-- The whole chain of a head entry, head first, when the entry is well formed (R203). -/
def State.chainOf (s : State) (c : Nat) (h : OtEnt) : Option (List OtEnt) :=
  if !h.fieldsOk true then none
  else
    match s.chainFrom c 64 h.chain h.frames h.nfrm with
    | none => none
    | some l =>
      let es := h :: l
      let res := (es.flatMap OtEnt.exts).map extRes
      let ok := match h.state with
        | 1 => res.all (!·)
        | 2 => res.all id
        | 3 => res.any id && res.any (!·)
        | _ => true
      if ok && es.length ≤ 64 then some es else none

/-- An entry to be written is well formed (R203): a head with its chain; a continuation with the entry after it. -/
def State.entOk (s : State) (c : Nat) (e : OtEnt) : Bool :=
  if e.state = 5 then e.fieldsOk false && s.meets c e.chain (e.first + e.frames) else (s.chainOf c e).isSome

/-- The extent that covers frame f: its first frame and descriptor. -/
def findExt : List Nat → Nat → Nat → Option (Nat × Nat)
  | [], _, _ => none
  | x :: xs, at_, f => if f < at_ + extCnt x then some (at_, x) else findExt xs (at_ + extCnt x) f

/-- The reserved ids of Table 79. -/
def oidReserved (o : Nat) : Bool := o == 0 || 0xFFFF00 ≤ o

/-- The walk of R204: first frame of the extent, its descriptor, guest frame and host frame, or the first kind of Table 83. A
reserved id gives kind 2 (Table 79). A guest frame that maps to a frame bound to a slot, or to one that holds a region's saved state, gives kind 4: the
device refuses the frame there (13_kernel.md R297; DEDUCED, assumption 61). -/
def State.walk (s : State) (c o f : Nat) : Except Nat (Nat × Nat × Nat × Nat) :=
  if oidReserved o then .error 2
  else if s.otLen c ≤ o then .error 5
  else
    let h := mkEnt (s.otWords c o)
    if h.state = 0 ∨ h.state = 5 then .error 2
    else match s.chainOf c h with
      | none => .error 6
      | some es =>
        if h.nfrm ≤ f then .error 3
        else match findExt (es.flatMap OtEnt.exts) 0 f with
          | none => .error 6
          | some (a, x) =>
            if !extRes x then .error 0
            else
              let g := extG x + (f - a)
              match s.gft (s.ctx c).vf g with
              | none => .error 4
              | some hf =>
                if s.boundFrames.contains hf then .error 4
                else if ftState (s.ft hf) = fsRetired then .error 7
                else if ftState (s.ft hf) = fsMigr then .error 1
                else .ok (a, x, g, hf)

/-- Kinds that a retry may resolve (Table 83). -/
def kindResolvable (k : Nat) : Bool := k == 0 || k == 1

/-! ### The extent translation cache (R209) -/

/-- The entry of a walk's result: the run from frame f up, within its object, its extent and its aligned group of 32 object frames, while host
frames are contiguous. -/
def State.runFrom (s : State) (c o f : Nat) (w : Nat × Nat × Nat × Nat) : Xlat :=
  let last := min (min (w.1 + extCnt w.2.1) ((f / 32 + 1) * 32)) (mkEnt (s.otWords c o)).nfrm
  let n := ((List.range (last - f)).takeWhile fun i =>
    s.gft (s.ctx c).vf (w.2.2.1 + i) == some (w.2.2.2 + i) && !s.boundFrames.contains (w.2.2.2 + i)).length
  ⟨c, o, f, max n 1, w.2.2.2, w.2.2.1, (s.ctx c).vf⟩

/-- Put an entry in a die's cache of 8,192, the oldest leaving when it is full. -/
def State.fillEtc (s : State) (d : Nat) (x : Xlat) : State :=
  let D := s.die d
  s.setDie d { D with etc := ((D.etc.filter (· != x)) ++ [x]).drop ((D.etc.filter (· != x)).length - 8191) }

/-- The host frame a die's cache gives for a frame; none on a miss, and none when the frame may not be translated (R206, 13_kernel.md R297). -/
def State.etcHit (s : State) (d c o f : Nat) : Option Nat :=
  match (s.die d).etc.find? fun x => x.ctx == c && x.oid == o && x.frame ≤ f && f < x.frame + x.run with
  | none => none
  | some x =>
    let h := x.host + (f - x.frame)
    if ftState (s.ft h) = fsRetired ∨ ftState (s.ft h) = fsMigr ∨ s.boundFrames.contains h = true then none else some h

/-- The translation a die's cache gives for a frame, as an entry of that one frame. -/
def State.viaOf (s : State) (d c o f : Nat) : Option Xlat :=
  ((s.die d).etc.find? fun x => x.ctx == c && x.oid == o && x.frame ≤ f && f < x.frame + x.run).map fun x =>
    ⟨c, o, f, 1, x.host + (f - x.frame), x.guest + (f - x.frame), x.fn⟩

/-- A byte range of an object cut at frame boundaries: offset and length. -/
def frameParts (off n : Nat) : List (Nat × Nat) :=
  if n = 0 then []
  else (List.range ((off + n - 1) / frameB - off / frameB + 1)).map fun i =>
    let a := max off ((off / frameB + i) * frameB)
    (a, min (off + n) ((off / frameB + i + 1) * frameB) - a)

/-- Physical ranges of an object's bytes through a die's cache: offset, address and length of each part; the first offset that misses
otherwise. -/
def State.physParts (s : State) (d c o : Nat) : List (Nat × Nat) → Except Nat (List (Nat × Nat × Nat))
  | [] => .ok []
  | (a, n) :: l =>
    match s.etcHit d c o (a / frameB) with
    | none => .error a
    | some h =>
      match s.physParts d c o l with
      | .ok r => .ok ((a, h * frameB + a % frameB, n) :: r)
      | .error x => .error x

/-- A range of an object through the cache. -/
def State.phys (s : State) (d c o off n : Nat) : Except Nat (List (Nat × Nat × Nat)) := s.physParts d c o (frameParts off n)

/-! ### Walks and faults (R209 to R213) -/

/-- The link carries data (17_link.md Table 154): Running or Rekeying. -/
def Link.carries (l : Link) : Bool := l.state == 5 || l.state == 6

/-- The seams between two dies (01_architecture.md R21). -/
def seamsBetween (a b : Nat) : List Nat := if a = b then [] else if a ≤ 1 ∧ b ≤ 1 then [12] else if 1 ≤ a ∧ 1 ≤ b then [13] else [12, 13]

/-- A seam between two dies that carries no data. -/
def State.seamDown (s : State) (a b : Nat) : Option Nat := (seamsBetween a b).find? fun i => !(tget {} s.links i).carries

/-- A link on the way from die a to the dies of DRAM ranges that carries no data (R364, R366). -/
def State.pathDown (s : State) (a : Nat) (rs : List (Nat × Nat × Nat)) : Option Nat :=
  (rs.flatMap fun r => seamsBetween a (dieOfFrame (r.2.1 / frameB))).find? fun i => !(tget {} s.links i).carries

/-- Set a reason of a region's stall wire. -/
def State.stallMod (s : State) (r : Nat) (f : Stall → Stall) : State :=
  let R := s.region r
  s.setRegion r { R with stall := f R.stall }

/-- The wire of a region is raised. -/
def Stall.up (x : Stall) : Bool := 0 < x.fault || 0 < x.walk || 0 < x.trap || x.late

/-- The longest walk of the model, in cycles: with the way to the port a failure is detected within 128 cycles (R210). -/
abbrev walkMax := 30

/-- Start a walk for an access of tile k (requester `srcu`, access number `acc`): the wire rises (R209). -/
def State.startWalk (s : State) (k srcu acc : Nat) (wr : Bool) (c o off : Nat) : State :=
  let d := dieOfTile k
  let r := s.delay
  let s := r.2
  let D := s.die d
  let w : Walk := ⟨D.walkid, c, o, off / frameB, off, D.epoch, D.epoch, k, srcu, wr, acc, min r.1 walkMax⟩
  (s.setDie d { D with walks := D.walks ++ [w], walkid := D.walkid + 1 }).stallMod (s.tile k).rgn
    fun x => { x with walk := x.walk + 1 }

/-- Where a requester stands: 0 it may go on, 1 a walk is outstanding, 2 a fault record waits. -/
def State.setPark (s : State) (k srcu acc st : Nat) : State :=
  let t := s.tile k
  s.setTile k (if srcu ≤ 1 then
      { t with dacc := t.dacc.map fun a => if a.id = acc then { a with st := st, left := if st = 0 then 0 else a.left } else a }
    else if srcu = 2 then
      { t with meq := t.meq.map fun a => if a.id = acc then { a with park := st } else a }
    else { t with xrun := t.xrun.map fun a => if a.seq = acc then { a with park := st } else a })

/-- A fault record written to the die's buffer with its `SEQ`, and the interrupt raised (R211). -/
def Die.record (D : Die) (r : FaultRec) : Die :=
  { D with fbuf := D.fbuf ++ [{ r with seq := D.fseq }], fseq := (D.fseq + 1) % 2 ^ 32, firq := true }

/-- The oldest held fault writes its record when a place is free (R212). -/
def Die.admitHeld (D : Die) : Die :=
  match D.fheld with
  | r :: l => if D.fbuf.length < 1024 then { D with fheld := l }.record r else D
  | [] => D

/-- The records of region r are withdrawn (R213). Their places are free at once and held faults enter them in order (R212), and the records popped and not
answered go too, so that their answers return status 2 (DEDUCED, assumption 65). -/
def Die.withdraw (D : Die) (r : Nat) : Die :=
  let D := { D with fbuf := D.fbuf.filter (·.rgn != r), fheld := D.fheld.filter (·.rgn != r), fpop := D.fpop.filter (·.rgn != r) }
  (List.replicate (1024 - D.fbuf.length) ()).foldl (fun D _ => D.admitHeld) D

/-- A fault arrives: recorded, or held when the buffer is full (R212); the wire rises, and the
assertion counts in `STALL_FLT` (R25). -/
def State.faultIn (s : State) (d : Nat) (r : FaultRec) : State :=
  let s := if (s.region r.rgn).stall.fault = 0 then s.tel 0x50 else s
  let D := s.die d
  let s := if D.fbuf.length < 1024 then s.setDie d (D.record r)
    else s.setDie d { D with fheld := D.fheld ++ [{ r with held := true }], fover := min (D.fover + 1) (2 ^ 32 - 1), firq := true }
  let s := s.stallMod r.rgn fun x => { x with fault := x.fault + 1 }
  match r.peer with
  | none => s.setPark r.tile r.srcu r.acc 2
  | some i => { s with pstores := s.pstores.map fun x => if x.id = i then { x with parked := true } else x }

/-- A walk retires as the tables stand: it fills an entry and the access goes on, or its fault is recorded (R209, R210). None when it names a
frame the package does not have. -/
def State.walkDone (s : State) (d : Nat) (w : Walk) : Option State :=
  let s := (s.setDie d { s.die d with walks := (s.die d).walks.filter (·.id != w.id) }).stallMod (s.tile w.tile).rgn
    fun x => { x with walk := x.walk - 1 }
  match s.walk w.ctx w.oid w.frame with
  | .ok h =>
    if allFrames ≤ h.2.2.2 then none
    else some ((s.fillEtc d (s.runFrom w.ctx w.oid w.frame h)).setPark w.tile w.srcu w.acc 0)
  | .error kind =>
    let t := s.tile w.tile
    some (s.faultIn d
      { ctx := w.ctx, oid := w.oid, srcu := w.srcu, wr := w.wr, kind := kind, held := false, tix := t.tix, off := w.off,
        step := t.step, rgn := t.rgn, seq := 0, tile := w.tile, acc := w.acc })

/-- `TRANSLATION_WALK_END` (R209, R210, R217): under a changed epoch the walk starts again; otherwise it retires. -/
def execTranslationWalkEnd (d k : Nat) (s : State) : Host.Outcome State Fault Refusal :=
  let D := s.die d
  match D.walks.find? (·.id == k) with
  | none => .next s
  | some w =>
    if w.epoch ≠ D.epoch then
      let r := s.delay
      let D := r.2.die d
      .next (r.2.setDie d { D with
        walks := D.walks.map fun x => if x.id = k then { x with epoch := D.epoch, left := min r.1 walkMax } else x })
    else match s.walkDone d w with
      | none => .fault .noSuchFrame
      | some t => .next t

/-- The walks that frame parts of an access still need, made at once: an entry for each that walks. -/
def State.fillParts (s : State) (d c o : Nat) : List (Nat × Nat) → State
  | [] => s
  | (a, _) :: l =>
    let f := a / frameB
    let t := if (s.etcHit d c o f).isSome then s
      else match s.walk c o f with
        | .ok h => if allFrames ≤ h.2.2.2 then s else s.fillEtc d (s.runFrom c o f h)
        | .error _ => s
    State.fillParts t d c o l

/-- `STALL_WIRE_DROP` (R210): the wire of a region is down once nothing raises it; its tiles go on at the next step boundary from the
cycle at which they froze. -/
def execStallWireDrop (rg : Nat) (s : State) : Host.Outcome State Fault Refusal :=
  let R := s.region rg
  .next (if R.stall.up then s else s.setRegion rg { R with frozen := false })

/-- The four words of a fault record (Table 84). -/
def FaultRec.words (r : FaultRec) : List Nat :=
  [r.ctx % 2 ^ 8 + r.oid % 2 ^ 24 * 2 ^ 8 + r.srcu % 8 * 2 ^ 32 + (if r.wr then 2 ^ 35 else 0) + r.kind % 8 * 2 ^ 36
      + (if r.held then 2 ^ 39 else 0) + r.tix % 2 ^ 11 * 2 ^ 40,
   r.off % 2 ^ 48, r.step % 2 ^ 64, r.rgn % 2 ^ 16 + r.seq % 2 ^ 32 * 2 ^ 16]

/-- A record is answered: the wire loses one reason. -/
def State.answered (s : State) (d : Nat) (r : FaultRec) : State :=
  let D := s.die d
  (s.setDie d { D with fpop := D.fpop.filter (·.seq != r.seq) }).stallMod r.rgn fun x => { x with fault := x.fault - 1 }

/-- The engine or queue number of a trap report (Table 145) for a requester of Table 84. -/
def srcaOf (srcu : Nat) : Nat := if srcu = 0 then 1 else if srcu = 1 then 3 else srcu + 2

/-- PC of the word whose access faulted. -/
def faultPc (t : Tile) (r : FaultRec) : Nat :=
  if r.srcu ≤ 1 then ((t.dacc.find? (·.id == r.acc)).map DAcc.pc).getD 0
  else if r.srcu = 2 then ((t.meq.find? (·.id == r.acc)).map MeCmd.pc).getD 0
  else ((t.xrun.find? (·.seq == r.acc)).map XeCmd.pc).getD 0

/-- The requester of a record goes on with a fresh translation (R213); of a peer's command, the peer is told (17_link.md R373). -/
def State.goOn (s : State) (r : FaultRec) : State :=
  match r.peer with
  | none => s.setPark r.tile r.srcu r.acc 0
  | some i =>
    ({ s with pstores := s.pstores.map fun x => if x.id = i then { x with parked := false } else x } : State).send "peer-resume"
      ((s.pstores.filter (·.id == i)).flatMap fun x => [x.port, x.id])

/-- OBJFLT for a record (R213, R347): it ends the grid. A peer's command is told so, and its own package ends its grid (17_link.md R373). -/
def State.objFlt (s : State) (d : Nat) (r : FaultRec) : State :=
  let s := s.answered d r
  let t := s.tile r.tile
  match r.peer with
  | some i => ({ s with pstores := s.pstores.filter (·.id != i) } : State).send "peer-fault" (i :: r.words)
  | none =>
  (s.tel (0x100 + 8 * cOBJFLT)).endBy r.tile (srcaOf r.srcu) (faultPc t r) false
    { cause := cOBJFLT, val := r.seq, words := r.words.map (BitVec.ofNat 64) }

/-! ### Invalidations (R217, R219) -/

/-- An accumulate arrival's command: a peer's port and 1, or 0; launch sequence number, tile index, engine sequence number. -/
def Arrival.cmd (a : Arrival) : Nat × Nat × Nat × Nat := ((a.port.map (· + 1)).getD 0, a.lseq, a.tix, a.seq)

/-- The die whose cache or frame an arrival's translation belongs to: the issuing tile's, or for a peer's the one that holds the frame. -/
def Arrival.viaDie (a : Arrival) (x : Xlat) : Nat := if a.port.isSome then dieOfFrame x.host else dieOfTile a.tile

/-- Remove the entries that `sel` selects on dies `ds`, raise their epochs, and wait for the older walks, for the accumulate arrivals that went
through such an entry, and for the peers that cache a run it covers, which are told (17_link.md R373). -/
def State.invalidate (s : State) (ds : List Nat) (sel : Xlat → Bool) (s2 : Bool) (who : Nat) : State :=
  let r := s.delay
  let thr := (s.arrivals.filter fun a => a.via.any fun x => sel x && ds.contains (a.viaDie x)).map Arrival.cmd
  let s := ds.foldl (fun s d =>
    let D := s.die d
    s.setDie d { D with epoch := D.epoch + 1, etc := D.etc.filter fun x => !sel x }) r.2
  let ports := (s.links.map fun l => (l.1, l.2.served.filter sel)).filter fun l => l.2 != []
  let s := ports.foldl (fun s l => l.2.foldl (fun s x => s.send "invalidate" [l.1, s.invalid, x.ctx, x.oid, x.frame, x.run]) s) s
  { s with
    invals := s.invals ++ [⟨s.invalid, ds.map fun d => (d, (s.die d).epoch), thr, ports, s2, who, r.1⟩]
    invalid := s.invalid + 1 }

/-- The package at port i has removed what invalidation k covers (17_link.md R373). -/
def State.peerGone (s : State) (i k : Nat) : State :=
  let xs := (s.invals.filter fun v => v.id == k).flatMap fun v => (v.ports.filter fun p => p.1 == i).flatMap Prod.snd
  let L := tget {} s.links i
  { s with
    links := if xs = [] then s.links else tset s.links i { L with served := L.served.filter fun x => !xs.contains x }
    invals := s.invals.map fun v => if v.id = k then { v with ports := v.ports.filter fun p => p.1 != i } else v }

/-- No invalidation waits on port i any more: its link has left Running, and the peer's cache is empty (17_link.md R366). -/
def State.peerLost (s : State) (i : Nat) : State :=
  { s with invals := s.invals.map fun v => { v with ports := v.ports.filter fun p => p.1 != i } }

/-- The dies of an invalidation's scope. -/
def scopeDies (pkg : Bool) (d : Nat) : List Nat := if pkg then [0, 1, 2] else [d]

/-- An invalidation by a Sorrel word, which it holds until it completes. -/
def State.invWord (s : State) (pkg : Bool) (sel : Xlat → Bool) : State :=
  (s.holdFor 1 s.invalid).invalidate (scopeDies pkg s.myDie) sel false s.myDie

/-- No walk of a die in the scope that first started under an older epoch is left, every arrival that went through a removed entry has been
applied, and no peer caches a removed run. One whose region waits at a fault is not waited for: an invalidation never waits on a fault (DEDUCED, assumption 18). -/
def invReady (s : State) (v : Inval) : Bool :=
  (v.epochs.all fun x => (s.die x.1).walks.all fun w => x.2 ≤ w.born)
    && v.ports == [] && s.arrivals.all fun a => !v.through.contains a.cmd || 0 < (s.region a.rgn).stall.fault

/-- Arrivals that an invalidation has not waited for, their region being at a fault, lose their translation as an access parked at a fault does: a
command's come to their port again, and a peer's is placed again (R210, R217). -/
def State.retranslate (s : State) (v : Inval) : State :=
  let out := s.arrivals.filter fun a => v.through.contains a.cmd
  let s := { s with arrivals := s.arrivals.filter fun a => !v.through.contains a.cmd }
  out.foldl (fun s a =>
    match a.port, a.via with
    | none, _ =>
      let t := s.tile a.tile
      s.setTile a.tile { t with xrun := t.xrun.map fun c => if c.seq = a.seq then { c with ain := false, left := 0 } else c }
    | some p, some x =>
      { s with
        pstores := s.pstores ++ [{ id := s.pstoreid, port := p, ctx := x.ctx, rgn := a.rgn, dtx := none, oid := x.oid
                                   off := x.frame * frameB + a.addr % frameB, data := [], tix := a.tix, step := 0, arr := some a }]
        pstoreid := s.pstoreid + 1 }
    | some _, none => s) s

/-- `INVALIDATION_COMPLETE` (R217): the older walks have retired; loads, stores and copies through removed entries took effect at the instant
they were translated, and accumulates have been applied or are to be translated afresh. -/
def execInvalidationComplete (k : Nat) (s : State) : Host.Outcome State Fault Refusal :=
  match s.invals.find? (·.id == k) with
  | none => .next s
  | some v =>
    if !invReady s v then .next s
    else
      let s := ({ s with invals := s.invals.filter (·.id != k) } : State).retranslate v
      .next (if v.s2 then
          let F := s.fn v.who
          s.setFn v.who { F with s2busy := false, s2done := true }
        else s.unhold 1 k)

/-- `xinv` (R218, R219). -/
def xinvWord (p : BitVec 4) (f : FmtZ) (s : State) (sel : Nat → Nat → Xlat → Bool) : Host.Outcome State Fault Refusal :=
  svWord p s fun s =>
    .step (s.invWord (bitN f.imm.toNat 3) (sel (s.core.s f.a.toNat).bits.toNat (s.core.s f.b.toNat).bits.toNat))

def execXinvAll (p : BitVec 4) (f : FmtZ) (s : State) := xinvWord p f s fun _ _ _ => true
def execXinvCtx (p : BitVec 4) (f : FmtZ) (s : State) := xinvWord p f s fun a _ x => x.ctx == a % 256
def execXinvObj (p : BitVec 4) (f : FmtZ) (s : State) :=
  xinvWord p f s fun a _ x => x.ctx == a / 2 ^ 24 % 256 && x.oid == a % 2 ^ 24

/-- An entry maps a guest frame from g to g + n − 1 of function v. -/
def Xlat.mapsG (x : Xlat) (v g n : Nat) : Bool := x.fn == v && x.guest < g + n && g < x.guest + x.run

def execXinvGfr (p : BitVec 4) (f : FmtZ) (s : State) :=
  xinvWord p f s fun a b x => x.mapsG (a % 32) (b % 2 ^ 19) (f.imm.toNat / 2 ^ 8)

/-- `S2GO` (R207): ignored while one runs. -/
def execS2go (v : Nat) (s : State) : Host.Outcome State Fault Refusal :=
  let F := s.fn v
  .next (if v = 0 ∨ 31 < v ∨ s.locked v = true ∨ F.s2busy = true then s
    else (s.setFn v { F with s2busy := true }).invalidate [0, 1, 2] (fun x => x.mapsG v F.s2first F.s2count) true v)

/-! ### `otwr` (R214, R220) -/

/-- Host frames an entry's extents map. -/
def State.entHosts (s : State) (c : Nat) (e : OtEnt) : List Nat :=
  e.exts.flatMap fun x => (List.range (extCnt x)).filterMap fun i => s.gft (s.ctx c).vf (extG x + i)

/-- The transitions of Table 85, by old and written state; a rewrite in the same state is no transition. A continuation entry takes
the place of an unmapped one. -/
def otMove (old new : Nat) : Bool :=
  new == 0 || (old == 0 && (1 ≤ new && new ≤ 3 || new == 5)) || ((1 ≤ old && old ≤ 3) && (1 ≤ new && new ≤ 3))
    || ((old == 2 || old == 3) && new == 4) || (old == 4 && (new == 1 || new == 3 || new == 4)) || (old == 5 && new == 5)

/-- The bytes of eight words. -/
def wordsBytes (w : List Nat) : List Byte := w.flatMap (leBytes 8)

/-- The table descriptor of R202. -/
def descOk (w : List Nat) : Bool :=
  let h := fun i => w.getD i 0
  h 0 % 64 == 0 && h 0 < 2 ^ 48 && 1 ≤ h 1 && h 1 ≤ 0xFFFF00 && (w.drop 2).all (· == 0)

/-- `otwr.wr` (R220): what it drops of the caches is what stands under the index it writes, which for a continuation entry is not the object whose chain
holds it (DEDUCED, assumption 53). -/
def execOtwrWr (p : BitVec 4) (f : FmtZ) (s : State) :=
  svOp p f 8 s fun s a w =>
    let c := a / 2 ^ 24 % 256
    let i := a % 2 ^ 24
    let put := fun (s : State) =>
      (s.dramWr (s.otBase c + 64 * i) (wordsBytes w)).invWord true fun x => x.ctx == c && x.oid == i
    if i = 0 then (if !descOk w then (s, 1) else if s.inBound (s.otBase c) 64 then (s, 3) else (put s, 0))
    else if s.otLen c ≤ i then (s, 2)
    else
      let e := mkEnt w
      if !s.entOk c e || !otMove (mkEnt (s.otWords c i)).state e.state then (s, 1)
      else if (s.entHosts c e).any s.boundFrames.contains || s.inBound (s.otBase c + 64 * i) 64 then (s, 3)
      else (put s, 0)

def execOtwrRd (p : BitVec 4) (f : FmtZ) (s : State) :=
  svOp p f 0 s fun s a _ =>
    let c := a / 2 ^ 24 % 256
    let i := a % 2 ^ 24
    if s.otLen c ≤ i then (s, 2) else (s.putRegs f.b.toNat (s.otWords c i), 0)

def execOtwrFpop (p : BitVec 4) (f : FmtZ) (s : State) :=
  svOp p f 0 s fun s a _ =>
    let d := s.myDie
    let D := s.die d
    let put := fun (s : State) => s.putReg f.a.toNat
      (a % 2 ^ 16 + a / 2 ^ 27 % 2 ^ 5 * 2 ^ 27 + (s.die d).fbuf.length % 2 ^ 11 * 2 ^ 16 + (s.die d).fover % 2 ^ 32 * 2 ^ 32)
    match D.fbuf with
    | [] => (put s, 2)
    | r :: l =>
      let D := { D with fbuf := l, fpop := D.fpop ++ [r] }.admitHeld
      let D := { D with firq := !D.fbuf.isEmpty }
      let s := (s.setDie d D).putRegs f.b.toNat r.words
      (put s, 0)

def execOtwrFret (p : BitVec 4) (f : FmtZ) (s : State) :=
  svOp p f 0 s fun s a _ =>
    let d := s.myDie
    match (s.die d).fpop.find? (·.seq == a % 2 ^ 32) with
    | none => (s, 2)
    | some r =>
      if kindResolvable r.kind then ((s.answered d r).goOn r, 0)
      else (s.objFlt d r, 0)

def execOtwrFflt (p : BitVec 4) (f : FmtZ) (s : State) :=
  svOp p f 0 s fun s a _ =>
    let d := s.myDie
    match (s.die d).fpop.find? (·.seq == a % 2 ^ 32) with
    | none => (s, 2)
    | some r => (s.objFlt d r, 0)

/-- Frames of function v in a state. -/
def State.countFt (s : State) (v st : Nat) : Nat :=
  ((List.range 3).map fun d =>
    (((s.dram.filter fun c => c.1 % 8 == 0 && d * dieFrames * frameB ≤ c.1 && c.1 < d * dieFrames * frameB + 8 * dieFrames).filter
      fun c => c.2.toNat % 8 == st && c.2.toNat / 8 == v).length)).foldl (· + ·) 0

/-- The lowest frame of function v in a state: frame-table bytes are listed by rising address. -/
def State.lowFt (s : State) (v st : Nat) : Option Nat :=
  ([0, 1, 2].filterMap fun d =>
    (s.dram.find? fun c => c.1 % 8 == 0 && d * dieFrames * frameB ≤ c.1 && c.1 < d * dieFrames * frameB + 8 * dieFrames
      && c.2.toNat % 8 == st && c.2.toNat / 8 == v).map fun c =>
        d * dieFrames + (c.1 - d * dieFrames * frameB) / 8).head?

/-- The state a frame given to v enters (R208). -/
def State.enterSt (s : State) (v : Nat) : Nat := if s.countFt v fsGuar < (s.fn v).guar then fsGuar else fsBurst

/-- When a Guaranteed frame of v has left v, v's lowest Burst frame becomes Guaranteed (R208). -/
def State.reclassify (s : State) (v : Nat) (guar : Bool) : State :=
  if guar then
    match s.lowFt v fsBurst with
    | some h => s.setFt h (s.ft h / 8 * 8 + fsGuar)
    | none => s
  else s

/-- Host frame h counts as a Guaranteed one: it is, or it was when it became Migrating (R208, R215; DEDUCED, assumption 11). -/
def State.wasGuar (s : State) (h : Nat) : Bool :=
  ftState (s.ft h) == fsGuar || (ftState (s.ft h) == fsMigr && (s.die (dieOfFrame h)).migG.contains h)

/-- Host frame h becomes Migrating, or leaves that state: whether it was Guaranteed is kept. -/
def State.noteMigr (s : State) (h : Nat) (b : Bool) : State :=
  let d := dieOfFrame h
  let D := s.die d
  s.setDie d { D with migG := if b then sins D.migG h else srem D.migG h }

/-- Whether a function has a pseudo-channel group on a die (R307). -/
def Fn.groupOn (F : Fn) (d : Nat) : Bool := F.pcg / 2 ^ (128 * d) % 2 ^ 128 != 0

/-- The groups of a function on a die, ascending. -/
def Fn.groups (F : Fn) (d : Nat) : List Nat := (List.range 128).filter fun g => bitN F.pcg (128 * d + g)

/-- The offset of `PCUE` for a granule of a frame of function v (R307, R25): which of the 12 pseudo-channels of its group holds it is
left open; and in a frame whose owner has no group on that die the group is 0 (DESIGN CHOICE, assumption 15). -/
def State.pcueOff (s : State) (v addr : Nat) : Nat :=
  let d := addr / frameB / dieFrames
  let l := (s.fn v).groups d
  let g := l.getD (addr / 32 % 65536 % max l.length 1) 0
  0x6800 + 4 * ((4 * d + g / 32) * 384 + g % 32 * 12 + (Config.freeWord s.freeCtr).toNat % 12)

/-- `otwr.frm` (R215 Table 86, R208, R297, R307). -/
def execOtwrFrm (p : BitVec 4) (f : FmtZ) (s : State) :=
  svOp p f 1 s fun s a g =>
    let h := a % 2 ^ 19
    let w := g.getD 0 0
    if allFrames ≤ h then (s, 1)
    else
      let e := s.ft h
      let old := ftState e
      let st := w % 8
      let v := w / 8 % 32
      let ue := ftUe e
      let ov := ftVf e
      let used := fun (s : State) (v : Nat) (n : Int) => let F := s.fn v; s.setFn v { F with used := ((F.used : Int) + n).toNat }
      if s.boundFrames.contains h then (s, 3)
      else if old = fsFree ∧ (st = 1 ∨ st = 2) then
        let F := s.fn v
        if F.burst ≤ F.used ∨ F.groupOn (dieOfFrame h) = false then (s, 3)
        else (used (s.setFt h (mkFt (s.enterSt v) v (ftGfr w) ue)) v 1, 0)
      else if (old = fsGuar ∨ old = fsBurst) ∧ st = 3 then (s.setFt h (mkFt fsPinned ov (ftGfr w) ue), 0)
      else if old = fsPinned ∧ (st = 1 ∨ st = 2) then (s.setFt h (mkFt (s.enterSt ov) ov (ftGfr w) ue), 0)
      else if (old = fsGuar ∨ old = fsBurst ∨ old = fsPinned) ∧ st = 4 then
        ((s.setFt h (mkFt fsMigr ov (ftGfr w) ue)).noteMigr h (s.wasGuar h), 0)
      else if (old = fsMigr ∨ old = fsGuar ∨ old = fsBurst) ∧ st = 0 then
        (((used (s.setFt h (mkFt fsFree v (ftGfr w) ue)) ov (-1)).reclassify ov (s.wasGuar h)).noteMigr h false, 0)
      else if old = fsMigr ∧ st = 5 ∧ 1 ≤ ue then
        let s := ((used (s.setFt h (mkFt fsRetired ov (ftGfr w) ue)) ov (-1)).reclassify ov (s.wasGuar h)).noteMigr h false
        ({ s with hub := { s.hub with retired :=
            if s.hub.retired.length < 4096 then sins s.hub.retired h else s.hub.retired } }, 0)
      else (s, 3)

/-- `otwr.gwr` (R205, R220). -/
def execOtwrGwr (p : BitVec 4) (f : FmtZ) (s : State) :=
  svOp p f 1 s fun s a g =>
    let gf := a % 2 ^ 19
    let v := a / 2 ^ 24 % 32
    let w := g.getD 0 0 % 2 ^ 32
    let F := s.fn v
    if v = 0 ∨ F.glen ≤ gf then (s, 1)
    else if (bitN w 19 = true ∧ s.boundFrames.contains (w % 2 ^ 19) = true) ∨ s.inBound (F.gbase + 4 * gf) 4 = true then (s, 3)
    else ((s.dramWr (F.gbase + 4 * gf) (leBytes 4 w)).invWord true fun x => x.mapsG v gf 1, 0)

/-- Bytes lo to lo + n − 1 of a memory replaced by other cells of that range. -/
def blit (m : Memory) (lo n : Nat) (cells : Memory) : Memory :=
  (m.takeWhile fun c => c.1 < lo) ++ cells ++ (m.dropWhile fun c => c.1 < lo + n)

/-- The cells of a range, moved from address `src` to `dst`. -/
def cut (m : Memory) (src n dst : Nat) : Memory :=
  (m.filter fun c => src ≤ c.1 && c.1 < src + n).map fun c => (c.1 - src + dst, c.2)

/-- The granules of a range of `n` bytes, moved. -/
def cutG (l : List Nat) (g src n dst : Nat) : List Nat :=
  (l.filter fun x => src ≤ x * g && x * g < src + n).map fun x => x - src / g + dst / g

/-- Granules of a range replaced. -/
def blitG (l : List Nat) (g lo n : Nat) (new : List Nat) : List Nat :=
  new.foldl sins (l.filter fun x => !(lo ≤ x * g && x * g < lo + n))

/-- A host address in the address space of a PASID, as one number (17_link.md R374; assumption 50). -/
def hostAt (pasid a : Nat) : Nat := pasid * 2 ^ 64 + a

/-- The PASID of the interface that context c serves (17_link.md R374). -/
def State.pasidOf (s : State) (c : Nat) : Nat := tget 0 (s.fn (s.ctx c).vf).pasid (s.ctx c).iface

/-- Copy bytes of one frame-sized range from device or host memory to the other, carrying uncorrectable granules with their bytes (R216, R220), but
for host memory, which holds no such mark (DEDUCED, assumption 53); the copy's tags are clear (R200). Its requests are the physical function's, of
interface 0 (DEDUCED, assumption 50). -/
def State.copyFrame (s : State) (src dst : Nat) (srcHost dstHost : Bool) : State :=
  let at_ := fun (host : Bool) (x : Nat) => if host then hostAt (tget 0 (s.fn 0).pasid 0) x else x
  let src := at_ srcHost src
  let dst := at_ dstHost dst
  let cells := cut (if srcHost then s.hostMem else s.dram) src frameB dst
  if dstHost then { s with hostMem := blit s.hostMem dst frameB cells }
  else
    { s with
      dram := blit s.dram dst frameB cells
      dramUE := blitG s.dramUE 32 dst frameB (if srcHost then [] else cutG s.dramUE 32 src frameB dst)
      dramTag := blitG s.dramTag 16 dst frameB [] }

/-- `otwr.fcp` (R216, R220). A frame bound to a slot or a region is refused (R297, R316). -/
def execOtwrFcp (p : BitVec 4) (f : FmtZ) (s : State) :=
  svOp p f 1 s fun s a g =>
    let b := g.getD 0 0
    let adr := fun x => if bitN x 63 then x % 2 ^ 63 else x % 2 ^ 19 * frameB
    let bad := fun x => if bitN x 63 then x % frameB != 0 else allFrames ≤ x % 2 ^ 19
    let bound := fun x => !bitN x 63 && s.boundFrames.contains (x % 2 ^ 19)
    if bad a || bad b then (s, 1) else if bound a || bound b then (s, 3) else (s.copyFrame (adr a) (adr b) (bitN a 63) (bitN b 63), 0)

/-- `otwr.qrd`. -/
def execOtwrQrd (p : BitVec 4) (f : FmtZ) (s : State) :=
  svOp p f 0 s fun s a _ =>
    let F := s.fn (a % 32)
    (s.putRegs f.b.toNat [F.guar % 2 ^ 20 + F.burst % 2 ^ 20 * 2 ^ 32, F.used], 0)

/-- Frames that are not Pinned to the physical function or Retired (R207). -/
def State.budgetFrames (s : State) : Nat := allFrames - s.countFt 0 fsPinned - ((List.range 32).map (s.countFt · fsRetired)).foldl (· + ·) 0

/-- A write to `GUAR` (R207). -/
def execGuarWrite (v x : Nat) (s : State) : Host.Outcome State Fault Refusal :=
  let F := s.fn v
  let x := x % 2 ^ 20
  let sum := ((List.range 32).map fun i => if i = v then x else (s.fn i).guar).foldl (· + ·) 0
  .next (if 31 < v ∨ s.locked v = true ∨ s.budgetFrames < sum ∨ F.burst < x then s else s.setFn v { F with guar := x })

/-- A write to `BURST` (R207). -/
def execBurstWrite (v x : Nat) (s : State) : Host.Outcome State Fault Refusal :=
  let F := s.fn v
  .next (if 31 < v ∨ s.locked v = true ∨ x % 2 ^ 20 < F.guar then s else s.setFn v { F with burst := x % 2 ^ 20 })

/-- An uncorrectable error is found in the DRAM granule at an address (R215, R25): `UECNT` and `PCUE` rise and the fault interrupt is raised, in any
frame but a Free one. -/
def State.ueFound (s : State) (addr : Nat) : State :=
  let h := addr / frameB
  let e := s.ft h
  let d := dieOfFrame h
  if ftState e = fsFree then s
  else
    let s := ((s.setFt h (mkFt (ftState e) (ftVf e) (ftGfr e) (min (ftUe e + 1) 0xFFFF))).tel (s.pcueOff (ftVf e) addr)).free.2
    s.setDie d { s.die d with firq := true }

/-- `DRAM_UE` (R215): an error in a granule. -/
def execDramUe (addr : Nat) (s : State) : Host.Outcome State Fault Refusal :=
  if allFrames ≤ addr / frameB then .fault .noSuchFrame else .next ((s.markUE .dram (addr / 32)).ueFound addr)

end Sys2Proof.Machine
end

