-- ==== Sys2Proof/Machine/LoadStore.lean ====
section
/-! DEFINITION. Loads, stores, spill and refill, marks and fences, the DRAM ports, and the writing of results
(08_memory_order.md R176 to R193, 03_tile.md R63 R66 R69). -/

namespace Sys2Proof.Machine

/-! ### Address checks (R178) -/

/-- One check of R178: lane, offset, and the poisoned offset operand when there is one. -/
structure Chk where
  lane : Nat
  off : Int
  pois : Option Nat
deriving DecidableEq, Repr

/-- The trap of a failing check (R347). -/
def accTrap (cause : Nat) (off : Int) : TrapInfo := { cause := cause, val := wrapN 64 off }

/-- The checks in order through one capability: lane and address of each, or the first trap. -/
def checkAll (c : Cap) (n rights align : Nat) : List Chk → Except TrapInfo (List (Nat × Nat))
  | [] => .ok []
  | k :: ks =>
    match k.pois with
    | some id => .error { cause := cPOISADR, val := id }
    | none =>
      match capCheck c k.off n rights align with
      | .error e => .error (accTrap e k.off)
      | .ok r =>
        match checkAll c n rights align ks with
        | .ok l => .ok ((k.lane, r.2) :: l)
        | .error t => .error t

/-- Active lanes, ascending. -/
def lanesOf (act : BitVec 64) : List Nat := (List.range 64).filter (activeL act)

/-- The poisoned operand as it is held, for `TVAL`. -/
def poisVal (x : Option Scal) : Option Nat := x.map fun v => v.bits.toNat

/-- One check at the base offset of format M. -/
def chkOne (s : State) (f : FmtM) : List Chk :=
  let o := memOff s f
  [⟨0, o.1, poisVal o.2⟩]

/-- The lane mask of a word, as it stands at issue. -/
def actOf (s : State) (mask : BitVec 3) : BitVec 64 := s.myTile.mask mask.toNat

/-- One check for each active lane of a contiguous form. -/
def chkContig (s : State) (f : FmtM) : List Chk :=
  let o := memOff s f
  (lanesOf (actOf s f.mask)).map fun (k : Nat) => ⟨k, o.1 + 4 * k, poisVal o.2⟩

/-- One check for each active lane of a strided form. -/
def chkStride (s : State) (f : FmtM) : List Chk :=
  let o := memStride s f
  (lanesOf (actOf s f.mask)).map fun (k : Nat) => ⟨k, sextN 21 f.off.toNat + k * o.1, poisVal o.2⟩

/-- One check for each active lane of format MG: a tagged index lane is a poisoned offset. -/
def chkIdx (s : State) (f : FmtMG) : List Chk :=
  let x := s.myTile.v f.vx.toNat
  (lanesOf (actOf s f.mask)).map fun (k : Nat) =>
    ⟨k, sextN 24 f.off.toNat + (x.at k).bits.toInt, if (x.at k).tag then some ((x.at k).bits.toNat % 2 ^ 22) else none⟩

/-- One check for the broadcast form, when a lane is active. -/
def chkSplat (s : State) (f : FmtM) : List Chk := if actOf s f.mask = 0 then [] else chkOne s f

/-! ### Where an object lies (R179) -/

/-- The SRAM of an object of the executing tile; none for DRAM. -/
def sramOf (s : State) (oid : Nat) : Option Space :=
  if oid = oidScr then some (.scr s.me) else if oid = oidPool then some (.pool (clusterOf s.me)) else none

/-- The load latency of Table 31. -/
def loadLat (oid : Nat) : Nat := if oid = oidScr then 10 else if oid = oidPool then 26 else 1024

/-! ### Sampling (R180, R182, R183) -/

/-- Insert in ascending order of the first component, without repeats. -/
def insKey (x : Nat × Nat) : List (Nat × Nat) → List (Nat × Nat)
  | [] => [x]
  | y :: l => if x.1 < y.1 then x :: y :: l else if x.1 = y.1 then y :: l else y :: insKey x l

/-- The uncorrectable granules that ranges (object offset, address, length) touch: offset of the granule in the object and its number,
ascending. -/
def State.ueOf (s : State) (sp : Space) (rs : List (Nat × Nat × Nat)) : List (Nat × Nat) :=
  (rs.flatMap fun r => (s.ueIn sp r.2.1 r.2.2).map fun g => (r.1 + g * sp.gran - r.2.1, g)).foldl (fun l x => insKey x l) []

/-- One UE origin for each granule of a memory in order: the id by granule number (R183). A granule of DRAM is found in error by the read that makes its
origin (R215, 18_programs_compute.md R386; DEDUCED, assumption 62). -/
def State.mkUE (sp : Space) (o : OrgAt) : List (Nat × Nat) → State → State × List (Nat × Nat)
  | [], s => (s, [])
  | (off, g) :: l, s =>
    let r := s.newOrigin { o with what := off } okUE
    let q := State.mkUE sp o l (if sp = .dram then r.1.ueFound (32 * g) else r.1)
    (q.1, (g, r.2) :: q.2)

/-- The id of the uncorrectable bytes of a range, when it has any. -/
def ueId (ids : List (Nat × Nat)) (g a n : Nat) : Option Nat :=
  match ids.filter fun x => a < (x.1 + 1) * g && x.1 * g < a + n with
  | [] => none
  | l => some (poisonMerge (l.map Prod.snd))

/-- What a lane of a load got: lane, bytes, id when they are uncorrectable, and the granule tag of its first byte. -/
structure Got where
  lane : Nat
  bytes : List Byte
  id : Option Nat
  tag : Bool
deriving DecidableEq, Repr

/-- Merge two ids. -/
def mergeId (a b : Option Nat) : Option Nat :=
  match a, b with
  | none, y => y
  | x, none => x
  | some x, some y => some (poisonMerge [x, y])

/-- Sample parts: each a lane with its ranges (object offset, address, length), ascending. -/
def State.sample (s : State) (sp : Space) (o : OrgAt) (parts : List (Nat × List (Nat × Nat × Nat))) : State × List Got :=
  let u := State.mkUE sp o (s.ueOf sp (parts.flatMap Prod.snd)) s
  (u.1, parts.map fun p =>
    ⟨p.1, p.2.flatMap fun r => s.rd sp r.2.1 r.2.2,
      p.2.foldl (fun i r => mergeId i (ueId u.2 sp.gran r.2.1 r.2.2)) none,
      match p.2 with
      | [] => false
      | r :: _ => s.tagAt sp r.2.1⟩)

/-- A lane loaded from memory (R180, R183). -/
def gotLane (g : Got) (v : Nat) : Lane :=
  match g.id with
  | some id => ⟨BitVec.ofNat 32 (poison32 id), true⟩
  | none => ⟨BitVec.ofNat 32 v, false⟩

/-- The destination of a load (R180, R182, R183). -/
def loadDest (form : LoadForm) (gs : List Got) : List Dest :=
  match form with
  | .scal ph sgn =>
    if ph = 0 then []
    else match gs with
      | [] => []
      | g :: _ =>
        let n := g.bytes.length
        [.scal ph (match g.id with
          | some id => Scal.poison id
          | none => ⟨if sgn then BitVec.ofInt 64 (sextN (8 * n) (leVal g.bytes)) else BitVec.ofNat 64 (leVal g.bytes), false⟩)]
  | .vec r act =>
    [.vec r (mkVec fun i => match gs.find? (·.lane == i) with
      | some g => gotLane g (leVal g.bytes)
      | none => Lane.zero) act]
  | .splat r act =>
    match gs with
    | [] => [.vec r [] act]
    | g :: _ =>
      let v := gotLane g (leVal (((List.replicate 4 g.bytes).flatten).take 4))
      [.vec r (mkVec fun _ => v) act]
  | .cap n tagOk =>
    match gs with
    | [] => []
    | g :: _ => [.cap n (match g.id with
        | some _ => Cap.null
        | none => ⟨BitVec.ofNat 128 (leVal g.bytes), g.tag && tagOk⟩)]
  | .rec_ r =>
    let tg := gs.getD 64 ⟨64, [], none, false⟩
    [.vec r (mkVec fun i =>
      let g := gs.getD i ⟨i, [], none, false⟩
      match mergeId g.id tg.id with
      | some id => ⟨BitVec.ofNat 32 (poison32 id), true⟩
      | none => ⟨BitVec.ofNat 32 (leVal g.bytes), bitN (leVal tg.bytes) i⟩) (BitVec.allOnes 64)]

/-- The `y` update of a load (R66): `y2` for a vector destination. -/
def loadY (form : LoadForm) : Option (Nat × Nat) :=
  match form with
  | .vec r _ | .splat r _ | .rec_ r => some (2, r)
  | _ => none

/-- The place of the origins of an L-queue word. -/
def State.orgL (s : State) (oid : Nat) : OrgAt :=
  { tile := s.me, src := 0, pc := s.cur.pc, oid := oid, what := 0, step := s.myTile.step }

/-! ### The DRAM ports (R187, R189, R191, R204) -/

/-- Byte ranges overlap. -/
def rangesMeet (a n b m : Nat) : Bool := a < b + m && b < a + n

/-- The host ranges of a part as the tables stand, for two objects over one frame. -/
def State.hostParts (s : State) (c o : Nat) (p : Part) : List (Nat × Nat) :=
  (frameParts p.off p.n).filterMap fun x =>
    match s.walk c o (x.1 / frameB) with
    | .ok w => some (w.2.2.2 * frameB + x.1 % frameB, x.2)
    | .error _ => none

/-- Two accesses touch a byte in common. -/
def State.accMeet (s : State) (c : Nat) (a b : DAcc) : Bool :=
  if a.oid = b.oid then a.parts.any fun p => b.parts.any fun q => rangesMeet p.off p.n q.off q.n
  else (a.parts.flatMap (s.hostParts c a.oid)).any fun p => (b.parts.flatMap (s.hostParts c b.oid)).any fun q =>
    rangesMeet p.1 p.2 q.1 q.2

/-- The earlier access `a` takes effect before `b` (R189 rules 1 and 3, R191). -/
def State.accBefore (s : State) (c : Nat) (a b : DAcc) : Bool :=
  (!a.write && !b.write) || ((a.write || b.write) && s.accMeet c a b) || (a.write && b.write && a.epoch < b.epoch)

/-- The accesses, latest first, that must take effect before some access of `need`. -/
def State.accClosure (s : State) (c : Nat) : List DAcc → List DAcc → List DAcc
  | [], need => need
  | a :: l, need => State.accClosure s c l (if need.any (s.accBefore c a) then a :: need else need)

/-- Ranges of an access through the cache of its die, part by part, or the first offset that misses: the first part in lane order, which is the
one that a fault records (R211; DEDUCED, assumption 53). -/
def State.accPhys (s : State) (d c oid : Nat) : List Part → Except Nat (List (Part × List (Nat × Nat × Nat)))
  | [] => .ok []
  | p :: l =>
    match s.phys d c oid p.off p.n with
    | .error x => .error x
    | .ok r =>
      match s.accPhys d c oid l with
      | .error x => .error x
      | .ok q => .ok ((p, r) :: q)

/-- Write one part's bytes over its ranges. -/
def State.landPart (s : State) : List Byte → List (Nat × Nat × Nat) → State
  | _, [] => s
  | bs, r :: l => State.landPart (s.dramWr r.2.1 (bs.take r.2.2)) (bs.drop r.2.2) l

/-- A DRAM access takes effect: a load keeps its value, a store lands (R181 to R183, R187). -/
def State.performAcc (s : State) (k : Nat) (a : DAcc) (ps : List (Part × List (Nat × Nat × Nat))) : State :=
  if a.write then
    let s := (ps.foldl (fun s p => s.landPart p.1.data p.2) s).clearUE .dram (ps.flatMap fun p => p.2.map Prod.snd)
    let s := match a.ctag, ps with
      | some b, (_, r :: _) :: _ => s.setTag .dram r.2.1 b
      | _, _ => s
    let t := s.tile k
    s.setTile k { t with dacc := t.dacc.filter (·.id != a.id) }
  else
    let o : OrgAt := { tile := k, src := 0, pc := a.pc, oid := a.oid, what := 0, step := a.step }
    let r := s.sample .dram o (ps.map fun p => (p.1.lane, p.2))
    let t := r.1.tile k
    let val := match a.form with
      | some f => loadDest f r.2
      | none => []
    r.1.setTile k { t with dacc := t.dacc.map fun x => if x.id = a.id then { x with st := 3, val := val } else x }

/-- A held SRAM load numbers its origins and has its value (R45, R183). -/
def State.performHeld (s : State) (k : Nat) (a : DAcc) (ues : List (Nat × Nat)) : State :=
  let u := State.mkUE (.scr k) { tile := k, src := 0, pc := a.pc, oid := a.oid, what := 0, step := a.step } ues s
  let gs := a.parts.map fun p => (⟨p.lane, p.data, ueId u.2 (Space.scr k).gran p.off p.n, a.ctag.getD false⟩ : Got)
  let val := match a.form with
    | some f => loadDest f gs
    | none => []
  let t := u.1.tile k
  u.1.setTile k { t with dacc := t.dacc.map fun x => if x.id = a.id then { x with st := 3, val := val } else x }

/-- The frames of an access that miss are walked, the first of them, at offset `off`, for as long as its walk takes (R210). -/
def State.missAcc (s : State) (k : Nat) (a : DAcc) (off : Nat) : State :=
  let s := s.fillParts (dieOfTile k) (s.ctxNo k) a.oid
    ((a.parts.flatMap fun p => frameParts p.off p.n).filter fun x => x.1 / frameB != off / frameB)
  (s.startWalk k (if a.write then 1 else 0) a.id a.write (s.ctxNo k) a.oid off).setPark k 0 a.id 1

/-- An access that may not take effect yet is translated all the same, so that its failure is found in its own time (R210). -/
def State.lookAcc (s : State) (k : Nat) (a : DAcc) : State :=
  if a.st ≠ 0 ∨ a.ues.isSome = true then s
  else match s.accPhys (dieOfTile k) (s.ctxNo k) a.oid a.parts with
    | .ok _ => s
    | .error off => s.missAcc k a off

/-- One access at its port: it takes effect when every frame part translates, else the frames that miss are walked; a path through a link that carries
no data ends the grid with LINKLOST (R364). -/
def State.tryAcc (s : State) (k : Nat) (a : DAcc) : State × Bool :=
  if a.st ≠ 0 then (s, false)
  else match a.ues with
  | some l => (s.performHeld k a l, true)
  | none => match s.accPhys (dieOfTile k) (s.ctxNo k) a.oid a.parts with
    | .ok ps =>
    (match s.pathDown (dieOfTile k) (ps.flatMap Prod.snd) with
    | some i =>
      ((s.tel (0x100 + 8 * cLINKLOST)).endBy k (if a.write then 3 else 1) a.pc false { cause := cLINKLOST, val := i }, false)
    | none => (s.performAcc k a ps, true))
    | .error off => (s.missAcc k a off, false)

/-- Accesses in order until one cannot take effect; those behind it are translated. -/
def State.tryAccs (k : Nat) : List DAcc → State → State × Bool
  | [], s => (s, true)
  | a :: l, s =>
    let r := s.tryAcc k a
    if r.2 then State.tryAccs k l r.1 else (l.foldl (fun s a => s.lookAcc k a) r.1, false)

/-- Access `id` of tile k with the accesses that must take effect before it. -/
def State.portAcc (s : State) (k id : Nat) : State × Bool :=
  let t := s.tile k
  match t.dacc.find? fun a => a.id == id && a.st != 3 with
  | none => (s, true)
  | some a =>
    let before := (t.dacc.filter fun x => x.id < id && x.st != 3).reverse
    State.tryAccs k (s.accClosure (s.ctxNo k) before [a]) s

/-- `DRAM_ACCESS_AT_PORT` (R187). -/
def execDramAccessAtPort (t k : Nat) (s : State) : Host.Outcome State Fault Refusal := .next (s.portAcc t k).1

/-- What access `a` of tile k still needs of the tables is walked at once: the durations of walks are open. -/
def State.hurry (k : Nat) (s : State) (a : DAcc) : State :=
  let d := dieOfTile k
  let t := if a.st = 1 then
      match (s.die d).walks.find? fun w => w.tile == k && w.srcu ≤ 1 && w.acc == a.id with
      | some w => (s.walkDone d w).getD s
      | none => s
    else s
  t.fillParts d (t.ctxNo k) a.oid (a.parts.flatMap fun p => frameParts p.off p.n)

/-- The accesses of tile k that `sel` selects take effect now, with those that must before them, as far as no fault holds one. -/
def State.flushAcc (s : State) (k : Nat) (sel : DAcc → Bool) : State :=
  let l := (s.tile k).dacc.filter fun a => a.st != 3 && sel a
  match l.getLast? with
  | none => s
  | some z =>
    let s := ((s.tile k).dacc.filter fun a => a.st != 3 && a.id ≤ z.id).foldl (State.hurry k) s
    l.foldl (fun s a => (s.portAcc k a.id).1) s

/-- The DRAM loads not yet sampled sample before a load that issues now (R45, R189 rule 1; assumption 18). -/
def State.flushLoads (s : State) (k : Nat) : State := s.flushAcc k fun a => !a.write

/-- The DRAM stores of before the last `feno` land before a store that issues now (R191), but for one that a fault holds (DEDUCED, assumption 18). -/
def State.flushStores (s : State) (k : Nat) : State :=
  let e := (s.tile k).depoch
  s.flushAcc k fun a => a.write && a.epoch < e

/-- The longest way of an access to its port in the model, in cycles: with two walks a failure is detected within 128 (R210). -/
abbrev portMax := 60

/-- A DRAM access leaves for its port. -/
def State.sendAcc (s : State) (write : Bool) (oid : Nat) (parts : List Part) (form : Option LoadForm) (ctag : Option Bool) : State :=
  let r := s.delay
  let s := r.2
  let t := s.myTile
  s.setMyTile { t with
    dord := t.dord + 1
    dacc := t.dacc ++ [⟨t.dord, s.cur.pc, s.cur.w0, t.step, write, t.depoch, oid, parts, form, ctag, 0, min r.1 portMax, [], none⟩] }

/-! ### Loads -/

/-- A scratchpad or pool load samples at issue (R187), after the older DRAM loads that no fault holds. Where a fault holds one, which reads and numbers
later, what it makes of uncorrectable granules waits for that one's numbers (R45; DEDUCED, assumption 18). The places are lane, offset and bytes. -/
def sramLoad (s : State) (sp : Space) (oid lat : Nat) (l : List (Nat × Nat × Nat)) (form : LoadForm) : QRes :=
  let s := s.flushLoads s.me
  let ues := s.ueOf sp (l.map fun x => (x.2.1, x.2.1, x.2.2))
  let t := s.myTile
  if ues ≠ [] ∧ t.dacc.any (fun a => !a.write && a.st != 3) = true then
    let parts := l.map fun x => (⟨x.1, x.2.1, x.2.2, s.rd sp x.2.1 x.2.2⟩ : Part)
    let tag := match l with
      | [] => false
      | x :: _ => s.tagAt sp x.2.1
    .result (s.setMyTile { t with
      dord := t.dord + 1
      dacc := t.dacc ++ [⟨t.dord, s.cur.pc, s.cur.w0, t.step, false, t.depoch, oid, parts, some form, some tag, 0, 0, [], some ues⟩] })
      lat [] (loadY form) (some t.dord)
  else
    let r := s.sample sp (s.orgL oid) (l.map fun x => (x.1, [(x.2.1, x.2.1, x.2.2)]))
    .result r.1 lat (loadDest form r.2) (loadY form) none

/-- A load of `n` bytes at each checked place. -/
def loadWord (h : Hdr) (s : State) (cp : BitVec 5) (n align : Nat) (chks : List Chk) (form : LoadForm) :
    Host.Outcome State Fault Refusal :=
  qWord h s fun s =>
    let c := s.cur.snap.capP cp.toNat
    match checkAll c n rtR align chks with
    | .error t => .trap s t
    | .ok l =>
      let lat := loadLat c.oid
      if l = [] then .result s lat (loadDest form []) (loadY form) none
      else match sramOf s c.oid with
        | some sp => sramLoad s sp c.oid lat (l.map fun x => (x.1, x.2, n)) form
        | none =>
          let id := s.myTile.dord
          .result (s.sendAcc false c.oid (l.map fun x => ⟨x.1, x.2, n, []⟩) (some form) none) lat [] (loadY form) (some id)

/-- Bytes of an access with size code SZ. -/
def szBytes (sz : BitVec 2) : Nat := 2 ^ sz.toNat

/-- R180. -/
def execLds (h : Hdr) (f : FmtM) (s : State) :=
  loadWord h s f.cp (szBytes f.sz) (szBytes f.sz) (chkOne s f) (.scal (if f.ds.toNat % 64 = 0 then 0 else s.cur.snap.phys (f.ds.toNat % 64)) (bitN f.ds.toNat 6))
def execLdv (h : Hdr) (f : FmtM) (s : State) :=
  loadWord h s f.cp 4 4 (chkContig s f) (.vec f.ds.toNat (actOf s f.mask))
def execLdvs (h : Hdr) (f : FmtM) (s : State) :=
  loadWord h s f.cp (szBytes f.sz) (szBytes f.sz) (chkStride s f) (.vec f.ds.toNat (actOf s f.mask))
def execLdvg (h : Hdr) (f : FmtMG) (s : State) :=
  loadWord h s f.cp 4 4 (chkIdx s f) (.vec f.ds.toNat (actOf s f.mask))
def execLdvb (h : Hdr) (f : FmtM) (s : State) :=
  loadWord h s f.cp (szBytes f.sz) (szBytes f.sz) (chkSplat s f) (.splat f.ds.toNat (actOf s f.mask))
def execLdo (h : Hdr) (f : FmtM) (s : State) :=
  loadWord h s f.cp 4 4 (chkContig s f) (.vec f.ds.toNat (actOf s f.mask))
/-- R180, R182. -/
def execLdc (h : Hdr) (f : FmtM) (s : State) :=
  loadWord h s f.cp 16 16 (chkOne s f) (.cap (f.ds.toNat % 16) ((s.cur.snap.capP f.cp.toNat).has rtD))

/-- The one check of `spl` and `rfl`, which reach the tile's own scratchpad only (R178). -/
def recCheck (s : State) (f : FmtM) (rights : Nat) : Except TrapInfo Nat :=
  let c := s.cur.snap.capP f.cp.toNat
  match checkAll c 272 rights 16 (chkOne s f) with
  | .error t => .error t
  | .ok l => if c.oid = oidScr then .ok ((l.headD (0, 0)).2) else .error (accTrap cCAPRGT (memOff s f).1)

/-- `rfl` (R185). It makes an origin for each uncorrectable granule that it reads (R183), and none of its own (DEDUCED, assumption 59). -/
def execRfl (h : Hdr) (f : FmtM) (s : State) :=
  qWord h s fun s =>
    match recCheck s f rtR with
    | .error t => .trap s t
    | .ok a => sramLoad s (.scr s.me) oidScr 10 ((List.range 65).map fun i => (i, a + 4 * i, if i < 64 then 4 else 16)) (.rec_ f.ds.toNat)

/-! ### Stores -/

/-- The mask of the poisoned active lanes, and whether one of them raises POISST (R184). -/
def poisLanes (v : Vec) (lanes : List Nat) (narrow hasP : Bool) : Nat × Bool :=
  lanes.foldl (fun r k =>
    if (v.at k).tag then (r.1 + 2 ^ k, r.2 || narrow || !hasP || (v.at k).bits.toNat / 2 ^ 22 == 0) else r) (0, false)

/-- Bytes stored at each place, in order: SRAM at issue, DRAM through its port (R187). -/
def storeParts (s : State) (oid : Nat) (l : List Part) (ctag : Option Bool) : State :=
  match sramOf s oid with
  | some sp =>
    let s := if l = [] then s else s.flushStores s.me
    let s := (l.foldl (fun s p => s.wr sp p.off p.data) s).clearUE sp (l.map fun p => (p.off, p.n))
    match ctag, l with
    | some b, p :: _ => s.setTag sp p.off b
    | _, _ => s
  | none => if l = [] then s else s.sendAcc true oid l none ctag

/-- A vector store of `n` bytes of each active lane. -/
def vstoreWord (h : Hdr) (s : State) (cp : BitVec 5) (ds : BitVec 8) (n : Nat) (narrow : Bool) (chks : List Chk) :
    Host.Outcome State Fault Refusal :=
  qWord h s fun s =>
    let c := s.cur.snap.capP cp.toNat
    let v := s.myTile.v ds.toNat
    match checkAll c n rtW n chks with
    | .error t => .trap s t
    | .ok l =>
      let p := poisLanes v (l.map Prod.fst) narrow (c.has rtP)
      if p.2 then .trap s { cause := cPOISST, val := p.1 }
      else .done (storeParts s c.oid (l.map fun x => ⟨x.1, x.2, n, leBytes n (v.at x.1).bits.toNat⟩) none)

/-- R181, R184. -/
def execStv (h : Hdr) (f : FmtM) (s : State) := vstoreWord h s f.cp f.ds 4 false (chkContig s f)
def execStvs (h : Hdr) (f : FmtM) (s : State) :=
  vstoreWord h s f.cp f.ds (szBytes f.sz) (f.sz.toNat < 2) (chkStride s f)
def execStvx (h : Hdr) (f : FmtMG) (s : State) := vstoreWord h s f.cp f.ds 4 false (chkIdx s f)

def execSts (h : Hdr) (f : FmtM) (s : State) :=
  qWord h s fun s =>
    let c := s.cur.snap.capP f.cp.toNat
    let n := szBytes f.sz
    let v := s.cur.snap.s (f.ds.toNat % 64)
    match checkAll c n rtW n (chkOne s f) with
    | .error t => .trap s t
    | .ok l =>
      if v.tag then .trap s { cause := cPOISST, val := 1 }
      else .done (storeParts s c.oid (l.map fun x => ⟨0, x.2, n, leBytes n v.bits.toNat⟩) none)

/-- R181, R182. -/
def execStc (h : Hdr) (f : FmtM) (s : State) :=
  qWord h s fun s =>
    let c := s.cur.snap.capP f.cp.toNat
    let v := s.cur.snap.cap (f.ds.toNat % 16)
    match checkAll c 16 (if v.tag then rtW + rtD else rtW) 16 (chkOne s f) with
    | .error t => .trap s t
    | .ok l => .done (storeParts s c.oid (l.map fun x => ⟨0, x.2, 16, leBytes 16 v.bits.toNat⟩) (some v.tag))

/-- The 272-byte record of R185. -/
def splRecord (v : Vec) : List Byte :=
  let tags := (List.range 64).foldl (fun n k => n + if (v.at k).tag then 2 ^ k else 0) 0
  ((List.range 64).flatMap fun k => leBytes 4 (v.at k).bits.toNat) ++ leBytes 8 tags ++ leBytes 8 0

/-- `spl` (R185). -/
def execSpl (h : Hdr) (f : FmtM) (s : State) :=
  qWord h s fun s =>
    match recCheck s f rtW with
    | .error t => .trap s t
    | .ok a => .done ((s.flushStores s.me).wr (.scr s.me) a (splRecord (s.myTile.v f.ds.toNat)))

/-! ### Marks and fences -/

/-- The number of a mark word, of L (q = 1) or of S. -/
def markOf (q : Nat) (i : Instr) : Option (BitVec 4) :=
  match i with
  | .markL _ g => if q = 1 then some g.mkn else none
  | .markS _ g => if q = 3 then some g.mkn else none
  | _ => none

/-- The head of queue q at the start of this cycle, unless it has issued. -/
def Tile.headNow (t : Tile) (q : Nat) : Option QEntry := if t.issued.contains q then none else (t.queue q).head?

/-- The heads of L and S are marks with different numbers: the queue of the half that is earlier in program order (R190). -/
def Tile.markClash (t : Tile) : Option Nat :=
  match t.headNow 1, t.headNow 3 with
  | some a, some b =>
    match markOf 1 a.instr, markOf 3 b.instr with
    | some m, some n => if m ≠ n ∧ a.disp ≤ t.now ∧ b.disp ≤ t.now then some (if a.seq < b.seq then 1 else 3) else none
    | _, _ => none
  | _, _ => none

/-- A mark (R190): with its partner at the head of the other queue and both fit to issue, both issue; with a different number there, ILL at
the half that is earlier in program order; otherwise it waits. -/
def markWord (h : Hdr) (f : FmtF) (s : State) : Host.Outcome State Fault Refusal :=
  let q := s.cur.q
  let o := if q = 1 then 3 else 1
  let t := s.myTile
  .next (if s.onSorrel then s.take { cause := cILL, val := s.cur.w0 }
    else match t.headNow o with
      | none => s
      | some e =>
        match markOf o e.instr with
        | none => s
        | some n =>
          if n ≠ f.mkn then (if t.markClash = some q then s.take { cause := cILL, val := s.cur.w0 } else s)
          else if t.canIssue q && t.canIssue o then
            let s1 := pushDone h (issueHead h s)
            let c := s1.cur
            let ho := hdrOf e.w0
            let s2 := pushDone ho (issueHead ho { s1 with cur := { c with q := o, pc := e.pc, w0 := e.w0, w1 := e.w1, seq := e.seq } })
            { s2 with cur := c }
          else s)

def execMarkL (h : Hdr) (f : FmtF) (s : State) := markWord h f s
def execMarkS (h : Hdr) (f : FmtF) (s : State) := markWord h f s

/-- `feno` (R191): later stores take the next epoch; at scope tile there is nothing to order. -/
def execFeno (h : Hdr) (f : FmtF) (s : State) :=
  qWord h s fun s =>
    let t := s.myTile
    .done (if f.scp = 0 then s else s.setMyTile { t with depoch := t.depoch + 1 })

/-- A store of tile k issued before access `ord` that has not landed. -/
def Tile.storesBefore (t : Tile) (ord : Nat) : Bool := t.dacc.any fun a => a.write && a.id < ord

/-- A copy command issued before engine number `x` that has not completed (R193). -/
def Tile.copiesBefore (t : Tile) (x : Nat) : Bool := (t.xeq ++ t.xrun).any fun c => c.seq < x

/-- The tiles of a region, by region tile index. -/
def State.tilesOf (s : State) (r : Nat) : List Nat :=
  if r = 0 then [] else (s.tiles.filter fun x => x.2.rgn == r).map Prod.fst

/-- The owners a `fenr` asks (R192). -/
def fenrOwners (s : State) (scope : Nat) (all : Bool) (tix : Nat) : List Nat :=
  let l := s.tilesOf s.myTile.rgn
  if all then (if scope = 1 then l.filter fun k => clusterOf k == clusterOf s.me else l)
  else l.filter fun k => (s.tile k).tix == tix

/-- `fenr` (R192). -/
def execFenr (h : Hdr) (f : FmtF) (s : State) :=
  qWord h s fun s =>
    let R := s.rgnOf s.me
    if f.all = 0 ∧ R.w * R.h ≤ f.tix.toNat then .trap s { cause := cCAPBND }
    else
      let r := s.delay
      let t := r.2.myTile
      let own := fenrOwners s f.scp.toNat (f.all == 1) f.tix.toNat
      let x : Fence := ⟨true, f.scp.toNat, f.all == 1, t.dord, t.xseq, false, own, s.cur.seq, h.pshl, h.pshr, r.1⟩
      .held (r.2.setMyTile { t with fence := some x })

/-- `fenq` (R193): at scope tile alone it completes in its issue cycle. -/
def execFenq (h : Hdr) (f : FmtF) (s : State) :=
  qWord h s fun s =>
    let t := s.myTile
    let all := f.all == 1
    if (f.scp = 0 || !t.storesBefore t.dord) && (!all || !t.copiesBefore t.xseq) then .done s
    else
      let x : Fence := ⟨false, f.scp.toNat, all, t.dord, t.xseq, false, [], s.cur.seq, h.pshl, h.pshr, 0⟩
      .held (s.setMyTile { t with fence := some x })

/-- A fence completes: its pushes are made and the queue goes on in the next cycle. -/
def Tile.fenceDone (t : Tile) (x : Fence) : Tile :=
  { t with
    fence := none
    pushnow := t.pushnow ++ (if x.pshl then [(x.seq, 4)] else []) ++ (if x.pshr then [(x.seq, 2)] else []) }

/-- A fence of tile k looks at what it waits for at the end of a cycle: a `fenq` completes; a `fenr` whose stores have landed sends its
requests, and one whose last acknowledgement has come completes (R192, R193). -/
def State.fenceCheck (s : State) (k : Nat) : State :=
  let t := s.tile k
  match t.fence with
  | none => s
  | some x =>
    let stores := x.scope != 0 && t.storesBefore x.ord
    if x.rel then
      if x.asked then (if x.owners = [] then s.setTile k (t.fenceDone x) else s)
      else if stores then s
      else s.setTile k { t with fence := some { x with asked := true } }
    else if stores || (x.all && t.copiesBefore x.xseq) then s
    else s.setTile k (t.fenceDone x)

/-- `FENR_REQUEST` (R192): the owner notes which of its stores must land. -/
def execFenrRequest (t src : Nat) (s : State) : Host.Outcome State Fault Refusal :=
  let T := s.tile t
  .next (s.setTile t { T with fenrIn := T.fenrIn.filter (·.1 != src) ++ [(src, T.dord)] })

/-- An owner may acknowledge: its part has ended, or it runs and the stores it had issued have landed (R192). -/
def fenrReady (s : State) (owner src : Nat) : Bool :=
  let O := s.tile owner
  O.ended || (!(s.rgnOf owner).frozen && (O.fenrIn.find? (·.1 == src)).any fun x => !O.storesBefore x.2)

/-- `FENR_ACK` (R192): an acknowledgement reaches tile t. With the last one the `fenr` completes at the end of this cycle. -/
def execFenrAck (t owner : Nat) (s : State) : Host.Outcome State Fault Refusal :=
  let T := s.tile t
  .next (match T.fence with
    | none => s
    | some x =>
      if !x.rel || !x.asked || !x.owners.contains owner || !fenrReady s owner t then s
      else
        let O := s.tile owner
        let s := s.setTile owner { O with fenrIn := O.fenrIn.filter (·.1 != t) }
        s.setTile t { s.tile t with fence := some { x with owners := x.owners.filter (· != owner) } })

/-! ### Results and pushes (R62, R63, R66, R69) -/

/-- Write one destination of tile k. -/
def Tile.writeDest (t : Tile) (d : Dest) : Tile :=
  match d with
  | .vec r v act => { t with vreg := tset t.vreg r ((t.v r).merge v act) }
  | .scal ph v => { t with core := { t.core with sreg := tset t.core.sreg ph v } }
  | .cap n v => if n = 0 then t else { t with core := { t.core with c := tset t.core.c n v } }
  | .mask n v act => if n = 0 then t else { t with j := tset t.j n ((tget 0 t.j n &&& ~~~act) ||| (v &&& act)) }

/-- A front-end word has written the destination in this cycle: it is later in stream order, so its value remains (R69). -/
def Core.keeps (c : Core) (d : Dest) : Bool :=
  match d with
  | .scal ph _ => c.wrote.contains ph
  | .cap n _ => c.wrote.contains (512 + n)
  | _ => false

/-- A result is written: destinations, the `y` register, and the pushes of its word. The `y` register takes the image of the destination also where the
word writes no lane of it: an empty mask, or a `vins` whose lane is inactive (DESIGN CHOICE, assumption 63). -/
def Tile.land (t : Tile) (d : Due) (dst : List Dest) : Tile :=
  let t := (dst.filter fun x => !t.core.keeps x).foldl Tile.writeDest t
  let t := match d.y with
    | some (y, r) => { t with vreg := tset t.vreg (0x48 + y) (t.v r) }
    | none => t
  { t with pushnow := t.pushnow ++ (if d.pshl then [(d.seq, pushLeft d.q)] else []) ++ (if d.pshr then [(d.seq, pushRight d.q)] else []) }

/-- Results in stream order. -/
def insDue (d : Due) : List Due → List Due
  | [] => [d]
  | e :: l => if d.seq < e.seq then d :: e :: l else e :: insDue d l

/-- Access `id` of tile k is needed now: it takes effect if it can, and a held SRAM load numbers its origins whatever stands before it. -/
def State.needAcc (s : State) (k id : Nat) : State :=
  let s := (s.portAcc k id).1
  match (s.tile k).dacc.find? fun a => a.id == id && a.st != 3 with
  | some a => match a.ues with
    | some l => s.performHeld k a l
    | none => s
  | none => s

/-- One due result: a DRAM load not yet sampled samples now, and waits where it cannot (R187, R189). -/
def State.landDue (k : Nat) (s : State) (d : Due) : State :=
  match d.acc with
  | none =>
    let t := s.tile k
    s.setTile k ({ t with due := t.due.filter (· != d) }.land d d.dst)
  | some id =>
    let s := s.needAcc k id
    let t := s.tile k
    match t.dacc.find? fun a => a.id == id && a.st == 3 with
    | none => s
    | some a => s.setTile k ({ t with due := t.due.filter (· != d), dacc := t.dacc.filter (·.id != id) }.land d a.val)

/-- `RESULT_WRITEBACK` (R69): the results due at the end of this cycle are written, in stream order. -/
def execResultWriteback (t : Nat) (s : State) : Host.Outcome State Fault Refusal :=
  let T := s.tile t
  .next (((T.due.filter fun d => d.at_ ≤ T.now).foldl (fun l d => insDue d l) []).foldl (State.landDue t) s)

/-- Pushes of one cycle in the order in which they are made (R63). -/
def insPush (p : Nat × Nat) : List (Nat × Nat) → List (Nat × Nat)
  | [] => [p]
  | q :: l => if p.1 < q.1 then p :: q :: l else q :: insPush p l

/-- Make pushes in order; where a push of a queue waits, those of its later words wait behind it. -/
def pushAll : List (Nat × Nat) → Tab Nat → List (Nat × Nat) → Tab Nat × List (Nat × Nat)
  | [], tok, w => (tok, w)
  | f :: l, tok, w =>
    if w.any (fun x => pusherOf x.2 == pusherOf f.2 && x.1 != f.1) || 8 ≤ tget 0 tok f.2 then pushAll l tok (w ++ [f])
    else pushAll l (tset tok f.2 (tget 0 tok f.2 + 1)) w

/-- `TOKEN_PUSH_WAIT_END` (R63): at the end of a cycle the waiting pushes that find space are made, then those of the cycle. -/
def execTokenPushWaitEnd (t : Nat) (s : State) : Host.Outcome State Fault Refusal :=
  let T := s.tile t
  let r := pushAll (T.pushw ++ T.pushnow.foldl (fun l p => insPush p l) []) T.tok []
  .next (s.setTile t { T with tok := r.1, pushw := r.2, pushnow := [] })

end Sys2Proof.Machine
end

