-- ==== Sys2Proof/Machine/Slot.lean ====
section
/-! DEFINITION. The shadow slot: the image of a saved tile context (16_context.md R351, Table 148). -/

namespace Sys2Proof.Machine

/-- Bytes at rising addresses from `base` as memory cells. -/
def ofBytes : Nat → List Byte → Memory
  | _, [] => []
  | a, b :: l => if b = unlisted then ofBytes (a + 1) l else (a, b) :: ofBytes (a + 1) l

/-- Bit i of a number given by a test. -/
def bitsOf (n : Nat) (f : Nat → Bool) : Nat := (List.range n).foldl (fun x i => x + if f i then 2 ^ i else 0) 0

/-- The register specifiers of `v`, `o` and `y` in the order of the tag block. -/
abbrev slotRegs := 76

/-- The 256 bytes of a vector-width register. -/
def vecBytes (v : Vec) : List Byte := (List.range 64).flatMap fun k => leBytes 4 (v.at k).bits.toNat
/-- Its tags. -/
def vecTags (v : Vec) : Nat := bitsOf 64 fun k => (v.at k).tag

/-- Capabilities and then their tags as LE16. -/
def capBytes (g : Nat → Cap) : List Byte :=
  ((List.range 16).flatMap fun i => leBytes 16 (g i).bits.toNat) ++ leBytes 2 (bitsOf 16 fun i => (g i).tag)

/-- A loop level, 32 bytes. -/
def loopBytes (l : Loop) : List Byte :=
  leBytes 4 l.start ++ leBytes 4 l.stop ++ leBytes 4 l.x ++ leBytes 4 l.f ++ leBytes 4 l.p
    ++ leBytes 4 (l.n % 16 + (if l.active then 16 else 0) + l.kind % 8 * 32 + (if l.pre then 256 else 0) + (if l.stopped then 512 else 0))
    ++ leBytes 4 (if l.stopped then l.xr else 0) ++ leBytes 4 (if l.stopped then l.fr else 0)

/-- `TOKF` and `PSNC` (03_tile.md Table 29). -/
def tokfOf (t : Tile) : Nat := (List.range 6).foldl (fun n i => n + tget 0 t.tok i % 16 * 2 ^ (4 * i)) 0
def psncOf (t : Tile) : Nat := (List.range 5).foldl (fun n i => n + tget 0 t.psnc i % 128 * 2 ^ (7 * i)) 0

/-- The level stopped for a freeze. -/
def Core.stoppedLevel (c : Core) : Option Nat := (List.range 8).find? fun l => (c.loop l).stopped

/-- The resume PC of R81: the body start of the stopped level. -/
def Core.resumePc (c : Core) : Nat :=
  match c.stoppedLevel with
  | some l => (c.loop l).start
  | none => c.pc

/-- Map entries and counts of a bank. -/
def mapBytes (t : Tile) (m : Tab SMapE) : List Byte × List Byte :=
  ((List.range 256).flatMap fun n => let e := tget {} m n; leBytes 2 (e.phys % 512 + if e.valid then 2 ^ 15 else 0),
   (List.range 256).flatMap fun n =>
     let e := tget {} m n
     leBytes 2 (if e.valid then (tget 0 t.sem e.phys).toNat else 0))

/-- The shadow slot image of a tile whose context uses the map `m`. -/
def slotImage (t : Tile) (m : Tab SMapE) : Memory :=
  let c := t.core
  let mb := mapBytes t m
  let segs : List (Nat × List Byte) :=
    [(0, (List.range slotRegs).flatMap fun r => vecBytes (t.v r)),
     (0x4C00, (List.range slotRegs).flatMap fun r => leBytes 8 (vecTags (t.v r))),
     (0x5000, (List.range 512).flatMap fun p => leBytes 8 (tget Scal.zero c.sreg p).bits.toNat),
     (0x6000, leBytes 64 (bitsOf 512 fun p => (tget Scal.zero c.sreg p).tag)),
     (0x6040, leBytes 2 (bitsOf 16 fun i => (c.qv i).1) ++ leBytes 2 (bitsOf 16 fun i => (c.qv i).2)),
     (0x6080, (List.range 8).flatMap fun i => leBytes 8 (t.mask i).toNat),
     (0x6100, capBytes c.cap),
     (0x6210, capBytes fun i => tget Cap.null c.rl i),
     (0x6320, (List.range 8).flatMap fun i => leBytes 8 (tget 0 t.h i).toNat),
     (0x6400, [c.resumePc, c.w % 2 ^ 32 + c.lo * 2 ^ 32, tokfOf t, psncOf t, t.bndc, t.rstep, t.rcyc % 128 + t.roff * 2 ^ 8, t.xseq].flatMap
       (leBytes 8)),
     (0x6440, leBytes 8 ((if t.ended then 1 else 0) + if c.stopped then 2 else 0)),
     (0x6500, ((List.range 8).flatMap fun l => loopBytes (c.loop l)) ++ (List.range 8).flatMap fun l => leBytes 1 (c.pendOf l)),
     (0x6700, leBytes 128 (t.xfifo.foldr (fun x n => x.toNat + 2 ^ 64 * n) 0) ++ leBytes 8 t.xfifo.length),
     (0x6800, (List.range 64).flatMap fun i => leBytes 2 (tget 0 t.wph i).toNat),
     (0x6880, mb.1), (0x6A80, mb.2),
     (0x6C80, t.mag.flatMap fun x => leBytes 4 x.toNat)]
  segs.flatMap fun s => ofBytes s.1 s.2

/-- A field of an image. -/
def slotF (m : Memory) (a n : Nat) : Nat := leVal (mread m a n)

/-- A table built from its values. -/
def tabOf {α : Type} (n : Nat) (f : Nat → α) : Tab α := (List.range n).map fun i => (i, f i)

/-- Capabilities of an image. -/
def slotCaps (m : Memory) (a : Nat) : Tab Cap :=
  let tg := slotF m (a + 256) 2
  tabOf 16 fun i => ⟨BitVec.ofNat 128 (slotF m (a + 16 * i) 16), bitN tg i⟩

/-- A loop level of an image; a stopped one is made active again at its resume pass (R81). -/
def slotLoop (m : Memory) (l : Nat) : Loop :=
  let a := 0x6500 + 32 * l
  let fl := slotF m (a + 20) 4
  let st := bitN fl 9
  let xr := slotF m (a + 24) 4
  let fr := slotF m (a + 28) 4
  { active := bitN fl 4 || st, start := slotF m a 4, stop := slotF m (a + 4) 4, x := if st then xr else slotF m (a + 8) 4,
    f := if st then fr else slotF m (a + 12) 4, p := if st then fr else slotF m (a + 16) 4, n := fl % 16, kind := fl / 32 % 8,
    pre := bitN fl 8 }

/-- The map of an image and its counts, put in the tile's bank `b` and its physical semaphores. -/
def Tile.loadMap (t : Tile) (b : Nat) (m : Memory) : Tile :=
  let mp : Tab SMapE := tabOf 256 fun n => let x := slotF m (0x6880 + 2 * n) 2; ⟨bitN x 15, x % 512⟩
  let t := if b = 0 then { t with smap0 := mp } else { t with smap1 := mp }
  (List.range 256).foldl (fun (t : Tile) n =>
    let e := tget {} mp n
    if e.valid then { t with sem := tset t.sem e.phys (BitVec.ofNat 16 (slotF m (0x6A80 + 2 * n) 2)) } else t) t

/-- A tile restored from an image (R317): the matrix engine as at launch (R252), the trap registers zero but for `TVEC`. -/
def Tile.restore (t : Tile) (b : Nat) (m : Memory) (tvec : BitVec 32) : Tile :=
  let tags := slotF m 0x6000 64
  let q := slotF m 0x6040 2
  let qt := slotF m 0x6042 2
  let wl := slotF m 0x6408 8
  let ps := slotF m 0x6418 8
  let tk := slotF m 0x6410 8
  let c : Core :=
    { pc := slotF m 0x6400 8
      sreg := tabOf 512 fun p => ⟨BitVec.ofNat 64 (slotF m (0x5000 + 8 * p) 8), bitN tags p⟩
      q := tabOf 16 fun i => (bitN q i, bitN qt i)
      c := slotCaps m 0x6100
      rl := slotCaps m 0x6210
      w := wl % 2 ^ 32, lo := wl / 2 ^ 32
      loops := tabOf 8 (slotLoop m)
      pend := tabOf 8 fun l => slotF m (0x6600 + l) 1
      trap := { tvec := tvec } }
  let c := match (List.range 8).find? fun l => bitN (slotF m (0x6500 + 32 * l + 20) 4) 9 with
    | some l => stagePreds c (c.loop l)
    | none => c
  let rc := slotF m 0x6430 8
  let n := slotF m 0x6780 8
  let t1 : Tile :=
    { t with
      core := c
      vreg := tabOf slotRegs fun r =>
        let tg := slotF m (0x4C00 + 8 * r) 8
        mkVec fun k => ⟨BitVec.ofNat 32 (slotF m (256 * r + 4 * k) 4), bitN tg k⟩
      j := tabOf 8 fun i => BitVec.ofNat 64 (slotF m (0x6080 + 8 * i) 8)
      h := tabOf 8 fun i => BitVec.ofNat 64 (slotF m (0x6320 + 8 * i) 8)
      tok := tabOf 6 fun i => tk / 2 ^ (4 * i) % 16
      psnc := tabOf 5 fun i => ps / 2 ^ (7 * i) % 128
      bndc := slotF m 0x6420 8
      rstep := slotF m 0x6428 8, rcyc := rc % 128, roff := rc / 2 ^ 8
      step := slotF m 0x6428 8, cyc := rc % 128
      xseq := slotF m 0x6438 8
      ended := bitN (slotF m 0x6440 8) 0
      xfifo := (List.range n).map fun i => BitVec.ofNat 64 (slotF m (0x6700 + 8 * i) 8)
      wph := tabOf 64 fun i => BitVec.ofNat 16 (slotF m (0x6800 + 2 * i) 2)
      mag := (List.range 256).map fun i => BitVec.ofNat 32 (slotF m (0x6C80 + 4 * i) 4)
      acc := [], cell := [], cellp := [], celln := 0, keyCls := 3, keyA := [], keyB := [], bank := [], side := [], gsize := 1,
      gpos := 0, gsent := 0, grecv := 0 }
  t1.loadMap b m

/-- The image in a bank. -/
def Tile.slot (t : Tile) (b : Nat) : Memory := if b = 0 then t.slot0 else t.slot1
def Tile.setSlot (t : Tile) (b : Nat) (m : Memory) : Tile := if b = 0 then { t with slot0 := m } else { t with slot1 := m }

/-- The map and counts written back into the image of a saved context. -/
def Tile.syncSlot (t : Tile) (b : Nat) : Tile :=
  let mb := mapBytes t (if b = 0 then t.smap0 else t.smap1)
  t.setSlot b (blit (t.slot b) 0x6880 0x400 (ofBytes 0x6880 mb.1 ++ ofBytes 0x6A80 mb.2))

end Sys2Proof.Machine
end

