-- ==== Sys2Proof/Machine/Sync.lean ====
section
/-! DEFINITION. Semaphores, barriers and their maps (10_barrier.md R221 to R233). -/

namespace Sys2Proof.Machine

/-! ### Semaphores (R221 to R223, R225) -/

/-- Count of a physical semaphore of a tile. -/
def Tile.count (t : Tile) (p : Nat) : Nat := (tget 0 t.sem p).toNat
def Tile.setCount (t : Tile) (p n : Nat) : Tile := { t with sem := tset t.sem p (BitVec.ofNat 16 n) }

/-- The map of a bank, and the bank a tile's context uses (R222). -/
def Tile.smap (t : Tile) (b : Nat) : Tab SMapE := if b = 0 then t.smap0 else t.smap1
def Tile.setSmap (t : Tile) (b : Nat) (m : Tab SMapE) : Tile := if b = 0 then { t with smap0 := m } else { t with smap1 := m }
def State.bankOf (s : State) (k : Nat) : Nat := (s.rgnOf k).bank

/-- The physical semaphore of `eN` on tile k, when its entry is valid. -/
def State.semPhys (s : State) (k n : Nat) : Option Nat :=
  let e := tget {} ((s.tile k).smap (s.bankOf k)) n
  if e.valid then some e.phys else none

/-- The largest count. -/
abbrev semMax := 65535

/-- `TVAL` of SEMOVF and SEMUND (R347). -/
def semVal (en p : Nat) : Nat := en + p * 2 ^ 16

/-- CAPRGT with the guilt of R225 and R227. -/
def capRgt16 (s : State) : State := s.addGuilt (s.ctxNo s.me) 16

/-- A semaphore or barrier word: from a queue of a tile, or by the front end of Sorrel in program order (R100, R225). A token bit on
Sorrel is ILL. -/
def syncWord (h : Hdr) (s : State) (onTile : State → QRes) (onSorrel : State → FRes) : Host.Outcome State Fault Refusal :=
  if s.onSorrel then
    .next (if h.popl || h.popr || h.pshl || h.pshr then illHere s else predGate h.pred s onSorrel).state
  else qWord h s onTile

/-- Sorrel's own semaphores. -/
def State.sorSem (s : State) (n : Nat) : Nat := (tget 0 (s.die s.myDie).sem n).toNat
def State.setSorSem (s : State) (n v : Nat) : State :=
  let D := s.die s.myDie
  s.setDie s.myDie { D with sem := tset D.sem n (BitVec.ofNat 16 v) }

/-- A tile word on the semaphore `eN`. -/
def onSem (s : State) (f : FmtY) (body : Tile → Nat → QRes) : QRes :=
  match s.semPhys s.me f.sem.toNat with
  | none => .trap (capRgt16 s) { cause := cCAPRGT }
  | some p => body s.myTile p

/-- `semw` (R221, R223, R225): satisfied, it subtracts at once; else the word waits. -/
def execSemw (h : Hdr) (f : FmtY) (s : State) :=
  let n := f.k8.toNat
  syncWord h s
    (fun s => onSem s f fun t p =>
      if n ≤ t.count p then
        .done (s.setMyTile { t.setCount p (t.count p - n) with semTaken := tmod 0 t.semTaken p (· + n) })
      else .wait)
    (fun s => if n ≤ s.sorSem f.sem.toNat then .step (s.setSorSem f.sem.toNat (s.sorSem f.sem.toNat - n)) else .stay s)

/-- A count change of this cycle, made at its end (R223). -/
def Tile.addOp (t : Tile) (o : SemOp) : Tile := { t with semops := t.semops ++ [o] }

/-- The change of a word of queue q. -/
def State.semOp (s : State) (kind p amount en : Nat) : SemOp :=
  ⟨kind, s.cur.q, p, amount, en, s.cur.pc, s.cur.w0, s.cur.q, s.me⟩

/-- `sems` (R223, R225): added at the end of the cycle. -/
def execSems (h : Hdr) (f : FmtY) (s : State) :=
  syncWord h s
    (fun s => onSem s f fun t p => .done (s.setMyTile (t.addOp (s.semOp 2 p f.k8.toNat f.sem.toNat))))
    (fun s =>
      let c := s.sorSem f.sem.toNat + f.k8.toNat
      if semMax < c then .trap (s.setSorSem f.sem.toNat semMax) { cause := cSEMOVF, val := semVal f.sem.toNat f.sem.toNat }
      else .step (s.setSorSem f.sem.toNat c))

/-- `semr` (R225): the count at the start of the cycle, two cycles later. -/
def execSemr (h : Hdr) (f : FmtY) (s : State) :=
  syncWord h s
    (fun s => onSem s f fun t p =>
      let v : Scal := ⟨BitVec.ofNat 64 (t.count p + tget 0 t.semTaken p), false⟩
      .result s 2 (if f.sd = 0 then [] else [.scal (s.cur.snap.phys f.sd.toNat) v]) none none)
    (fun s => .step (s.putReg f.sd.toNat (s.sorSem f.sem.toNat)))

/-- `semi` (R225): a value above the largest count leaves the largest count and raises SEMOVF. -/
def execSemi (h : Hdr) (f : FmtY) (s : State) :=
  syncWord h s
    (fun s => onSem s f fun t p =>
      let a := s.cur.snap.s f.sd.toNat
      if a.tag then .trap s { cause := cPOISST, val := 1 }
      else if semMax < a.bits.toNat then
        .trap (s.setMyTile (t.setCount p semMax)) { cause := cSEMOVF, val := semVal f.sem.toNat p }
      else .done (s.setMyTile (t.addOp (s.semOp 1 p a.bits.toNat f.sem.toNat))))
    (fun s =>
      let a := s.core.s f.sd.toNat
      if a.tag then .trap s { cause := cPOISST, val := 1 }
      else if semMax < a.bits.toNat then
        .trap (s.setSorSem f.sem.toNat semMax) { cause := cSEMOVF, val := semVal f.sem.toNat f.sem.toNat }
      else .step (s.setSorSem f.sem.toNat a.bits.toNat))

/-- The order of R223. -/
def SemOp.le (a b : SemOp) : Bool := a.kind < b.kind || (a.kind == b.kind && a.ord ≤ b.ord)

def insOp (o : SemOp) : List SemOp → List SemOp
  | [] => [o]
  | x :: l => if x.le o then x :: insOp o l else o :: x :: l

/-- One change: the tile, and whether it saturated. A `sems` of the S queue releases the stores issued before it to the engines (R226). -/
def Tile.applyOp (t : Tile) (o : SemOp) : Tile × Bool :=
  if o.kind = 1 then (t.setCount o.phys o.amount, false)
  else (({ t with semOrd := if o.kind = 2 ∧ o.agent = 3 then tset t.semOrd o.phys t.dord else t.semOrd } : Tile).setCount o.phys (min (t.count o.phys + o.amount) semMax), semMax < t.count o.phys + o.amount)

/-- The first `sems` of the cycle that would saturate (R225). -/
def Tile.semsOver (t : Tile) : Option SemOp :=
  let r := (t.semops.foldl (fun l o => insOp o l) []).foldl (fun (r : Tile × Option SemOp) o =>
    let a := r.1.applyOp o
    (a.1, if r.2.isNone && a.2 && o.kind == 2 then some o else r.2)) (t, none)
  r.2

/-- What a saturating increment raises: a `sems` traps at its word; an engine's or a remote signal ends the grid at word 0 of the
command (R225), in its own package when a peer made it. -/
def State.semOverflow (s : State) (k : Nat) (o : SemOp) : State :=
  let t : TrapInfo := { cause := cSEMOVF, val := semVal o.en o.phys }
  if o.kind = 2 then s.trapTile k o.agent o.pc 0 t
  else if o.agent = 6 then s.send "peer-answer" [o.pc, 1, o.phys, o.src]
  else (s.tel (0x100 + 8 * cSEMOVF)).endBy o.src o.agent o.pc false t

/-- The count changes of a cycle on tile k. -/
def State.applySemops (s : State) (k : Nat) : State :=
  let t := s.tile k
  let l := t.semops.foldl (fun l o => insOp o l) []
  let s := s.setTile k { t with semops := [], semTaken := [] }
  l.foldl (fun s o =>
    let r := (s.tile k).applyOp o
    let s := s.setTile k r.1
    if r.2 then s.semOverflow k o else if o.agent = 6 then s.send "peer-answer" [o.pc, 0, o.phys, o.src] else s) s

/-- `PKGID`: bytes 0 to 7 of a device identity (17_link.md R370). -/
def pkgOf (d : BitVec 384) : Nat := d.toNat % 2 ^ 64

/-- The peer entry that word 1 of a copy command of tile k names (17_link.md R372), and what it names: the port, the context there, and, for one
memory by any entry, the package with the context. -/
def State.peerEnt (s : State) (k w1 : Nat) : Nat := (tget 0 (s.ctx (s.ctxNo k)).peers (bitsN w1 40 4 - 1)).toNat
def State.peerPort (s : State) (k w1 : Nat) : Nat := s.peerEnt k w1 % 16
def State.peerCtx (s : State) (k w1 : Nat) : Nat := s.peerEnt k w1 / 2 ^ 8 % 2 ^ 8
def State.peerId (s : State) (k w1 : Nat) : Nat := s.peerCtx k w1 + 2 ^ 8 * pkgOf (tget {} s.links (s.peerPort k w1)).peer

/-- A link on the way of a command of tile k to its peer, the port or the hub port of its die, that carries no data. -/
def State.peerDown (s : State) (k w1 : Nat) : Option Nat := [s.peerPort k w1, 14 + dieOfTile k].find? fun i => !(tget {} s.links i).carries

/-- The tile that word 1 of a copy command of tile k names in a peer package: whose it is, and its region tile index (R267, R281). -/
def State.peerTile (s : State) (k w1 : Nat) : Nat × Nat := (s.peerId k w1, if bitN w1 39 then bitsN w1 28 11 else (s.tile k).tix)

/-- A command of tile k lands in the memory of a tile: one of this package, or of a peer. -/
def State.landsIn (s : State) (k dtile : Nat) (peer : Option Nat) (c : XeCmd) : Bool :=
  match peer with
  | some w1 => bitsN c.w1 40 4 != 0 && s.peerTile k c.w1 == s.peerTile k w1
  | none => c.dtile == some dtile

/-- An earlier command of an XE whose landings in a tile's memory are not all made (R196). -/
def State.landsBefore (s : State) (k seq dtile : Nat) (peer : Option Nat) : Bool :=
  (s.tile k).xrun.any fun c => c.seq < seq && s.landsIn k dtile peer c
    && !(c.finished && (c.elems.isEmpty || c.applied))

/-- The increment waits for an earlier command of the same XE to the same tile (R196). -/
def incHeld (s : State) (x : RemInc) : Bool := x.sent || s.landsBefore x.tile x.seq x.dtile (x.peer.map fun p => p.2.1)

/-- CAPRGT of an increment whose map entry is not valid: at the sending command, with guilt 16 (R225). -/
def State.incRefused (s : State) (x : RemInc) : State :=
  ((s.addGuilt (s.ctxNo x.tile) 16).tel (0x100 + 8 * cCAPRGT)).endBy x.tile 5 x.pc false { cause := cCAPRGT }

/-- LINKLOST of an increment, at the sending command (17_link.md R366). -/
def State.incLost (s : State) (x : RemInc) (i : Nat) : State :=
  (s.tel (0x100 + 8 * cLINKLOST)).endBy x.tile 5 x.pc false { cause := cLINKLOST, val := i }

/-- `REMOTE_INCREMENT` (R196, R223, R225): mapped through the destination tile's bank; an entry that is not valid ends the grid with
CAPRGT at the sending command. One toward a peer package is sent, with its place in R223's order, and the peer answers (R281, R286); its way there
must carry data (17_link.md R366). -/
def execRemoteIncrement (k : Nat) (s : State) : Host.Outcome State Fault Refusal :=
  match s.incs.find? (·.id == k) with
  | none => .next s
  | some x =>
   if incHeld s x then .next s else
    match x.peer with
    | some p =>
      .next (match s.peerDown x.tile p.2.1 with
        | some i => ({ s with incs := s.incs.filter (·.id != k) } : State).incLost x i
        | none => ({ s with incs := s.incs.map fun y => if y.id = k then { y with sent := true } else y } : State).send "peer-signal"
          [k, p.1, s.peerCtx x.tile p.2.1, (s.peerTile x.tile p.2.1).2, p.2.2, x.en, x.amount, (s.tile x.tile).tix, x.seq])
    | none =>
    let s := { s with incs := s.incs.filter (·.id != k) }
    .next (match s.semPhys x.dtile x.en with
      | none => s.incRefused x
      | some p =>
        s.setTile x.dtile ((s.tile x.dtile).addOp
          ⟨4, (s.tile x.tile).tix * 2 ^ 64 + x.seq, p, x.amount, x.en, x.pc, x.w0, 5, x.tile⟩))

/-- What a peer answers to increment k (R272, R286, 17_link.md R364): 0 made, 1 it saturated physical semaphore p, 2 the map entry there is not valid,
5 its way there passes link p, which carries no data. -/
def State.peerSigAnswer (s : State) (k code p : Nat) : State :=
  match s.incs.find? fun x => x.id == k && x.sent with
  | none => s
  | some x =>
    let s := { s with incs := s.incs.filter (·.id != k) }
    if code = 1 then (s.tel (0x100 + 8 * cSEMOVF)).endBy x.tile 5 x.pc false { cause := cSEMOVF, val := semVal x.en p }
    else if code = 2 then s.incRefused x
    else if code = 5 then s.incLost x p
    else s

/-! ### Barriers (R227 to R230, R237) -/

/-- The object a handle of a context is bound to: package cluster and slot. -/
def State.barAt (s : State) (c h : Nat) : Option (Nat × Nat) :=
  match (s.ctx c).bmap.find? fun x => x.1 == h with
  | some x => some x.2
  | none => none
def State.bar (s : State) (o : Nat × Nat) : Barrier := tget {} (s.pool o.1).bar o.2
def State.setBar (s : State) (o : Nat × Nat) (b : Barrier) : State :=
  let P := s.pool o.1
  s.setPool o.1 { P with bar := tset P.bar o.2 b }

/-- A queued barrier word of a tile on `bH`; ILL on Sorrel. -/
def barWord (h : Hdr) (f : FmtY) (s : State) (body : State → Nat × Nat → QRes) : Host.Outcome State Fault Refusal :=
  qWord h s fun s =>
    match s.barAt (s.ctxNo s.me) f.bh.toNat with
    | none => .trap (capRgt16 s) { cause := cCAPRGT }
    | some o => body s o

/-- An arrival of the executing tile, applied at the close of the next region step (R228). -/
def State.arrive (s : State) (o : Nat × Nat) (mode : Bool) (n : Nat) : State :=
  let r := s.myTile.rgn
  let R := s.region r
  s.setRegion r { R with barq := R.barq ++ [⟨R.rstep + 1, o.1, o.2, mode, n⟩] }

def execBara (h : Hdr) (f : FmtY) (s : State) := barWord h f s fun s o => .done (s.arrive o false 1)

def execBarb (h : Hdr) (f : FmtY) (s : State) :=
  barWord h f s fun s o =>
    let a := s.cur.snap.s f.sd.toNat
    if a.tag then .trap s { cause := cPOISST, val := 1 }
    else if a.bits = 0 then .done s
    else .done (s.arrive o true (min a.bits.toNat (2 ^ 41)))

/-- A wait identity (R234). -/
def waitIdent (kind agent tix obj : Nat) : BitVec 32 :=
  BitVec.ofNat 32 (kind % 16 + agent % 16 * 2 ^ 4 + tix % 2 ^ 11 * 2 ^ 8 + obj % 2 ^ 11 * 2 ^ 19)

/-- The words of a WAITCYC record (Table 95). -/
def waitRecord (orphan err : Bool) (step : Nat) (path : List (BitVec 32)) : List (BitVec 64) :=
  let n := min path.length 16
  let p := path.take 16
  BitVec.ofNat 64 (n + (if orphan then 32 else 0) + (if err then 64 else 0) + (if 16 < path.length then 128 else 0) + step % 2 ^ 48 * 2 ^ 16)
    :: (List.range 8).map fun i =>
      BitVec.ofNat 64 ((p.getD (2 * i) 0).toNat + (p.getD (2 * i + 1) 0).toNat * 2 ^ 32)

/-- `barw` (R230, R237). -/
def execBarw (h : Hdr) (f : FmtY) (s : State) :=
  barWord h f s fun s o =>
    let b := s.bar o
    let t := s.myTile
    let hn := f.bh.toNat
    let w := tget 0 t.wph hn
    if b.state = 3 then
      .trap s { cause := cWAITCYC, words := waitRecord false true t.step [waitIdent 4 s.cur.q t.tix hn] }
    else if 1 ≤ (b.phase - w).toNat ∧ (b.phase - w).toNat ≤ 32767 then
      .done (s.setMyTile { t with wph := tset t.wph hn (w + 1) })
    else .wait

/-- `barq` (R230). -/
def execBarq (h : Hdr) (f : FmtY) (s : State) :=
  barWord h f s fun s o =>
    let b := s.bar o
    let v : Scal := ⟨BitVec.ofNat 64 (b.phase.toNat + b.state % 4 * 2 ^ 16 + b.arrived % 2 ^ 42 * 2 ^ 22), false⟩
    .result s 26 (if f.sd = 0 then [] else [.scal (s.cur.snap.phys f.sd.toNat) v]) none none

/-- A barrier at a close: `x` the arrivals of its own mode, `wrong` whether one of the other mode is among them (Table 91). -/
def Barrier.close (b : Barrier) (x : Nat) (wrong : Bool) : Barrier :=
  let a := b.arrived + x
  if b.state = 0 ∨ b.state = 3 then b
  else if wrong then { b with state := 3 }
  else if 2 * b.count ≤ a then { b with state := 3 }
  else if a = b.count then { b with state := 2, arrived := 0, phase := b.phase + 1 }
  else if b.count < a then { b with state := 1, arrived := a - b.count, phase := b.phase + 1 }
  else { b with state := 1, arrived := a }

/-- The barriers of a region at the close of region step u (R228, R229). -/
def State.closeBarriers (s : State) (r u : Nat) : State :=
  let R := s.region r
  let now := R.barq.filter fun a => a.step ≤ u
  let s := s.setRegion r { R with barq := R.barq.filter fun a => u < a.step }
  let objs := (now.map fun a => (a.pool, a.slot)).eraseDups
  objs.foldl (fun s o =>
    let b := s.bar o
    let mine := now.filter fun a => (a.pool, a.slot) == o
    s.setBar o (b.close ((mine.filter fun a => a.mode == b.mode).map BarArr.amount |>.foldl (· + ·) 0)
      (mine.any fun a => a.mode != b.mode))) s

/-! ### `smap` and `bmap` (R232) -/

/-- Region tile (x, y) in package coordinates (14_group.md Table 121). -/
def placeXY (rot w h ox oy x y : Nat) : Nat × Nat :=
  if rot = 0 then (ox + x, oy + y)
  else if rot = 1 then (ox + h - 1 - y, oy + x)
  else if rot = 2 then (ox + w - 1 - x, oy + h - 1 - y)
  else (ox + y, oy + w - 1 - x)

/-- The package tiles of a region's recorded placement, in ascending region tile index. -/
def Region.tiles (R : Region) : List Nat :=
  (List.range (R.w * R.h)).map fun i =>
    let p := placeXY R.rot R.w R.h R.ox R.oy (i % R.w) (i / R.w)
    96 * p.2 + p.1

/-- The tiles of its recorded placement that a region still holds: those of a die whose reset faulted it are gone (R304, R312). -/
def Region.heldTiles (R : Region) : List Nat := R.tiles.filter fun k => !R.lost.contains (dieOfTile k)

/-- The region that holds bank b of the shadow slots of tile k (R304, R316, R352). -/
def State.holder (s : State) (k b : Nat) : Option Nat :=
  (s.regions.find? fun r => r.2.state != 0 && r.2.slotsOut.isNone && r.2.bank == b && r.2.heldTiles.contains k).map Prod.fst

/-- `STATE` of a region: Stalled while a wire is up in a state it is entered from (Table 125). -/
def State.shownState (s : State) (R : Region) : Nat :=
  if (R.state = 2 ∨ R.state = 3 ∨ R.state = 5) ∧ (R.stall.up = true ∨ s.dom.frozen = true) then 4 else R.state

/-- A region runs in the sense of R232: Starting, Running, Stalled or Draining. -/
def Region.running (R : Region) : Bool := R.state == 2 || R.state == 3 || R.state == 4 || R.state == 5

/-- The contexts of the region stand in its shadow slots (R315, R318): Frozen by a pre-emption, Saved or Moving. -/
def Region.inSlots (R : Region) : Bool := (R.state == 6 && !R.hold) || R.state == 7 || R.state == 8

/-- Put back a tile whose map or counts a `smap` changed; the image of a saved context follows. -/
def State.putMap (s : State) (r k b : Nat) (t : Tile) : State :=
  s.setTile k (if (s.region r).inSlots then t.syncSlot b else t)

/-- A `smap` operation on tile k, bank b, of region r. -/
def smapOp (p : BitVec 4) (f : FmtZ) (s : State) (body : State → Nat → Nat → Nat → Nat → State × Nat) :
    Host.Outcome State Fault Refusal :=
  svOp p f 1 s fun s a g =>
    let x := a % 2 ^ 7
    let y := a / 2 ^ 8 % 2 ^ 5
    let b := a / 2 ^ 16 % 2
    if 95 < x ∨ 17 < y then (s, 1)
    else
      let k := 96 * y + x
      if (s.die (dieOfTile k)).defect.contains k then (s, 2)
      else match s.holder k b with
        | none => (s, 2)
        | some r => body s k b r (g.getD 0 0)

/-- Physical semaphores that valid entries other than n of bank b name. -/
def usedPhys (t : Tile) (b n : Nat) : List Nat :=
  (((t.smap b).filter fun x => x.1 != n && x.2.valid) ++ (t.smap (1 - b)).filter fun x => x.2.valid).map fun x => x.2.phys

/-- The region's contexts are frozen on its tiles: Frozen, Saved, or Moving, whose slots stand at the recorded placement until the copy completes
(R232, R318). -/
def Region.frozenHere (R : Region) : Bool := R.state == 6 || R.state == 7 || R.state == 8

def execSmapWr (p : BitVec 4) (f : FmtZ) (s : State) :=
  smapOp p f s fun s k b r v =>
    let t := s.tile k
    let n := v % 256
    let ph := v / 2 ^ 8 % 512
    let vd := bitN v 24
    let e := tget {} (t.smap b) n
    let cnt := if e.valid then t.count e.phys else 0
    if (s.region r).running then (s, 3)
    else if (usedPhys t b n).contains ph then (s, 1)
    else if !vd && cnt != 0 then (s, 3)
    else
      let t := t.setSmap b (tset (t.smap b) n ⟨vd, ph⟩)
      let t := if vd && e.valid && ph != e.phys && (s.region r).frozenHere then (t.setCount ph cnt).setCount e.phys 0 else t
      (s.putMap r k b t, 0)

def execSmapRd (p : BitVec 4) (f : FmtZ) (s : State) :=
  smapOp p f s fun s k b _ v =>
    let t := s.tile k
    let e := tget {} (t.smap b) (v % 256)
    (s.putReg f.b.toNat ((e.phys % 512) * 2 ^ 8 + (if e.valid then 2 ^ 24 + t.count e.phys * 2 ^ 32 else 0)), 0)

/-- A clamp's cause waits, against the context of region r, for the next word of its tile that stands on package tile k (R221, R232). -/
def State.adjLater (s : State) (r k cause val : Nat) : State :=
  let R := s.region r
  s.setRegion r { R with adj := R.adj ++ [(R.tiles.idxOf k, cause, val)] }

def execSmapAdj (p : BitVec 4) (f : FmtZ) (s : State) :=
  smapOp p f s fun s k b r v =>
    let t := s.tile k
    let n := v % 256
    let e := tget {} (t.smap b) n
    let c : Int := t.count e.phys + sextN 32 (v / 2 ^ 32)
    if (s.region r).running then (s, 3)
    else if !e.valid then (s, 2)
    else if c < 0 then ((s.putMap r k b (t.setCount e.phys 0)).adjLater r k cSEMUND (semVal n e.phys), 3)
    else if (semMax : Int) < c then ((s.putMap r k b (t.setCount e.phys semMax)).adjLater r k cSEMOVF (semVal n e.phys), 3)
    else (s.putMap r k b (t.setCount e.phys c.toNat), 0)

/-- Package clusters of a region, row-major in unrotated region cluster coordinates (R233). -/
def State.clustersOf (s : State) (r : Nat) : List Nat :=
  let R := s.region r
  (List.range ((R.w / 2) * (R.h / 2))).map fun i =>
    clusterOf (R.tiles.getD ((i / (R.w / 2)) * 2 * R.w + i % (R.w / 2) * 2) 0)

/-- The pool number under which the barriers of region cluster i of region r are kept while its SRAM image is out: 432 and up name no cluster of
the package (the model's own). -/
def awayPool (r i : Nat) : Nat := 432 + 432 * r + i

/-- Where the barriers of region r at home cluster `cl` of its recorded placement are kept. -/
def State.homePool (s : State) (r cl : Nat) : Nat := if (s.region r).out then awayPool r ((s.clustersOf r).idxOf cl) else cl

/-- The package cluster, at the recorded placement of region r, of the pool that a barrier of it is kept under. -/
def State.homeCluster (s : State) (r p : Nat) : Nat := if p < 432 then p else (s.clustersOf r).getD (p - awayPool r 0) 0

/-- Context and handle of a `bmap` selector. -/
def bmCtx (a : Nat) : Nat := a / 2 ^ 24 % 256
def bmHandle (a : Nat) : Nat := a % 64

/-- Bind handle h of context c to slot `sl` of package cluster `cl` for region r. -/
def State.bindBar (s : State) (c h cl sl : Nat) (mode : Bool) (count r : Nat) : State :=
  let x := s.ctx c
  (s.setCtx c { x with bmap := tset x.bmap h (cl, sl) }).setBar (cl, sl) ⟨mode, count, 0, 0, 1, r⟩

/-- A cluster by its coordinates in the package: column `cx` of 48, row `cy` of 9 (R17); other coordinates name none (status 1). -/
def execBmapBind (p : BitVec 4) (f : FmtZ) (s : State) :=
  svOp p f 2 s fun s a g =>
    let v := g.getD 0 0
    let n := g.getD 1 0
    let cl := 48 * (v / 2 ^ 8 % 16) + v % 64
    let sl := v / 2 ^ 16 % 16
    let mode := bitN v 24
    let r := v / 2 ^ 32 % 2 ^ 16
    let lim := if mode then 2 ^ 40 else 1728
    let o := s.homePool r cl
    if n = 0 ∨ lim < n ∨ 48 ≤ v % 64 ∨ (s.clustersOf r).contains cl = false ∨ (s.bar (o, sl)).state ≠ 0 then (s, 1)
    else if (s.barAt (bmCtx a) (bmHandle a)).isSome then (s, 3)
    else (s.bindBar (bmCtx a) (bmHandle a) o sl mode n r, 0)

/-- A `bmap` operation on a bound handle; an unbound one gives status 2. -/
def bmapOp (p : BitVec 4) (f : FmtZ) (s : State) (body : State → Nat → Nat × Nat → State × Nat) : Host.Outcome State Fault Refusal :=
  svOp p f 0 s fun s a _ =>
    match s.barAt (bmCtx a) (bmHandle a) with
    | none => (s, 2)
    | some o => body s a o

/-- Unbind a handle. -/
def State.unbindBar (s : State) (c h : Nat) : State :=
  match s.barAt c h with
  | none => s
  | some o =>
    let x := s.ctx c
    (s.setCtx c { x with bmap := x.bmap.filter (·.1 != h) }).setBar o {}

def execBmapUnbind (p : BitVec 4) (f : FmtZ) (s : State) :=
  bmapOp p f s fun s a o =>
    if s.shownState (s.region (s.bar o).rgn) = 3 then (s, 3) else (s.unbindBar (bmCtx a) (bmHandle a), 0)

def execBmapRd (p : BitVec 4) (f : FmtZ) (s : State) :=
  bmapOp p f s fun s _ o =>
    let b := s.bar o
    let cl := s.homeCluster b.rgn o.1
    (s.putRegs f.b.toNat
      [cl % 48 + cl / 48 * 2 ^ 8 + o.2 * 2 ^ 16 + (if b.mode then 2 ^ 24 else 0) + b.state % 4 * 2 ^ 25 + b.rgn % 2 ^ 16 * 2 ^ 32,
       b.arrived % 2 ^ 42 + b.phase.toNat * 2 ^ 48, b.count], 0)

/-- `WPH` of handle h set to 0 in the saved contexts of a region, in its slots or in the area that `savc` wrote (R229, R351, R352). -/
def State.zeroWph (s : State) (r h : Nat) : State :=
  let R := s.region r
  if !R.inSlots then s
  else match R.slotsOut with
    | some f => (List.range R.tiles.length).foldl (fun s i => s.dramWr (f * frameB + 98304 * i + 0x6800 + 2 * h) (leBytes 2 0)) s
    | none => R.tiles.foldl (fun s k =>
        let t := s.tile k
        s.setTile k (t.setSlot R.bank (blit (t.slot R.bank) (0x6800 + 2 * h) 2 []))) s

def execBmapRst (p : BitVec 4) (f : FmtZ) (s : State) :=
  bmapOp p f s fun s a o =>
    let b := s.bar o
    if s.shownState (s.region b.rgn) = 3 then (s, 3)
    else
      (((s.tilesOf b.rgn).foldl (fun s k => let t := s.tile k; s.setTile k { t with wph := tset t.wph (bmHandle a) 0 })
        (s.setBar o { b with phase := 0, arrived := 0, state := 1 })).zeroWph b.rgn (bmHandle a), 0)

end Sys2Proof.Machine
end

