-- ==== Sys2Proof/Machine/Group.lean ====
section
/-! DEFINITION. Regions: placement, start in waves, step closes, pre-emption, save, move and return (14_group.md R303 to R322,
03_tile.md R72 to R74, 13_kernel.md R289 to R292). -/

namespace Sys2Proof.Machine

/-! ### Control blocks (15_queue.md R334) -/

/-- The current half. -/
def Queue.half (Q : Queue) : CtlHalf := if Q.seq / 2 % 2 = 0 then Q.half0 else Q.half1

/-- Write the half that is not current; `SEQ` is odd until the update is committed. -/
def Queue.begin (Q : Queue) (h : CtlHalf) : Queue :=
  if Q.seq / 2 % 2 = 0 then { Q with half1 := h, seq := (Q.seq + 1) % 2 ^ 64 } else { Q with half0 := h, seq := (Q.seq + 1) % 2 ^ 64 }

/-- End an update that a completion began: its packet is done with. -/
def Queue.commit (Q : Queue) : Queue :=
  if Q.seq % 2 = 0 then Q
  else
    let Q := { Q with seq := (Q.seq + 1) % 2 ^ 64, pkt := [], launch := none, done := none, landed := false, woke := none }
    if Q.half.qstate = 0 then { Q with en := false } else Q

/-- A whole update. -/
def Queue.upd (Q : Queue) (f : CtlHalf → CtlHalf) : Queue :=
  let Q := Q.commit
  let Q := Q.begin (f Q.half)
  { Q with seq := (Q.seq + 1) % 2 ^ 64 }

/-- Queue q of context c. -/
def State.queue (s : State) (c q : Nat) : Queue := tget {} (s.ctx c).queues q
def State.setQueue (s : State) (c q : Nat) (Q : Queue) : State :=
  let x := s.ctx c
  s.setCtx c { x with queues := tset x.queues q Q }
def State.modQueue (s : State) (c q : Nat) (f : Queue → Queue) : State := s.setQueue c q (f (s.queue c q))
/-- Update its control block. -/
def State.ctl (s : State) (c q : Nat) (f : CtlHalf → CtlHalf) : State := s.modQueue c q fun Q => Q.upd f

/-! ### The kernel image (13_kernel.md R288 to R293) -/

/-- A field of an image. -/
def imgF (m : Memory) (a n : Nat) : Nat := leVal (mread m a n)
/-- Offset and length of section s. -/
def imgOff (m : Memory) (s : Nat) : Nat := imgF m (0x20 + 8 * s) 4
def imgLen (m : Memory) (s : Nat) : Nat := imgF m (0x24 + 8 * s) 4
/-- Shape and seams. -/
def imgW (m : Memory) : Nat := imgF m 6 1
def imgH (m : Memory) : Nat := imgF m 7 1
def imgSeams (m : Memory) : List Nat := [imgF m 8 1, imgF m 9 1].filter (· != 0)
/-- The Twill requests of Table 123: pseudo-channel group, seam, hub, Glimet. -/
def imgTw (m : Memory) : List Nat := (List.range 4).map fun i => imgF m (0x0C + i) 1
/-- Kind and pre-emptible flag of a level: a level not declared is temporal and not pre-emptible (R289). -/
def imgLoops (m : Memory) : Tab (Nat × Bool) :=
  (List.range 8).map fun l =>
    let x := imgF m (imgOff m 0 + 4 * l) 4
    (l, if bitN x 0 then (x / 2 % 8, bitN x 4) else (0, false))
/-- `START`, `LEN` and `TRAPV` of region tile t (R290). -/
def imgStream (m : Memory) (t : Nat) : Nat × Nat × Nat :=
  let a := imgOff m 1 + 16 * t
  (imgF m a 4, imgF m (a + 4) 4, imgF m (a + 8) 4)

/-- A record of the initial data (R291): offset, tile, target, payload. -/
structure InitRec where
  off : Nat
  tile : Nat
  tgt : Nat
  data : List Byte
deriving DecidableEq, Repr

/-- The records of the initial data section, in image order. -/
def initRecs (m : Memory) : Nat → Nat → Nat → List InitRec
  | 0, _, _ => []
  | fuel + 1, a, stop =>
    if stop ≤ a then []
    else
      let n := imgF m (a + 4) 4
      ⟨imgF m a 4, imgF m (a + 8) 2, imgF m (a + 10) 1, mread m (a + 16) n⟩ :: initRecs m fuel (a + 16 + (n + 15) / 16 * 16) stop
def imgInit (m : Memory) : List InitRec := initRecs m (imgLen m 3 / 16) (imgOff m 3) (imgOff m 3 + imgLen m 3)

/-- Requirement of `rlN`: `MINLEN` and `RIGHTS`; barrier `bN`: `COUNT` and `MODE` (R293). -/
def imgRel (m : Memory) (n : Nat) : Nat × Nat := (imgF m (imgOff m 4 + 16 * n) 8, imgF m (imgOff m 4 + 16 * n + 8) 1)
def imgBar (m : Memory) (n : Nat) : Nat × Bool :=
  let x := imgF m (imgOff m 4 + 256 + 8 * n) 8
  (x % 2 ^ 41, bitN x 41)

/-! ### Placement (R303 to R308) -/

/-- Columns and rows of the footprint. -/
def footprint (rot w h : Nat) : Nat × Nat := if rot = 1 ∨ rot = 3 then (h, w) else (w, h)

/-- The tiles of a placement, in ascending region tile index. -/
def placeTiles (rot w h ox oy : Nat) : List Nat := ({ w := w, h := h, rot := rot, ox := ox, oy := oy : Region } : Region).tiles

/-- The shadow slots that a region has: bank and tiles, at its recorded placement, where a move takes it, and where `rstc` fills them
(R304, R318, R352), but for the tiles of a die whose reset faulted it (R312). -/
def Region.slotPlaces (R : Region) : List (Nat × List Nat) :=
  if R.state = 0 then []
  else
    (if R.slotsOut.isNone then [(R.bank, R.heldTiles)] else [])
      ++ (match R.move with
        | some (rot, ox, oy, b) => [(b, (placeTiles rot R.w R.h ox oy).filter fun k => !R.lost.contains (dieOfTile k))]
        | none => [])
      ++ match R.op with
        | some (2, _, b) => [(b, R.heldTiles)]
        | _ => []

/-- Bank b is free on the tiles, but for what region `self` itself holds there. -/
def State.bankFree (s : State) (self b : Nat) (ks : List Nat) : Bool :=
  s.regions.all fun r => r.1 == self || r.2.slotPlaces.all fun p => p.1 != b || !p.2.any ks.contains

/-- The seam columns of a placement in package columns (R304). -/
def seamCols (rot w ox : Nat) (seams : List Nat) : List Nat := seams.map fun c => if rot = 2 then ox + w - c else ox + c

/-- The footprint crosses die boundaries only at its seams (R304 condition 5). -/
def seamsOk (rot w h ox : Nat) (seams : List Nat) : Bool :=
  let cols := (footprint rot w h).1
  let sc := seamCols rot w ox seams
  (seams == [] || rot == 0 || rot == 2) && sc.all (fun c => c % 32 == 0)
    && [32, 64].all fun b => !(ox < b && b < ox + cols) || sc.contains b

/-- Slots a region requests at a port of kind i of Table 123. -/
def Region.twAt (R : Region) (i : Nat) : Nat := R.tw.getD i 0

/-- Dies a list of tiles touches. -/
def diesOf (ks : List Nat) : List Nat := [0, 1, 2].filter fun d => ks.any fun k => dieOfTile k == d

/-- Glimet ports of the valid peer entries of a context (R308, R372). -/
def State.peerPorts (s : State) (c : Nat) : List Nat :=
  ((s.ctx c).peers.filter fun e =>
    let x := e.2.toNat
    bitN x 4 && bitN x 5 && x % 16 < 12 && ((tget {} s.links (x % 16)).state == 5 || (tget {} s.links (x % 16)).state == 6)).map fun e => e.2.toNat % 16

/-- The dies that a region stands on, whose hub ports it reserves: of its footprint, and of the one that a move takes it to (R308, R312, R318). -/
def Region.hubDies (R : Region) : List Nat :=
  diesOf (R.tiles ++ match R.move with
    | some x => placeTiles x.1 R.w R.h x.2.1 x.2.2.1
    | none => [])

/-- Regions that hold reservations, but for `self`. -/
def State.reserving (s : State) (self : Nat) : List Region :=
  (s.regions.filter fun r => r.1 != self && r.2.state != 0).map Prod.snd

/-- Sum of the requests of kind i over regions. -/
def sumTw (l : List Region) (i : Nat) : Nat := (l.map (·.twAt i)).foldl (· + ·) 0

/-- The Twill reservations of R308 fit: within 240 at each port, and within the function's shares. -/
def State.twillOk (s : State) (self c v : Nat) (tw ks : List Nat) : Bool :=
  let all := s.reserving self
  let mine := all.filter fun R => (s.ctx R.ctx).vf == v
  let q := fun i => (s.fn v).twq.getD i 0
  let fits := fun (l m : List Region) i => tw.getD i 0 == 0 || (sumTw l i + tw.getD i 0 ≤ 240 && sumTw m i + tw.getD i 0 ≤ q i)
  fits mine mine 0 && fits all mine 1
    && (diesOf ks).all (fun d =>
      fits (all.filter fun R => R.hubDies.contains d) (mine.filter fun R => R.hubDies.contains d) 2)
    && (s.peerPorts c).all fun p =>
      fits (all.filter fun R => (s.peerPorts R.ctx).contains p) (mine.filter fun R => (s.peerPorts R.ctx).contains p) 3

/-- What a placement asks for; `self` is the Saved region that moves, 0 for a launch. -/
structure PlaceReq where
  self : Nat
  c : Nat
  w : Nat
  h : Nat
  seams : List Nat
  tw : List Nat
deriving DecidableEq, Repr

/-- The Twill requests fit with every region of the function gone: its shares, and beside what the regions of other functions reserve at the ports they
share (R304 condition 6, R308, R329). -/
def State.twillCould (s : State) (c v : Nat) (tw ks : List Nat) : Bool :=
  let rest := (s.reserving 0).filter fun R => (s.ctx R.ctx).vf != v
  let fits := fun (l : List Region) i => tw.getD i 0 == 0 || (sumTw l i + tw.getD i 0 ≤ 240 && tw.getD i 0 ≤ (s.fn v).twq.getD i 0)
  fits [] 0 && fits rest 1 && (diesOf ks).all (fun d => fits (rest.filter fun R => R.hubDies.contains d) 2)
    && (s.peerPorts c).all fun p => fits (rest.filter fun R => (s.peerPorts R.ctx).contains p) 3

/-- The conditions of R304 that stand with every cluster of the function free. -/
def State.couldPlace (s : State) (q : PlaceReq) (rot ox oy : Nat) : Bool :=
  let v := (s.ctx q.c).vf
  let fp := footprint rot q.w q.h
  let ks := placeTiles rot q.w q.h ox oy
  ox % 2 == 0 && oy % 2 == 0 && ox + fp.1 ≤ 96 && oy + fp.2 ≤ 18 && 0 < q.w && 0 < q.h
    && ks.all (fun k => !(s.die (dieOfTile k)).defect.contains k) && (diesOf ks).all (fun d => (s.die d).state == 5)
    && ks.all (fun k => bitN (s.fn v).clmask (clusterOf k)) && seamsOk rot q.w q.h ox q.seams && s.twillCould q.c v q.tw ks

/-- The bank of a valid placement (R304). A moving region keeps its bank at its own recorded placement, and its new one may not overlap the
old footprint otherwise (R318); the search of R305 passes such a one over (DEDUCED, assumption 48). -/
def State.placeOk (s : State) (q : PlaceReq) (rot ox oy : Nat) : Option Nat :=
  let ks := placeTiles rot q.w q.h ox oy
  let R := s.region q.self
  let own := q.self != 0
  let same := own && rot == R.rot && ox == R.ox && oy == R.oy
  if s.couldPlace q rot ox oy && ks.all (fun k => let r := (s.tile k).rgn; r == 0 || (same && r == q.self))
      && (same || !own || !ks.any R.tiles.contains) && s.twillOk q.self q.c (s.ctx q.c).vf q.tw ks then
    if same then some R.bank else [0, 1].find? fun b => s.bankFree 0 b ks
  else none

/-- The search order of R305. -/
def searchOrder : List (Nat × Nat × Nat) :=
  [0, 2, 1, 3].flatMap fun rot => (List.range 9).flatMap fun y => (List.range 48).map fun x => (rot, 2 * x, 2 * y)

/-- The first valid placement: rotation, origin, bank. -/
def State.autoPlace (s : State) (q : PlaceReq) : Option (Nat × Nat × Nat × Nat) :=
  searchOrder.findSome? fun p => (s.placeOk q p.1 p.2.1 p.2.2).map fun b => (p.1, p.2.1, p.2.2, b)

/-- The lowest handle that no region holds (R311). -/
def State.newHandle (s : State) : Nat := ((List.range 0xFFFF).map (· + 1)).find? (fun r => (s.region r).state == 0) |>.getD 0

/-- Bank b of a tile's map as Calico writes it at placement (R222). -/
def freshMap (b : Nat) : Tab SMapE := tabOf 256 fun n => ⟨true, 256 * b + n⟩

/-- Fence the tiles of region r: each takes its region, its index and its map (R306). -/
def State.fenceTiles (s : State) (r b : Nat) (ks : List Nat) : State :=
  (ks.zip (List.range ks.length)).foldl (fun s p => s.setTile p.1 ({ s.tile p.1 with rgn := r, tix := p.2 }.setSmap b (freshMap b))) s

/-- A byte of the saved image of region tile i, in its slot or in the area of `savc`. -/
def State.savedByte (s : State) (R : Region) (i a : Nat) : Nat :=
  match R.slotsOut with
  | some f => (mget s.dram (f * frameB + 98304 * i + a)).toNat
  | none => (mget ((fun t : Tile => if R.bank = 0 then t.slot0 else t.slot1) (s.tile (R.tiles.getD i 0))) a).toNat

/-- Ended and stopped of each tile of a region (Table 124), in its saved image where its contexts stand there (Table 148). -/
def State.tileEnds (s : State) (r : Nat) : List (Bool × Bool) :=
  let R := s.region r
  if R.inSlots then
    (List.range (R.w * R.h)).map fun i => let x := s.savedByte R i 0x6440; (bitN x 0, bitN x 1)
  else (s.tilesOf r).map fun k => ((s.tile k).ended, (s.tile k).core.stopped)

/-- Words 0 to 3 of a region record (Table 124), as the region stands. -/
def State.recordWords (s : State) (r : Nat) : List Nat :=
  let R := s.region r
  let b := fun (x : Bool) (n : Nat) => if x then 2 ^ n else 0
  let ts := s.tileEnds r
  [s.shownState R + b R.preq 4 + b R.hold 5 + b R.out 6 + R.ctx % 256 * 2 ^ 8 + R.slot % 256 * 2 ^ 16 + R.ox % 128 * 2 ^ 24
      + R.oy % 32 * 2 ^ 32 + R.rot % 4 * 2 ^ 37 + R.bank % 2 * 2 ^ 39 + R.w % 256 * 2 ^ 40 + R.h % 256 * 2 ^ 48,
   R.tgt % 2 ^ 32 + (ts.filter (·.2)).length % 2 ^ 11 * 2 ^ 32 + (ts.filter (·.1)).length % 2 ^ 11 * 2 ^ 43,
   R.sstep % 2 ^ 64, if R.out then R.savef % 2 ^ 19 else 0]

/-! ### `rgsta.plc` (R321, R322) -/

/-- A placement word: origin, rotation, automatic; none when a reserved bit is set (R321). -/
def placeWord (v : Nat) : Option (Nat × Nat × Nat × Bool) :=
  let ox := v % 128
  let oy := v / 256 % 32
  let rot := v / 2 ^ 13 % 4
  let au := bitN v 15
  if v / 2 ^ 16 ≠ 0 ∨ bitN v 7 = true ∨ (au = true ∧ (ox ≠ 0 ∨ oy ≠ 0 ∨ rot ≠ 0)) then none else some (ox, oy, rot, au)

def placedWord (rot ox oy : Nat) : Nat := ox + oy * 256 + rot * 2 ^ 13

/-- The image of a slot as it stands in its code frames. -/
def State.slotImageOf (s : State) (c sl : Nat) : Memory :=
  let x := tget {} (s.ctx c).slots sl
  cut s.dram (x.frame * frameB) x.len 0

/-- Place the region of a launch packet: rotation, origin and bank are chosen. The control block names it (R334), and a queue that waited for placement
is Active again (R332). -/
def State.placeRegion (s : State) (c q : Nat) (L : Launch) (img : Memory) (rot ox oy b : Nat) : State × Nat :=
  let r := s.newHandle
  let C := s.ctx c
  let L := { L with rgn := r, before := C.chain, nch := C.chainn, dig := (tget {} C.slots L.slot).digest }
  let R : Region :=
    { state := 1, ctx := c, slot := L.slot, ox := ox, oy := oy, rot := rot, bank := b, w := imgW img, h := imgH img,
      seam0 := imgF img 8 1, seam1 := imgF img 9 1, tw := imgTw img, launch := L, image := img, loops := imgLoops img }
  let s := (s.setRegion r R).fenceTiles r b R.tiles
  ((s.modQueue c q fun Q => { Q with launch := some L }).ctl c q fun h =>
    if h.qstate = 3 ∧ h.waitk = 1 then { h with rgn := r, qstate := 2, waitk := 0 } else { h with rgn := r }, r)

/-- Place explicitly or by search: the placement and the new state, or a status. -/
def State.tryPlace (s : State) (c q : Nat) (L : Launch) (p : Nat × Nat × Nat × Bool) : Except Nat (State × Nat) :=
  let img := s.slotImageOf c L.slot
  let req : PlaceReq := ⟨0, c, imgW img, imgH img, imgSeams img, imgTw img⟩
  if p.2.2.2 then
    match s.autoPlace req with
    | none => .error 3
    | some x => .ok (s.placeRegion c q L img x.1 x.2.1 x.2.2.1 x.2.2.2)
  else if imgSeams img ≠ [] ∧ (p.2.2.1 = 1 ∨ p.2.2.1 = 3) then .error 1
  else match s.placeOk req p.2.2.1 p.1 p.2.1 with
    | none => .error 3
    | some b => .ok (s.placeRegion c q L img p.2.2.1 p.1 p.2.1 b)

/-- The launch a queue holds at stage 3 for a slot, with no region yet and no outcome. -/
def State.stage3 (s : State) (c q sl : Nat) : Option Launch :=
  let Q := tget {} (s.ctx c).queues q
  match Q.launch with
  | some L => if L.stage = 3 ∧ L.slot = sl ∧ L.rgn = 0 ∧ Q.done = none then some L else none
  | none => none

def execRgstaPlc (p : BitVec 4) (f : FmtZ) (s : State) :=
  svOp p f 1 s fun s a g =>
    let c := a / 2 ^ 24 % 256
    let q := a / 2 ^ 16 % 16
    let sl := a % 256
    let st := (tget {} (s.ctx c).slots sl).state
    if a / 2 ^ 32 ≠ 0 ∨ a / 2 ^ 20 % 16 ≠ 0 ∨ a / 2 ^ 8 % 256 ≠ 0 then (s, 1)
    else if st ≠ 3 ∧ st ≠ 4 then (s, 2)
    else match s.stage3 c q sl with
      | none => (s, 2)
      | some L =>
        match placeWord (g.getD 0 0) with
        | none => (s, 1)
        | some w =>
          match s.tryPlace c q L w with
          | .error e => (s, e)
          | .ok r =>
            let R := r.1.region r.2
            (r.1.putReg f.b.toNat (r.2 * 2 ^ 48 + placedWord R.rot R.ox R.oy), 0)

/-! ### Starting (R72 to R74, R292, R310) -/

/-- A region instruction on a handle; an Unplaced one gives status 2. -/
def rgOp (p : BitVec 4) (f : FmtZ) (k : Nat) (s : State) (body : State → Nat → Region → List Nat → State × Nat) :
    Host.Outcome State Fault Refusal :=
  svOp p f k s fun s a g =>
    let r := a % 2 ^ 16
    if (s.region r).state = 0 then (s, 2) else body s r (s.region r) g

/-- The start step: at least two domain steps on. -/
def State.startAt (s : State) (r : Nat) (R : Region) : State :=
  let d := s.delay
  d.2.setRegion r { R with state := 2, startIn := 2 + d.1, sstep := d.2.dom.step + 2 + d.1 }

/-- A launch of the slot may pass stage 3 (Table 118). -/
def Slot.passes (x : Slot) : Bool := (x.state == 3 || x.state == 4) && x.count < 255

/-- One more launch of a slot (Table 118). -/
def Slot.used (x : Slot) : Slot := if x.passes then { x with state := 4, count := x.count + 1 } else x

/-- The launch of region r is at stage 4: its stage 3 has passed, so its slot is in use by one more (R24, R322, Table 118). -/
def State.atStage4 (s : State) (r : Nat) : State :=
  let R := s.region r
  let s := s.setRegion r { R with launch := { R.launch with stage := 4 } }
  match (s.queue R.ctx R.launch.q).launch with
  | some L =>
    if L.rgn = r then
      let s := s.modQueue R.ctx R.launch.q fun Q => { Q with launch := some { L with stage := 4 } }
      let x := s.ctx R.ctx
      s.setCtx R.ctx { x with slots := tset x.slots L.slot (tget {} x.slots L.slot).used }
    else s
  | none => s

/-- The slot of the launch that region r is placed for lets it pass stage 3. -/
def State.slotPasses (s : State) (R : Region) : Bool := (tget {} (s.ctx R.ctx).slots R.launch.slot).passes

/-- `rgsta.go` (R310, R321): refused where the launch's slot lets no launch pass stage 3 (R296). -/
def execRgstaGo (p : BitVec 4) (f : FmtZ) (s : State) :=
  rgOp p f 0 s fun s r R _ => if R.state ≠ 1 ∨ s.slotPasses R = false then (s, 3) else ((s.startAt r R).atStage4 r, 0)

/-- The scratchpad and pool capabilities of R73 and R74. -/
def capScr : Cap := mkCap oidScr (rtR + rtW + rtA + rtD + rtP) 0 6 0 (0x80000 / 64) true
def capPool : Cap := mkCap oidPool (rtR + rtW + rtA + rtD + rtP) 0 6 0 (0x200000 / 64) true

/-- The state of a tile at the start of a launch (R72): what belongs to the other bank, the memories, and the place stay. Table 30 does not name `y0` to
`y3`: they are zero with their tags clear, as the registers they mirror are (DESIGN CHOICE, assumption 63). -/
def launchTile (s : State) (t : Tile) (R : Region) : Tile :=
  let st := imgStream R.image t.tix
  let args : Vec := mkVec fun i => ⟨BitVec.ofNat 32 (leVal ((List.range 4).map fun j => R.launch.args.getD (4 * i + j) 0)), false⟩
  { (({} : Tile)) with
    rgn := t.rgn, tix := t.tix, scr := t.scr, scrTag := t.scrTag, scrUE := t.scrUE, slot0 := t.slot0, slot1 := t.slot1
    smap0 := t.smap0, smap1 := t.smap1, sem := t.sem
    live := true
    vreg := [(0x47, args)]
    mag := (List.range 256).map fun i => BitVec.ofNat 32 (leVal (mread s.dram ((s.ctx R.ctx).magtab + 4 * i) 4))
    core := { c := [(1, capScr), (2, capPool)], rl := (List.range 16).map fun i => (i, R.launch.rl.getD i Cap.null),
              trap := { tvec := BitVec.ofNat 32 st.2.2 } } }

/-- Bytes of a pool written but for the ranges `given`, which a record of a higher tile index has given (R110, R292). -/
def State.poolInit (s : State) (c off : Nat) (bs : List Byte) (given : List (Nat × Nat)) : State :=
  if given.all fun x => x.1 + x.2 ≤ off || off + bs.length ≤ x.1 then s.wr (.pool c) off bs
  else (bs.zip (List.range bs.length)).foldl (fun s b =>
    if given.any fun x => x.1 ≤ off + b.2 && off + b.2 < x.1 + x.2 then s else s.wr (.pool c) (off + b.2) [b.1]) s

/-- One record of the initial data applied for tile k. -/
def State.applyInit (k : Nat) (given : List (Nat × Nat)) (s : State) (r : InitRec) : State :=
  if r.tgt = 0 then s.wr (.scr k) r.off r.data
  else if r.tgt = 1 then s.poolInit (clusterOf k) r.off r.data given
  else (List.range (r.data.length / 2)).foldl (fun s i =>
    match s.semPhys k (r.off + i) with
    | none => s
    | some p => s.setTile k ((s.tile k).setCount p (leVal ((r.data.drop (2 * i)).take 2)))) s

/-- Pool ranges that records of the tiles of the cluster with a higher index than `tix`, already started, have given: the column to the left starts
first, and its lower tile has the higher index (R110, R292, R310). -/
def overData (recs : List InitRec) (w tix : Nat) : List (Nat × Nat) :=
  (recs.filter fun i => i.tgt == 1 && i.tile != 0xFFFF && tix < i.tile && i.tile % w / 2 == tix % w / 2 && i.tile / w / 2 == tix / w / 2
    && i.tile % w < tix % w).map fun i => (i.off, i.data.length)

/-- Start tile k of region r: launch state, semaphore counts, then the initial data in two passes; a record for every tile writes each
pool once, with the cluster's first tile (R292). -/
def State.startTile (r : Nat) (s : State) (k : Nat) : State :=
  let R := s.region r
  let t := launchTile s (s.tile k) R
  let t := ((t.smap R.bank).filter fun e => e.2.valid).foldl (fun t e => t.setCount e.2.phys 0) t
  let s := s.setTile k t
  let recs := imgInit R.image
  let x := t.tix % R.w
  let y := t.tix / R.w
  let p1 := recs.filter fun i => i.tile == 0xFFFF && (i.tgt != 1 || (x % 2 == 0 && y % 2 == 0))
  let p2 := recs.filter fun i => i.tile == t.tix
  (p1 ++ p2).foldl (State.applyInit k (overData recs R.w t.tix)) s

/-- `REGION_COLUMN_START` (R310): column `col` of a Starting region starts; after the last one the region runs. -/
def execRegionColumnStart (rg col : Nat) (s : State) : Host.Outcome State Fault Refusal :=
  let R := s.region rg
  .next (if R.state ≠ 2 ∨ R.resume = true ∨ R.startIn ≠ 0 ∨ R.rstep ≠ col ∨ R.w ≤ col then s
    else
      let ks := R.tiles.filter fun k => (s.tile k).rgn == rg && (s.tile k).tix % R.w == col
      let s := ks.foldl (State.startTile rg) s
      if col + 1 = R.w then s.setRegion rg { s.region rg with state := 3 } else s)

/-! ### The end of a grid (R121, R312, R350) -/

/-- The semaphore counts of a bank's valid entries set to 0 (R222). -/
def Tile.zeroBank (t : Tile) (b : Nat) : Tile :=
  ((t.smap b).filter fun e => e.2.valid).foldl (fun t e => t.setCount e.2.phys 0) t

/-- Unbind every barrier of a region (R229). -/
def State.unbindAll (s : State) (r : Nat) : State :=
  let c := (s.region r).ctx
  ((s.ctx c).bmap.filter fun e => (s.bar e.2).rgn == r).foldl (fun s e => s.unbindBar c e.1) s

/-- Words that a Sorrel holds for region r end as refused, and a transfer under way on it is abandoned (R353; their status is the model's choice but for
`savc` and `rstc`, assumption 47). -/
def State.dropOps (s : State) (r : Nat) : State :=
  let s := [2, 3, 4, 6].foldl (fun (s : State) w => s.finish w r (statusIn 3)) (s.finish 7 r (statusIn3 3))
  s.setRegion r { s.region r with op := none }

/-- The fault records of region r are withdrawn on every die (R213). -/
def State.withdrawFaults (s : State) (r : Nat) : State := [0, 1, 2].foldl (fun s d => s.setDie d ((s.die d).withdraw r)) s

/-- What both ends of a grid do: its fault records are withdrawn, counts and barriers go, requests are discarded, `e2` rises (R213, R222, R229,
R326). -/
def State.gridOver (s : State) (r : Nat) : State :=
  let s := s.withdrawFaults r
  let R := s.region r
  let s := (R.slotPlaces.flatMap fun p => p.2.map fun k => (p.1, k)).foldl (fun s x => s.setTile x.2 ((s.tile x.2).zeroBank x.1)) s
  let s := s.unbindAll r
  let s := s.setRegion r { s.region r with preq := false, preReq := false, holdReq := false, barq := [], adj := [], mid := false }
  (s.dropOps r).leadSem 2

/-- A tile of a grid that has ended: nothing in flight remains (R350). -/
def Tile.stopAll (t : Tile) : Tile :=
  { t with
    live := false, trapped := false, catchup := false, lq := [], cq := [], sq := [], due := [], dacc := [], fence := none, fenrIn := [],
    pushw := [], pushnow := [], semops := [], meq := [], xeq := [], xrun := [], xfifo := [], blk := [], tok := [], fwd := []
    core := { t.core with halted := true, stepw := none, win := [] } }

/-- What is in flight for the tiles of region r is discarded. Of what peers had on its way there, landings are over, and their packages are told that no
region of the context runs (12_copy.md Table 112); arrivals stand at their ports, since it is their own grids that discard them (R350). -/
def State.dropFlight (s : State) (r : Nat) : State :=
  let ks := s.tilesOf r
  let s := (s.pstores.filter (·.rgn == r)).foldl (fun s x => s.send "peer-landed" [x.port, x.id, cOBJFLT]) s
  let s := { s with
    arrivals := s.arrivals.filter fun a => a.rgn != r || a.port.isSome
    pstores := s.pstores.filter (·.rgn != r)
    incs := s.incs.filter fun x => !ks.contains x.tile && !ks.contains x.dtile
    probes := s.probes.filter fun x => !ks.contains x.tile }
  [0, 1, 2].foldl (fun s d =>
    let D := s.die d
    s.setDie d { D with walks := D.walks.filter fun w => !ks.contains w.tile }) s

/-- The grid of region r ends with a report (R350): tiles stop, work in flight is discarded, its faults are withdrawn (R213), the region
goes to Faulted. The report is written into the interface block of its context. -/
def State.endGrid (s : State) (r : Nat) (rep : Report) : State :=
  let s := ((s.tilesOf r).foldl (fun s k => s.setTile k (s.tile k).stopAll) s).dropFlight r
  let R := s.region r
  let s := (s.setRegion r { R with
    state := 10, stall := {}, frozen := false, report := some rep, launch := { R.launch with code := 6 } }).gridOver r
  let C := s.ctx R.ctx
  let F := s.fn C.vf
  s.setFn C.vf { F with reports := tset F.reports C.iface rep }

/-- A grid ended with ABORT (R347, R350). `TRAPS` counts what tiles raise: an ABORT, which no tile raises, is not counted (DEDUCED, assumption 42). -/
def State.abort (s : State) (r n : Nat) : State :=
  s.endGrid r ((s.region r).report.getD { cause := cABORT, val := n, lseq := (s.region r).launch.lseq })

/-- At the end of a cycle a grid whose tile raised an unhandled trap ends with the lowest report (R350). -/
def State.settleGrid (s : State) (r : Nat) : State :=
  match (s.region r).report with
  | some rep => if (s.region r).state = 9 ∨ (s.region r).state = 10 then s else s.endGrid r rep
  | none => s

/-- Every grid whose tile raised an unhandled trap ends. -/
def State.settleAll (s : State) : State := s.regions.foldl (fun s r => s.settleGrid r.1) s

/-- A region retires once every tile's part has ended, from any state of Table 125 that admits it: a held one does so when it is released (R312). -/
def State.retire (s : State) (r : Nat) : State :=
  let R := s.region r
  if (R.state = 2 ∨ R.state = 3 ∨ R.state = 5) ∧ ((s.tilesOf r).all fun k => (s.tile k).ended) = true then
    (s.setRegion r { R with state := 9, stall := {}, frozen := false, xsteps := R.xsteps + if R.mid then 1 else 0 }).gridOver r
  else s

/-- `TILE_PART_END` (R121, R312): a halted tile that has drained ends its part; with the last one the region retires. An increment that its commands
have sent may still be on its way (R272; assumption 60). -/
def execTilePartEnd (t : Nat) (s : State) : Host.Outcome State Fault Refusal :=
  let T := s.tile t
  .next (if T.ended || !T.live || !T.core.halted || T.trapped || !T.drained || !T.meq.isEmpty || !T.xeq.isEmpty || !T.xrun.isEmpty then s
    else
      let s := s.setTile t { T with
        ended := true, live := false, catchup := false, tok := [], pushw := [], pushnow := [], xfifo := []
        core := { T.core with loops := [], pend := [] } }
      let s := if T.catchup then s.stallMod T.rgn fun x => { x with trap := x.trap - 1 } else s
      s.retire T.rgn)

/-- A tile given back: its memories, the shadow slot and the counts of bank b are scrubbed; the other bank stays (R312). -/
def Tile.scrubbed (t : Tile) (b : Nat) : Tile :=
  let t := t.zeroBank b
  ({ (({} : Tile)) with
    slot0 := t.slot0, slot1 := t.slot1, smap0 := t.smap0, smap1 := t.smap1, sem := t.sem }.setSmap b []).setSlot b []

/-- Zero bytes, clear tags and errors of DRAM frames. -/
def State.zeroFrames (s : State) (f n : Nat) : State :=
  { s with
    dram := blit s.dram (f * frameB) (n * frameB) []
    dramTag := blitG s.dramTag 16 (f * frameB) (n * frameB) []
    dramUE := blitG s.dramUE 32 (f * frameB) (n * frameB) [] }

/-- Tiles given back and their pools scrubbed, with the barriers in them. -/
def State.dropTiles (s : State) (b : Nat) (ks : List Nat) : State :=
  let s := ks.foldl (fun s k => s.setTile k ((s.tile k).scrubbed b)) s
  ((ks.map clusterOf).eraseDups).foldl (fun s c => s.setPool c {}) s

/-- Bank b of the shadow slots on tiles that another region may run on. -/
def State.dropSlots (s : State) (b : Nat) (ks : List Nat) : State :=
  ks.foldl (fun s k => s.setTile k (((s.tile k).zeroBank b |>.setSmap b []).setSlot b [])) s

/-- Code and cause of the launch of an ended grid (Table 132): a grid that faulted, or a launch that was ended with ABORT after its grid. -/
def Region.outcome (R : Region) : Nat × Nat :=
  if R.state = 10 ∨ R.launch.code = 6 then (6, (R.report.map Report.cause).getD cABORT) else (0, 0)

/-- The result word of a grid (R284). -/
def Region.resultWord (R : Region) : Nat := (R.rword.map fun (x : Nat × Nat × BitVec 32) => x.2.2.toNat).getD 0

/-- Arrivals of peers for the tiles that region r gives up go with them, and their packages are told. -/
def State.dropPeers (s : State) (r : Nat) : State :=
  (s.arrivals.filter fun a => a.rgn == r && a.port.isSome).foldl (fun s a => s.send "peer-refused" [a.port.getD 0, a.lseq, a.tix, a.seq, cOBJFLT])
    { s with arrivals := s.arrivals.filter fun a => a.rgn != r }

/-- A region returns to Unplaced with its scrub (R312). A launch whose grid had ended keeps its outcome; one not yet started may be
placed again. -/
def State.release (s : State) (r : Nat) : State :=
  let R := s.region r
  let s := ((s.withdrawFaults r).dropFlight r).dropPeers r
  let s := R.slotPlaces.foldl (fun s p => s.dropSlots p.1 p.2) (s.unbindAll r)
  let s := s.dropTiles R.bank ((s.tilesOf r).filter R.tiles.contains)
  let s := s.dropTiles ((R.move.map fun x => x.2.2.2).getD 0) (s.tilesOf r)
  let s := (regionFrames R).foldl (fun s f => s.zeroFrames f 1) s
  let v := (s.ctx R.ctx).vf
  let s := s.setFn v { s.fn v with freed := (s.fn v).freed + 1 }
  let Q := s.queue R.ctx R.launch.q
  let s := match Q.launch with
    | some L =>
      if L.rgn ≠ r then s
      else
        let done := if Q.done.isSome then Q.done
          else if R.state = 9 ∨ R.state = 10 then some (R.outcome.1, R.outcome.2, R.resultWord)
          else none
        (s.setQueue R.ctx R.launch.q { Q with launch := some { L with rgn := 0 }, done := done }).ctl R.ctx R.launch.q fun h => { h with rgn := 0 }
    | none => s
  s.setRegion r {}

def execRgretRel (p : BitVec 4) (f : FmtZ) (s : State) :=
  rgOp p f 0 s fun s r R _ => if R.state = 1 ∨ R.state = 9 ∨ R.state = 10 then (s.release r, 0) else (s, 3)

def execRgretAbt (p : BitVec 4) (f : FmtZ) (s : State) :=
  rgOp p f 0 s fun s r R _ => if R.state = 9 ∨ R.state = 10 then (s, 3) else (s.abort r 4, 0)

def execRgretRd (p : BitVec 4) (f : FmtZ) (s : State) :=
  rgOp p f 0 s fun s r _ _ => (s.putRegs f.b.toNat (s.recordWords r), 0)

/-! ### Pre-emption, hold and save (R313 to R315) -/

/-- `rgpre` (R314): latched at the next step close, until which Sorrel waits. -/
def execRgpre (p : BitVec 4) (f : FmtZ) (s : State) :=
  rgOp p f 0 s fun s r R _ =>
    if (s.shownState R ≠ 3 ∧ s.shownState R ≠ 4) ∨ R.preq = true ∨ R.preReq = true ∨ (R.loops.any fun l => l.2.2) = false then (s, 3)
    else ((s.setRegion r { R with preReq := true }).holdOp 2 r f.a.toNat, 0)

/-- The latch at a step close: T is one more than the largest `BNDC` (R314). -/
def State.latch (s : State) (r : Nat) : State :=
  let R := s.region r
  if !R.preReq then s
  else
    let m := ((s.tilesOf r).map fun k => (s.tile k).bndc).foldl max 0
    (s.setRegion r { R with preReq := false, preq := true, tgt := m + 1 }).finish 2 r (statusIn 0)

/-- `rgfrz.hold`: the clock goes off at the next step boundary. -/
def execRgfrzHold (p : BitVec 4) (f : FmtZ) (s : State) :=
  rgOp p f 0 s fun s r R _ =>
    if s.shownState R ≠ 3 ∨ R.holdReq = true then (s, 3) else ((s.setRegion r { R with holdReq := true }).holdOp 3 r f.a.toNat, 0)

def execRgfrzRel (p : BitVec 4) (f : FmtZ) (s : State) :=
  rgOp p f 0 s fun s r R _ =>
    if R.state ≠ 6 ∨ R.hold = false then (s, 3) else ((s.setRegion r { R with state := 3, hold := false }).retire r, 0)

/-- A Running region in which every tile has stopped or ended, one of them stopped, drains (R312). One whose `rgfrz.hold` waits for the step boundary is
Frozen first, and drains once it is released. -/
def State.checkDraining (s : State) (r : Nat) : State :=
  let R := s.region r
  let ts := (s.tilesOf r).map s.tile
  if s.shownState R = 3 ∧ R.holdReq = false ∧ (ts.all fun t => t.ended || t.core.stopped) ∧ ts.any (fun t => t.core.stopped) then
    s.setRegion r { R with state := 5 }
  else s

/-- The drain conditions of R315 on a tile. A push that waits for space keeps it from being quiet (DEDUCED, assumption 10). -/
def Tile.quiet (t : Tile) : Bool :=
  (t.core.stopped || t.ended) && t.drained && t.pushw.isEmpty && t.meq.isEmpty && t.xeq.isEmpty && t.xrun.isEmpty && !t.trapped && !t.catchup

/-- The drain conditions of R315. -/
def State.drainedRegion (s : State) (r : Nat) : Bool :=
  let ks := s.tilesOf r
  ks.all (fun k => (s.tile k).quiet) && (s.region r).barq.isEmpty && s.arrivals.all (·.rgn != r)
    && s.incs.all fun x => !ks.contains x.tile && !ks.contains x.dtile

/-- The DRAM stores that tiles of a region have issued land (R315, R323): their instants are open. One that faults or has still to be walked raises
the wire and keeps the region from freezing. -/
def State.landStores (s : State) (r : Nat) : State :=
  (s.tilesOf r).foldl (fun s k => s.flushAcc k (·.write)) s

/-- Save tile k to its shadow slot b (R315). -/
def State.saveTile (base b : Nat) (s : State) (k : Nat) : State :=
  let t := s.tile k
  let t := { t with roff := t.bstep - base }
  let img := if t.ended then ofBytes 0x6440 [1] ++ ofBytes 0x6880 (mapBytes t (t.smap b)).1 ++ ofBytes 0x6A80 (mapBytes t (t.smap b)).2
    else slotImage t (t.smap b)
  s.setTile k ({ t with live := false }.setSlot b img)

/-- `REGION_FREEZE` (R312, R315): a Draining region whose wire is down freezes at a step boundary and Calico saves each tile; one to be held
only freezes, from Running. -/
def execRegionFreeze (rg : Nat) (s : State) : Host.Outcome State Fault Refusal :=
  let R := s.region rg
  .next (if R.mid then s
    else if R.holdReq then
      if s.shownState R ≠ 3 then s else
      (s.setRegion rg { R with state := 6, hold := true, holdReq := false, frozen := true }).finish 3 rg (statusIn 0)
    else if s.shownState R = 5 ∧ s.drainedRegion rg = true then
      let s := s.landStores rg
      let ks := s.tilesOf rg
      if ks.any (fun k => !(s.tile k).dacc.isEmpty) || (s.region rg).stall.up then s else
      let base := ((ks.filter fun k => !(s.tile k).ended).map fun k => (s.tile k).bstep).foldl min (2 ^ 64)
      let s := ks.foldl (State.saveTile base R.bank) s
      s.setRegion rg { s.region rg with state := 6, frozen := true, rbase := base }
    else s)

/-- `REGION_SAVE_COMPLETE` (R312): the latched request is spent. -/
def execRegionSaveComplete (rg : Nat) (s : State) : Host.Outcome State Fault Refusal :=
  let R := s.region rg
  .next (if R.state ≠ 6 ∨ R.hold = true then s
    else s.setRegion rg { R with state := 7, preq := false })

/-! ### Resume (R317) -/

/-- No transfer is under way on the region: a region instruction that meets one is refused (assumption 47). -/
def Region.free (R : Region) : Bool := R.op.isNone

def execRgstaRes (p : BitVec 4) (f : FmtZ) (s : State) :=
  rgOp p f 0 s fun s r R _ =>
    if R.state ≠ 7 ∨ R.out = true ∨ R.slotsOut.isSome = true ∨ R.free = false then (s, 3)
    else (s.startAt r { R with resume := true, frozen := false }, 0)

/-- `REGION_RESUME_START` (R317): the tiles whose `ROFF` has come restore from their slots; the region runs once all have. -/
def execRegionResumeStart (rg : Nat) (s : State) : Host.Outcome State Fault Refusal :=
  let R := s.region rg
  .next (if R.state ≠ 2 ∨ R.resume = false ∨ R.startIn ≠ 0 then s
    else
      let ks := s.tilesOf rg
      let go := ks.filter fun k =>
        let t := s.tile k
        !t.live && !bitN (slotF (t.slot R.bank) 0x6440 8) 0 && slotF (t.slot R.bank) 0x6430 8 / 2 ^ 8 + R.rbase == R.rstep
      let s := go.foldl (fun s k =>
        let t := s.tile k
        let t := t.restore R.bank (t.slot R.bank) (BitVec.ofNat 32 (imgStream R.image t.tix).2.2)
        s.setTile k { t with live := true, blk := [] }) s
      if ks.all (fun k => let t := s.tile k; t.live || bitN (slotF (t.slot R.bank) 0x6440 8) 0) then
        s.setRegion rg { s.region rg with state := 3, resume := false }
      else s)

/-! ### Moves (R316, R318) -/

/-- Frames that a region's context may take for a save area: Pinned to its function, on one die, bound to nothing. -/
def State.areaOk (s : State) (v f n : Nat) : Bool :=
  0 < n && f + n ≤ allFrames && dieOfFrame f == dieOfFrame (f + n - 1)
    && (List.range n).all fun i => ftState (s.ft (f + i)) == fsPinned && ftVf (s.ft (f + i)) == v && !s.boundFrames.contains (f + i)

/-- The bytes, tags and errors of an SRAM copied to a DRAM range (R316). -/
def State.sramOut (s : State) (m : Memory) (tags ue : List Nat) (n dst : Nat) : State :=
  { s with
    dram := blit s.dram dst n (cut m 0 n dst)
    dramTag := blitG s.dramTag 16 dst n (cutG tags 16 0 n dst)
    dramUE := blitG s.dramUE 32 dst n ((ue.map fun g => g / 2 + dst / 32).eraseDups) }

/-- Uncorrectable granules of a DRAM range as SRAM granules from 0. -/
def ueBack (l : List Nat) (src n : Nat) : List Nat := ((cutG l 32 src n 0).flatMap fun g => [2 * g, 2 * g + 1])

/-- The tiles of region cluster i in the order of its second frame (R316), by region tile index. -/
def clusterTix (w i : Nat) : List Nat :=
  let a := i % (w / 2)
  let b := i / (w / 2)
  [2 * b * w + 2 * a, 2 * b * w + 2 * a + 1, (2 * b + 1) * w + 2 * a, (2 * b + 1) * w + 2 * a + 1]

/-- The SRAM image of a region written to its save area. -/
def State.imageOut (s : State) (R : Region) (f : Nat) : State :=
  (List.range (R.w * R.h / 4)).foldl (fun s i =>
    let ts := (clusterTix R.w i).map fun t => R.tiles.getD t 0
    let P := s.pool (clusterOf (ts.getD 0 0))
    let s := s.sramOut P.mem P.tags P.ue frameB ((f + 2 * i) * frameB)
    (List.range 4).foldl (fun s j =>
      let t := s.tile (ts.getD j 0)
      s.sramOut t.scr t.scrTag t.scrUE 0x80000 ((f + 2 * i + 1) * frameB + j * 0x80000)) s) s

/-- The SRAM image of a save area copied into tiles. -/
def State.imageIn (s : State) (R : Region) (f : Nat) : State :=
  (List.range (R.w * R.h / 4)).foldl (fun s i =>
    let ts := (clusterTix R.w i).map fun t => R.tiles.getD t 0
    let c := clusterOf (ts.getD 0 0)
    let a := (f + 2 * i) * frameB
    let s := s.setPool c { s.pool c with
      mem := cut s.dram a frameB 0, tags := cutG s.dramTag 16 a frameB 0, ue := ueBack s.dramUE a frameB }
    (List.range 4).foldl (fun s j =>
      let a := (f + 2 * i + 1) * frameB + j * 0x80000
      s.setTile (ts.getD j 0) { s.tile (ts.getD j 0) with
        scr := cut s.dram a 0x80000 0, scrTag := cutG s.dramTag 16 a 0x80000 0, scrUE := ueBack s.dramUE a 0x80000 }) s) s

/-- The barriers of region r go to other places: `dst` gives the pool number of each home cluster by its region cluster number. The handles follow
(R318). -/
def State.carryBars (s : State) (r : Nat) (src dst : Nat → Nat) : State :=
  let R := s.region r
  let n := (R.w / 2) * (R.h / 2)
  let bs := ((s.ctx R.ctx).bmap.filter fun e => (s.bar e.2).rgn == r).map fun e =>
    (e.1, ((List.range n).find? fun i => src i == e.2.1).getD 0, e.2.2, s.bar e.2)
  let s := s.unbindAll r
  bs.foldl (fun s e =>
    let o := (dst e.2.1, e.2.2.1)
    let c := s.ctx R.ctx
    (s.setCtx R.ctx { c with bmap := tset c.bmap e.1 o }).setBar o e.2.2.2) s

/-- Give up the tiles but keep their shadow slots and maps. -/
def State.leaveTiles (s : State) (ks : List Nat) : State :=
  let s := ks.foldl (fun s k =>
    let t := s.tile k
    s.setTile k { (({} : Tile)) with slot0 := t.slot0, slot1 := t.slot1, smap0 := t.smap0, smap1 := t.smap1, sem := t.sem }) s
  ((ks.map clusterOf).eraseDups).foldl (fun s c => s.setPool c { s.pool c with mem := [], tags := [], ue := [] }) s

/-- A transfer of region r begins: the Sorrel holds its word until it completes. -/
def State.beginOp (s : State) (r what a : Nat) (o : Nat × Nat × Nat) : State :=
  (s.setRegion r { s.region r with op := some o }).holdOp what r a

/-- `rgmov.out` (R316): the image is written while the word is held; `State.opDone` is its end. -/
def execRgmovOut (p : BitVec 4) (f : FmtZ) (s : State) :=
  rgOp p f 1 s fun s r R g =>
    let a := g.getD 0 0 % 2 ^ 19
    if R.state ≠ 7 ∨ R.out = true ∨ R.free = false ∨ s.areaOk (s.ctx R.ctx).vf a (R.w * R.h / 2) = false then (s, 3)
    else (s.beginOp r 6 f.a.toNat (0, a, 0), 0)

/-- The image of region r has been written from frame `a` (R316): its tiles are released except the shadow slot, and its barriers leave their
controllers with it (R233, R318). -/
def State.outDone (s : State) (r a : Nat) : State :=
  let R := s.region r
  let s := s.imageOut R a
  let cl := s.clustersOf r
  let s := (s.carryBars r (cl.getD · 0) (awayPool r)).leaveTiles (s.tilesOf r)
  s.setRegion r { R with out := true, savef := a, op := none }

/-- Add 256 (b′ − b) to the map of an image, for a new bank (R318, R352). -/
def rebaseMap (m : Memory) (b b2 : Nat) : Memory :=
  let es := (List.range 256).flatMap fun n =>
    let x := slotF m (0x6880 + 2 * n) 2
    leBytes 2 (if bitN x 15 then (x % 512 + 512 + 256 * b2 - 256 * b) % 512 + 2 ^ 15 else x)
  blit m 0x6880 512 (ofBytes 0x6880 es)

/-- The tiles of region r take over at placement `R2` what the region holds at `R` (R318): SRAM images, shadow slots in the new bank with their
counts, and barriers; what it leaves is scrubbed. A tile that had ended stays ended (R317). -/
def State.moveTo (s : State) (r : Nat) (R R2 : Region) : State :=
  let old := R.tiles
  let slots := old.map fun k => (s.tile k).slot R.bank
  let olds := old.map s.tile
  let cl := s.clustersOf r
  let oldP := cl.map s.pool
  let s := s.carryBars r (if R.out then awayPool r else (cl.getD · 0)) (awayPool r)
  let s := (s.dropSlots R.bank old).dropTiles R.bank ((s.tilesOf r).filter old.contains)
  let s := s.setRegion r R2
  let s := s.fenceTiles r R2.bank R2.tiles
  let s := (R2.tiles.zip (olds.zip slots)).foldl (fun s x =>
    let t := s.tile x.1
    let img := rebaseMap x.2.2 R.bank R2.bank
    s.setTile x.1 (({ t with
      scr := x.2.1.scr, scrTag := x.2.1.scrTag, scrUE := x.2.1.scrUE, ended := bitN (slotF img 0x6440 8) 0 }.setSlot R2.bank img).loadMap
        R2.bank img)) s
  let s := if R.out then s.imageIn R2 R.savef
    else ((s.clustersOf r).zip oldP).foldl (fun s x => s.setPool x.1 { x.2 with bar := [] }) s
  let cl2 := s.clustersOf r
  s.carryBars r (awayPool r) (cl2.getD · 0)

/-- The region's own placement takes its image back from the save area (R318). -/
def State.moveBack (s : State) (r : Nat) : State :=
  let R := s.region r
  let s := (R.tiles.zip (List.range R.tiles.length)).foldl (fun s x =>
    let t := s.tile x.1
    s.setTile x.1 { t with rgn := r, tix := x.2, ended := bitN (slotF (t.slot R.bank) 0x6440 8) 0 }) s
  let s := s.imageIn R R.savef
  let cl := s.clustersOf r
  s.carryBars r (awayPool r) (cl.getD · 0)

/-- `rgmov.mov` (R318): the new tiles are fenced for the region, which is Moving until the copy completes (`REGION_MOVE_COMPLETE`). -/
def execRgmovMov (p : BitVec 4) (f : FmtZ) (s : State) :=
  rgOp p f 1 s fun s r R g =>
    match placeWord (g.getD 0 0) with
    | none => (s, 1)
    | some w =>
      let seams := [R.seam0, R.seam1].filter (· != 0)
      if R.state ≠ 7 ∨ R.slotsOut.isSome = true ∨ R.free = false then (s, 3)
      else if w.2.2.2 = false ∧ seams ≠ [] ∧ (w.2.2.1 = 1 ∨ w.2.2.1 = 3) then (s, 1)
      else
        let here := fun (x : Nat × Nat × Nat × Nat) => x.1 == R.rot && x.2.1 == R.ox && x.2.2.1 == R.oy
        let req : PlaceReq := ⟨r, R.ctx, R.w, R.h, seams, R.tw⟩
        let pl := if w.2.2.2 then s.autoPlace req
          else if R.out = false ∧ here (w.2.2.1, w.1, w.2.1, 0) = true then some (R.rot, R.ox, R.oy, R.bank)
          else (s.placeOk req w.2.2.1 w.1 w.2.1).map fun b => (w.2.2.1, w.1, w.2.1, b)
        match pl with
        | none => (s, 3)
        | some x =>
          let s := s.putReg f.b.toNat (placedWord x.1 x.2.1 x.2.2.1)
          if here x && !R.out then (s, 0)
          else
            let s := if here x then (R.tiles.zip (List.range R.tiles.length)).foldl (fun s y => s.setTile y.1 { s.tile y.1 with rgn := r, tix := y.2 }) s
              else s.fenceTiles r x.2.2.2 (placeTiles x.1 R.w R.h x.2.1 x.2.2.1)
            ((s.setRegion r { R with state := 8, move := some x }).holdOp 4 r f.a.toNat, 0)

/-- `REGION_MOVE_COMPLETE` (R318): the copy has been made, and the record holds the new placement. -/
def execRegionMoveComplete (rg : Nat) (s : State) : Host.Outcome State Fault Refusal :=
  let R := s.region rg
  .next (match R.move with
    | none => s
    | some x =>
      if R.state ≠ 8 then s
      else
        let done := fun (R : Region) => { R with state := 7, out := false, savef := 0, move := none }
        let s := if x.1 = R.rot ∧ x.2.1 = R.ox ∧ x.2.2.1 = R.oy then
            let s := s.moveBack rg
            s.setRegion rg (done (s.region rg))
          else s.moveTo rg R (done { R with rot := x.1, ox := x.2.1, oy := x.2.2.1, bank := x.2.2.2 })
        s.finish 4 rg (statusIn 0))

/-! ### `savc` and `rstc` (16_context.md R352) -/

/-- `savc` and `rstc` (R352): region handle in `sA`, first frame in `sB`. The status takes `sA`[2:0], of which bit 2 is 0 but where an FLR
abandons the transfer. -/
def slotOp (p : BitVec 4) (f : FmtZ) (s : State) (body : State → Nat → Region → Nat → State × Nat) :
    Host.Outcome State Fault Refusal :=
  svWord p s fun s =>
    let a := s.core.s f.a.toNat
    let g := s.core.s f.b.toNat
    let put := fun (s : State) (st : Nat) => s.putReg f.a.toNat (statusIn3 st (s.core.s f.a.toNat).bits.toNat)
    if a.tag || g.tag then .step (put s 1)
    else
      let r := a.bits.toNat % 2 ^ 16
      if (s.region r).state = 0 then .step (put s 2)
      else
        let x := body s r (s.region r) (g.bits.toNat % 2 ^ 19)
        .step (put x.1 x.2)

/-- `savc` (R352): the images are written while the word is held; `State.opDone` is its end. -/
def execSavc (p : BitVec 4) (f : FmtZ) (s : State) :=
  slotOp p f s fun s r R a =>
    if R.state ≠ 7 ∨ R.out = false ∨ R.slotsOut.isSome = true ∨ R.free = false ∨ s.areaOk (s.ctx R.ctx).vf a R.areaFrames = false then
      (s, 3)
    else (s.beginOp r 7 f.a.toNat (1, a, 0), 0)

/-- The images of region r have been written from frame `a`; its slots are free. -/
def State.savcDone (s : State) (r a : Nat) : State :=
  let R := s.region r
  let s := (R.tiles.zip (List.range R.tiles.length)).foldl (fun (s : State) x =>
    let d := a * frameB + 98304 * x.2
    { s with
      dram := blit s.dram d 98304 (cut ((s.tile x.1).slot R.bank) 0 98304 d)
      dramTag := blitG s.dramTag 16 d 98304 []
      dramUE := blitG s.dramUE 32 d 98304 [] }) s
  (s.dropSlots R.bank R.tiles).setRegion r { R with slotsOut := some a, op := none }

/-- `rstc` (R352). -/
def execRstc (p : BitVec 4) (f : FmtZ) (s : State) :=
  slotOp p f s fun s r R a =>
    match R.slotsOut, [0, 1].find? fun b => s.bankFree r b R.tiles with
    | some x, some b => if x ≠ a ∨ R.free = false then (s, 3) else (s.beginOp r 7 f.a.toNat (2, a, b), 0)
    | _, _ => (s, 3)

/-- The images of region r have been read from frame `a` into bank `b`. -/
def State.rstcDone (s : State) (r a b : Nat) : State :=
  let R := s.region r
  let s := (R.tiles.zip (List.range R.tiles.length)).foldl (fun (s : State) x =>
    let img := rebaseMap (cut s.dram (a * frameB + 98304 * x.2) 98304 0) R.bank b
    s.setTile x.1 (((s.tile x.1).setSlot b img).loadMap b img)) s
  s.setRegion r { R with slotsOut := none, bank := b, op := none }

/-- The transfer under way on region r completes: the Sorrel that holds its word takes status 0 and goes on (R316, R352). -/
def State.opDone (s : State) (r : Nat) : State :=
  match (s.region r).op with
  | some (0, a, _) => (s.outDone r a).finish 6 r (statusIn 0)
  | some (1, a, _) => (s.savcDone r a).finish 7 r (statusIn3 0)
  | some (_, a, b) => (s.rstcDone r a b).finish 7 r (statusIn3 0)
  | none => s

end Sys2Proof.Machine
end

