-- ==== Sys2Proof/Machine/Kernel.lean ====
section
/-! DEFINITION. Kernel images and their checks, slots, and the measurement instructions (13_kernel.md R288 to R302). -/

namespace Sys2Proof.Machine

/-! ### A well-formed image (R288 to R294) -/

/-- The header of Table 115. -/
def hdrOk (m : Memory) : Bool :=
  let fr := imgF m 0x10 4
  let fb := imgF m 0x14 4
  imgF m 0 4 == 0x4933474B && imgF m 4 1 == 1 && imgF m 5 1 == 0 && imgF m 0x0A 2 == 0 && imgF m 0x18 8 == 0 && imgF m 0x48 0x38 == 0
    && imgW m % 2 == 0 && 2 ≤ imgW m && imgW m ≤ 96 && imgH m % 2 == 0 && 2 ≤ imgH m && imgH m ≤ 18
    && fr % 64 == 0 && fr ≤ 65536 && fb % 64 == 0 && fb + fr ≤ 0x80000

/-- The five sections, in order, in an image of n bytes. -/
def sectionsOk (m : Memory) (n : Nat) : Bool :=
  128 ≤ imgOff m 0 && (List.range 5).all (fun i => imgOff m i % 16 == 0)
    && (List.range 4).all (fun i => imgOff m i + imgLen m i ≤ imgOff m (i + 1)) && imgOff m 4 + imgLen m 4 == n && n % 16 == 0
    && imgLen m 0 == 32 && imgLen m 1 == 16 * imgW m * imgH m && imgLen m 4 == 768

/-- The seams of R109. -/
def seamsWf (m : Memory) : Bool :=
  let w := imgW m
  let a := imgF m 8 1
  let b := imgF m 9 1
  let one := fun c => c % 2 == 0 && 2 ≤ c && c ≤ w - 2
  if a = 0 then b == 0 && w ≤ 32
  else if b = 0 then one a && a ≤ 32 && w - a ≤ 32
  else one a && one b && a < b && a ≤ 32 && b - a ≤ 32 && w - b ≤ 32

/-- The loop table (R289). -/
def loopsOk (m : Memory) : Bool :=
  (List.range 8).all fun l =>
    let x := imgF m (imgOff m 0 + 4 * l) 4
    let k := x / 2 % 8
    x / 32 == 0 && (if bitN x 0 then k ≤ 4 && (!bitN x 4 || k == 0) && (k != 4 || imgF m 8 1 != 0) else x == 0)

/-- The stream index (R290). -/
def streamsOk (m : Memory) : Bool :=
  (List.range (imgW m * imgH m)).all fun t =>
    let e := imgStream m t
    e.1 % 16 == 0 && e.2.1 % 16 == 0 && 16 ≤ e.2.1 && e.1 + e.2.1 ≤ imgLen m 2 && imgF m (imgOff m 1 + 16 * t + 12) 4 == 0
      && (e.2.2 == 0xFFFFFFFF || (e.2.2 % 8 == 0 && e.2.2 < e.2.1))

/-- The records of the initial data, which fill their section (R291). -/
def recsOk (m : Memory) : Nat → Nat → Nat → Bool
  | 0, a, stop => a == stop
  | fuel + 1, a, stop =>
    if a = stop then true
    else
      let off := imgF m a 4
      let n := imgF m (a + 4) 4
      let tile := imgF m (a + 8) 2
      let tgt := imgF m (a + 10) 1
      let pad := (n + 15) / 16 * 16
      let fb := imgF m 0x14 4
      let fr := imgF m 0x10 4
      1 ≤ n && n ≤ 2 ^ 19 && a + 16 + pad ≤ stop && (tile < imgW m * imgH m || tile == 0xFFFF) && imgF m (a + 11) 5 == 0
        && imgF m (a + 16 + n) (pad - n) == 0
        && (if tgt = 0 then off + n ≤ 0x80000 && !(off < fb + fr && fb < off + n && fr != 0)
            else if tgt = 1 then off + n ≤ 0x200000
            else tgt == 2 && n % 2 == 0 && off + n / 2 ≤ 256)
        && recsOk m fuel (a + 16 + pad) stop

/-- The relocation map (R293). -/
def relocOk (m : Memory) : Bool :=
  let o := imgOff m 4
  let bar := fun n => imgF m (o + 256 + 8 * n) 8
  (List.range 16).all (fun n => imgF m (o + 16 * n) 8 < 2 ^ 48 && imgF m (o + 16 * n + 9) 7 == 0)
    && (List.range 64).all (fun n =>
      let c := bar n % 2 ^ 41
      bar n / 2 ^ 42 == 0 && (c != 0 || bar n == 0) && (if bitN (bar n) 41 then c ≤ 2 ^ 40 else c ≤ 1728))
    && ((List.range 64).filter fun n => bar n % 2 ^ 41 != 0).length ≤ 16 * imgW m * imgH m / 4

/-- An image of n bytes is not malformed (R294). -/
def imgOk (m : Memory) (n : Nat) : Bool :=
  hdrOk m && sectionsOk m n && seamsWf m && loopsOk m && streamsOk m && recsOk m (imgLen m 3 / 16) (imgOff m 3) (imgOff m 3 + imgLen m 3)
    && relocOk m

/-! ### Objects and digests -/

/-- Bytes of an object of a context through its object table, when every one of them can be read. -/
def State.objBytes (s : State) (c o off n : Nat) : Option (List Byte) :=
  (frameParts off n).foldl (fun r x =>
    match r, s.walk c o (x.1 / frameB) with
    | some l, .ok w =>
      let a := w.2.2.2 * frameB + x.1 % frameB
      if s.ueIn .dram a x.2 = [] then some (l ++ mread s.dram a x.2) else none
    | _, _ => none) (some [])

/-- A digest as six words, and from six words (R302). -/
def digWords (d : BitVec 384) : List Nat := (List.range 6).map fun i => d.toNat / 2 ^ (64 * i) % 2 ^ 64
def wordsDig (w : List Nat) : BitVec 384 := digNum ((w.take 6).flatMap (leBytes 8))

/-- SHA-384 as a digest. -/
def sha (l : List Byte) : BitVec 384 := digNum (sha384 l)

/-- Extend the chain of context c with a digest of type t (R300). -/
def State.extend (s : State) (c t : Nat) (d : BitVec 384) : State :=
  let x := s.ctx c
  s.setCtx c { x with chain := sha (digBytes x.chain ++ [BitVec.ofNat 8 t] ++ digBytes d), chainn := x.chainn + 1 }

/-- The Sorrel that executes the word leads (R23). -/
def State.leads (s : State) : Bool := s.onSorrel && s.hub.lease == some s.myDie

/-! ### Slots (R296 to R298) -/

/-- Slot `sl` of context c. -/
def State.slotOf (s : State) (c sl : Nat) : Slot := tget {} (s.ctx c).slots sl
def State.setSlotOf (s : State) (c sl : Nat) (x : Slot) : State :=
  let C := s.ctx c
  s.setCtx c { C with slots := tset C.slots sl x }

/-- The state of a slot once a launch of it has completed (Table 118): one that no launch uses stays as it is. -/
def Slot.left (x : Slot) : Slot :=
  if x.state ≠ 4 ∧ x.state ≠ 5 then x
  else if 1 < x.count then { x with count := x.count - 1 } else if x.state = 5 then {} else { x with state := 3, count := 0 }

/-- Run something with the Sorrel of die d as the executing front end. -/
def State.onDie (s : State) (d : Nat) (f : State → State) : State :=
  { f { s with cur := { s.cur with agent := .sorrel d } } with cur := s.cur }

/-- A `ksld` operation on the slot that `sA` selects; status 3 without the lease. -/
def ksldOp (p : BitVec 4) (f : FmtZ) (k : Nat) (s : State) (body : State → Nat → Nat → Nat → Slot → List Nat → State × Nat) :
    Host.Outcome State Fault Refusal :=
  svOp p f k s fun s a g =>
    let c := a / 2 ^ 24 % 256
    let sl := a % 256
    if !s.leads then (s, 3) else body s a c sl (s.slotOf c sl) g

/-- `ksld.ld`: the slot loads, and Sorrel waits for the check to end. -/
def execKsldLd (p : BitVec 4) (f : FmtZ) (s : State) :=
  ksldOp p f 2 s fun s a c sl x g =>
    let oid := g.getD 0 0 % 2 ^ 24
    let n := g.getD 1 0
    if x.state ≠ 0 then (s, 3)
    else if n % 16 ≠ 0 ∨ n < 128 ∨ 2 ^ 32 - 16 < n then (s, 1)
    else ((s.setSlotOf c sl { state := 1, loading := [oid, n, s.myDie, f.a.toNat, f.b.toNat] }).holdFor 5 (c * 256 + sl), a % 4)

/-- `KSLD_CHECK_END` (Table 118). -/
def execKsldCheckEnd (c sl : Nat) (s : State) : Host.Outcome State Fault Refusal :=
  let x := s.slotOf c sl
  match x.state, x.loading with
  | 1, [oid, n, d, ra, rb] =>
    let fin := fun (s : State) (st : Nat) (w : List Nat) =>
      (s.onDie d fun s => (s.putRegs rb w).putStatus ra st).unhold 5 (c * 256 + sl)
    .next (match s.objBytes c oid 0 n with
      | none => fin (s.setSlotOf c sl {}) 2 []
      | some bs =>
        if imgOk (ofBytes 0 bs) n then
          let D := sha bs
          fin ((s.setSlotOf c sl { state := 2, digest := D, len := n, loading := [oid] }).extend c 1 D) 0 (digWords D)
        else fin (s.setSlotOf c sl {}) 1 [])
  | _, _ => .next s

/-- The loads that the Sorrel of die d issued are abandoned (Table 118). -/
def State.abandonLoads (s : State) (d : Nat) : State :=
  s.ctxs.foldl (fun s c => c.2.slots.foldl (fun s x =>
    match x.2.state, x.2.loading with
    | 1, [_, _, e, ra, _] =>
      if e = d then ((s.setSlotOf c.1 x.1 {}).onDie d fun s => s.putStatus ra 3).unhold 5 (c.1 * 256 + x.1) else s
    | _, _ => s) s) s

/-- `ksld.res` (R298): the image is read again, written into the frames and compared. -/
def execKsldRes (p : BitVec 4) (f : FmtZ) (s : State) :=
  ksldOp p f 1 s fun s _ c sl x g =>
    let h := g.getD 0 0 % 2 ^ 19
    let n := (x.len + frameB - 1) / frameB
    if x.state = 0 then (s, 2)
    else if x.state ≠ 2 ∨ s.areaOk (s.ctx c).vf h n = false then (s, 3)
    else match s.objBytes c (x.loading.headD 0) 0 x.len with
      | none => (s, 1)
      | some bs =>
        let s := (s.zeroFrames h n).dramWr (h * frameB) bs
        if sha bs = x.digest then (s.setSlotOf c sl { x with state := 3, frame := h, count := 0 }, 0) else (s, 1)

/-- `ksld.evc`. -/
def execKsldEvc (p : BitVec 4) (f : FmtZ) (s : State) :=
  ksldOp p f 0 s fun s _ c sl x _ =>
    if x.state = 0 then (s, 2)
    else if x.state = 1 then (s, 3)
    else if x.state = 4 ∨ x.state = 5 then (s.setSlotOf c sl { x with state := 5 }, 0)
    else (s.setSlotOf c sl {}, 0)

/-- `ksld.rd`. -/
def execKsldRd (p : BitVec 4) (f : FmtZ) (s : State) :=
  ksldOp p f 0 s fun s _ _ _ x _ =>
    (s.putRegs f.b.toNat ((x.state % 8 + x.count % 256 * 2 ^ 8 + x.len % 2 ^ 32 * 2 ^ 32) :: x.frame :: digWords x.digest), 0)

/-! ### `meas` (R300, R302) -/

def execMeasExt (p : BitVec 4) (f : FmtZ) (s : State) :=
  svOp p f 6 s fun s a g =>
    let t := a / 2 ^ 32 % 4
    if !s.leads then (s, 3)
    else if t = 0 then (s, 1)
    else if t = 1 then (s, 3)
    else (s.extend (a / 2 ^ 24 % 256) t (wordsDig g), 0)

def execMeasRd (p : BitVec 4) (f : FmtZ) (s : State) :=
  svOp p f 0 s fun s a _ => (s.putRegs f.b.toNat (digWords (s.ctx (a / 2 ^ 24 % 256)).chain), 0)

def execMeasSha (p : BitVec 4) (f : FmtZ) (s : State) :=
  svOp p f 2 s fun s _ g =>
    let off := g.getD 0 0 % 2 ^ 18
    let n := g.getD 1 0
    if off % 8 ≠ 0 ∨ 2 ^ 18 < off + n then (s, 1)
    else (s.putRegs f.b.toNat (digWords (sha (mread (s.die s.myDie).sram off n))), 0)

/-- A node of the result tree (R302, R357). -/
def treeNode (l r : BitVec 384) : BitVec 384 := sha ([1] ++ digBytes l ++ digBytes r)

def execMeasNode (p : BitVec 4) (f : FmtZ) (s : State) :=
  svOp p f 12 s fun s _ g => (s.putRegs f.b.toNat (digWords (treeNode (wordsDig g) (wordsDig (g.drop 6)))), 0)

end Sys2Proof.Machine
end

