-- ==== Sys2Proof/Machine/Copy.lean ====
section
/-! DEFINITION. The copy engine: its commands, ordered accumulates, the result FIFO (12_copy.md R266 to R286, 08_memory_order.md R197). -/

namespace Sys2Proof.Machine

/-! ### Checks at issue (R267 to R270) -/

/-- What a command asks of one side: rights, bytes and alignment, the distance from its first row to its lowest byte, and whether
its addresses come from an index list. -/
structure Side where
  rights : Nat
  n : Nat
  align : Nat := 1
  low : Int := 0
  idx : Bool := false
deriving DecidableEq, Repr

/-- What a row of Table 109 asks: the scalars that are offsets or lengths, those that are values, whether the length is in range,
the two sides, the index list (offset and count), the bytes of the command, and whether it has `RSIG`. -/
structure XReq where
  adr : List Nat := []
  val : List Nat := []
  lenOk : Bool := true
  dst : Option Side := none
  src : Option Side := none
  list : Option (Nat × Nat) := none
  len : Nat := 0
  /-- Bit 0 of `ES` is `RSIG`. -/
  rsig : Bool := true
deriving DecidableEq, Repr

/-- Fields of word 1 (Table 108). -/
def xDCP (w : Nat) : Nat := bitsN w 0 5
def xDSX (w : Nat) : Nat := bitsN w 5 6
def xFCP (w : Nat) : Nat := bitsN w 11 5
def xFSX (w : Nat) : Nat := bitsN w 16 6
def xLSX (w : Nat) : Nat := bitsN w 22 6
def xDTX (w : Nat) : Nat := bitsN w 28 11
def xDR (w : Nat) : Bool := bitN w 39
def xDPR (w : Nat) : Nat := bitsN w 40 4
def xBH (w : Nat) : Nat := bitsN w 44 6
def xBC (w : Nat) : Bool := bitN w 50
def xLIMM (w : Nat) : Nat := bitsN w 51 13

/-- A scalar as it was taken at dispatch. -/
def xs (s : State) (n : Nat) : Scal := s.cur.snap.s n

/-- The length of a command (R268). -/
def xLen (s : State) (f : FmtE) : Nat := let w := f.w1.toNat; if xLSX w = 0 then xLIMM w else (xs s (xLSX w)).bits.toNat

/-- One side checked: the object and the offset. -/
def sideCheck (c : Cap) (x : Int) (q : Side) : Except TrapInfo (Nat × Int) :=
  if q.idx then
    match capNTR c q.rights with
    | .error e => .error (accTrap e x)
    | .ok o => .ok (o, x)
  else
    match capCheck c (x + q.low) q.n q.rights q.align with
    | .error e => .error (accTrap e (x + q.low))
    | .ok r => .ok (r.1, r.2 - q.low)

/-- A side that a command may not have. -/
def sideOpt (c : Cap) (x : Int) : Option Side → Except TrapInfo (Option Nat × Int)
  | none => .ok (none, 0)
  | some q =>
    match sideCheck c x q with
    | .error t => .error t
    | .ok r => .ok (some r.1, r.2)

/-- The peer entry a `DPR` names is valid (17_link.md R372). -/
def State.peerOk (s : State) (c dpr : Nat) : Bool :=
  let e := (tget 0 (s.ctx c).peers (dpr - 1)).toNat
  bitN e 4 && bitN e 5 && e % 16 < 12 && (tget {} s.links (e % 16)).carries

/-- The tile with an index in the region of tile k. -/
def State.byTix (s : State) (k tix : Nat) : Option Nat := (s.tilesOf (s.tile k).rgn).find? fun x => (s.tile x).tix == tix

/-- The checks of R269, in order: destination, then source; a trap with whether it adds guilt 16. A length outside its range raises CAPBND here,
an immediate one as well (R268 names ILL for any other value outside the row: DEDUCED, assumption 46). -/
def xCheck (s : State) (f : FmtE) (sig : Bool) (q : XReq) : Except (TrapInfo × Bool) ((Option Nat × Int) × (Option Nat × Int)) :=
  let w := f.w1.toNat
  let c := s.cur.snap
  match (q.adr.map (xs s)).find? Scal.tag with
  | some x => .error ({ cause := cPOISADR, val := x.bits.toNat }, false)
  | none =>
    if (q.val.map (xs s)).any Scal.tag then .error ({ cause := cPOISST, val := 1 }, false)
    else if !q.lenOk then .error ({ cause := cCAPBND }, false)
    else if xDPR w ≠ 0 ∧ s.peerOk (s.ctxNo s.me) (xDPR w) = false then .error ({ cause := cCAPRGT }, false)
    else match sideOpt (c.capP (xDCP w)) (xs s (xDSX w)).bits.toInt q.dst with
      | .error t => .error (t, false)
      | .ok d =>
        if xDR w = true ∧ sig = false ∧ d.1 ≠ some oidScr ∧ d.1 ≠ some oidPool then
          .error (accTrap cCAPRGT (xs s (xDSX w)).bits.toInt, false)
        else if xDR w = true ∧ xDPR w = 0 ∧ (s.rgnOf s.me).w * (s.rgnOf s.me).h ≤ xDTX w then .error ({ cause := cCAPBND }, false)
        else match sideOpt (c.capP (xFCP w)) (xs s (xFSX w)).bits.toInt q.src with
          | .error t => .error (t, false)
          | .ok g =>
            let l := q.list.getD (0, 0)
            if 0x80000 < l.1 + 4 * l.2 then .error ({ cause := cCAPBND, val := l.1 }, false)
            else if l.1 % 4 ≠ 0 then .error ({ cause := cALIGN, val := l.1 }, false)
            else if xBC w = true ∧ (s.barAt (s.ctxNo s.me) (xBH w)).isNone = true then .error ({ cause := cCAPRGT }, true)
            else if (f.wt ≠ 0 ∧ (s.semPhys s.me f.ws.toNat).isNone = true)
                ∨ (f.si ≠ 0 ∧ (sig || (q.rsig && rsigOf f)) = false ∧ (s.semPhys s.me f.ss.toNat).isNone = true) then
              .error ({ cause := cCAPRGT }, true)
            else .ok (if sig then (none, 0) else d, g)

/-- The tile that landings or a signal reach: `DTX`, or the executing one. -/
def xTile (s : State) (w : Nat) (sig : Bool) (dobj : Option Nat) : Option Nat :=
  if xDPR w ≠ 0 then none
  else if xDR w then s.byTix s.me (xDTX w)
  else if sig || dobj == some oidScr || dobj == some oidPool then some s.me else none

/-- The least lag of Table 110. -/
def lagMin (w : Nat) (dobj : Option Nat) : Nat :=
  if xDPR w ≠ 0 then 8 else if dobj = some oidScr ∨ dobj = some oidPool then 1 else 2

/-- A copy command issues (R269): it waits for a place in the queue of 32, passes its checks, and takes the next engine number. -/
def copyWord (h : Hdr) (f : FmtE) (s : State) (i : Instr) (sig : Bool) (q : XReq) : Host.Outcome State Fault Refusal :=
  qWord h s fun s =>
    if 32 ≤ s.myTile.xeq.length then .wait
    else match xCheck s f sig q with
      | .error e => .trap (if e.2 then capRgt16 s else s) e.1
      | .ok r =>
        let t := s.myTile
        let w := f.w1.toNat
        let c : XeCmd :=
          { seq := t.xseq, instr := i, pc := s.cur.pc, w0 := s.cur.w0, w1 := w
            dobj := r.1.1, dofs := r.1.2, fobj := r.2.1, fofs := r.2.2
            dcap := s.cur.snap.capP (xDCP w), fcap := s.cur.snap.capP (xFCP w)
            dtile := xTile s w sig r.1.1, ord := t.dord, len := q.len
            vals := [xFSX w, xLSX w, xLSX w + 1, xLSX w + 2].map fun n => (xs s n).bits.toNat
            due := (s.rgnOf s.me).rstep + max (bitsN f.es.toNat 9 4) (lagMin w r.1.1) }
        .done (s.setMyTile { t with xeq := t.xeq ++ [c], xseq := (t.xseq + 1) % 2 ^ 32 })

/-- `xcp` (R275). -/
def execXcp (h : Hdr) (f : FmtE) (s : State) :=
  let w := f.w1.toNat
  let n := xLen s f
  let tag := bitN f.es.toNat 1
  let a := if tag then 16 else 1
  let d := if tag then rtD else 0
  copyWord h f s (.xcp h f) false
    { adr := [xDSX w, xFSX w, xLSX w], lenOk := 1 ≤ n && n ≤ 2 ^ 24 && (!tag || n % 16 == 0), len := n
      dst := some { rights := rtW + d, n := n, align := a }, src := some { rights := rtR + d, n := n, align := a } }

/-- The signed strides of `xc2`: source, destination. -/
def xc2Str (v : Nat) : Int × Int := (sextN 32 v, sextN 32 (v / 2 ^ 32))

/-- A side of `xc2`: the span from its lowest row start to its highest row end (R269). -/
def xc2Side (rights l n : Nat) (st : Int) : Side :=
  { rights := rights, n := (((n : Int) - 1) * st).natAbs + l, low := min 0 (((n : Int) - 1) * st) }

/-- `xc2` (R275). -/
def execXc2 (h : Hdr) (f : FmtE) (s : State) :=
  let w := f.w1.toNat
  let x := xLSX w
  let l := (xs s x).bits.toNat
  let n := (xs s (x + 1)).bits.toNat
  let st := xc2Str (xs s (x + 2)).bits.toNat
  copyWord h f s (.xc2 h f) false
    { adr := [xDSX w, xFSX w, x, x + 1, x + 2], lenOk := 1 ≤ l && l ≤ 2 ^ 24 && 1 ≤ n && n ≤ 65536, len := l * n
      dst := some (xc2Side rtW l n st.2), src := some (xc2Side rtR l n st.1) }

/-- Bytes of an element of `xcg`, and whether it scatters (Table 109). -/
def xcgE (es : Nat) : Nat := 2 ^ (bitsN es 2 3 + 2)
def xcgScat (es : Nat) : Bool := bitN es 1

/-- `xcg` (R275). -/
def execXcg (h : Hdr) (f : FmtE) (s : State) :=
  let w := f.w1.toNat
  let n := xLIMM w
  let b := n * xcgE f.es.toNat
  let sc := xcgScat f.es.toNat
  copyWord h f s (.xcg h f) false
    { adr := [xDSX w, xFSX w, xLSX w], len := b, list := some ((xs s (xLSX w)).bits.toNat, n)
      dst := some { rights := rtW, n := b, idx := sc }, src := some { rights := rtR, n := b, idx := !sc } }

/-- `xaw` (R276). -/
def execXaw (h : Hdr) (f : FmtE) (s : State) :=
  let w := f.w1.toNat
  let n := xLen s f
  copyWord h f s (.xaw h f) false
    { adr := [xDSX w, xFSX w, xLSX w], lenOk := 4 ≤ n && n ≤ 4096 && n % 4 == 0, len := n
      dst := some { rights := rtA, n := n, align := 4 }, src := some { rights := rtR, n := n, align := 4 } }

/-- `xawr` (R278). -/
def execXawr (h : Hdr) (f : FmtE) (s : State) :=
  let w := f.w1.toNat
  copyWord h f s (.xawr h f) false
    { adr := [xDSX w], val := [xFSX w], len := 4, dst := some { rights := rtA, n := 4, align := 4 } }

/-- `xcas` (R278). -/
def execXcas (h : Hdr) (f : FmtE) (s : State) :=
  let w := f.w1.toNat
  copyWord h f s (.xcas h f) false
    { adr := [xDSX w], val := [xFSX w, xLSX w], len := 4, dst := some { rights := rtA, n := 4, align := 4 } }

/-- `xsig` (R281). -/
def execXsig (h : Hdr) (f : FmtE) (s : State) :=
  copyWord h f s (.xsig h f) true { dst := if xDPR f.w1.toNat = 0 then none else some { rights := rtS, n := 0 } }

/-- `xhsh` (R282). -/
def execXhsh (h : Hdr) (f : FmtE) (s : State) :=
  let w := f.w1.toNat
  let n := xLen s f
  copyWord h f s (.xhsh h f) false
    { adr := [xDSX w, xFSX w, xLSX w], lenOk := 1 ≤ n && n ≤ 65536, len := n
      dst := some { rights := rtW, n := 48, align := 16 }, src := some { rights := rtH, n := n, align := 65536 } }

/-- `xopn` (R283). -/
def execXopn (h : Hdr) (f : FmtE) (s : State) :=
  let w := f.w1.toNat
  let n := xLen s f
  copyWord h f s (.xopn h f) false
    { adr := [xDSX w, xFSX w, xLSX w], lenOk := 1 ≤ n && n ≤ 2 ^ 24, len := n, rsig := false
      dst := some { rights := rtW, n := n, align := 16 }, src := some { rights := rtR, n := n + 32, align := 16 } }

/-- `xsel` (R284). -/
def execXsel (h : Hdr) (f : FmtE) (s : State) :=
  copyWord h f s (.xsel h f) false { val := [xFSX f.w1.toNat] }

/-- `xfil` (R275). -/
def execXfil (h : Hdr) (f : FmtE) (s : State) :=
  let w := f.w1.toNat
  let n := xLen s f
  copyWord h f s (.xfil h f) false
    { adr := [xDSX w, xLSX w], val := [xFSX w], lenOk := 1 ≤ n && n ≤ 2 ^ 24, len := n, dst := some { rights := rtW, n := n } }

/-- `xpop` (R285): it waits for an entry and takes the oldest. -/
def execXpop (h : Hdr) (f : FmtY) (s : State) :=
  qWord h s fun s =>
    let t := s.myTile
    match t.xfifo with
    | [] => .wait
    | x :: l => .result (s.setMyTile { t with xfifo := l }) 2 (if f.sd = 0 then [] else [.scal (s.cur.snap.phys f.sd.toNat) ⟨x, false⟩]) none none

/-! ### Starting (R271) -/

/-- `OPC`, `ES` and whether the command pushes a result entry or is an accumulate. -/
def XeCmd.opc (c : XeCmd) : Nat := bitsN c.w0 56 5
def XeCmd.es (c : XeCmd) : Nat := c.w0 % 2 ^ 16
def XeCmd.pushes (c : XeCmd) : Bool := [0x14, 0x15, 0x17, 0x18].contains c.opc
def XeCmd.isAw (c : XeCmd) : Bool := [0x13, 0x14, 0x15].contains c.opc
def XeCmd.peer (c : XeCmd) : Bool := xDPR c.w1 != 0
def XeCmd.val (c : XeCmd) (i : Nat) : Nat := c.vals.getD i 0

/-- A memory by name: 0 scratchpad of a tile, 1 pool of a cluster, 2 an object of DRAM; from 3 on a peer's memory. -/
def memKey (kk oid : Nat) : Nat × Nat :=
  if oid = oidScr then (0, kk) else if oid = oidPool then (1, clusterOf kk) else (2, oid)

/-- A range of bytes that a command reads or writes. -/
structure XRange where
  mem : Nat × Nat
  lo : Nat
  n : Nat
  wr : Bool
deriving DecidableEq, Repr

/-- A peer's memory by name: the package and context `p` that the peer entry names, and the tile whose scratchpad it is, or the cluster whose pool, by
the columns `w` of the region there. Where they have not been told, which tiles share a pool is not known here, and the pools of one peer count as one
(DEDUCED, assumption 27). -/
def peerKey (p w w1 oid : Nat) : Nat × Nat :=
  (3 + (if oid = oidScr then 1 + xDTX w1 else if oid = oidPool ∧ w ≠ 0 then 1 + 48 * (xDTX w1 / w / 2) + xDTX w1 % w / 2 else 0) + 2 ^ 16 * p, oid)

/-- The columns of the region of a command's peer, as told. -/
def State.peerCols (s : State) (k w1 : Nat) : Nat := tget 0 (tget {} s.links (s.peerPort k w1)).pwid (s.peerCtx k w1)

/-- Bytes written at the destination and read at the source. -/
def XeCmd.dn (c : XeCmd) : Nat := if c.opc = 0x17 then 48 else c.len
def XeCmd.fn (c : XeCmd) : Nat := if c.opc = 0x18 then c.len + 32 else c.len

/-- The ranges of a command of tile k (R271), toward a peer `p` whose region has `w` columns: `xcg` and `xc2` cover all that their capabilities bound. -/
def XeCmd.ranges (p w : Nat) (c : XeCmd) (k : Nat) : List XRange :=
  let all := c.opc = 0x11 ∨ c.opc = 0x12
  let rng := fun (m : Nat × Nat) (cap : Cap) (o : Int) (n : Nat) (wr : Bool) =>
    if all then ⟨m, cap.lo, cap.hi - cap.lo, wr⟩ else (⟨m, o.toNat, n, wr⟩ : XRange)
  (match c.dobj with
    | some o => [rng (if c.peer then peerKey p w c.w1 o else memKey (c.dtile.getD k) o) c.dcap c.dofs c.dn true]
    | none => [])
  ++ (match c.fobj with
    | some o => [rng (memKey k o) c.fcap c.fofs c.fn false]
    | none => [])
  ++ if c.opc = 0x12 then [⟨(0, k), c.val 1, 4 * xLIMM c.w1, false⟩] else []

/-- The bytes of a DRAM range that the object's frames hold, by host address. -/
def State.xHost (s : State) (c : Nat) (r : XRange) : List (Nat × Nat) :=
  let n := (mkEnt (s.otWords c r.mem.2)).nfrm * frameB
  s.hostParts c r.mem.2 ⟨0, r.lo, min r.n (n - r.lo), []⟩

/-- Two ranges hold a byte in common, and one of them is written. -/
def State.xMeet (s : State) (c : Nat) (a b : XRange) : Bool :=
  (a.wr || b.wr) &&
    if a.mem = b.mem then rangesMeet a.lo a.n b.lo b.n
    else a.mem.1 == 2 && b.mem.1 == 2 && (s.xHost c a).any fun p => (s.xHost c b).any fun q => rangesMeet p.1 p.2 q.1 q.2

/-- The engines of tile k may start a command as far as the wires and the tile go (R210, R251, R276, R344): none starts under a raised wire, on a tile
that catches up neither. -/
def State.engineOk (s : State) (k : Nat) (late : Bool) : Bool :=
  let t := s.tile k
  let R := s.region t.rgn
  t.live && !t.trapped && !s.dom.frozen && R.state != 6
    && (!R.stall.up || (late && R.stall.late && !({ R.stall with late := false }).up))

/-- Put back a running command. -/
def State.setXe (s : State) (k : Nat) (c : XeCmd) : State :=
  let t := s.tile k
  s.setTile k { t with xrun := t.xrun.map fun x => if x.seq = c.seq then c else x }

/-- A trap of a command that has entered the queue ends the grid at word 0 (R286, Table 112). -/
def State.xeFail (s : State) (k : Nat) (c : XeCmd) (t : TrapInfo) : State :=
  let s := s.setTile k { s.tile k with xeDead := true }
  (s.tel (0x100 + 8 * t.cause)).endBy k 5 c.pc false t

/-! ### Pieces of a command (R275) -/

/-- A copy of n bytes cut where either side crosses a frame. -/
def cutBoth (d f n i : Nat) : List Piece :=
  (frameParts d n).flatMap fun x => (frameParts (f + (x.1 - d)) x.2).map fun y => ⟨some (d + (y.1 - f)), some y.1, y.2, i + (y.1 - f)⟩
def cutDst (d n i : Nat) : List Piece := (frameParts d n).map fun x => ⟨some x.1, none, x.2, i + (x.1 - d)⟩
def cutSrc (f n i : Nat) : List Piece := (frameParts f n).map fun x => ⟨none, some x.1, x.2, i + (x.1 - f)⟩

/-- The place of the first byte a command makes itself, after those it reads. -/
abbrev madeAt := 2 ^ 40

/-- The elements of `xcg`, up to the first whose index is poisoned or fails its check (R275). -/
def xcgPieces (s : State) (k : Nat) (c : XeCmd) : List Nat → List Piece × Option (Nat × Nat)
  | [] => ([], none)
  | j :: l =>
    let e := xcgE c.es
    let a := c.val 1 + 4 * j
    if s.ueIn (.scr k) a 4 ≠ [] then ([], some (cPOISADR, (Config.freeWord s.freeCtr).toNat % 2 ^ 22))
    else
      let x := sextN 32 (leVal (s.rd (.scr k) a 4))
      let sc := xcgScat c.es
      let cap := if sc then c.dcap else c.fcap
      let o := (if sc then c.dofs else c.fofs) + x
      match capCheck cap o e (if sc then rtW else rtR) 1 with
      | .error t => ([], some (t, wrapN 64 o))
      | .ok r =>
        let rest := xcgPieces s k c l
        ((if sc then cutBoth r.2 (c.fofs.toNat + j * e) e (j * e) else cutBoth (c.dofs.toNat + j * e) r.2 e (j * e)) ++ rest.1, rest.2)

/-- The pieces of a command, in order, and the trap its indexed side ends with. -/
def xPieces (s : State) (k : Nat) (c : XeCmd) : List Piece × Option (Nat × Nat) :=
  let d := c.dofs.toNat
  let f := c.fofs.toNat
  if c.opc = 0x10 then (cutBoth d f c.len 0, none)
  else if c.opc = 0x11 then
    let st := xc2Str (c.val 3)
    ((List.range (c.val 2)).flatMap fun (r : Nat) => cutBoth (c.dofs + r * st.2).toNat (c.fofs + r * st.1).toNat (c.val 1) (r * c.val 1), none)
  else if c.opc = 0x12 then xcgPieces s k c (List.range (xLIMM c.w1))
  else if c.opc = 0x13 then (cutSrc f c.len 0, none)
  else if c.opc = 0x17 then (cutSrc f c.len 0 ++ cutDst d 48 madeAt, none)
  else if c.opc = 0x18 then (cutSrc f (c.len + 32) 0 ++ cutDst d c.len madeAt, none)
  else if c.opc = 0x1A then (cutDst d c.len 0, none)
  else ([], none)

/-- An object's bytes as tile k's engines reach them: the memory and its ranges (offset, address, length), or the first offset whose
translation misses. `kk` is the tile whose scratchpad or pool the SRAM objects name. -/
def State.reach (s : State) (k kk oid off n : Nat) : Except Nat (Space × List (Nat × Nat × Nat)) :=
  if oid = oidScr then .ok (.scr kk, [(off, off, n)])
  else if oid = oidPool then .ok (.pool (clusterOf kk), [(off, off, n)])
  else match s.phys (dieOfTile k) (s.ctxNo k) oid off n with
    | .ok r => .ok (.dram, r)
    | .error x => .error x

/-- A link on the way of a reached range that carries no data. -/
def State.reachDown (s : State) (k : Nat) (r : Space × List (Nat × Nat × Nat)) : Option Nat :=
  match r.1 with
  | .dram => s.pathDown (dieOfTile k) r.2
  | .scr x => s.seamDown (dieOfTile k) (dieOfTile x)
  | .pool x => s.seamDown (dieOfTile k) (x % 48 / 16)

/-- Source and destination of a piece; a destination in a peer package is not reached from here. -/
def State.srcOf (s : State) (k : Nat) (c : XeCmd) (p : Piece) : Option (Except Nat (Space × List (Nat × Nat × Nat))) :=
  match p.f, c.fobj with
  | some f, some o => some (s.reach k k o f p.n)
  | _, _ => none
def State.dstOf (s : State) (k : Nat) (c : XeCmd) (p : Piece) : Option (Except Nat (Space × List (Nat × Nat × Nat))) :=
  match p.d, (if c.peer then none else c.dobj) with
  | some d, some o => some (s.reach k (c.dtile.getD k) o d p.n)
  | _, _ => none

/-! ### Reading (R274) -/

/-- The bytes of a piece, at a range of n bytes from address a, that lie in poisoned granules; the first byte is at offset `off` of the object. -/
def ueParts (gran off a n : Nat) (gs : List Nat) : List UePart :=
  gs.map fun g =>
    let lo := max a (g * gran)
    ⟨lo - a, min (a + n) ((g + 1) * gran) - lo, g, off + g * gran - a⟩

/-- Where the origins of tile k's XE lie. -/
def State.orgX (s : State) (k : Nat) (c : XeCmd) : OrgAt :=
  { tile := k, src := 4, pc := c.pc, oid := c.fobj.getD 0, what := 0, step := (s.tile k).step }

/-- The memory that a command of tile k reads. -/
def XeCmd.srcSpace (c : XeCmd) (k : Nat) : Space :=
  if c.fobj = some oidScr then .scr k else if c.fobj = some oidPool then .pool (clusterOf k) else .dram

/-- The reachable source ranges of pieces not yet read. -/
def State.xHits (s : State) (k : Nat) (c : XeCmd) : List (Piece × Space × List (Nat × Nat × Nat)) :=
  c.todo.filterMap fun p =>
    if c.buf.any (·.i == p.i) then none
    else match s.srcOf k c p with
      | some (.ok r) => some (p, r.1, r.2)
      | _ => none

/-- The pieces read, by place in the command. -/
def insBuf (b : ReadBuf) : List ReadBuf → List ReadBuf
  | [] => [b]
  | x :: l => if x.i ≤ b.i then x :: insBuf b l else b :: x :: l

/-- Read every source piece that can be reached. -/
def State.xRead (s : State) (k : Nat) (c : XeCmd) : XeCmd :=
  { c with buf := (s.xHits k c).foldl (fun l x =>
    let a := (x.2.2.headD (0, 0, 0)).2.1
    insBuf ⟨x.1.i, x.2.2.flatMap fun r => s.rd x.2.1 r.2.1 r.2.2,
      ueParts x.2.1.gran (x.1.f.getD 0) a x.1.n (s.ueIn x.2.1 a x.1.n),
      if c.opc = 0x10 ∧ bitN c.es 1 = true then (List.range (x.1.n / 16)).map fun j => s.tagAt x.2.1 (a + 16 * j) else []⟩ l) c.buf }

/-- The bytes a command has read, in order. -/
def XeCmd.data (c : XeCmd) : List Byte := c.buf.flatMap ReadBuf.bytes

/-- The granules that await their number, by offset and granule. -/
def XeCmd.unnumbered (c : XeCmd) : List (Nat × Nat) :=
  ((c.buf.flatMap ReadBuf.ues).filter fun u => !c.ue.any fun y => y.1 == u.gran).foldl (fun l u => insKey (u.off, u.gran) l) []

/-- The lowest source offset that has still to be read. -/
def XeCmd.unread (c : XeCmd) : Option Nat :=
  ((c.todo.filter fun p => !c.buf.any (·.i == p.i)).filterMap Piece.f).foldl (fun m f => some (min f (m.getD f))) none

/-- Every uncorrectable granule of a command has its number; an `xopn` has them when the hub has handled it (R283). -/
def XeCmd.numbered (c : XeCmd) : Bool := c.unread.isNone && (c.unnumbered.isEmpty || (c.opc == 0x18 && c.finished))

/-- The granules that may be numbered now take their ids in ascending source address (R45, R274): after those of every earlier command of the
engine, and none above source bytes still to be read, so that no id depends on timing (DEDUCED, assumption 49). -/
def State.xNumber (s : State) (k : Nat) (c : XeCmd) : State × XeCmd :=
  if c.opc = 0x18 ∨ ((s.tile k).xrun.any fun x => x.seq < c.seq && !x.numbered) = true then (s, c)
  else
    let u := State.mkUE (c.srcSpace k) (s.orgX k c) (c.unnumbered.filter fun x => c.unread.all fun m => x.1 < m) s
    (u.1, { c with ue := u.2.foldl (fun t x => tset t x.1 x.2) c.ue })

/-- The bytes that a piece read are fit to land: their poison has its id. -/
def XeCmd.fit (c : XeCmd) (b : ReadBuf) : Bool := b.ues.all fun u => c.ue.any fun y => y.1 == u.gran

/-- Keep the smaller id of a word. -/
def addMark (l : List (Nat × Nat)) (w id : Nat) : List (Nat × Nat) :=
  match l.find? (·.1 == w) with
  | some x => if id < x.2 then l.map fun y => if y.1 = w then (w, id) else y else l
  | none => l ++ [(w, id)]

/-- The aligned words that take a byte from the poisoned parts of bytes from `base` on, with their ids. -/
def addMarks (ids : Tab Nat) (base : Nat) (us : List UePart) (l : List (Nat × Nat)) : List (Nat × Nat) :=
  us.foldl (fun l u =>
    let lo := (base + u.at_) / 4
    (List.range ((base + u.at_ + u.n - 1) / 4 - lo + 1)).foldl (fun l j => addMark l (lo + j) (tget anonId ids u.gran)) l) l

/-- The words of a command's source, counted from its first byte, that take a byte from a poisoned granule, with their ids (R274). -/
def XeCmd.marks (c : XeCmd) : List (Nat × Nat) := c.buf.foldl (fun l b => addMarks c.ue b.i b.ues l) []

/-- Bytes with the marked words replaced by poison. -/
def patch (base : Nat) (marks : List (Nat × Nat)) (bs : List Byte) : List Byte :=
  if marks = [] then bs
  else (bs.zip (List.range bs.length)).map fun x =>
    match marks.find? fun m => m.1 == (base + x.2) / 4 with
    | some m => (leBytes 4 (poison32 m.2)).getD ((base + x.2) % 4) 0
    | none => x.1

/-- The leaf digest of R282. -/
def leafHash (idx : Nat) (bs : List Byte) : List Byte := sha384 ([0] ++ leBytes 8 idx ++ bs)

/-- Bytes a command makes itself: the pattern of `xfil`, the digest of `xhsh`, the zeros of `xopn`. -/
def madeBytes (c : XeCmd) (p : Piece) : List Byte :=
  if c.opc = 0x1A then (List.range p.n).map fun j => BitVec.ofNat 8 (bitsN (c.val 0) (8 * ((p.i + j) % 8)) 8)
  else if c.opc = 0x17 then
    ((leafHash (c.fofs.toNat / 65536) (patch 0 c.marks c.data)).drop (p.i - madeAt)).take p.n
  else List.replicate p.n 0

/-! ### Landing (R273, R274) -/

/-- Bytes written over ranges. -/
def State.landAt (s : State) (sp : Space) : List Byte → List (Nat × Nat × Nat) → State
  | _, [] => s
  | bs, r :: l => State.landAt (s.wr sp r.2.1 (bs.take r.2.2)) sp (bs.drop r.2.2) l

/-- What a piece lands at offset d: its bytes, and then every aligned word it touches that holds a byte from a poisoned granule (R274). -/
def XeCmd.landing (c : XeCmd) (d n : Nat) (bs : List Byte) (ues : List UePart) : XeCmd × List (Nat × List Byte) :=
  let new := ues.flatMap fun u => (List.range u.n).map fun j => (d + u.at_ + j, tget anonId c.ue u.gran)
  let po := (c.pois.filter fun x => x.1 < d || d + n ≤ x.1) ++ new
  let marks := (po.filter fun x => d / 4 ≤ x.1 / 4 && x.1 / 4 ≤ (d + n - 1) / 4).foldl (fun l x => addMark l (x.1 / 4) x.2) []
  ({ c with pois := po }, (d, bs) :: marks.map fun m => (4 * m.1, leBytes 4 (poison32 m.2)))

/-- What a piece lands: the bytes it read, or those the command makes. -/
def XeCmd.pieceLanding (c : XeCmd) (p : Piece) : XeCmd × List (Nat × List Byte) :=
  match p.d with
  | none => (c, [])
  | some d =>
    match (if p.f.isSome then c.buf.find? (·.i == p.i) else none) with
    | some b => c.landing d p.n b.bytes b.ues
    | none => c.landing d p.n (madeBytes c p) []

/-- The tags of granules from address a on (R273). -/
def State.setTags (s : State) (sp : Space) (a : Nat) (tags : List Bool) : State :=
  (tags.zip (List.range tags.length)).foldl (fun s x => s.setTag sp (a + 16 * x.2) x.1) s

/-- A piece lands at the ranges its destination reaches, with the tags of `xcp.t`; toward a peer it is noted to be sent with them. The poison words of an
uncorrectable granule land after its tag, as writes of their own that clear it (R273, R274; DESIGN CHOICE, assumption 67). -/
def State.landPiece (s : State) (k : Nat) (c : XeCmd) (p : Piece) (r : Option (Space × List (Nat × Nat × Nat))) : State × XeCmd :=
  let l := c.pieceLanding p
  let c := { l.1 with prog := c.prog + p.n }
  let tags := ((c.buf.find? fun b => p.f.isSome && b.i == p.i).map ReadBuf.tags).getD []
  match r, l.2 with
  | some r, w :: ws =>
    let s := (s.landAt r.1 w.2 r.2).setTags r.1 (r.2.headD (0, 0, 0)).2.1 tags
    (ws.foldl (fun s m =>
      match s.reach k (c.dtile.getD k) (c.dobj.getD 0) m.1 4 with
      | .ok q => s.landAt q.1 m.2 q.2
      | .error _ => s) s, c)
  | _, w :: ws => (s, if c.peer then { c with out := c.out ++ (w.1, w.2, tags) :: ws.map fun m => (m.1, m.2, []) } else c)
  | _, [] => (s, c)

/-- Where landing stops: nowhere, at a translation that misses (of a write or not, at an offset), or at bytes whose poison has no id yet. -/
inductive XStop where
  | done
  | miss (wr : Bool) (off : Nat)
  | hold
deriving DecidableEq, Repr

/-- The source of a piece stops its landing. -/
def State.srcStop (s : State) (k : Nat) (c : XeCmd) (p : Piece) : XStop :=
  match s.srcOf k c p, c.buf.find? (·.i == p.i) with
  | none, _ => .done
  | some (.error off), none => .miss false off
  | some (.ok _), none => .hold
  | some _, some b => if c.opc = 0x18 ∨ c.fit b then .done else match c.unread with
      | some off => .miss false off
      | none => .hold

/-- Land pieces in order up to the first that may not land: what is left, and why. -/
def State.xLand (k : Nat) : List Piece → State → XeCmd → State × XeCmd × XStop
  | [], s, c => (s, { c with todo := [] }, .done)
  | p :: l, s, c =>
    match s.srcStop k c p with
    | .done =>
      match s.dstOf k c p with
      | some (.error o) => (s, { c with todo := p :: l }, .miss true o)
      | some (.ok r) => let x := s.landPiece k c p (some r); State.xLand k l x.1 x.2
      | none => let x := s.landPiece k c p none; State.xLand k l x.1 x.2
    | z => (s, { c with todo := p :: l }, z)

/-- The elements of an accumulate (R276 to R278). -/
def xElems (c : XeCmd) : List (Nat × BitVec 32 × Option Nat) :=
  if c.opc = 0x13 then
    let data := c.data
    let marks := c.marks
    (List.range (c.len / 4)).map fun j =>
      (c.dofs.toNat + 4 * j, BitVec.ofNat 32 (leVal ((data.drop (4 * j)).take 4)), (marks.find? fun m => m.1 == j).map Prod.snd)
  else [(c.dofs.toNat, BitVec.ofNat 32 (c.val 0), none)]

/-- Post a candidate of the result word: the highest key stays (R284). -/
def State.postSel (s : State) (k seq v : Nat) : State :=
  let t := s.tile k
  let R := s.region t.rgn
  let new := (t.tix, seq, BitVec.ofNat 32 v)
  s.setRegion t.rgn { R with rword := match R.rword with
    | some o => if o.1 < t.tix ∨ (o.1 = t.tix ∧ o.2.1 < seq) then some new else some o
    | none => some new }

/-- What a command toward a peer sends: where it goes and the operation; the landings in order, or the elements of an accumulate. -/
def State.sendPeer (s : State) (k : Nat) (c : XeCmd) : State :=
  s.send "peer" ([k, c.seq, xDPR c.w1, if xDR c.w1 then 1 + xDTX c.w1 else 0, c.opc, c.es, c.due, c.dobj.getD 0, wrapN 64 c.dofs, c.len] ++ c.vals
    ++ (c.out.flatMap fun w => w.1 :: w.2.1.length :: w.2.1.map BitVec.toNat ++ w.2.2.length :: w.2.2.map Bool.toNat)
    ++ (if c.isAw then (xElems c).flatMap fun e => [e.1, e.2.1.toNat, e.2.2.elim 0 (· + 1)] else []))

/-- Every piece has been done: what remains is the command's own end. The elements of an `xcg` before one that fails are written (R275). What goes to a
peer needs a way that carries data (17_link.md R366). -/
def State.xDone (s : State) (k : Nat) (c : XeCmd) : State :=
  match if c.peer then s.peerDown k c.w1 else none with
  | some i => (s.setXe k c).xeFail k c { cause := cLINKLOST, val := i }
  | none =>
  match c.bad with
  | some t => ((if c.peer then s.sendPeer k c else s).setXe k c).xeFail k c { cause := t.1, val := t.2 }
  | none =>
    let d := s.delay
    let c := { c with left := d.1 }
    if c.peer then ((d.2.sendPeer k c).setXe k { c with park := 3, elems := if c.isAw then xElems c else [] })
    else if c.opc = 0x18 then d.2.setXe k { c with park := 4 }
    else if c.opc = 0x19 then (s.postSel k c.seq (c.val 0)).setXe k { c with finished := true, left := 0 }
    else if c.isAw then d.2.setXe k { c with finished := true, elems := xElems c }
    else d.2.setXe k { c with finished := true, res := (0, if c.ue = [] then 0 else 4) }

/-- A side of a piece that is reached through a link that carries no data (R364). -/
def State.sideDown (s : State) (k : Nat) (x : Option (Except Nat (Space × List (Nat × Nat × Nat)))) : Option Nat :=
  match x with
  | some (.ok q) => s.reachDown k q
  | _ => none

/-- A running command works as far as it can (R273, R286): it reads, lands, and parks at the first byte whose translation misses. -/
def State.xeWork (s : State) (k : Nat) (c : XeCmd) : State :=
  let t := s.tile k
  if c.park ≠ 0 ∨ c.finished = true ∨ t.storesBefore c.ord = true then s
  else
    match (c.todo.flatMap fun p => [s.srcOf k c p, s.dstOf k c p]).findSome? (s.sideDown k) with
    | some i => s.xeFail k c { cause := cLINKLOST, val := i }
    | none =>
      let r := s.xNumber k (s.xRead k c)
      let l := State.xLand k r.2.todo r.1 r.2
      match l.2.2 with
      | .miss wr off =>
        let s := l.1.setXe k l.2.1
        (s.startWalk k 3 c.seq wr (s.ctxNo k) ((if wr then c.dobj else c.fobj).getD 0) off).setPark k 3 c.seq 1
      | .hold => l.1.setXe k l.2.1
      | .done => l.1.xDone k l.2.1

/-- The commands that run in the count of R271. While a close waits for late arrivals, an accumulate whose own arrivals are in waits for that close alone
and counts no more: else the full running set that R276 names as a cause of lateness could never end (DEDUCED, assumption 55). -/
def State.xeCount (s : State) (k : Nat) : Nat :=
  let late := (s.rgnOf k).stall.late
  ((s.tile k).xrun.filter fun r => !(late && r.isAw && r.ain)).length

/-- No running command conflicts with one, and fewer than four run (R271). -/
def State.xeClear (s : State) (k : Nat) (c : XeCmd) : Bool :=
  let rs := fun (x : XeCmd) => x.ranges (s.peerId k x.w1) (s.peerCols k x.w1) k
  s.xeCount k < 4 && !(s.tile k).xrun.any fun r => (rs c).any fun a => (rs r).any fun b => s.xMeet (s.ctxNo k) a b

/-- The result FIFO has room for its entry. -/
def Tile.xeRoom (t : Tile) (c : XeCmd) : Bool := !c.pushes || t.xfifo.length + (t.xrun.filter XeCmd.pushes).length < 16

/-- The oldest command that has not started may start now (R271), its wait apart. -/
def State.xeMayStart (s : State) (k : Nat) (c : XeCmd) : Bool :=
  let t := s.tile k
  !t.xeDead && !t.xeStarted && s.engineOk k true && s.xeClear k c && t.xeRoom c

/-- The wait of an engine command (R223, R271): the semaphore and the threshold, from word 0. -/
def engWait (w0 : Nat) : Nat × Nat := (bitsN w0 40 8, bitsN w0 32 8)
/-- Its signal: semaphore and increment. -/
def engSig (w0 : Nat) : Nat × Nat := (bitsN w0 24 8, bitsN w0 16 8)

/-- The wait is satisfied in this cycle: the state after it is consumed. The engine's commands that wait acquire the stores that a `sems` of the
S queue had released (R196, R226). -/
def State.takeWait (s : State) (k w0 : Nat) (xe : Bool) : Option State :=
  let w := engWait w0
  if w.2 = 0 then some s
  else match s.semPhys k w.1 with
    | none => none
    | some p =>
      let t := s.tile k
      let o := tget 0 t.semOrd p
      if t.count p < w.2 then none
      else
        let t := { t.setCount p (t.count p - w.2) with semTaken := tmod 0 t.semTaken p (· + w.2) }
        some (s.setTile k (if xe then { t with xeq := t.xeq.map fun (c : XeCmd) => { c with ord := max c.ord o } }
          else { t with meq := t.meq.map fun (c : MeCmd) => { c with ord := max c.ord o } }))

/-- The signal of a completed engine command on its own tile. -/
def State.engSignal (s : State) (k agent pc w0 : Nat) (fail : State → TrapInfo → State) : State :=
  let g := engSig w0
  if g.2 = 0 then s
  else match s.semPhys k g.1 with
    | none => fail (s.addGuilt (s.ctxNo k) 16) { cause := cCAPRGT }
    | some p => s.setTile k ((s.tile k).addOp ⟨3, agent, p, g.2, g.1, pc, w0, agent, k⟩)

/-- The signal of a copy command goes to the destination tile: an `xsig`, or `RSIG`, which `xopn` does not have (Table 109, R272). -/
def XeCmd.remote (c : XeCmd) : Bool := c.opc == 0x16 || (c.opc != 0x18 && bitN c.es 0)

/-- The signal of a copy command (R272). -/
def State.xSignal (s : State) (k : Nat) (c : XeCmd) : State :=
  let g := engSig c.w0
  if g.2 = 0 then s
  else if !c.remote then s.engSignal k 5 c.pc c.w0 fun s t => s.xeFail k c t
  else
    let r := s.delay
    { r.2 with
      incs := r.2.incs ++ [⟨r.2.incid, c.dtile.getD k, g.1, g.2, k, c.seq, c.pc, c.w0, r.1,
        if c.peer then some (s.peerPort k c.w1, c.w1, c.dobj.getD c.dcap.oid) else none, false⟩]
      incid := r.2.incid + 1 }

/-- The oldest waiting command starts: an `xsig` completes at once (R281), any other begins to run. -/
def State.xeStart (s : State) (k : Nat) : State :=
  let t := s.tile k
  match t.xeq with
  | [] => s
  | c :: l =>
    if c.opc = 0x16 then (s.setTile k { t with xeq := l, xeStarted := true }).xSignal k c
    else
      let p := xPieces s k c
      let c := { c with started := true, todo := p.1, bad := p.2 }
      (s.setTile k { t with xeq := l, xrun := t.xrun ++ [c], xeStarted := true }).xeWork k c

/-- `XE_COMMAND_START` (R271): running commands go on where they were held, and the oldest waiting one starts when it may. A frozen domain runs
none (R371). -/
def execXeCommandStart (k : Nat) (s : State) : Host.Outcome State Fault Refusal :=
  if s.dom.frozen then .next s
  else
    let s := (s.tile k).xrun.foldl (fun s c => s.xeWork k c) s
    .next (match (s.tile k).xeq with
      | [] => s
      | c :: _ =>
        if !s.xeMayStart k c then s
        else match s.takeWait k c.w0 true with
          | none => s
          | some s => s.xeStart k)

/-! ### Completing (R272, R280, R285) -/

/-- The bytes a command credits (R280). -/
def State.xCredit (s : State) (k : Nat) (c : XeCmd) : State :=
  if !xBC c.w1 then s
  else match s.barAt (s.ctxNo k) (xBH c.w1) with
    | none => s
    | some o =>
      let r := (s.tile k).rgn
      let R := s.region r
      s.setRegion r { R with barq := R.barq ++ [⟨R.rstep, o.1, o.2, true, c.len⟩] }

/-- `XE_COMMAND_COMPLETE` (R272): landed, applied, where a peer's port applies it as that port has told, and its result entry next in sequence order. A
signal on the own tile is made in that cycle, after the landings there of every earlier command (R196). -/
def execXeCommandComplete (k id : Nat) (s : State) : Host.Outcome State Fault Refusal :=
  let t := s.tile k
  .next (match t.xrun.find? (·.seq == id) with
    | none => s
    | some c =>
      if !c.finished || c.park != 0 || (c.isAw && (!c.applied || (c.peer && !c.told))) || (c.pushes && t.xrun.any fun x => x.pushes && x.seq < c.seq)
        || (!c.remote && (engSig c.w0).2 != 0 && s.landsBefore k c.seq k none) then s
      else
        let e := BitVec.ofNat 64 (c.res.1 % 2 ^ 32 + c.res.2 % 16 * 2 ^ 32 + c.seq % 2 ^ 24 * 2 ^ 40)
        let s := s.setTile k { t with
          xrun := t.xrun.filter (·.seq != id), xfifo := if c.pushes then t.xfifo ++ [e] else t.xfifo }
        (s.xCredit k c).xSignal k c)

/-! ### `xopn` at the hub (R283) -/

/-- A key slot's key as bytes. -/
def KeySlot.bytes (x : KeySlot) : List Byte := leBytes 32 x.key.toNat

/-- The status of an `xopn`, the plaintext when it verifies, and whether a slot of another context was named. The fields that are judged before the
uncorrectable granules are those of the bits as stored, where they lie in such a granule themselves (DESIGN CHOICE, assumption 67). -/
def opnResult (x : KeySlot) (ctx n : Nat) (src : List Byte) (ue : Bool) : Nat × Option (List Byte) × Bool :=
  let c := leVal ((src.drop 4).take 8)
  if !x.valid then (3, none, false)
  else if x.owner ≠ ctx then (3, none, true)
  else if leVal ((src.drop 12).take 4) ≠ n then (1, none, false)
  else if c ≤ x.last.toNat then (2, none, false)
  else if ue then (4, none, false)
  else
    let ct := (src.drop 16).take n
    let r := gcm x.bytes (src.take 12) (src.take 16) ct ct
    if r.2 = (src.drop (16 + n)).take 16 then (0, some r.1, false) else (1, none, false)

/-- `XOPN_HEADER_AT_HUB` (R283): the hub handles the command. -/
def execXopnHeaderAtHub (k id : Nat) (s : State) : Host.Outcome State Fault Refusal :=
  .next (match (s.tile k).xrun.find? (·.seq == id) with
    | none => s
    | some c =>
      if c.opc ≠ 0x18 ∨ c.park ≠ 4 then s
      else match s.reach k k (c.dobj.getD 0) c.dofs.toNat c.len with
        | .error off =>
          (s.startWalk k 3 id true (s.ctxNo k) (c.dobj.getD 0) off).setPark k 3 id 1
        | .ok r =>
          let n := c.es % 256
          let x := tget {} s.hub.keys n
          let res := opnResult x (s.ctxNo k) c.len c.data (c.unnumbered != [])
          let s := if res.2.2 then s.addGuilt (s.ctxNo k) 16 else s
          let s := if res.1 = 4 then (State.mkUE (c.srcSpace k) (s.orgX k c) c.unnumbered s).1 else s
          let s := match res.2.1 with
            | some p =>
              let s := s.landAt r.1 p r.2
              let last := BitVec.ofNat 64 (leVal ((c.data.drop 4).take 8))
              { s with hub := { s.hub with keys := tset s.hub.keys n { x with last := last } } }
            | none => s
          s.setXe k { c with park := 0, finished := true, res := (0, res.1) })

/-! ### Accumulates (R276 to R279, R197) -/

/-- The arrivals of a command at their addresses. -/
def xArrivals (s : State) (k : Nat) (c : XeCmd) (r : Space × List (Nat × Nat × Nat)) : List Arrival :=
  let t := s.tile k
  let su := match r.1 with
    | .scr x => (0, x)
    | .pool x => (1, x)
    | .dram => (2, 0)
  let at_ := fun (o : Nat) => match r.2.find? fun x => x.1 ≤ o && o < x.1 + x.2.2 with
    | some x => x.2.1 + (o - x.1)
    | none => 0
  (c.elems.zip (List.range c.elems.length)).map fun e =>
    { rgn := t.rgn, due := c.due, lseq := (s.region t.rgn).launch.lseq, tix := t.tix, seq := c.seq, elem := e.2, tile := k
      space := su.1, unit := su.2, addr := at_ e.1.1, op := bitsN c.es 1 3, ty := bitsN c.es 4 2, rm := bitsN c.es 6 3
      v := if c.opc = 0x15 then BitVec.ofNat 32 (c.val 1) else e.1.2.1, vp := e.1.2.2
      exp := if c.opc = 0x15 then some e.1.2.1 else none, pc := c.pc, w0 := c.w0
      via := match r.1 with
        | .dram => s.viaOf (dieOfTile k) (s.ctxNo k) (c.dobj.getD 0) (e.1.1 / frameB)
        | _ => none }

/-- `ACCUMULATE_ARRIVAL` (R276): the arrivals of a command reach their port, where they are translated and wait for the close. -/
def execAccumulateArrival (k id : Nat) (s : State) : Host.Outcome State Fault Refusal :=
  .next (match (s.tile k).xrun.find? (·.seq == id) with
    | none => s
    | some c =>
      if !c.isAw || !c.finished || c.ain || c.park != 0 || c.peer then s
      else match s.reach k (c.dtile.getD k) (c.dobj.getD 0) c.dofs.toNat c.len with
        | .error off => (s.startWalk k 3 id true (s.ctxNo k) (c.dobj.getD 0) off).setPark k 3 id 1
        | .ok r =>
          match s.reachDown k r with
          | some i => s.xeFail k c { cause := cLINKLOST, val := i }
          | none => { s with arrivals := s.arrivals ++ xArrivals s k c r }.setXe k { c with ain := true })

/-- The key of R197, as one order. -/
def Arrival.le (a b : Arrival) : Bool :=
  let lex := fun (x y : List Nat) => ((x.zip y).find? fun p => p.1 != p.2).all fun p => p.1 < p.2
  lex [a.lseq, a.tix, a.seq, a.elem] [b.lseq, b.tix, b.seq, b.elem]

def insArr (a : Arrival) : List Arrival → List Arrival
  | [] => [a]
  | b :: l => if b.le a then b :: insArr a l else a :: b :: l

/-- Where an arrival goes. -/
def Arrival.at (a : Arrival) : Space := if a.space = 0 then .scr a.unit else if a.space = 1 then .pool a.unit else .dram

/-- An integer operand by signedness. -/
def arrInt (ty : Nat) (x : BitVec 32) : Int := if ty = 1 then x.toInt else x.toNat

/-- What an f32 element consumes: the old value and the operand. -/
def arrSrcs (a : Arrival) (o : BitVec 32) : FV × FV :=
  (decodeF fFP32 o.toNat, match a.vp with
    | some id => .poison id
    | none => decodeF fFP32 a.v.toNat)

/-- What Table 111 writes on the old value: an `xcas` that finds another value writes nothing (R278). -/
def arrOp (s : State) (u : Nat) (a : Arrival) (o : BitVec 32) : State × Option (BitVec 32) :=
  match a.exp with
  | some e => (s, if o = e then some a.v else none)
  | none =>
    if a.ty = 0 then
      let x := (arrSrcs a o).1
      let y := (arrSrcs a o).2
      let g : OrgAt := { tile := a.tile, src := 4, pc := a.pc, oid := 0, what := a.w0, step := u }
      let md : Mode := ⟨a.rm, 0⟩
      let r := if a.op = 0 then arith s g fFP32 md [x, y] (fAdd md x y)
        else if a.op = 1 then arithBits s g [x, y] (if fLess y x then a.v else o).toNat
        else arithBits s g [x, y] (if fLess x y then a.v else o).toNat
      (r.1, some (BitVec.ofNat 32 (match r.2 with
        | .val b => b
        | .pois id => poison32 id)))
    else match a.vp with
      | some id => (s, some (BitVec.ofNat 32 (id % 2 ^ 22)))
      | none =>
        (s, some <| if a.op = 0 then o + a.v
          else if a.op = 1 then (if arrInt a.ty a.v < arrInt a.ty o then a.v else o)
          else if a.op = 2 then (if arrInt a.ty o < arrInt a.ty a.v then a.v else o)
          else if a.op = 3 then o &&& a.v
          else if a.op = 4 then o ||| a.v
          else if a.op = 5 then o ^^^ a.v
          else a.v)

/-- Kinds of the `n` origins that an element has made: of its sources in order, else of the result (R47, R277). -/
def arrKinds (a : Arrival) (o : BitVec 32) (n : Nat) : List Nat :=
  if n = 0 then []
  else match [(arrSrcs a o).1, (arrSrcs a o).2].filterMap fun
      | .quiet => some okFOREIGN
      | .signalling => some okSNAN
      | _ => none with
    | [] => [okINV]
    | l => l

/-- The operation of a peer's arrival. An origin it makes is the source tile's of the peer, which logs it (R277): `m` is the number it takes within that
tile's XE, and the peer is told of it. The operation is done as if for a tile 1728 of that index, of which nothing stays but the number that follows. -/
def arrPeer (s : State) (u m : Nat) (a : Arrival) (o : BitVec 32) : State × Option (BitVec 32) × Nat :=
  let t : Tile := { tix := a.tix, psnc := [(4, m)] }
  let r := arrOp (s.setTile 1728 t) u { a with tile := 1728 } o
  let n := (r.1.region 0).origins - (s.region 0).origins
  ((arrKinds a o n).foldl (fun s kind => s.send "peer-origin" [a.port.getD 0, a.lseq, a.tix, a.seq, kind]) s, r.2, tget 0 (r.1.tile 1728).psnc 4)

/-- What an arrival finds, and what it leaves. One that was translated before its frame was bound leaves nothing there (13_kernel.md R297; DEDUCED,
assumption 61). -/
def State.oldOf (s : State) (a : Arrival) : BitVec 32 := BitVec.ofNat 32 (leVal (s.rd a.at a.addr 4))
def State.leave (s : State) (a : Arrival) (v : Option (BitVec 32)) : State :=
  match v with
  | some v => if a.space = 2 ∧ s.inBound a.addr 4 = true then s else s.wr a.at a.addr (leBytes 4 v.toNat)
  | none => s

/-- The origins that a peer's port has made for a command of tile k are the tile's, and are numbered and logged (R277). -/
def State.numberPeer (s : State) (k seq : Nat) : State :=
  match (s.tile k).xrun.find? fun c => c.seq == seq with
  | none => s
  | some c =>
    c.porg.foldl (fun s kind => (s.newOrigin { tile := k, src := 4, pc := c.pc, oid := 0, what := c.w0, step := c.due } kind).1) (s.setXe k { c with porg := [] })

/-- One arrival of this package applied at the close of step u: the old value goes to a returning command (R278). One at a peer (space 3) is applied
there: the peer is told which number the next origin of the command takes, and those that it has told are numbered here, in their turn (R277). -/
def State.applyArr (u : Nat) (s : State) (a : Arrival) : State :=
  if a.space = 3 then
    let s := s.numberPeer a.tile a.seq
    s.send "peer-close" [a.port.getD 0, a.lseq, u, a.tix, a.seq, tget 0 (s.tile a.tile).psnc 4]
  else
    let o := s.oldOf a
    let r := arrOp s u a o
    let s := r.1.leave a r.2
    let t := s.tile a.tile
    s.setTile a.tile { t with xrun := t.xrun.map fun c => if c.seq = a.seq then { c with res := (o.toNat, 0) } else c }

/-- One arrival of a peer applied at the close of its step u, the old value going back. `nums` holds the number that a command's next origin takes, by
tile index and engine number; where it has not been told it is a free value (assumption 7). -/
def State.applyPeer (u : Nat) (x : State × List (Nat × Nat × Nat)) (a : Arrival) : State × List (Nat × Nat × Nat) :=
  let s := x.1
  let o := s.oldOf a
  let m := match x.2.find? fun y => y.1 == a.tix && y.2.1 == a.seq with
    | some y => y.2.2
    | none => (Config.freeWord s.freeCtr).toNat % 128
  let r := arrPeer { s with freeCtr := s.freeCtr + 1 } u m a o
  ((r.1.leave a r.2.1).send "peer-old" [a.port.getD 0, a.lseq, a.tix, a.seq, o.toNat],
    (a.tix, a.seq, r.2.2) :: x.2.filter fun y => !(y.1 == a.tix && y.2.1 == a.seq))

/-- The accumulates of region r whose due step is at most u, with their tiles. -/
def State.dueAw (s : State) (r u : Nat) : List (Nat × XeCmd) :=
  (s.tilesOf r).flatMap fun k => (((s.tile k).xrun ++ (s.tile k).xeq).filter fun c => c.isAw && c.due ≤ u && !c.applied).map fun c => (k, c)

/-- Some arrival due by step u is not in (R276). -/
def State.lateAw (s : State) (r u : Nat) : Bool := (s.dueAw r u).any fun x => !x.2.ain

/-- Arrivals in the order of their keys (R197). -/
def inOrder (l : List Arrival) : List Arrival := l.foldl (fun l a => insArr a l) []

/-- The region of a peer that runs launch `lseq` closes its step u: the arrivals of it that came through the port are applied in key order (R197, R276). -/
def State.peerClose (s : State) (port lseq u : Nat) (nums : List (Nat × Nat × Nat)) : State :=
  let sel := fun (a : Arrival) => a.port == some port && a.lseq == lseq && a.due ≤ u
  ((inOrder (s.arrivals.filter sel)).foldl (State.applyPeer u) ({ s with arrivals := s.arrivals.filter fun a => !sel a }, nums)).1

/-- The port of a peer has made an origin in applying arrivals of a command of tile k: it is numbered at the close of its due step, in the order of the
keys, or at once when that has been (R277). -/
def State.peerOrigin (s : State) (k seq kind : Nat) : State :=
  match (s.tile k).xrun.find? fun c => c.seq == seq && c.peer && c.isAw with
  | none => s
  | some c =>
    let s := s.setXe k { c with porg := c.porg ++ [kind] }
    if c.applied then s.numberPeer k seq else s

/-- The port of a peer has applied the arrivals of a command of tile k; the last found the value v (R278). -/
def State.peerOld (s : State) (k seq v : Nat) : State :=
  match (s.tile k).xrun.find? fun c => c.seq == seq && c.peer && c.isAw with
  | none => s
  | some c => s.setXe k { c with told := true, res := (v % 2 ^ 32, 0) }

/-- The commands of region r toward peers whose arrivals their ports apply at this close, each in place of its arrivals. -/
def State.peerArrs (s : State) (r u : Nat) : List Arrival :=
  ((s.dueAw r u).filter fun x => x.2.peer && x.2.ain).map fun x =>
    { rgn := r, due := x.2.due, lseq := (s.region r).launch.lseq, tix := (s.tile x.1).tix, seq := x.2.seq, elem := 0, tile := x.1, space := 3, unit := 0
      addr := 0, op := 0, ty := 0, rm := 0, v := 0, vp := none, exp := none, pc := x.2.pc, w0 := x.2.w0, port := some (s.peerPort x.1 x.2.w1) }

/-- The arrivals of region r due by step u are applied in key order; their commands may complete (R197). -/
def State.applyDue (s : State) (r u : Nat) : State :=
  let sel := fun (a : Arrival) => a.port.isNone && a.rgn == r && a.due ≤ u
  let s := (inOrder (s.arrivals.filter sel ++ s.peerArrs r u)).foldl (State.applyArr u) { s with arrivals := s.arrivals.filter fun a => !sel a }
  (s.tilesOf r).foldl (fun s k =>
    let t := s.tile k
    s.setTile k { t with xrun := t.xrun.map fun (c : XeCmd) =>
      if c.isAw && c.due ≤ u && c.ain && !c.applied then { c with applied := true } else c }) s

/-- `ACCUMULATE_CLOSE_TIMEOUT` (R276): a close held 4,096 domain steps for a command that has not started ends the grid with WAITCYC. -/
def execAccumulateCloseTimeout (rg : Nat) (s : State) : Host.Outcome State Fault Refusal :=
  let R := s.region rg
  .next (match (s.dueAw rg R.rstep).find? fun x => !x.2.started && x.2.late.any fun d => d + 4096 ≤ s.dom.step with
    | none => s
    | some x =>
      let p := (s.semPhys x.1 (engWait x.2.w0).1).getD 0
      let t := s.tile x.1
      s.xeFail x.1 x.2 { cause := cWAITCYC, words := waitRecord true false t.step [waitIdent 2 5 t.tix p] })

/-! ### Peers (R270, R286, 17_link.md R373) -/

/-- The runs of frames of a peer's object that a command touches: one for each aligned group of 32 (R373). The frames they map to are the peer's own. -/
def XeCmd.runs (c : XeCmd) (pctx : Nat) : List Xlat :=
  match c.dobj with
  | none => []
  | some o =>
    if o = oidScr ∨ o = oidPool then []
    else
      let fs := ((if c.isAw then [(c.dofs.toNat, c.len)] else c.out.map fun w => (w.1, w.2.1.length)).flatMap fun w =>
        (frameParts w.1 w.2).map fun x => x.1 / frameB).eraseDups
      (fs.map (· / 32)).eraseDups.map fun g =>
        let l := fs.filter fun f => f / 32 == g
        let lo := l.foldl min (32 * g + 31)
        ⟨pctx, o, lo, l.foldl max 0 + 1 - lo, 0, 0, 0⟩

/-- A run enters a cache of 256 entries, the oldest leaving when it is full. -/
def keepRun (l : List Xlat) (x : Xlat) : List Xlat := ((l.filter (· != x)) ++ [x]).drop ((l.filter (· != x)).length - 255)

/-- `PEER_COMMAND_ARRIVAL` (Table 112, R373): what the peer package finds when the command, or a signal, arrives. Its translations are cached for
the port. -/
def execPeerCommandArrival (k id : Nat) (running : Bool) (ntiles : Nat) (s : State) : Host.Outcome State Fault Refusal :=
  .next (match (s.tile k).xrun.find? (·.seq == id) with
    | none =>
      (match s.incs.find? fun x => x.tile == k && x.seq == id && x.sent && x.peer.isSome with
      | none => s
      | some x =>
        let w := (x.peer.getD (0, 0, 0)).2.1
        let fail := fun (t : TrapInfo) =>
          (({ s with incs := s.incs.filter (·.id != x.id) } : State).tel (0x100 + 8 * t.cause)).endBy k 5 x.pc false t
        if !running then fail { cause := cOBJFLT, val := 2 ^ 64 - 1 }
        else if xDR w && ntiles ≤ xDTX w then fail { cause := cCAPBND }
        else s)
    | some c =>
      if !c.peer || c.park != 3 then s
      else if !running then s.xeFail k c { cause := cOBJFLT, val := 2 ^ 64 - 1 }
      else if xDR c.w1 && ntiles ≤ xDTX c.w1 then s.xeFail k c { cause := cCAPBND }
      else
        let s := s.setXe k { c with park := 0, finished := true, ain := true }
        let p := s.peerPort k c.w1
        let L := tget {} s.links p
        { s with links := tset s.links p { L with cache := (c.runs (s.peerCtx k c.w1)).foldl keepRun L.cache } })

/-- A command has met a fault at the peer: it waits there, and its own region's wire is raised too (R373). -/
def State.peerFaulted (s : State) (k id : Nat) : State :=
  match (s.tile k).xrun.find? fun c => c.seq == id && c.peer && c.park == 3 with
  | none => s
  | some c => (s.setXe k { c with park := 5 }).stallMod (s.tile k).rgn fun x => { x with fault := x.fault + 1 }

/-- `PEER_FAULT_ANSWER` (R373): the peer's Sorrel answers a fault of the command: it goes on there, or it ends the grid. -/
def execPeerFaultAnswer (k id : Nat) (retry : Bool) (rec : List (BitVec 64)) (s : State) : Host.Outcome State Fault Refusal :=
  .next (match (s.tile k).xrun.find? (·.seq == id) with
    | none => s
    | some c =>
      if !c.peer || (c.park != 3 && c.park != 5) then s
      else
        let s := if c.park = 5 then (s.setXe k { c with park := 3 }).stallMod (s.tile k).rgn fun x => { x with fault := x.fault - 1 } else s
        if retry then s else s.xeFail k c { cause := cOBJFLT, val := bitsN (rec.getD 3 0).toNat 16 32 + 2 ^ 32, words := rec.take 4 })

end Sys2Proof.Machine
end

