-- ==== Sys2Proof/Machine/Queue.lean ====
section
/-! DEFINITION. Queues, packets and launches, control blocks, guilt and the bar, and the hub's signal store
(15_queue.md R325 to R338, 13_kernel.md R299 to R301, 16_context.md R356 to R359). -/

namespace Sys2Proof.Machine

/-! ### The ring -/

/-- Entries of the ring, and the address of packet n (R326). -/
def Queue.ents (Q : Queue) : Nat := 2 ^ (4 + Q.size % 8)
def Queue.entry (Q : Queue) (n : Nat) : Nat := Q.qbase + 1024 * (n % Q.ents)
/-- Packets written and not completed. -/
def Queue.pending (Q : Queue) : Nat := (Q.qwr + 2 ^ 32 - Q.half.qrd % 2 ^ 32) % 2 ^ 32

/-- Where packet n of a queue of context c lies in the host's memory: in its interface's address space (17_link.md R374). -/
def State.entryAt (s : State) (c : Nat) (Q : Queue) (n : Nat) : Nat := hostAt (s.pasidOf c) (Q.entry n)

/-- Bytes written to the host's memory. -/
def State.hostWr (s : State) (a : Nat) (bs : List Byte) : State := { s with hostMem := mwrite s.hostMem a bs }

/-- An event of the context's interface; while the context is Scrubbing it waits for the scrub to complete (R342). -/
def State.onCtx (s : State) (c : Nat) (i : CtxEv) (f : State → State) : Host.Outcome State Fault Refusal :=
  let x := s.ctx c
  .next (if x.state = 8 then s.setCtx c { x with deferred := x.deferred ++ [i] } else f s)

/-! ### Waiters (R330, R336, R337) -/

/-- A field of a packet (Table 131). -/
def pktF (p : List Byte) (o n : Nat) : Nat := leVal ((p.drop o).take n)
def pktZero (p : List Byte) (o n : Nat) : Bool := ((p.drop o).take n).all (· == 0)

/-- A handle's record; the context owns it. -/
def State.sig (s : State) (h : Nat) : Signal := tget {} s.hub.sig h
def State.setSig (s : State) (h : Nat) (x : Signal) : State := { s with hub := { s.hub with sig := tset s.hub.sig h x } }
def State.owns (s : State) (c h : Nat) : Bool := h < 4096 && (s.sig h).used && (s.sig h).owner == c

/-- The code with which a waiting signal packet completes. -/
def State.wake (s : State) (c q code : Nat) : State := s.modQueue c q fun Q => { Q with woke := some code }

/-- Arm-and-compare for the signal packet of a queue (R330). -/
def State.armDev (s : State) (h c q : Nat) : State :=
  let v := pktF (s.queue c q).pkt 0x10 8
  if !s.owns c h then s.wake c q 8
  else if v ≤ (s.sig h).value.toNat then s.wake c q 0
  else { s with hub := { s.hub with waiters := s.hub.waiters ++ [⟨h, BitVec.ofNat 64 v, 0, 0, 0, 0, true, c, q⟩] } }

/-- Waits that asked for a waiter take those that are free, oldest first. -/
def State.serveGo : List (Nat × Nat × Nat) → State → State
  | [], s => { s with hub := { s.hub with waitq := [] } }
  | w :: l, s =>
    if 1024 ≤ s.hub.waiters.length then { s with hub := { s.hub with waitq := w :: l } }
    else State.serveGo l (s.armDev w.1 w.2.1 w.2.2)
def State.serve (s : State) : State := State.serveGo s.hub.waitq s

/-- A waiter is released: an interrupt, or an event for Sorrel (R326, R337). -/
def State.freeWaiter (err : Bool) (s : State) (w : Waiter) : State :=
  if w.isQueue then (s.wake w.ctx w.q (if err then 8 else 0)).leadSem 3 else s.send "msix" [w.fn, w.vec]

/-- Release the waiters of a handle that `sel` selects. -/
def State.releaseBy (s : State) (sel : Waiter → Bool) (err : Bool) : State :=
  let out := s.hub.waiters.filter sel
  let s := { s with hub := { s.hub with waiters := s.hub.waiters.filter fun w => !sel w } }
  (out.foldl (State.freeWaiter err) s).serve

/-- The mirrors of a handle's host waiters take its value. -/
def State.mirror (s : State) (h : Nat) : State :=
  (s.hub.waiters.filter fun w => w.handle == h && !w.isQueue).foldl
    (fun s w => s.hostWr (hostAt (tget 0 (s.fn w.fn).pasid w.iface) w.mirror) (leBytes 8 (s.sig h).value.toNat)) s

/-- An add (`op` 1) or a set (`op` 2) applied to a handle, and whether it is a signal error (R336). -/
def State.sigApply (s : State) (h op v : Nat) : State × Bool :=
  let x := s.sig h
  let o := x.value.toNat
  let r : Nat × Bool := if op = 1 then (min (o + v) (2 ^ 64 - 1), decide (2 ^ 64 ≤ o + v)) else (max o v, decide (v < o))
  let s := s.setSig h { x with value := BitVec.ofNat 64 r.1 }
  let s := if r.1 = o then s else s.mirror h
  if r.2 then ((s.addGuilt x.owner 1).releaseBy (fun w => w.handle == h) true, true)
  else (s.releaseBy (fun w => w.handle == h && w.target.toNat ≤ r.1) false, false)

/-- A handle is given up, as `csig.fre` does: its owner goes, its waiters are released with an error, and so are the waits that still ask for a
waiter on it. -/
def State.freeSig (s : State) (h : Nat) : State :=
  let s := s.setSig h {}
  let asks := s.hub.waitq.filter fun w => w.1 == h
  let s := { s with hub := { s.hub with waitq := s.hub.waitq.filter fun w => w.1 != h } }
  (asks.foldl (fun s w => s.wake w.2.1 w.2.2 8) s).releaseBy (fun w => w.handle == h) true

/-! ### Guilt and the bar (R335) -/

/-- The packet of a queue that is in flight as a launch on a placed region. -/
def Queue.inFlight (Q : Queue) : Bool := Q.launch.any fun L => L.rgn != 0

/-- A packet that is not in flight and has no outcome yet is left unconsumed, and its waiter is withdrawn (Table 134). -/
def State.withdraw (s : State) (c q : Nat) : State :=
  let Q := (s.queue c q).commit
  if Q.inFlight || Q.done.isSome then s.setQueue c q Q
  else
    let s := s.setQueue c q { Q with pkt := [], launch := none, woke := none }
    let s := { s with hub := { s.hub with
      waiters := s.hub.waiters.filter fun w => !(w.isQueue && w.ctx == c && w.q == q)
      waitq := s.hub.waitq.filter fun w => !(w.2.1 == c && w.2.2 == q) } }
    s.serve

/-- A launch of the queue is in flight, or its grid has ended and its packet has not completed. -/
def Queue.busy (Q : Queue) : Bool := Q.launch.any fun L => L.rgn != 0 || L.stage == 4

/-- A queue becomes Disabled before a packet that is no launch in flight has completed: the packet is left unconsumed, its outcome with it (Table 134). -/
def State.forget (s : State) (c q : Nat) : State :=
  let Q := s.queue c q
  if Q.busy then s
  else s.setQueue c q { Q with pkt := [], launch := none, done := none, landed := false, woke := none }

/-- The launch of region r ends with ABORT n (R341, R342, R347): its grid ends; a launch whose grid has retired, and that has not completed,
takes that outcome. -/
def State.abortLaunch (s : State) (r n : Nat) : State :=
  let R := s.region r
  if R.state = 0 ∨ R.state = 10 ∨ R.launch.stage = 8 then s
  else if R.state = 9 then
    s.setRegion r { R with
      launch := { R.launch with code := 6 }, report := some { cause := cABORT, val := n, lseq := R.launch.lseq } }
  else s.abort r n

/-- Launches of a context end with ABORT n. -/
def State.abortCtx (s : State) (c n : Nat) : State :=
  (s.regions.filter fun r => r.2.ctx == c).foldl (fun s r => s.abortLaunch r.1 n) s

/-- A context whose guilt exceeds its function's limit is barred, with its 16 queues. -/
def State.barCheck (s : State) (c : Nat) : State :=
  let x := s.ctx c
  if x.state = 0 ∨ x.state = 7 ∨ x.state = 8 ∨ x.guilt ≤ (s.fn x.vf).glim then s
  else
    let s := s.setCtx c { x with state := 7, barred := true, scrubbed := false }
    let s := (List.range 16).foldl (fun s q => (s.withdraw c q).ctl c q fun h => { h with qstate := 6, waitk := 0 }) s
    s.abortCtx c 2

/-- Every context is looked at. -/
def State.barAll (s : State) : State := s.ctxs.foldl (fun s c => s.barCheck c.1) s

/-- A write of `GLIM`, unless the function's interface is locked (17_link.md R375). -/
def execGlimWrite (v x : Nat) (s : State) : Host.Outcome State Fault Refusal :=
  let F := s.fn v
  .next (if 31 < v ∨ s.locked v = true then s else (s.setFn v { F with glim := x % 256 }).barAll)

/-- A write of 1 to `UNBAR`. -/
def execUnbar (c : Nat) (s : State) : Host.Outcome State Fault Refusal :=
  s.onCtx c (.unbar c) fun s =>
    let x := s.ctx c
    if x.state ≠ 7 ∨ x.scrubbed = false then s
    else
      let s := s.setCtx c { x with state := 1, barred := false, scrubbed := false, guilt := 0 }
      x.queues.foldl (fun s q =>
        if (s.queue c q.1).half.qstate = 6 then ((s.forget c q.1).ctl c q.1 fun h => { h with qstate := 0 }).modQueue c q.1 fun Q => { Q with en := false }
        else s) s

/-! ### Queues (R326, R331, R332) -/

/-- A queue error (R326). -/
def State.queueError (s : State) (c q : Nat) : State :=
  let st := (s.queue c q).half.qstate
  if st = 1 ∨ st = 2 ∨ st = 3 then
    (((s.withdraw c q).ctl c q fun h => { h with qstate := 5, waitk := 0 }).addGuilt c 1).barCheck c
  else s

/-- `DOORBELL`. -/
def execDoorbell (c q v : Nat) (s : State) : Host.Outcome State Fault Refusal :=
  s.onCtx c (.doorbell c q v) fun s =>
    let Q := s.queue c q
    let v := v % 2 ^ 32
    if Q.half.qstate = 0 then s
    else
      let s := if v = Q.qwr then s else (s.setQueue c q { Q with qwr := v }).leadSem 1
      if Q.ents < (s.queue c q).pending then s.queueError c q else s

/-- `EN` written 1 (R340: not while the context is Free or Bound). -/
def execQueueEnable (c q : Nat) (s : State) : Host.Outcome State Fault Refusal :=
  s.onCtx c (.queueEnable c q) fun s =>
    let x := s.ctx c
    let Q := s.queue c q
    if x.state = 0 ∨ x.state = 1 ∨ x.state = 7 ∨ 15 < q ∨ Q.half.qstate ≠ 0 then s
    else s.setQueue c q { Q.upd fun _ => { qstate := 1 } with en := true, qwr := 0, lastseq := 0, selBad := false }

/-- `EN` written 0. -/
def execQueueDisable (c q : Nat) (s : State) : Host.Outcome State Fault Refusal :=
  s.onCtx c (.queueDisable c q) fun s =>
    let s := s.modQueue c q fun Q => { Q.commit with en := false }
    let st := (s.queue c q).half.qstate
    let off := fun (s : State) => (s.forget c q).ctl c q fun h => { h with qstate := 0 }
    if st = 1 ∨ st = 5 then off s
    else if st = 2 ∨ st = 3 then (s.withdraw c q).ctl c q fun h => { h with qstate := 4, waitk := 0 }
    else if st = 4 ∧ (s.queue c q).busy = false then off s
    else s

/-- A queue of context c has work in the sense of R331. -/
def Queue.hasWork (Q : Queue) : Bool :=
  let st := Q.half.qstate
  (st == 1 && Q.pending != 0) || st == 2 || st == 3

/-- The contexts of function v that have work, by interface. -/
def insIface (s : State) (c : Nat) : List Nat → List Nat
  | [] => [c]
  | d :: l => if (s.ctx c).iface < (s.ctx d).iface then c :: d :: l else d :: insIface s c l
def State.workers (s : State) (v : Nat) : List Nat :=
  (s.ctxs.filter fun c => c.2.vf == v && 2 ≤ c.2.state && c.2.state < 7 && c.2.queues.any fun q => q.2.hasWork).foldl
    (fun l c => insIface s c.1 l) []

/-- The next holder after interface i, in ascending order with wrap-around. -/
def State.nextHolder (s : State) (v i : Nat) : Option Nat :=
  let l := s.workers v
  match l.find? fun c => i < (s.ctx c).iface with
  | some c => some c
  | none => l.head?

/-- A queue of function v with a priority number below p waits for placement (R331). -/
def State.blockedAt (s : State) (v p : Nat) : Bool :=
  s.ctxs.any fun c => c.2.vf == v && c.2.queues.any fun q => q.2.half.qstate == 3 && q.2.half.waitk == 1 && q.2.prio < p

/-- Type of the packet at `QRD` as it stands in the ring. -/
def State.headType (s : State) (c : Nat) (Q : Queue) : Nat := (mget s.hostMem (s.entryAt c Q Q.half.qrd)).toNat

/-- The Idle queue of context c to serve: lowest priority number, then the first after the queue last served at that priority. -/
def State.pickQueue (s : State) (c : Nat) : Option Nat :=
  let x := s.ctx c
  [0, 1, 2, 3].findSome? fun p =>
    let last := tget 15 x.rr p
    ((List.range 16).map fun i => (last + 1 + i) % 16).find? fun q =>
      let Q := s.queue c q
      Q.half.qstate == 1 && Q.pending != 0 && Q.prio == p && Q.launch.isNone && Q.done.isNone
        && !(s.headType c Q == 1 && s.blockedAt x.vf p)

/-- Stage 2 begins: the packet is read once. A follower that a select did not choose has its outcome already (R328, R330). -/
def State.startPacket (s : State) (c q : Nat) : State :=
  let Q := s.queue c q
  let h := Q.half
  let x := s.ctx c
  let s := s.setCtx c { x with rr := tset x.rr Q.prio q }
  (s.ctl c q fun h => { h with qstate := 2 }).modQueue c q fun Q =>
    { Q with
      pkt := mread s.hostMem (s.entryAt c Q h.qrd) 1024, woke := none, landed := false
      done := if h.selr = 0 then none else if Q.selBad then some (1, 0, 0) else if h.selk = 0 then none else some (7, 0, 0) }

/-- The length of a time slice, in ns (Table 133). -/
def sliceNs (F : Fn) : Nat := (F.slice % 64 + 1) * 1000000

/-- `QUEUE_SELECT` (R331): the slice holder of function v, chosen when there is none with work, and its next queue. -/
def execQueueSelect (v : Nat) (s : State) : Host.Outcome State Fault Refusal :=
  .next (if s.leader.isNone then s
    else
      let F := s.fn v
      let hold := match F.holder with
        | some c => if (s.workers v).contains c then some c else s.nextHolder v (s.ctx c).iface
        | none => (s.workers v).head?
      let s := s.setFn v { F with holder := hold, sliceLeft := if hold = F.holder then F.sliceLeft else sliceNs F }
      match hold with
      | none => s
      | some c =>
        match s.pickQueue c with
        | none => s
        | some q => s.startPacket c q)

/-- `TIME_SLICE_END` (R331): while a Sorrel leads, the next interface takes the slice. The pre-emption of the outgoing one's regions is asked by the
`rgpre` of Sorrel's firmware, and by nothing else. -/
def execTimeSliceEnd (v : Nat) (s : State) : Host.Outcome State Fault Refusal :=
  let F := s.fn v
  .next (match F.holder with
    | none => s
    | some c =>
      if s.leader.isNone then s
      else s.setFn v { F with holder := s.nextHolder v (s.ctx c).iface, sliceLeft := sliceNs F })

/-- `HOST_ERROR_COMPLETION` (17_link.md R374): the queue goes to Error, or the `xopn` completes with status 1. -/
def execHostErrorCompletion (c q : Nat) (x : Option (Nat × Nat)) (s : State) : Host.Outcome State Fault Refusal :=
  match x with
  | none => s.onCtx c (.hostError c q) fun s => s.queueError c q
  | some (k, id) =>
    .next (match (s.tile k).xrun.find? (·.seq == id) with
      | none => s
      | some m => if m.opc = 0x18 ∧ m.park = 4 then s.setXe k { m with park := 0, finished := true, res := (0, 1) } else s)

/-! ### Packets (R327 to R330) -/

/-- A malformed packet of R328, but for the followers of a select. -/
def pktBad (p : List Byte) : Bool :=
  let ty := pktF p 0 1
  let fl := pktF p 1 1
  let op := pktF p 0x0A 1
  let h := pktF p 8 2
  let alen := pktF p 4 2
  let hm := pktF p 6 2
  let rest := fl != 0 || !pktZero p 4 4 || !pktZero p 0x18 32 || !pktZero p 0x40 0x210
  ty == 0 || 3 < ty || 3 < fl || !pktZero p 3 1 || !pktZero p 0x0B 5 || !pktZero p 0x250 0x1B0 || (4096 ≤ h && h != 0xFFFF)
    || if ty = 1 then
        decide (256 < alen) || !pktZero p (0x150 + alen) (256 - alen) || (List.range 16).any (fun n => 1 < pktF p (0x140 + n) 1)
          || (List.range 16).any (fun n => bitN hm n && pktF p (0x140 + n) 1 == 0) || fl == 2 || 2 < op || (op != 0 && h == 0xFFFF)
      else if ty = 2 then rest || pktF p 2 1 < 2 || 4 < pktF p 2 1 || h != 0 || op != 0 || !pktZero p 0x10 8
      else rest || pktF p 2 1 != 0 || h == 0xFFFF || 2 < op

/-- The outcome of a packet: its code, cause (with `RCPTOK` at bit 8) and result word. -/
def State.outcome (s : State) (c q code cause rword : Nat) : State :=
  s.modQueue c q fun Q => { Q with done := some (code, cause, rword) }

/-- A packet of queue q that stands at stage 2 with no outcome, while a Sorrel leads. -/
def State.atStage2 (s : State) (c q : Nat) : Bool :=
  let Q := s.queue c q
  s.leader.isSome && Q.half.qstate == 2 && Q.pkt != [] && Q.done.isNone && Q.launch.isNone

/-- Stage 2 of a packet: malformed, a handle named outside the context, or what its type does. -/
def State.stage2 (s : State) (c q : Nat) (mine : List Byte → Bool) (body : State → List Byte → State) : Host.Outcome State Fault Refusal :=
  let p := (s.queue c q).pkt
  let h := pktF p 8 2
  .next (if !s.atStage2 c q || !mine p then s
    else if pktBad p then ((s.addGuilt c 4).outcome c q 1 0 0).barCheck c
    else if pktF p 0 1 ≠ 2 ∧ h ≠ 0xFFFF ∧ s.owns c h = false then ((s.addGuilt c 16).outcome c q 2 0 0).barCheck c
    else body s p)

/-- `SELECT_PACKET`. -/
def execSelectPacket (c q : Nat) (s : State) : Host.Outcome State Fault Refusal :=
  s.stage2 c q (fun p => pktF p 0 1 == 2) fun s p =>
    let Q := s.queue c q
    let h := Q.half
    let n := pktF p 2 1
    if Q.pending ≤ n then s.ctl c q fun h => { h with qstate := 3, waitk := 3 }
    else if (List.range n).any (fun i => mget s.hostMem (s.entryAt c Q (h.qrd + 1 + i)) == 2) then
      ((s.addGuilt c 4).outcome c q 1 0 0).barCheck c
    else s.outcome c q 0 0 (if h.lstat % 256 ≠ 0 then n - 1 else min h.lrw (n - 1))

/-- A signal packet of operation `op`. -/
def sigPacket (c q : Nat) (mine : Nat → Bool) (s : State) (body : State → Nat → Nat → State) : Host.Outcome State Fault Refusal :=
  s.stage2 c q (fun p => pktF p 0 1 == 3 && mine (pktF p 0x0A 1)) fun s p => body s (pktF p 8 2) (pktF p 0x10 8)

def execSignalPacketAdd (c q : Nat) (s : State) : Host.Outcome State Fault Refusal :=
  sigPacket c q (· == 1) s fun s h v =>
    let r := s.sigApply h 1 v
    (r.1.outcome c q (if r.2 then 8 else 0) 0 0).barAll

def execSignalPacketSet (c q : Nat) (s : State) : Host.Outcome State Fault Refusal :=
  sigPacket c q (· == 2) s fun s h v =>
    let r := s.sigApply h 2 v
    (r.1.outcome c q (if r.2 then 8 else 0) 0 0).barAll

/-- A wait arms a waiter, or asks for one when all are in use. -/
def execSignalPacketWait (c q : Nat) (s : State) : Host.Outcome State Fault Refusal :=
  sigPacket c q (fun op => op != 1 && op != 2) s fun s h _ =>
    let wait := fun (s : State) => s.ctl c q fun h => { h with qstate := 3, waitk := 2 }
    if 1024 ≤ s.hub.waiters.length then wait { s with hub := { s.hub with waitq := s.hub.waitq ++ [(h, c, q)] } }
    else
      let s := s.armDev h c q
      match (s.queue c q).woke with
      | some code => s.outcome c q code 0 0
      | none => wait s

/-! ### Launches (R299, R330) -/

/-- What a launch packet asks for. -/
def pktLaunch (p : List Byte) (c q n lseq : Nat) : Launch :=
  let fl := pktF p 1 1
  { ctx := c, q := q, n := n, slot := pktF p 2 1, stage := 3, lseq := lseq
    rl := (List.range 16).map fun i => ⟨BitVec.ofNat 128 (pktF p (0x40 + 16 * i) 16), pktF p (0x140 + i) 1 == 1⟩
    args := (p.drop 0x150).take (pktF p 4 2), hmask := pktF p 6 2, rcpt := bitN fl 0, ecdsa := bitN fl 1
    sigh := pktF p 8 2, sigop := pktF p 0x0A 1, sigval := pktF p 0x10 8, nonce := (p.drop 0x18).take 32 }

/-- The argument block of R301. -/
def argBlock (L : Launch) : List Byte :=
  leBytes 2 L.slot ++ leBytes 2 L.args.length
    ++ (L.rl.flatMap fun x => leBytes 16 x.bits.toNat ++ leBytes 1 (if x.tag then 1 else 0)) ++ L.args

/-- Stage 3 opens with the placement (R299 step 1, R330), unless a queue of a lower priority number waits for one (R331). -/
def State.launchPlace (s : State) (c q : Nat) (L : Launch) : State :=
  let x := s.slotOf c L.slot
  if x.state ≠ 3 ∧ x.state ≠ 4 then s.outcome c q 3 0 0
  else if x.count = 255 ∨ s.blockedAt (s.ctx c).vf (s.queue c q).prio = true then s
  else match s.tryPlace c q L (0, 0, 0, true) with
    | .ok r => r.1
    | .error _ =>
      let img := s.slotImageOf c L.slot
      let req : PlaceReq := ⟨0, c, imgW img, imgH img, imgSeams img, imgTw img⟩
      if searchOrder.any fun p => s.couldPlace req p.1 p.2.1 p.2.2 then
        (s.modQueue c q fun Q => { Q with freed := (s.fn (s.ctx c).vf).freed }).ctl c q fun h => { h with qstate := 3, waitk := 1 }
      else s.outcome c q 5 0 0

/-- `QUEUE_WAIT_END` (Table 134): the reason has gone. A refused placement is tried again at once, so that no launch of a lower priority
starts in between (R331). -/
def execQueueWaitEnd (c q : Nat) (s : State) : Host.Outcome State Fault Refusal :=
  let Q := s.queue c q
  let go := fun (s : State) => s.ctl c q fun h => { h with qstate := 2, waitk := 0 }
  .next (if Q.half.qstate ≠ 3 ∨ s.leader.isNone = true then s
    else if Q.half.waitk = 1 then
      (if (s.fn (s.ctx c).vf).freed ≠ Q.freed ∧ s.blockedAt (s.ctx c).vf Q.prio = false then
        (match Q.launch with
          | some L => if L.rgn = 0 then (go s).launchPlace c q L else go s
          | none => go s)
      else s)
    else if Q.half.waitk = 2 then
      (match Q.woke with
      | some code => (go s).modQueue c q fun Q => { Q with done := some (code, 0, 0) }
      | none => s)
    else if pktF Q.pkt 2 1 < Q.pending then go s
    else s)

/-- A capability names an object of the context's table: its head entry. -/
def State.capObj (s : State) (c : Nat) (x : Cap) : Option OtEnt :=
  let e := mkEnt (s.otWords c x.oid)
  if oidReserved x.oid || s.otLen c ≤ x.oid || e.state = 0 || e.state = 5 then none else some e

/-- Step 2 of R299. -/
def State.capsOk (s : State) (c : Nat) (L : Launch) (img : Memory) : Bool :=
  (List.range 16).all fun n =>
    let x := L.rl.getD n Cap.null
    let rq := imgRel img n
    (rq.1 == 0 || (x.tag && x.has rq.2 && x.lo ≤ x.cur && x.cur + rq.1 ≤ x.hi))
      && (!bitN L.hmask n || (x.has rtH && !oidReserved x.oid && x.oid < s.otLen c && x.cur % 65536 == 0
          && x.hi ≤ frameB * (mkEnt (s.otWords c x.oid)).nfrm))

/-- Step 3 of R299. -/
def State.capsResident (s : State) (c : Nat) (L : Launch) : Bool :=
  L.rl.all fun x => !x.tag || (s.capObj c x).all fun e => e.state == 2

/-- The preload of R209: the resident runs of the objects in order, `n` at most, on dies `ds`. -/
def State.preload (c : Nat) (ds : List Nat) : Nat → Nat → List Cap → Nat → State → State
  | 0, _, _, _, s => s
  | _, 0, _, _, s => s
  | _, _, [], _, s => s
  | fuel + 1, n + 1, x :: l, f, s =>
    match s.capObj c x with
    | none => State.preload c ds fuel (n + 1) l 0 s
    | some e =>
      if e.nfrm ≤ f then State.preload c ds fuel (n + 1) l 0 s
      else match s.walk c x.oid f with
        | .ok w =>
          let y := s.runFrom c x.oid f w
          State.preload c ds fuel n (x :: l) (f + y.run) (ds.foldl (fun s d => s.fillEtc d y) s)
        | .error _ => State.preload c ds fuel (n + 1) (x :: l) (f + 1) s

/-- The declared barriers in ascending order with their home cluster and slot (R233). -/
def State.declared (s : State) (r : Nat) (img : Memory) : List (Nat × Nat × Nat) :=
  let cl := s.clustersOf r
  let ns := (List.range 64).filter fun n => (imgBar img n).1 != 0
  (ns.zip (List.range ns.length)).map fun x => (x.1, cl.getD (x.2 % max cl.length 1) 0, x.2 / max cl.length 1)

/-- Every bind of a launch would return status 0 (R232): no handle of it is bound and every slot is free. -/
def State.bindable (s : State) (c r : Nat) (img : Memory) : Bool :=
  (s.declared r img).all fun x => (s.barAt c x.1).isNone && (s.bar x.2).state == 0

/-- The declared barriers bound in ascending order (R233). -/
def State.bindDeclared (s : State) (c r : Nat) (img : Memory) : State :=
  (s.declared r img).foldl (fun s x => s.bindBar c x.1 x.2.1 x.2.2 (imgBar img x.1).2 (imgBar img x.1).1 r) s

/-- A launch ends at stage 3 and its region returns to Unplaced. -/
def State.refuseLaunch (s : State) (c q r code : Nat) : State := (s.release r).outcome c q code 0 0

/-- The checks of R299 on a placed launch, and the end of stage 3: it starts, unless a queue of a lower priority number waits for placement (R331).
It waits while a barrier that it declares cannot be bound (R232). -/
def State.launchCheck (s : State) (c q : Nat) (L : Launch) : State :=
  let R := s.region L.rgn
  let x := s.slotOf c L.slot
  if R.state ≠ 1 then s
  else if x.state ≠ 3 ∧ x.state ≠ 4 then s.refuseLaunch c q L.rgn 3
  else if x.count = 255 then s
  else if !s.capsOk c L R.image then ((s.addGuilt c 4).refuseLaunch c q L.rgn 4).barCheck c
  else if !s.capsResident c L || s.blockedAt (s.ctx c).vf (s.queue c q).prio || !s.bindable c L.rgn R.image then s
  else
    let C := s.ctx c
    let d := sha (argBlock L)
    let s := (State.preload c (diesOf R.tiles) (2 ^ 27) 2048 (L.rl.filter Cap.tag) 0 s).bindDeclared c L.rgn R.image
    let L := { L with stage := 4, before := C.chain, nch := C.chainn, argd := d, dig := x.digest }
    let s := ((s.extend c 2 d).setSlotOf c L.slot x.used).modQueue c q fun Q => { Q with launch := some L }
    s.startAt L.rgn { s.region L.rgn with launch := L }

/-- `LAUNCH_PACKET`: a launch advances through stages 2 and 3 of Table 8. -/
def execLaunchPacket (c q : Nat) (s : State) : Host.Outcome State Fault Refusal :=
  let Q := s.queue c q
  match Q.launch with
  | some L =>
    .next (if L.stage ≠ 3 ∨ s.leader.isNone = true ∨ Q.done.isSome = true then s
      else if L.rgn = 0 then (if Q.half.qstate = 2 then s.launchPlace c q L else s)
      else s.launchCheck c q L)
  | none =>
    s.stage2 c q (fun p => pktF p 0 1 != 2 && pktF p 0 1 != 3) fun s p =>
      let n := (s.hub.lseq + 1) % 2 ^ 64
      ({ s with hub := { s.hub with lseq := n } } : State).modQueue c q fun Q =>
        { Q with launch := some { pktLaunch p c q Q.half.qrd n with sinst := (s.sig (pktF p 8 2)).inst } }

/-! ### Stages 6 and 7 (R356 to R359) -/

/-- A leaf: its buffer's object, offset and length; none for the leaf of an empty buffer, which Sorrel computes from the offset. -/
structure Leaf where
  buf : Nat
  oid : Nat
  off : Nat
  n : Nat
deriving DecidableEq, Repr

/-- The leaves of the chosen buffers, in order. -/
def leavesOf (L : Launch) : List Leaf :=
  ((List.range 16).filter (bitN L.hmask)).flatMap fun i =>
    let x := L.rl.getD i Cap.null
    if x.hi ≤ x.cur then [⟨i, x.oid, x.cur, 0⟩]
    else (List.range ((x.hi - x.cur + 65535) / 65536)).map fun j =>
      ⟨i, x.oid, x.cur + 65536 * j, min 65536 (x.hi - (x.cur + 65536 * j))⟩

/-- Host addresses of an object's bytes through its table, when every frame can be translated. -/
def State.objAddrs (s : State) (c o : Nat) : List (Nat × Nat) → Option (List (Nat × Nat × Nat))
  | [] => some []
  | x :: l =>
    match s.walk c o (x.1 / frameB), s.objAddrs c o l with
    | .ok w, some r => some ((x.1, w.2.2.2 * frameB + x.1 % frameB, x.2) :: r)
    | _, _ => none

/-- The digest of leaf k, hashed by the XE of region tile k mod n: each uncorrectable granule makes one origin there. -/
def State.hashLeaf (s : State) (c r k : Nat) (x : Leaf) : Option (State × BitVec 384) :=
  match s.objAddrs c x.oid (frameParts x.off x.n) with
  | none => none
  | some rs =>
    let ks := s.tilesOf r
    let t := ks.getD (k % max ks.length 1) 0
    let o : OrgAt := { tile := t, src := 4, pc := (Config.freeWord s.freeCtr).toNat % 2 ^ 32, oid := x.oid, what := 0, step := (s.tile t).step }
    let u := State.mkUE .dram o (s.ueOf .dram rs) { s with freeCtr := s.freeCtr + 1 }
    let ids := u.2.foldl (fun (m : Tab Nat) y => tset m y.1 y.2) []
    let data := rs.flatMap fun y =>
      patch y.1 (addMarks ids y.1 (ueParts 32 y.1 y.2.1 y.2.2 (s.ueIn .dram y.2.1 y.2.2)) []) (mread s.dram y.2.1 y.2.2)
    some (u.1, digNum (leafHash (x.off / 65536) data))

/-- Every leaf from number k on, in order. -/
def State.hashLeaves (c r : Nat) : Nat → List Leaf → State → Option (State × List (Nat × BitVec 384))
  | _, [], s => some (s, [])
  | k, x :: l, s =>
    match s.hashLeaf c r k x with
    | none => none
    | some a =>
      match State.hashLeaves c r (k + 1) l a.1 with
      | none => none
      | some b => some (b.1, (x.buf, a.2) :: b.2)

/-- One level of the reduction of R357, and all of them. -/
def treeLevel : List (BitVec 384) → List (BitVec 384)
  | a :: b :: l => treeNode a b :: treeLevel l
  | l => l
def treeRoot : Nat → List (BitVec 384) → BitVec 384
  | 0, l => l.headD 0
  | n + 1, l => if l.length ≤ 1 then l.headD 0 else treeRoot n (treeLevel l)

/-- The result root of leaves tagged by their buffers. -/
def resultRoot (l : List (Nat × BitVec 384)) : BitVec 384 :=
  let bufs := (l.map Prod.fst).eraseDups
  treeRoot 16 (bufs.map fun b => let m := (l.filter fun x => x.1 == b).map Prod.snd; treeRoot m.length m)

/-- The firmware measurement of R359. -/
def State.measurement (s : State) : BitVec 384 :=
  sha (([0, 1, 2].flatMap fun d =>
    let D := s.die d
    digBytes (if D.state = 4 ∨ D.state = 5 then D.fwDigest.getD 0 else 0)) ++ digBytes Config.lovageDigest)

/-- Lovage fills its part of a body, signs it, and the record lands in the ring of context c (R358). -/
def State.signReceipt (s : State) (c : Nat) (ecdsa : Bool) (body : List Byte) : State :=
  let C := s.ctx c
  let b := body.take 6 ++ [if ecdsa then 1 else 0] ++ (body.drop 7).take 0x29 ++ digBytes Config.deviceIdentity ++ digBytes s.measurement
    ++ (body.drop 0x90).take 0x170
  let sig := fun (n : Nat) (alg : Bool) => let g := Config.signature b alg; (List.range n).map fun i => g.getD i 0
  let rec_ := b ++ sig 4627 false ++ List.replicate 13 0 ++ (if ecdsa then sig 96 true else List.replicate 96 0)
  let s := s.devWr (C.rcbase + 5248 * (C.rcnt % C.rclen)) rec_
  s.setCtx c { C with rcnt := (C.rcnt + 1) % 2 ^ 32 }

/-- The `STAT` word of R329. -/
def statWord (code cause : Nat) : Nat := code % 2 ^ 8 + cause % 2 ^ 9 * 2 ^ 8 + 2 ^ 31

/-- The body of Table 150 as the leader builds it for launch L of region R. -/
def State.receiptBody (s : State) (L : Launch) (R : Region) (root : BitVec 384) (stat rword : Nat) : List Byte :=
  let C := s.ctx L.ctx
  leBytes 4 0x47335243 ++ leBytes 2 1 ++ leBytes 2 0 ++ leBytes 8 L.lseq ++ (L.nonce ++ List.replicate 32 0).take 32
    ++ List.replicate 96 0 ++ digBytes L.before ++ digBytes C.chain ++ digBytes L.dig ++ digBytes L.argd ++ digBytes root
    ++ [R.w, R.h, R.seam0, R.seam1, L.slot, L.ctx, C.vf, C.iface].flatMap (leBytes 1)
    ++ leBytes 8 R.xsteps ++ leBytes 4 stat ++ leBytes 4 rword ++ leBytes 4 R.origins ++ leBytes 4 (if R.origins = 0 then 0 else R.minid)
    ++ leBytes 8 C.bindc ++ leBytes 4 L.n ++ leBytes 1 L.q ++ leBytes 1 0 ++ leBytes 2 (min (C.chainn - L.nch) 0xFFFF)
    ++ List.replicate 80 0

/-- Stages 6 and 7 of a launch whose grid has ended: the result root and its chain entry, and the receipt; whether one was signed. -/
def State.stages67 (s : State) (L : Launch) (R : Region) (code cause rword : Nat) : Option (State × Bool) :=
  match (if L.hmask = 0 then some (s, []) else State.hashLeaves L.ctx L.rgn 0 (leavesOf L) s) with
  | none => none
  | some a =>
    let root := if L.hmask = 0 then 0 else resultRoot a.2
    let s := if L.hmask = 0 then a.1 else a.1.extend L.ctx 3 root
    if L.rcpt && (s.ctx L.ctx).rclen != 0 then
      let R := { R with origins := (s.region L.rgn).origins, minid := (s.region L.rgn).minid }
      some (s.signReceipt L.ctx L.ecdsa (s.receiptBody L R root (statWord code (cause + 256)) rword), true)
    else some (s, false)

/-! ### Completion (R333) -/

/-- The state a queue goes to when its packet completes (Table 134). -/
def afterPacket (st : Nat) : Nat := if st = 2 ∨ st = 3 then 1 else if st = 4 then 0 else st

/-- Step 3 begins: the new body of the control block, with `LRW` and `LSTAT` for every launch packet, one that a select skipped too; followers of a
select are counted down (R330). -/
def State.step3 (s : State) (c q : Nat) (d : Nat × Nat × Nat) : State :=
  s.modQueue c q fun Q =>
    let h := Q.half
    let ty := pktF Q.pkt 0 1
    let n := pktF Q.pkt 2 1
    let qrd := ((Q.launch.map Launch.n).getD h.qrd + 1) % 2 ^ 32
    let h := if ty = 1 then { h with lrw := d.2.2, lstat := statWord d.1 d.2.1 } else h
    let bad := ty = 2 ∧ d.1 = 1 ∧ h.selr = 0 ∧ 2 ≤ n ∧ n ≤ 4
    let sel : Nat × Nat :=
      if ty = 2 ∧ d.1 = 0 then (n, d.2.2) else if bad then (n, n)
      else if h.selr = 0 then (0, 0) else (h.selr - 1, if h.selk = 0 then h.selr - 1 else h.selk - 1)
    let Q := { Q with selBad := decide bad || (Q.selBad && sel.1 != 0) }
    Q.begin { h with qrd := qrd, qstate := afterPacket h.qstate, waitk := 0, rgn := 0, selr := sel.1, selk := sel.2 }

/-- Steps 1 and 2: `RWORD` and then `STAT` land, and the signal operation goes to the hub. The slot's count falls (Table 118). -/
def State.land (s : State) (c q : Nat) (d : Nat × Nat × Nat) : State :=
  let Q := s.queue c q
  let n := (Q.launch.map Launch.n).getD Q.half.qrd
  let a := s.entryAt c Q n
  let s := (s.hostWr (a + 0x3C) (leBytes 4 d.2.2)).hostWr (a + 0x38) (leBytes 4 (statWord d.1 d.2.1))
  let s := s.modQueue c q fun Q => { Q with landed := true }
  match Q.launch with
  | none => s
  | some L =>
    let s := if L.stage = 4 then s.setSlotOf c L.slot (s.slotOf c L.slot).left else s
    if L.sigop = 0 ∨ d.1 = 2 then s
    else { s with hub := { s.hub with
      sigops := s.hub.sigops ++ [⟨s.hub.sigid, L.sigh, L.sigop, BitVec.ofNat 64 L.sigval, c, q, n, L.sinst⟩], sigid := s.hub.sigid + 1 } }

/-- A launch whose grid has ended goes through stages 6 to 8; it waits where a chosen buffer cannot be read. One whose region was aborted while
still Placed has not ended stage 3 and goes to stage 8 (DESIGN CHOICE, assumption 43). The region stays as it is until Sorrel returns it
(R322). -/
def State.launchEnd (s : State) (c q : Nat) (L : Launch) : State :=
  let R := s.region L.rgn
  if R.state ≠ 9 ∧ R.state ≠ 10 then s
  else
    let code := R.outcome.1
    let cause := R.outcome.2
    let rword := R.resultWord
    let L := { L with argd := sha (argBlock L) }
    match (if L.stage = 4 then s.stages67 L R code cause rword else some (s, false)) with
    | none => s
    | some a =>
      let cause := cause + if a.2 then 256 else 0
      let R := a.1.region L.rgn
      ((a.1.setRegion L.rgn { R with launch := { R.launch with stage := 8 } }).outcome c q code cause rword).land c q (code, cause, rword)

/-- The leading Sorrel returns the region of a launch that has completed, as `rgret.rel` does, unless a word of its firmware has (R322). -/
def State.giveBack (s : State) (r : Nat) : State :=
  let R := s.region r
  let Q := s.queue R.ctx R.launch.q
  if (R.state = 9 ∨ R.state = 10) ∧ R.launch.stage = 8 ∧ s.leader.isSome = true ∧ (Q.launch.any fun L => L.rgn == r) = false then s.release r
  else s

/-- `PACKET_COMPLETE` (R333): the next of the three steps of a packet that has its outcome; step 3 waits for the hub. -/
def execPacketComplete (c q : Nat) (s : State) : Host.Outcome State Fault Refusal :=
  let Q := s.queue c q
  .next (if s.leader.isNone then s
    else if Q.seq % 2 = 1 then s.setQueue c q Q.commit
    else match Q.done, Q.launch with
      | some d, _ =>
        if !Q.landed then s.land c q d
        else if s.hub.sigops.any fun x => x.ctx == c && x.q == q then s
        else s.step3 c q d
      | none, some L => s.launchEnd c q L
      | none, none => s)

/-- A tagged operation at the hub: applied once, in the order of packets (R333), and only while the context owns the handle in the taking that the
packet found at stage 2: one whose handle has been freed since is discarded, though it was given to the same context again (R336); `LASTSEQ`
follows those applied. -/
def State.hubSignal (s : State) (x : SigOp) : State :=
  let Q := s.queue x.ctx x.q
  let d := (x.seq + 1 + 2 ^ 32 - Q.lastseq % 2 ^ 32) % 2 ^ 32
  if d = 0 ∨ 2 ^ 31 < d then s
  else
    if s.owns x.ctx x.handle ∧ (s.sig x.handle).inst = x.inst then
      ((s.setQueue x.ctx x.q { Q with lastseq := (x.seq + 1) % 2 ^ 32 }).sigApply x.handle x.op x.value.toNat).1.barAll
    else s

/-- `SIGNAL_OPERATION`: the operations of one queue reach the hub in queue order. -/
def execSignalOperation (k : Nat) (s : State) : Host.Outcome State Fault Refusal :=
  .next (match s.hub.sigops.find? (·.id == k) with
    | none => s
    | some x =>
      if s.hub.sigops.any fun y => y.ctx == x.ctx && y.q == x.q && y.id < x.id then s
      else ({ s with hub := { s.hub with sigops := s.hub.sigops.filter (·.id != k) } } : State).hubSignal x)

/-- What a new leader does with a control block (R334): an update it finds half-written is taken back and made again, after the
signal operation has been sent again. -/
def State.replay (s : State) (c q : Nat) : State :=
  let Q := s.queue c q
  if Q.seq % 2 = 0 then s
  else
    let s := s.setQueue c q { Q with seq := Q.seq - 1 }
    match Q.done, Q.launch with
    | some d, some L =>
      if L.sigop = 0 ∨ d.1 = 2 then s
      else { s with hub := { s.hub with
        sigops := s.hub.sigops ++ [⟨s.hub.sigid, L.sigh, L.sigop, BitVec.ofNat 64 L.sigval, c, q, L.n, L.sinst⟩], sigid := s.hub.sigid + 1 } }
    | _, _ => s

/-! ### Host waits and `csig` (R337, R338) -/

/-- The context bound to an interface. -/
def State.ctxOfIface (s : State) (v i : Nat) : Option Nat :=
  (s.ctxs.find? fun c => c.2.state != 0 && c.2.vf == v && c.2.iface == i).map Prod.fst

/-- Arm-and-compare for a host. -/
def State.armHost (s : State) (c v i x : Nat) : State :=
  let F := s.fn v
  let h := x % 4096
  let tgt := tget 0 F.swt i
  let mir := tget 0 F.swmir i
  let sts := fun (s : State) (n : Nat) => let F := s.fn v; s.setFn v { F with swsts := tset F.swsts i n }
  if !s.owns c h then ((sts s 2).addGuilt c 16).barCheck c
  else if 1024 ≤ s.hub.waiters.length then sts s 3
  else if tgt.toNat ≤ (s.sig h).value.toNat then sts s 1
  else
    let s := { s with hub := { s.hub with waiters := s.hub.waiters ++ [⟨h, tgt, v, i, x / 2 ^ 16 % 2 ^ 11, mir, false, c, 0⟩] } }
    (sts s 0).hostWr (hostAt (tget 0 F.pasid i) mir) (leBytes 8 (s.sig h).value.toNat)

/-- `SWCMD`: with `GO` set it registers a waiter. -/
def execSwcmd (v i x : Nat) (s : State) : Host.Outcome State Fault Refusal :=
  match s.ctxOfIface v i with
  | none => .next s
  | some c => s.onCtx c (.swcmd v i x) fun s => if bitN x 31 then s.armHost c v i x else s

/-- A `csig` operation on the handle of `sA`. -/
def csigOp (p : BitVec 4) (f : FmtZ) (k : Nat) (s : State) (body : State → Nat → Nat → List Nat → State × Nat) :
    Host.Outcome State Fault Refusal :=
  svOp p f k s fun s a g => body s a (a % 4096) g

def execCsigAlc (p : BitVec 4) (f : FmtZ) (s : State) :=
  csigOp p f 1 s fun s a h g =>
    if (s.sig h).used then (s, 3)
    else
      let n := s.hub.sigAlloc + 1
      (({ s with hub := { s.hub with sigAlloc := n } } : State).setSig h ⟨a / 2 ^ 24 % 256, true, BitVec.ofNat 64 (g.getD 0 0), n⟩, 0)

def execCsigFre (p : BitVec 4) (f : FmtZ) (s : State) :=
  csigOp p f 0 s fun s _ h _ => if (s.sig h).used then (s.freeSig h, 0) else (s, 2)

/-- An add or a set by Sorrel. -/
def csigApply (s : State) (h op : Nat) (g : List Nat) : State × Nat :=
  if !(s.sig h).used then (s, 2)
  else
    let r := s.sigApply h op (g.getD 0 0)
    (r.1.barAll, if r.2 then 3 else 0)

def execCsigAdd (p : BitVec 4) (f : FmtZ) (s : State) := csigOp p f 1 s fun s _ h g => csigApply s h 1 g
def execCsigSet (p : BitVec 4) (f : FmtZ) (s : State) := csigOp p f 1 s fun s _ h g => csigApply s h 2 g

def execCsigRd (p : BitVec 4) (f : FmtZ) (s : State) :=
  csigOp p f 0 s fun s _ h _ =>
    let x := s.sig h
    let n := (s.hub.waiters.filter fun w => w.handle == h).length
    (s.putRegs f.b.toNat [x.value.toNat, x.owner % 256 + (if x.used then 256 else 0) + n % 2 ^ 11 * 2 ^ 16], 0)

end Sys2Proof.Machine
end

