-- ==== Sys2Proof/Machine/Context.lean ====
section
/-! DEFINITION. Contexts: binding, configuration, scrub and function-level reset; `trap` and `tret`; `rcpt`; TDISP
(16_context.md R339 to R360, 17_link.md R375). -/

namespace Sys2Proof.Machine

/-! ### The code a front end fetches (R84, R95, R103, R290) -/

/-- The word at a PC: of the tile's stream in the image of its launch, or of Sorrel's SRAM; none outside. -/
def State.codeAt (s : State) (a : Agent) (pc : Nat) : Option Nat :=
  match a with
  | .tile k =>
    let im := (s.rgnOf k).image
    let st := imgStream im (s.tile k).tix
    if pc + 8 ≤ st.2.1 then some (leVal (mread im (imgOff im 2 + st.1 + pc) 8)) else none
  | .sorrel d => if pc + 8 ≤ 0x40000 then some (leVal (mread (s.die d).sram pc 8)) else none
  | .dev => none

/-! ### Context states (R341) -/

/-- The region has a latched request and has not reached Saved, Retired or Faulted. -/
def Region.preempting (R : Region) : Bool := R.preq && R.state != 7 && R.state != 9 && R.state != 10

/-- `CSTATE`: a Ready context shows the first state of R341's list that its regions give. -/
def State.cstate (s : State) (c : Nat) : Nat :=
  let x := s.ctx c
  if x.state ≠ 2 then x.state
  else
    let rs := (s.regions.filter fun r => r.2.ctx == c && r.2.state != 0).map Prod.snd
    if (rs.any fun R => R.state == 10 && R.launch.stage != 8) || x.queues.any fun q => q.2.launch.isSome && q.2.done.any fun d => d.1 == 6 then 6
    else if rs.any Region.preempting then 4
    else if rs.any fun R => R.state != 7 then 3
    else if rs != [] then 5 else 2

/-- `BIND` written 1 (Table 143): the chain and Table 142 are zero again; slots keep their states, for Table 118 names no such event. -/
def execContextBind (c : Nat) (s : State) : Host.Outcome State Fault Refusal :=
  s.onCtx c (.contextBind c) fun s =>
    let x := s.ctx c
    let taken := s.ctxs.any fun y => y.1 != c && y.2.state != 0 && y.2.vf == x.vf && y.2.iface == x.iface
    if c = 0 ∨ 255 < c ∨ x.state ≠ 0 ∨ taken = true ∨ s.locked x.vf = true then s
    else s.setCtx c { x with
      state := 1, bindc := (x.bindc + 1) % 2 ^ 64, savab := false, chain := 0, chainn := 0, otbase := 0, seed := 0, magtab := 0, plbase := 0
      pllen := 0, plhead := 0, pldrop := 0, rcbase := 0, rclen := 0, rcnt := 0, ctxen := false, pclr := false }

/-- `BIND` written 0. -/
def execContextUnbind (c : Nat) (s : State) : Host.Outcome State Fault Refusal :=
  s.onCtx c (.contextUnbind c) fun s =>
    let x := s.ctx c
    if x.state ≠ 1 ∨ s.locked x.vf = true then s else s.setCtx c { x with state := 0 }

/-- A device DRAM address in a frame Pinned to function v (R340). -/
def State.pinnedTo (s : State) (v a : Nat) : Bool :=
  let h := a / frameB
  h < allFrames && ftState (s.ft h) == fsPinned && ftVf (s.ft h) == v

/-- What the registers of Table 142 name meets a bound frame: the table, the magnitudes, the log, the ring (R297). -/
def State.ctxBound (s : State) (c : Nat) : Bool :=
  let x := s.ctx c
  s.inBound x.otbase (64 * max 1 (s.otLen c)) || s.inBound x.magtab 1024 || s.inBound x.plbase (max 1 (32 * x.pllen))
    || s.inBound x.rcbase (max 1 (5248 * x.rclen))

/-- `CTXEN` written 1. Registers that name a frame bound to a slot or a region are refused as those not in Pinned frames are (R297, R340; DEDUCED,
assumption 17). -/
def execCtxenSet (c : Nat) (s : State) : Host.Outcome State Fault Refusal :=
  s.onCtx c (.ctxenSet c) fun s =>
    let x := s.ctx c
    if x.state = 1 ∧ ([x.otbase, x.magtab, x.plbase, x.rcbase].all (s.pinnedTo x.vf)) = true ∧ s.ctxBound c = false then
      s.setCtx c { x with state := 2, ctxen := true }
    else s

/-- `CTXEN` written 0: from Ready, with every queue Disabled. -/
def execCtxenClear (c : Nat) (s : State) : Host.Outcome State Fault Refusal :=
  s.onCtx c (.ctxenClear c) fun s =>
    let x := s.ctx c
    if s.cstate c = 2 ∧ (x.queues.all fun q => q.2.half.qstate == 0) = true then s.setCtx c { x with state := 1, ctxen := false } else s

/-- A write of `PLHEAD`: not while a launch of the context is between stages 3 and 8. -/
def execPlheadWrite (c v : Nat) (s : State) : Host.Outcome State Fault Refusal :=
  s.onCtx c (.plheadWrite c v) fun s =>
    let x := s.ctx c
    if x.state = 0 ∨ (x.queues.any fun q => q.2.launch.isSome) = true then s else s.setCtx c { x with plhead := v % 2 ^ 32 }

/-! ### Scrub and reset (R342, R353) -/

/-- A packet with an outcome completes at once (R333). -/
def State.finishNow (s : State) (c q : Nat) : State :=
  match (s.queue c q).done with
  | none => s
  | some d =>
    let s := if (s.queue c q).landed then s else s.land c q d
    let mine := s.hub.sigops.filter fun x => x.ctx == c && x.q == q
    let s := { s with hub := { s.hub with sigops := s.hub.sigops.filter fun x => !(x.ctx == c && x.q == q) } }
    let s := mine.foldl State.hubSignal s
    let s := if (s.queue c q).seq % 2 = 1 then s else s.step3 c q d
    s.modQueue c q Queue.commit

/-- A launch takes the outcome of its ended grid, or ABORT where it has no region yet. -/
def State.endLaunch (s : State) (c q : Nat) : State :=
  let Q := s.queue c q
  match Q.launch, Q.done with
  | some L, none => s.outcome c q 6 (if L.rgn = 0 then cABORT else (s.region L.rgn).outcome.2) (s.region L.rgn).resultWord
  | _, _ => s

/-- Step 1: every launch of the context ends with ABORT n, one that waits for placement too; `back` says that launches complete under R333. -/
def State.scrub1 (s : State) (c n : Nat) (back : Bool) : State :=
  let s := s.abortCtx c n
  let s := if back then (s.ctx c).queues.foldl (fun s q => (s.endLaunch c q.1).finishNow c q.1) s else s
  (s.ctx c).queues.foldl (fun s q => s.withdraw c q.1) s

/-- Step 2: every region returns to Unplaced. -/
def State.scrub2 (s : State) (c : Nat) : State :=
  (s.regions.filter fun r => r.2.ctx == c && r.2.state != 0).foldl (fun s r => s.release r.1) s

/-- Loads of the context's slots end; every slot is Empty, every queue Disabled (step 3). -/
def State.scrub3 (s : State) (c : Nat) : State :=
  let s := (s.ctx c).slots.foldl (fun s x =>
    match x.2.state, x.2.loading with
    | 1, [_, _, e, ra, _] => (s.onDie e fun s => s.putStatus ra 3).unhold 5 (c * 256 + x.1)
    | _, _ => s) s
  let x := s.ctx c
  s.setCtx c { x with
    slots := []
    queues := x.queues.map fun q =>
      (q.1, { q.2.commit.upd fun h => { h with qstate := 0 } with
        en := false, pkt := [], launch := none, done := none, landed := false, woke := none, selBad := false }) }

/-- Steps 4 and 5: barrier and signal handles; the chain and the registers of Table 142. -/
def State.scrub45 (s : State) (c : Nat) : State :=
  let s := (s.ctx c).bmap.foldl (fun s e => s.unbindBar c e.1) s
  let s := (s.hub.sig.filter fun x => x.2.used && x.2.owner == c).foldl (fun s x => s.freeSig x.1) s
  let x := s.ctx c
  s.setCtx c { x with
    chain := 0, chainn := 0, otbase := 0, seed := 0, magtab := 0, plbase := 0, pllen := 0, plhead := 0, pldrop := 0, rcbase := 0, rclen := 0
    rcnt := 0, ctxen := false, pclr := false }

/-- The areas that a save of a region of the context was writing are scrubbed (R312, R353). -/
def State.zeroSaves (s : State) (c : Nat) : State :=
  ((s.regions.filter fun r => r.2.ctx == c).flatMap fun r => r.2.opFrames).foldl (fun s f => s.zeroFrames f 1) s

/-- A scrub of a bound context (R342): 1 by SCRUB, 2 from Barred. One that reaches a context while it is Scrubbing is made after that scrub. -/
def State.scrubCtx (s : State) (c : Nat) : State :=
  let x := s.ctx c
  if x.state = 0 then s
  else if x.state = 8 then s.setCtx c { x with deferred := x.deferred ++ [.scrub c] }
  else
    let s := ((((s.zeroSaves c).scrub1 c 3 true).scrub2 c).scrub3 c).scrub45 c
    s.setCtx c { s.ctx c with state := 8, scrub := if x.state = 7 then 2 else 1 }

/-- `SCRUB` written 1. -/
def execScrub (c : Nat) (s : State) : Host.Outcome State Fault Refusal :=
  s.onCtx c (.scrub c) fun s => if s.locked (s.ctx c).vf then s else s.scrubCtx c

/-- `SCRUB_COMPLETE` (Table 143): the state after it, and the events that waited for it. A context that ends Free is not Barred any more, its guilt
kept (DEDUCED, assumption 47): guilt that exceeds the limit bars it again once it is bound. -/
def execScrubComplete (c : Nat) (s : State) : Host.Outcome State Fault Refusal :=
  let x := s.ctx c
  .next (if x.state ≠ 8 then s
    else
      let y := { x with scrub := 0, deferred := [] }
      let y := if x.scrub = 3 then { y with state := 0, vf := 0, iface := 0, barred := false, scrubbed := false }
        else if x.scrub = 2 then { y with state := 7, scrubbed := true } else { y with state := 1 }
      ({ s.setCtx c y with agenda := x.deferred.map Task.host ++ s.agenda } : State).barCheck c)

/-- A transfer of saved state is under way on a region: Calico's save, a move, `rgmov.out`, `savc` or `rstc` (R353). -/
def Region.saving (R : Region) : Bool := R.state == 8 || (R.state == 6 && !R.hold) || R.op.isSome

/-- One is under way on a region of the context. -/
def State.saving (s : State) (c : Nat) : Bool := s.regions.any fun r => r.2.ctx == c && r.2.saving

/-- An FLR abandons the `savc` or `rstc` under way on a region of the context: the word ends with status 3 and bit 2 set (R352, R353). -/
def State.abandon (s : State) (c : Nat) : State :=
  (s.regions.filter fun r => r.2.ctx == c && r.2.op.isSome).foldl (fun s r => s.finish 7 r.1 (statusIn3 7)) s

/-- A context is reset with its function: nothing is written back, its control blocks are zero, and it ends Free. -/
def State.flrCtx (s : State) (c : Nat) : State :=
  let x := s.ctx c
  if x.state = 0 then s
  else
    let sv := s.saving c || x.savab
    let s := (((((s.abandon c).zeroSaves c).scrub1 c 1 false).scrub2 c).scrub3 c).scrub45 c
    s.setCtx c { s.ctx c with state := 8, scrub := 3, savab := sv, queues := [] }

/-- The function that a key slot is assigned to (`KSVF`, 17_link.md R376). -/
def State.slotFn (s : State) (n : Nat) : Option Nat :=
  let x := tget 0 s.hub.ksvf n
  if bitN x 31 then some (x % 32) else none

/-- Erase the key slots of a function. -/
def State.eraseKeys (s : State) (v : Nat) : State :=
  { s with hub := { s.hub with keys := s.hub.keys.filter fun x => s.slotFn x.1 != some v } }

/-- `FLR` of function v (R342, R375): its contexts, its host waiters and its interfaces' registers are reset, and its TDISP interface is
unlocked. -/
def execFlr (v : Nat) (s : State) : Host.Outcome State Fault Refusal :=
  if 31 < v then .fault (.noSuchAgent "function")
  else
    let s := { s with hub := { s.hub with waiters := s.hub.waiters.filter fun w => w.isQueue || w.fn != v } }
    let s := (s.ctxs.filter fun c => c.2.vf == v).foldl (fun s c => s.flrCtx c.1) s
    let F := s.fn v
    .next (s.setFn v { F with swt := [], swmir := [], swsts := [], holder := none, tdisp := 0 })

/-- `TDISP_ERROR` (R375): the contexts of the function are scrubbed with ABORT 3, and its key slots are erased. -/
def execTdispError (v : Nat) (s : State) : Host.Outcome State Fault Refusal :=
  if v = 0 ∨ 31 < v then .fault (.noSuchAgent "function")
  else
    let s := (s.ctxs.filter fun c => c.2.vf == v).foldl (fun s c => s.scrubCtx c.1) s
    .next ((s.setFn v { s.fn v with tdisp := 3 }).eraseKeys v)

/-! ### `trap` and `tret` (R348, R349) -/

def execTrap (p : BitVec 4) (f : FmtZ) (s : State) :=
  feWord p s fun s => .trap s { cause := cSWTRAP, val := f.imm.toNat % 2 ^ 16 }

/-- `TSTAT` with `HND` and `SKIP` clear. -/
def TrapRegs.left (t : TrapRegs) : TrapRegs := { t with tstat := t.tstat &&& ~~~(3#64) }

/-- Where the front end goes on after a trap that it detected. -/
def retPc (s : State) (t : TrapRegs) : Nat :=
  if t.skip && t.trpc == t.tpc then t.tpc.toNat + if (s.codeAt s.cur.agent t.tpc.toNat).any isTwoWord then 16 else 8 else t.trpc.toNat

/-- The head of queue q made a word whose predicate is false. -/
def Tile.skipHead (t : Tile) (q : Nat) : Tile :=
  match t.queue q with
  | [] => t
  | e :: l => t.setQueue q ({ e with pred := false } :: l)

def execTret (p : BitVec 4) (_f : FmtZ) (s : State) :=
  feWord p s fun s =>
    let c := s.core
    let t := c.trap
    if !t.hnd then illHere s
    else if t.tstat.toNat / 16 % 2 ^ 12 ≠ 0 ∨ t.tstat.toNat / 2 ^ 32 ≠ 0 then .trap s { cause := cBADSTAT, val := t.tstat.toNat }
    else if s.onSorrel then .goto (s.setCore { c with trap := t.left }) (retPc s t)
    else
      let pc := if t.dq = 0 then retPc s t else c.fePc
      let T := s.myTile
      let T := if t.dq ≠ 0 ∧ t.skip = true then T.skipHead t.dq else T
      .goto (s.setMyTile { T with
        trapped := false, catchup := true, hcyc := 0
        core := { c with trap := t.left, halted := c.feHalted, stopped := c.feStopped, feHalted := false, feStopped := false, fePc := 0 } }) pc

/-- `HANDLER_TIMEOUT` (R345): a handler that has run 2^20 cycles ends the grid with its trap's cause. -/
def execHandlerTimeout (k : Nat) (s : State) : Host.Outcome State Fault Refusal :=
  let T := s.tile k
  let t := T.core.trap
  .next (if !T.trapped || !t.hnd || T.hcyc < 2 ^ 20 then s
    else s.endBy k t.dq t.tpc.toNat true { cause := t.tcause.toNat, val := t.tval.toNat, words := t.trec })

/-! ### `rcpt` (R360) -/

/-- A body that Lovage refuses. -/
def bodyBad (b : List Byte) (c : Nat) : Bool :=
  pktF b 0 4 != 0x47335243 || pktF b 4 2 != 1 || !pktZero b 7 1 || !pktZero b 0x1AD 1 || !pktZero b 0x1B0 80 || pktF b 0x185 1 != c

def execRcpt (p : BitVec 4) (f : FmtZ) (s : State) :=
  svOp p f 1 s fun s a g =>
    let c := a / 2 ^ 24 % 256
    let o := g.getD 0 0 % 2 ^ 18
    let b := mread (s.die s.myDie).sram o 512
    if o % 8 ≠ 0 ∨ 2 ^ 18 - 512 < o ∨ bodyBad b c = true then (s, 1)
    else if s.leads = false ∨ (s.ctx c).rclen = 0 then (s, 3)
    else (s.signReceipt c (bitN a 32) b, 0)

end Sys2Proof.Machine
end

