-- ==== Sys2Proof/Machine/Link.lean ====
section
/-! DEFINITION. Dies, links, the sync domain, peers and key slots; `lnkc` and `lnkq` (17_link.md R361 to R379). -/

namespace Sys2Proof.Machine

/-! ### States and their changes (R378) -/

def State.link (s : State) (i : Nat) : Link := tget {} s.links i
def State.putLink (s : State) (i : Nat) (L : Link) : State := { s with links := tset s.links i L }

/-- A change of a link or die state adds 1 to `e4` of every Running Sorrel, stopping at 65,535. -/
def State.bumpE4 (s : State) : State :=
  [0, 1, 2].foldl (fun s d =>
    let D := s.die d
    if D.state = 5 then s.setDie d { D with sem := tset D.sem 4 (BitVec.ofNat 16 (min ((tget 0 D.sem 4).toNat + 1) 65535)) } else s) s

/-- The links of a die: its seams and its hub port (R361). -/
def dieLinks (d : Nat) : List Nat := (if d = 0 then [12] else if d = 1 then [12, 13] else [13]) ++ [14 + d]
/-- The dies at the ends of an on-package link. -/
def linkDies (i : Nat) : List Nat := if i = 12 then [0, 1] else if i = 13 then [1, 2] else [i - 14]

/-- The link numbers on the way between two dies. -/
def pathLinks (a b : Nat) : List Nat := seamsBetween a b

/-- Host frames' dies of an object range, as the tables stand. -/
def State.rangeDies (s : State) (c o off n : Nat) : List Nat :=
  (s.hostParts c o ⟨0, off, n, []⟩).map fun x => dieOfFrame (x.1 / frameB)

/-- An object range of tile k reached through link i; `kk` is the tile whose SRAM the objects of an SRAM name. -/
def State.through (s : State) (i k kk o off n : Nat) : Bool :=
  let d := dieOfTile k
  if o = oidScr ∨ o = oidPool then (pathLinks d (dieOfTile kk)).contains i
  else (s.rangeDies (s.ctxNo k) o off n).any fun e => (pathLinks d e).contains i

/-- A command of the XE has an access in flight through link i: its source while it reads; its destination until it has landed, or its arrivals have
been applied; the way to a peer from when it is sent until it completes. -/
def State.xeThrough (s : State) (i k : Nat) (c : XeCmd) : Bool :=
  let src := !c.finished && c.fobj.any fun o => s.through i k k o c.fofs.toNat c.fn
  if c.peer then
    let sent := c.finished || c.park == 3 || c.park == 5
    if sent then s.peerPort k c.w1 == i || i == 14 + dieOfTile k else src
  else if c.park = 4 then i == 14 + dieOfTile k
  else src || ((if c.isAw then !c.applied else !c.finished) && c.dobj.any fun o => s.through i k (c.dtile.getD k) o c.dofs.toNat c.dn)

/-- An increment in flight goes through link i. -/
def RemInc.through (i k : Nat) (y : RemInc) : Bool :=
  y.tile == k && match y.peer with
    | some p => p.1 == i || i == 14 + dieOfTile k
    | none => (pathLinks (dieOfTile k) (dieOfTile y.dtile)).contains i

/-- A command of the ME has an access in flight through link i. -/
def State.meThrough (s : State) (i k : Nat) (c : MeCmd) : Bool :=
  c.started && !c.finished && c.cap.oid != 0 && s.through i k k c.cap.oid (c.cap.cur + c.off).toNat (c.cap.hi - (c.cap.cur + c.off).toNat)

/-- LINKLOST at a word or command of tile k (R347, R366). -/
def State.linkLost (s : State) (i k srca pc : Nat) : State :=
  (s.tel (0x100 + 8 * cLINKLOST)).endBy k srca pc false { cause := cLINKLOST, val := i }

/-- The die whose memory an arrival goes to. -/
def Arrival.toDie (a : Arrival) : Nat :=
  if a.space = 0 then dieOfTile a.unit else if a.space = 1 then a.unit % 48 / 16 else dieOfFrame (a.addr / frameB)

/-- The dies that a landing of a peer still goes to. -/
def State.landDies (s : State) (x : PeerStore) : List Nat :=
  match x.dtx with
  | some d => ((s.tilesOf x.rgn).filter fun k => (s.tile k).tix == d).map dieOfTile
  | none => (frameParts x.off (max 1 x.data.length)).filterMap fun p =>
      match s.walk x.ctx x.oid (p.1 / frameB) with
      | .ok h => some (dieOfFrame h.2.2.2)
      | .error _ => none

/-- A peer's landing goes through link i: its Glimet port, or the hub port of a die it goes to. -/
def State.landThrough (s : State) (i : Nat) (x : PeerStore) : Bool := x.port == i || (14 ≤ i && (s.landDies x).contains (i - 14))

/-- A peer's arrival went through link i. -/
def Arrival.through (i : Nat) (a : Arrival) : Bool := a.port == some i || (a.port.isSome && a.toDie + 14 == i)

/-- The region in Running of a context. -/
def State.runningOf (s : State) (c : Nat) : Option Nat := (s.regions.find? fun r => r.2.ctx == c && r.2.state == 3).map Prod.fst

/-- The tile of a region with an index. -/
def State.tileAt (s : State) (r tix : Nat) : Option Nat := (s.tilesOf r).find? fun k => (s.tile k).tix == tix

/-- The die that a peer's increment goes to. -/
def State.sigDie (s : State) (x : PeerSig) : Option Nat := ((s.runningOf x.ctx).bind fun r => s.tileAt r x.dtx).map dieOfTile

/-- What peers had in flight through link i and is not applied or landed is discarded: landings, arrivals, and increments that a frozen domain holds. A
peer whose own link stands is told (R364, R366). -/
def State.losePeers (s : State) (i : Nat) : State :=
  let gone := s.pstores.filter (s.landThrough i)
  let arrs := s.arrivals.filter (Arrival.through i)
  let sigs := s.psigs.filter fun x => x.port == i || (s.sigDie x).any fun d => 14 + d == i
  let s := { s with
    arrivals := s.arrivals.filter fun a => !a.through i, pstores := s.pstores.filter fun x => !gone.contains x
    psigs := s.psigs.filter fun x => !sigs.contains x }
  let s := (gone.filter (·.port != i)).foldl (fun s x => s.send "peer-landed" [x.port, x.id, cLINKLOST]) s
  let s := (arrs.filter (·.port != some i)).foldl (fun s a => s.send "peer-lost" [a.port.getD 0, a.lseq, a.tix, a.seq, i]) s
  (sigs.filter (·.port != i)).foldl (fun s x => s.send "peer-answer" [x.n, 5, i, x.port]) s

/-- A command of tile k toward a peer has been lost there: it was on a way through link i of the peer (R364, R366). -/
def State.peerCmdLost (s : State) (k seq i : Nat) : State :=
  match (s.tile k).xrun.find? fun c => c.seq == seq && c.peer && (c.finished || c.park == 3 || c.park == 5) with
  | none => s
  | some c => s.linkLost i k 5 c.pc

/-- Every access in flight through link i completes with LINKLOST, and the grids it reaches end at that instant. -/
def State.loseAccesses (s : State) (i : Nat) : State :=
  let s := s.losePeers i
  let s := s.tiles.foldl (fun s x =>
    let k := x.1
    let t := s.tile k
    if t.rgn = 0 then s
    else
      let s := match t.dacc.find? fun a => a.st != 3 && a.parts.any fun p => s.through i k k a.oid p.off p.n with
        | some a => s.linkLost i k (if a.write then 3 else 1) a.pc
        | none => s
      let s := match t.meq.find? (s.meThrough i k) with
        | some c => s.linkLost i k 4 c.pc
        | none => s
      let s := match t.xrun.find? (s.xeThrough i k) with
        | some c => s.linkLost i k 5 c.pc
        | none => s
      match s.incs.find? (RemInc.through i k) with
      | some y => s.linkLost i k 5 y.pc
      | none => s) s
  s.settleAll

/-- A port no longer raises the domain stall wire. -/
def State.dropWire (s : State) (i : Nat) : State :=
  let s := s.putLink i { s.link i with stall := false }
  { s with dom := { s.dom with wire := s.links.any fun l => l.2.stall } }

/-- A link leaves Running for a state other than Rekeying (R366). -/
def State.leaveRunning (s : State) (i : Nat) : State :=
  let s := (s.putLink i { s.link i with cache := [], served := [], rinv := [], pwid := [] }).peerLost i
  let s := (s.loseAccesses i).dropWire i
  s.ctxs.foldl (fun s c =>
    let x := s.ctx c.1
    s.setCtx c.1 { x with peers := x.peers.map fun e => if e.2.toNat % 16 = i then (e.1, e.2 &&& ~~~(32#64)) else e }) s

/-- The `PKGID` of this package. -/
def ownPkg : Nat := pkgOf Config.deviceIdentity

/-- A Glimet link of the sync domain: Aligned, Running or Rekeying (R370). -/
def Link.joins (L : Link) : Bool := L.state == 4 || L.state == 5 || L.state == 6

/-- The other members of the domain and its diameter, from the links that join it (R370): what the far end of each last told. -/
def State.rejoin (s : State) : State :=
  let ls := ((List.range 12).map s.link).filter Link.joins
  { s with dom := { s.dom with
    members := ((ls.flatMap fun L => pkgOf L.peer :: L.pmem).filter (· != ownPkg)).eraseDups
    diameter := (ls.map Link.pdia).foldl max 0 } }

/-- A link changes state. -/
def State.linkTo (s : State) (i st : Nat) : State :=
  let L := s.link i
  if L.state = st then s
  else
    let s := (s.putLink i { L with state := st }).bumpE4
    let s := if i < 12 ∧ L.joins ≠ (s.link i).joins then s.rejoin else s
    if L.carries && st != 5 && st != 6 then s.leaveRunning i else s

/-- To Down: keys are erased. -/
def State.linkDown (s : State) (i : Nat) : State :=
  let s := s.linkTo i 0
  s.putLink i { s.link i with qcode := 0, retrain := false, d0 := {}, d1 := {}, peer := 0, pmem := [], pdia := 0, pofs := 0 }

/-- To Quarantined. -/
def State.linkQuar (s : State) (i q : Nat) : State :=
  let s := s.linkTo i 7
  s.putLink i { s.link i with qcode := q }

/-- A die changes state. -/
def State.dieTo (s : State) (d st : Nat) : State :=
  let D := s.die d
  if D.state = st then s else (s.setDie d { D with state := st }).bumpE4

/-- An on-package link may train: both its dies are Admitted, or for a hub port its die is Quarantined after its measurement (Table 152,
Table 153). -/
def State.endsReady (s : State) (i : Nat) : Bool :=
  (linkDies i).all fun d => 4 ≤ (s.die d).state || (14 ≤ i && (s.die d).state == 3 && (s.die d).qcode != 6)

/-- On-package links whose ends are ready leave Down. -/
def State.bringUp (s : State) : State :=
  [12, 13, 14, 15, 16].foldl (fun s i => if (s.link i).state = 0 ∧ s.endsReady i = true then s.linkTo i 1 else s) s

/-- The Sorrel of a die starts: its registers at reset, at the first word of its SRAM. -/
def startSorrel (D : Die) : Die := { D with sorrel := { trap := { tvec := 0xFFFFFFFF } }, sem := [] }

/-- The condition of Table 153 on which an Admitted die runs. -/
def State.dieReady (s : State) (d : Nat) : Bool :=
  (s.die d).state == 4 && (s.link (14 + d)).state == 5
    && [12, 13].all fun i => !(linkDies i).contains d || ((linkDies i).any fun e => e != d && (s.die e).state < 4) || (s.link i).state == 5

/-- Admitted dies whose links run become Running. -/
def State.runDies (s : State) : State :=
  [0, 1, 2].foldl (fun s d => if s.dieReady d then (s.setDie d (startSorrel (s.die d))).dieTo d 5 else s) s

/-- What follows a change of a die or a link. -/
def State.settleLinks (s : State) : State := s.bringUp.runDies

/-! ### Dies (R362 to R364) -/

/-- The lease lapses when its holder can no longer hold it (R23). -/
def State.dropLease (s : State) (d : Nat) : State :=
  if s.hub.lease = some d then ({ s with hub := { s.hub with lease := none, leaseLeft := 0 } } : State).abandonLoads d else s

/-- Frames a region's saved state lies on. -/
def Region.savedOn (R : Region) (d : Nat) : Bool := (regionFrames R).any fun f => dieOfFrame f == d

/-- What an attestation leaves is gone: it starts again (Table 153). -/
def Die.fresh (D : Die) : Die := { D with checked := false, qcode := 0, fwDigest := none }

/-- A region has lost its tiles of die d (R364). -/
def State.loseTiles (s : State) (r d : Nat) : State :=
  let R := s.region r
  s.setRegion r { R with lost := sins R.lost d }

/-- A single-die reset (R364, R312, R353). -/
def State.resetDie (s : State) (d : Nat) : State :=
  let s := (dieLinks d).foldl State.linkDown s
  let rs := s.regions.filter fun r => r.2.state != 0 && (r.2.hubDies.contains d || r.2.savedOn d)
  let s := rs.foldl (fun s r =>
    if (s.region r.1).state = 10 then s else s.endGrid r.1 { cause := cABORT, val := 5, lseq := r.2.launch.lseq }) s
  let s := rs.foldl (fun s r => s.loseTiles r.1 d) s
  let s := s.dropLease d
  let ks := (s.tiles.filter fun t => dieOfTile t.1 == d).map Prod.fst
  let s := ks.foldl (fun s k => s.setTile k {}) s
  let s := (s.pools.filter fun p => p.1 % 48 / 16 == d).foldl (fun s p => s.setPool p.1 {}) s
  let D := s.die d
  (s.setDie d { startSorrel D.fresh with
    resets := min (D.resets + 1) 0xFFFF, fbuf := [], fheld := [], fpop := [], fover := 0, fseq := 0,
    firq := false, etc := [], walks := [] }).dieTo d 1 |>.settleLinks

/-- An event of a die of the package. -/
def dieEv (d : Nat) (s : State) (f : State → State) : Host.Outcome State Fault Refusal :=
  if 2 < d then .fault (.noSuchAgent "die") else .next (f s)

/-- The rectangle of R18 on die d from row y: 32 columns by 16 rows. -/
def inGoodRect (d y k : Nat) : Bool := dieOfTile k == d && y ≤ k / 96 && k / 96 < y + 16

/-- The defect map of die d: every die has 512 good tiles in a rectangle that starts on an even row (R18). -/
def defectsOf (d : Nat) : List Nat :=
  let l := (Config.defectMap d).filter fun k => dieOfTile k == d && k < 1728
  if [0, 2].any fun y => l.all fun k => !inGoodRect d y k then l else []

/-- `SUPPLY_IN_REGULATION`: the defect map is read from fuses (R18), and the die has its leaf key (R363). -/
def execSupplyInRegulation (d : Nat) (s : State) : Host.Outcome State Fault Refusal :=
  dieEv d s fun s =>
    if (s.die d).state = 0 then
      (s.setDie d { (s.die d).fresh with defect := defectsOf d, leaf := Config.leafDigest d }).dieTo d 1
    else s

def execSupplyLost (d : Nat) (s : State) : Host.Outcome State Fault Refusal :=
  dieEv d s fun s => (((s.setDie d (s.die d).fresh).dieTo d 0).dropLease d).settleLinks

def execDieResetRelease (d : Nat) (s : State) : Host.Outcome State Fault Refusal :=
  dieEv d s fun s => if (s.die d).state = 1 then (s.setDie d (s.die d).fresh).dieTo d 2 else s

/-- The measurement ends: the boot ROM's digest of the firmware, or a failed self-test. -/
def execDieMeasurementDone (d : Nat) (pass : Bool) (g : BitVec 384) (s : State) : Host.Outcome State Fault Refusal :=
  dieEv d s fun s =>
    let D := s.die d
    if D.state ≠ 2 then s
    else (s.setDie d (if pass then { D with fwDigest := some g } else { D with qcode := 6 })).dieTo d 3 |>.settleLinks

/-- A code of the event that stands for a secured session that is not set up (step 5 of R363). -/
abbrev noSession := 0x104

/-- The code of the first of the five checks of R363 that fails, 0 when all pass. What SPDM brings is the event's: `q`, a code of 8 bits, tells of the
negotiation, the certificate chain and, last, the session. The digest of the leaf key is compared with the fused identity, and the measured firmware
with the manifest. -/
def Die.admitCode (D : Die) (d q : Nat) : Nat :=
  if q % 256 ≠ 0 ∧ q ≠ noSession then q % 256
  else if D.leaf ≠ Config.fusedIdentity d then 3
  else if D.fwDigest ≠ some Config.fwManifest then 2
  else if q = noSession then 4 else 0

/-- Lovage's checks of R363 end over a trained hub port. -/
def execDieAdmissionCheckEnd (d q : Nat) (s : State) : Host.Outcome State Fault Refusal :=
  dieEv d s fun s =>
    let D := s.die d
    let q := D.admitCode d q
    if D.state ≠ 3 ∨ D.checked = true ∨ D.qcode = 6 ∨ (s.link (14 + d)).state < 2 then s
    else
      let s := s.setDie d { D with checked := true, qcode := q }
      if q = 0 then (s.dieTo d 4).settleLinks else s

def execDieWatchdog (d : Nat) (s : State) : Host.Outcome State Fault Refusal :=
  dieEv d s fun s => if (s.die d).state = 0 then s else s.resetDie d

/-! ### Links (R365, R367 to R369) -/

/-- An event of a link that Table 154 governs. -/
def linkEv (i : Nat) (s : State) (f : State → Link → State) : Host.Outcome State Fault Refusal :=
  if 16 < i then .fault (.noSuchAgent "link") else .next (f s (s.link i))

/-- Direction `dir` of a link. -/
def Link.dir (L : Link) (d : Nat) : Dir := if d = 0 then L.d0 else L.d1
def Link.setDir (L : Link) (d : Nat) (x : Dir) : Link := if d = 0 then { L with d0 := x } else { L with d1 := x }

/-- A rollover begins: the receiver installs the next generation and keeps the old one (R368). -/
def Dir.start (x : Dir) : Dir := { x with roll := true, two := true, wait := false, slast := none }

/-- Requests that waited for Running begin (R369). -/
def State.startWaiting (s : State) (i : Nat) : State :=
  let L := s.link i
  if L.state = 5 ∧ (L.d0.wait || L.d1.wait) = true then
    (s.putLink i { L with d0 := if L.d0.wait then L.d0.start else L.d0, d1 := if L.d1.wait then L.d1.start else L.d1 }).linkTo i 6
  else s

/-- From Keyed on through the states an on-package link, or a retrained link, passes at once. -/
def State.toRunning (s : State) (i : Nat) : State := ((((s.linkTo i 3).linkTo i 4).linkTo i 5).startWaiting i).settleLinks

/-- `LINK_TRAINING_END`. A retrain keeps its keys and passes on to Running. -/
def execLinkTrainingEnd (i : Nat) (ok : Bool) (s : State) : Host.Outcome State Fault Refusal :=
  linkEv i s fun s L =>
    if L.state ≠ 1 then s
    else if !ok then s.linkTo i 8
    else
      let s := s.linkTo i 2
      if L.retrain then ((s.putLink i { s.link i with retrain := false }).tel (0x900 + 16 * i)).toRunning i else s

/-- `LINK_ATTEST_END`: generation 0 is installed in both directions, or the link is quarantined (Table 154). Which code stands when the checks of an
on-package link pass and an end is not Admitted is not stated: a free value. -/
def execLinkAttestEnd (i q : Nat) (peer : BitVec 384) (s : State) : Host.Outcome State Fault Refusal :=
  linkEv i s fun s L =>
    let keyed := fun (s : State) => s.putLink i { s.link i with d0 := {}, d1 := {}, qcode := 0, sess := (s.link i).sess + 1 }
    if L.state ≠ 2 then s
    else if 12 ≤ i then
      (if q ≠ 0 then s.linkQuar i (q % 256)
      else if (linkDies i).all fun d => 4 ≤ (s.die d).state then (keyed s).toRunning i
      else s.free.2.linkQuar i ((Config.freeWord s.freeCtr).toNat % 256))
    else if q ≠ 0 then s.linkQuar i (q % 256)
    else if peer ≠ tget 0 s.hub.peerid i then s.linkQuar i 3
    else
      let s := keyed s
      (s.putLink i { s.link i with peer := peer }).linkTo i 3

/-- A direction at a retrain (R369): before the switch the rollover is given up, to begin again; after it the receiver drops the old
generation. -/
def Dir.retrain (x : Dir) : Dir :=
  if !x.roll then x
  else if x.sw then
    { x with
      roll := false, two := false, sw := false, rgen := x.rgen + 1, rcnt := 0, held := [], fails := 0
      sent := x.sent.filter fun y => y.1 == x.gen }
  else { x with roll := false, two := false, wait := true, fails := 0 }

/-- `LINK_ERROR_BURST` (Table 154). -/
def execLinkErrorBurst (i : Nat) (s : State) : Host.Outcome State Fault Refusal :=
  linkEv i s fun s L =>
    if !L.carries then s
    else
      let s := s.linkTo i 1
      let L := s.link i
      s.putLink i { L with retrain := true, d0 := L.d0.retrain, d1 := L.d1.retrain }

/-- Flits of the receiver's generation that wait and are next are delivered (R367). -/
def Dir.deliver : Nat → Dir → Dir
  | 0, x => x
  | n + 1, x => if x.held.contains (x.rgen, x.rcnt) then
      Dir.deliver n { x with rcnt := x.rcnt + 1, held := x.held.filter (· != (x.rgen, x.rcnt)) } else x

/-- The generation that a flit's bit names at the receiver of a direction: of those it may hold, the older, or the one after it (R367). -/
def Dir.genOf (x : Dir) (g : Nat) : Nat := if x.rgen % 2 = g % 2 then x.rgen else x.rgen + 1

/-- A flit that passes its checks (R367): the generation its bit names among those held. -/
def Dir.accept (x : Dir) (g cnt : Nat) : Dir :=
  let n := x.genOf g
  let x := { x with fails := 0 }
  if n = x.rgen ∧ cnt < x.rcnt then x
  else
    let x := { x with held := if x.held.contains (n, cnt) then x.held else x.held ++ [(n, cnt)] }
    Dir.deliver x.held.length x


/-- `ROLLOVER_START`: during Rekeying the request waits until the link is Running again (R369). -/
def execRolloverStart (i dir : Nat) (s : State) : Host.Outcome State Fault Refusal :=
  linkEv i s fun s L =>
    if L.state = 5 then (s.putLink i (L.setDir dir (L.dir dir).start)).linkTo i 6
    else if L.state = 6 then s.putLink i (L.setDir dir { L.dir dir with wait := true })
    else s

/-! ### The sync domain (R370, R371) -/

/-- The smallest of package ids. -/
def minId (l : List Nat) : Nat := match l with
  | [] => 0
  | a :: l => l.foldl min a
/-- Identifier and stall lead of the domain. -/
def Domain.ident (D : Domain) : Nat := minId (ownPkg :: D.members)
def Domain.lead (D : Domain) : Nat := 1 + (160 * D.diameter + 127) / 128

/-- The key of a direction of link i in generation n (R365). -/
def linkKey (i sess dir n : Nat) : List Byte :=
  hkdfExpand (Config.linkSecret i sess)
    ([0x67, 0x6C, 0x69, 0x6D, 0x65, 0x74, 0x20, 0x6C, 0x69, 0x6E, 0x6B] ++ leBytes 1 i ++ leBytes 1 dir ++ leBytes 4 n) 32

/-- A flit of 256 bytes (R367): the header, which is authenticated, the payload encrypted, and the tag. -/
def flitBytes (i sess dir gen cnt : Nat) (payload : List Byte) : List Byte :=
  let body := (payload ++ List.replicate 232 0).take 232
  let key := linkKey i sess dir gen
  let iv := leBytes 4 (2 * i + dir) ++ leBytes 8 cnt
  let ct := (gcm key iv [] body []).1
  let hdr := leBytes 8 (Config.flitHeader key iv cnt (gen % 2) ct).toNat
  hdr ++ ct ++ (gcm key iv hdr [] ct).2

/-- The direction in which this package sends: 0 when it is the lower end. -/
def sendDir (i : Nat) (L : Link) : Nat := if i < 12 ∧ pkgOf L.peer < ownPkg then 1 else 0

/-- A direction of a link that this package sends in, and one that it receives in: both of an on-package link. -/
def Link.sends (L : Link) (i dir : Nat) : Bool := 12 ≤ i || dir == sendDir i L
def Link.receives (L : Link) (i dir : Nat) : Bool := 12 ≤ i || dir != sendDir i L

/-- A flit goes onto the link: its bytes follow from its generation, its counter and its payload, so a replay is the same bit for bit (R369). -/
def State.putFlit (s : State) (i dir gen cnt : Nat) (payload : List Byte) : State :=
  s.send "flit" (i :: dir :: (flitBytes i (s.link i).sess dir gen cnt payload).map BitVec.toNat)

/-- The receiver of a direction has acknowledged the flits of generation g up to counter n, or has flit n replayed (R367, R369). -/
def State.flitAck (s : State) (i dir g n : Nat) (replay : Bool) : State :=
  let L := s.link i
  let x := L.dir dir
  if 16 < i ∨ L.carries = false then s
  else if replay then
    match x.sent.find? fun y => y.1 == g && y.2.1 == n with
    | some y => s.putFlit i dir y.1 y.2.1 y.2.2
    | none => s
  else s.putLink i (L.setDir dir { x with sent := x.sent.filter fun y => !(y.1 == g && y.2.1 ≤ n) })

/-- The receiver of a direction has a flit that failed a check replayed: the sender is told which, here or at the far end. That the flit is named by its
generation and counter is DEDUCED (assumption 33). -/
def State.askReplay (s : State) (i dir g cnt : Nat) : State :=
  let n := ((s.link i).dir dir).genOf g
  if 12 ≤ i then s.flitAck i dir n cnt true else s.send "replay" [i, dir, n, cnt]

/-- The far sender of a direction has switched: how many flits its generation before had (R368). -/
def State.flitLast (s : State) (i dir n : Nat) : State :=
  let L := s.link i
  let x := L.dir dir
  if 11 < i ∨ x.sw = false ∨ dir = sendDir i L then s else s.putLink i (L.setDir dir { x with slast := some n })

/-- `FLIT_RECEIVE` (R367, R369): a flit that fails a check is replayed, and four tag failures in a row quarantine the link. What is not SPDM is
discarded at a Quarantined die's hub port (R363). -/
def execFlitReceive (i dir : Nat) (crcOk tagOk : Bool) (g cnt : Nat) (s : State) : Host.Outcome State Fault Refusal :=
  linkEv i s fun s L =>
    let x := L.dir dir
    if L.state = 0 ∨ (14 ≤ i ∧ (s.die (i - 14)).state = 3) then s
    else if !crcOk then s.askReplay i dir g cnt
    else if tagOk && (x.rgen % 2 == g % 2 || x.two) then s.putLink i (L.setDir dir (x.accept g cnt))
    else if 4 ≤ x.fails + 1 then (s.putLink i (L.setDir dir { x with fails := 0 })).linkQuar i 5
    else (s.putLink i (L.setDir dir { x with fails := x.fails + 1 })).askReplay i dir g cnt

/-- The counter at which a sender starts a rollover, and the one at which it sends no further flit before it switches (R368). -/
abbrev rollAt := 2 ^ 32 - 2 ^ 24
abbrev rollStop := 2 ^ 32 - 1

/-- A rollover starts, or waits for the link to run again, once a sender's counter has come far enough (R368, R369). -/
def State.pressRoll (s : State) (i dir : Nat) : State :=
  let L := s.link i
  let x := L.dir dir
  if x.roll || x.wait || x.scnt < rollAt then s
  else if L.state = 5 then (s.putLink i (L.setDir dir x.start)).linkTo i 6
  else if L.state = 6 then s.putLink i (L.setDir dir { x with wait := true })
  else s

/-- A port raises the domain stall wire (R371): the members freeze at the close of step u + L − 1. -/
def State.raiseWire (s : State) (i : Nat) : State :=
  let s := s.putLink i { s.link i with stall := true }
  let D := s.dom
  { s with dom := { D with wire := true, freezeAt := if D.freezeAt.isSome || D.frozen then D.freezeAt else some (D.step + D.lead - 1) } }

/-- The sender of a direction sends a flit. At the last counter it holds the flit until it switches, and the traffic is delayed under R371. -/
def State.flitSend (s : State) (i dir : Nat) (payload : List Byte) : State :=
  let L := s.link i
  let x := L.dir dir
  if 16 < i ∨ L.carries = false then s
  else if rollStop ≤ x.scnt then (s.putLink i (L.setDir dir { x with stop := x.stop ++ [payload] })).raiseWire i
  else
    ((s.putLink i (L.setDir dir { x with scnt := x.scnt + 1, sent := x.sent ++ [(x.gen, x.scnt, payload)] })).putFlit i dir x.gen x.scnt
      payload).pressRoll i dir

/-- `ROLLOVER_ACK`: the sender switches, and sends the flits it had to hold. How many flits its generation had is known where it is this package, and is
told otherwise. -/
def execRolloverAck (i dir : Nat) (s : State) : Host.Outcome State Fault Refusal :=
  linkEv i s fun s L =>
    let x := L.dir dir
    if L.state ≠ 6 ∨ x.roll = false ∨ x.sw = true then s
    else
      x.stop.foldl (fun s p => s.flitSend i dir p)
        (s.putLink i (L.setDir dir { x with sw := true, gen := (x.gen + 1) % 2 ^ 32, slast := if L.sends i dir then some x.scnt else none, scnt := 0, stop := [] }))

/-- The last flit of the old generation has been delivered, where this package receives, and acknowledged, where it sends (R368). -/
def Dir.rollDone (x : Dir) (sends receives : Bool) : Bool :=
  (!receives || x.slast.any fun n => n ≤ x.rcnt) && (!sends || x.sent.all fun y => y.1 == x.gen)

/-- `ROLLOVER_END`: once the last flit of the old generation has been delivered the receiver discards it; the link is Running when no direction
rolls. -/
def execRolloverEnd (i dir : Nat) (s : State) : Host.Outcome State Fault Refusal :=
  linkEv i s fun s L =>
    let x := L.dir dir
    if L.state ≠ 6 ∨ x.sw = false ∨ x.rollDone (L.sends i dir) (L.receives i dir) = false then s
    else
      let x := { x with roll := false, two := false, sw := false, rgen := x.rgen + 1, rcnt := 0 }
      let L := L.setDir dir (Dir.deliver x.held.length x)
      let s := s.putLink i L
      if L.d0.roll || L.d1.roll then s else (((s.linkTo i 5).tel (0x908 + 16 * i)).startWaiting i).settleLinks

/-! ### Joining domains (R370, R371) -/

/-- `DOMAIN_STALL_RAISE`: some flit of a port that carries data cannot be carried in time. -/
def execDomainStallRaise (i : Nat) (s : State) : Host.Outcome State Fault Refusal :=
  linkEv i s fun s L => if L.carries then s.raiseWire i else s

/-- No flit of a direction waits to be sent, to be acknowledged, or to be delivered. -/
def Dir.clear (x : Dir) : Bool := x.stop.isEmpty && x.sent.isEmpty && x.held.isEmpty
/-- Every flit of the link has been delivered. -/
def Link.clear (L : Link) : Bool := L.d0.clear && L.d1.clear

/-- `DOMAIN_STALL_DROP`: the wire drops when every flit that it was raised for has been delivered. -/
def execDomainStallDrop (i : Nat) (s : State) : Host.Outcome State Fault Refusal := linkEv i s fun s L => if L.clear then s.dropWire i else s

/-- The domain that a Keyed link's ends would make: its other members and its diameter (R370). -/
def joined (s : State) (L : Link) : List Nat := ((s.dom.members ++ pkgOf L.peer :: L.pmem).filter (· != ownPkg)).eraseDups

/-- `lnkc.algn`: the domain with the larger identifier adopts the other's count at its next step boundary. -/
def State.align (s : State) (i : Nat) : State :=
  let L := s.link i
  let D := s.dom
  let theirs := minId (pkgOf L.peer :: L.pmem)
  let s := if theirs < D.ident then { s with dom := { D with adopt := some L.pofs } }
    else if D.ident < theirs then s.send "adopt" [i, D.step] else s
  s.linkTo i 4

/-- The far end of link i tells its side of the domain; when a join elsewhere has brought a smaller identifier, its count is adopted (R370). -/
def State.peerTells (s : State) (i : Nat) (m : List Nat) (x n : Nat) : State :=
  let D := s.dom
  let o : Int := (n : Int) - D.step
  let s := s.putLink i { s.link i with pmem := m, pdia := x, pofs := o }
  if 11 < i ∨ (s.link i).joins = false then s
  else
    let s := s.rejoin
    if s.dom.ident < D.ident then { s with dom := { s.dom with adopt := some o } } else s

/-! ### `lnkc` and `lnkq` (R378, R379) -/

/-- A link operation whose link may be 0 to `top`. -/
def lnkcOp (p : BitVec 4) (f : FmtZ) (top : Nat) (s : State) (body : State → Nat → Link → State × Nat) : Host.Outcome State Fault Refusal :=
  svOp p f 0 s fun s a _ =>
    let i := a % 32
    if 16 < i then (s, 1) else if top < i then (s, 2) else body s i (s.link i)

def execLnkcUp (p : BitVec 4) (f : FmtZ) (s : State) :=
  lnkcOp p f 11 s fun s i L => if L.state ≠ 0 then (s, 3) else (s.linkTo i 1, 0)
def execLnkcDown (p : BitVec 4) (f : FmtZ) (s : State) :=
  lnkcOp p f 11 s fun s i L => if L.state = 0 then (s, 3) else (s.linkDown i, 0)
def execLnkcRkey (p : BitVec 4) (f : FmtZ) (s : State) :=
  lnkcOp p f 16 s fun s i L =>
    if L.state ≠ 5 then (s, 3) else ((s.putLink i { L with d0 := L.d0.start, d1 := L.d1.start }).linkTo i 6, 0)
def execLnkcAlgn (p : BitVec 4) (f : FmtZ) (s : State) :=
  lnkcOp p f 11 s fun s i L =>
    if L.state ≠ 3 ∨ 63 < (joined s L).length ∨ 8 < max s.dom.diameter L.pdia then (s, 3) else (s.align i, 0)
def execLnkcRun (p : BitVec 4) (f : FmtZ) (s : State) :=
  lnkcOp p f 11 s fun s i L => if L.state ≠ 4 then (s, 3) else ((s.linkTo i 5).startWaiting i, 0)
def execLnkcQrl (p : BitVec 4) (f : FmtZ) (s : State) :=
  lnkcOp p f 16 s fun s i L => if L.state ≠ 7 ∧ L.state ≠ 8 then (s, 3) else ((s.linkDown i).settleLinks, 0)

/-- A die operation. -/
def lnkcDie (p : BitVec 4) (f : FmtZ) (s : State) (body : State → Nat → Die → State × Nat) : Host.Outcome State Fault Refusal :=
  svOp p f 0 s fun s a _ => if 2 < a % 32 then (s, 1) else body s (a % 32) (s.die (a % 32))

def execLnkcDrst (p : BitVec 4) (f : FmtZ) (s : State) :=
  lnkcDie p f s fun s d D => if d = s.myDie ∨ D.state = 0 then (s, 3) else (s.resetDie d, 0)
def execLnkcDqrl (p : BitVec 4) (f : FmtZ) (s : State) :=
  lnkcDie p f s fun s d D =>
    if D.state ≠ 3 then (s, 3) else ((s.setDie d D.fresh).dieTo d 1, 0)

def execLnkqLnk (p : BitVec 4) (f : FmtZ) (s : State) :=
  lnkcOp p f 16 s fun s i L =>
    (s.putRegs f.b.toNat
      [L.state % 16 + (if L.d0.two || L.d1.two then 16 else 0) + L.qcode % 256 * 2 ^ 8 + (L.dir (sendDir i L)).gen % 2 ^ 32 * 2 ^ 16,
       if i < 12 then pkgOf L.peer else 0], 0)
def execLnkqDie (p : BitVec 4) (f : FmtZ) (s : State) :=
  lnkcDie p f s fun s _ D => (s.putRegs f.b.toNat [D.state % 8 + D.qcode % 256 * 2 ^ 8 + D.resets % 2 ^ 16 * 2 ^ 16], 0)
def execLnkqDom (p : BitVec 4) (f : FmtZ) (s : State) :=
  svOp p f 0 s fun s _ _ =>
    let D := s.dom
    (s.putRegs f.b.toNat
      [D.ident, (D.members.length + 1) % 128 + D.diameter % 16 * 2 ^ 8 + D.lead % 16 * 2 ^ 12 + (if D.wire then 2 ^ 16 else 0), D.step], 0)

/-! ### The host link, IDE and TDISP (R374, R375) -/

def execHostLinkRetrain (s : State) : Host.Outcome State Fault Refusal := .next (s.tel (0x900 + 16 * 17))
def execIdeKeyRefresh (s : State) : Host.Outcome State Fault Refusal := .next (s.tel (0x908 + 16 * 17))

/-- `IDE_KM`: the key of a function's selective stream. -/
def execIdeKm (v : Nat) (key : BitVec 256) (s : State) : Host.Outcome State Fault Refusal :=
  if 31 < v then .fault (.noSuchAgent "function") else .next (s.setFn v { s.fn v with idekm := true, idekey := key })

/-- `TDISP_LOCK` and `TDISP_RUN` of a virtual function's interface. -/
def tdispMove (v old new : Nat) (s : State) : Host.Outcome State Fault Refusal :=
  if v = 0 ∨ 31 < v then .fault (.noSuchAgent "function")
  else .next (if (s.fn v).tdisp = old then s.setFn v { s.fn v with tdisp := new } else s)
def execTdispLock (v : Nat) (s : State) := tdispMove v 0 1 s
def execTdispRun (v : Nat) (s : State) := tdispMove v 1 2 s

/-! ### Key slots and peers (R372, R373, R376, R377) -/

/-- A write of `KSVF`: both functions' interfaces must be CONFIG_UNLOCKED. -/
def execKsvf (n x : Nat) (s : State) : Host.Outcome State Fault Refusal :=
  let new := x % 32 + (if bitN x 31 then 2 ^ 31 else 0)
  .next (if 255 < n ∨ ((s.slotFn n).any fun v => (s.fn v).tdisp != 0) = true ∨ (bitN x 31 && (s.fn (x % 32)).tdisp != 0) = true then s
    else { s with hub := { s.hub with ksvf := tset s.hub.ksvf n new } })

/-- A function's request reaches its key slot: in RUN, with the T bit, on its IDE stream, which has a key (R375). -/
def State.keyWritable (s : State) (n v : Nat) (t : Bool) : Bool := s.slotFn n == some v && (s.fn v).tdisp == 2 && (s.fn v).idekm && t

def State.setKey (s : State) (n : Nat) (x : KeySlot) : State := { s with hub := { s.hub with keys := tset s.hub.keys n x } }

def execKeySlotLoad (n v : Nat) (t : Bool) (s : State) : Host.Outcome State Fault Refusal :=
  let x := tget {} s.hub.keys n
  .next (if s.keyWritable n v t then
      s.setKey n { valid := true, owner := x.stOwner, key := x.stKey, last := x.stLast, stKey := 0, stOwner := x.stOwner, stLast := x.stLast }
    else s)

def execKeySlotClr (n v : Nat) (t : Bool) (s : State) : Host.Outcome State Fault Refusal :=
  .next (if s.keyWritable n v t then s.setKey n {} else s)

/-- A write of a peer entry (R372, R375): the pair must be confirmed again. -/
def execPeerEntryWrite (c e x : Nat) (s : State) : Host.Outcome State Fault Refusal :=
  let C := s.ctx c
  .next (if 255 < c ∨ 11 < e ∨ s.locked C.vf = true ∨ (s.regions.any fun r => r.2.ctx == c && r.2.state != 0) = true then s
    else
      let y := x % 32 + x / 2 ^ 8 % 2 ^ 8 * 2 ^ 8
      (s.setCtx c { C with peers := tset C.peers e (BitVec.ofNat 64 y) }).send "pair" [y % 16, c, y / 2 ^ 8])

/-- `PEER_PAIR_CONFIRM`: the peer holds the mirror entry. -/
def execPeerPairConfirm (c e : Nat) (s : State) : Host.Outcome State Fault Refusal :=
  let C := s.ctx c
  let x := (tget 0 C.peers e).toNat
  .next (if bitN x 4 ∧ x % 16 < 12 ∧ (s.link (x % 16)).carries = true then
      s.setCtx c { C with peers := tset C.peers e (BitVec.ofNat 64 x ||| 32) }
    else s)

/-- The peer no longer holds the mirror entry (R372). -/
def State.unpair (s : State) (c e : Nat) : State :=
  let C := s.ctx c
  let x := tget 0 C.peers e
  if bitN x.toNat 5 then s.setCtx c { C with peers := tset C.peers e (x &&& ~~~(32#64)) } else s

/-- A write of `PEERID`, while the link is Down. -/
def execPeeridWrite (i : Nat) (x : BitVec 384) (s : State) : Host.Outcome State Fault Refusal :=
  .next (if 11 < i ∨ (s.link i).state ≠ 0 then s else { s with hub := { s.hub with peerid := tset s.hub.peerid i x } })

/-- A cached run meets the frames that a peer invalidates. -/
def Xlat.covered (x : Xlat) (c o first count : Nat) : Bool := x.ctx == c && x.oid == o && x.frame < first + count && first < x.frame + x.run

/-- Commands in flight through port i to object o of context c of the peer, by tile and number. One that waits at a fault there is not waited for: an
invalidation never waits on a fault (DEDUCED, assumption 18). -/
def State.flying (s : State) (i c o : Nat) : List (Nat × Nat) :=
  (s.tiles.map Prod.fst).flatMap fun k => ((s.tile k).xrun.filter fun x =>
    x.peer && (x.finished || x.park == 3) && s.peerPort k x.w1 == i && x.dobj == some o
      && s.peerCtx k x.w1 == c).map fun x => (k, x.seq)

/-- The peers whose invalidations no command is in flight for any more are told. -/
def State.answerInvs (s : State) : State :=
  s.links.foldl (fun s l =>
    let L := s.link l.1
    let r := L.rinv.partition fun x => x.2.all fun y => !(s.tile y.1).xrun.any fun c => c.seq == y.2 && c.park != 5
    if L.rinv = [] then s
    else r.1.foldl (fun s x => s.send "invalidated" [l.1, x.1.1, x.1.2.1, x.1.2.2.1, x.1.2.2.2]) (s.putLink l.1 { L with rinv := r.2 })) s

/-- `REMOTE_INVALIDATION` (R373): cached runs that the peer invalidates go, and the peer is told when every access translated through them has
landed. -/
def execRemoteInvalidation (i c o first count : Nat) (s : State) : Host.Outcome State Fault Refusal :=
  let L := s.link i
  let hit := L.cache.any fun x => x.covered c o first count
  let w := if hit then s.flying i c o else []
  let s := s.putLink i { L with cache := L.cache.filter fun x => !x.covered c o first count }
  .next (if w = [] then s.send "invalidated" [i, c, o, first, count]
    else s.putLink i { s.link i with rinv := (s.link i).rinv ++ [((c, o, first, count), w)] })

/-! ### What a peer's commands do here (R270, R281, R373) -/

/-- A run that the peer of port i now caches. -/
def State.serve1 (s : State) (i : Nat) (x : Xlat) : State :=
  let L := s.link i
  if L.served.contains x then s else s.putLink i { L with served := L.served ++ [x] }

/-- Bytes land over the frames of an object in order with the tags of their granules, if any, up to the first frame that faults: what remains, and its
kind. -/
def State.landFrames (port c o : Nat) : List (Nat × Nat) → List Byte → List Bool → State → State × Option (Nat × Nat × List Byte × List Bool)
  | [], _, _, s => (s, none)
  | (a, n) :: l, bs, ts, s =>
    match s.walk c o (a / frameB) with
    | .error kind => (s, some (kind, a, bs, ts))
    | .ok h =>
      if allFrames ≤ h.2.2.2 then (s, some (6, a, bs, ts))
      else
        let p := h.2.2.2 * frameB + a % frameB
        State.landFrames port c o l (bs.drop n) (ts.drop (n / 16))
          (((s.dramWr p (bs.take n)).setTags .dram p (ts.take (n / 16))).serve1 port (s.runFrom c o (a / frameB) h))

/-- A landing is over: the peer is told how. -/
def State.peerDone (s : State) (x : PeerStore) (code : Nat) : State :=
  ({ s with pstores := s.pstores.filter (·.id != x.id) } : State).send "peer-landed" [x.port, x.id, code]

/-- A landing meets a fault: it waits in this package's region, whose Sorrel answers it, and the peer is told, for it waits in the peer's region too
(R373). -/
def State.peerPark (s : State) (x : PeerStore) (kind : Nat) : State :=
  let s := { s with pstores := s.pstores.map fun (z : PeerStore) => if z.id = x.id then x else z }
  (s.send "peer-stall" [x.port, x.id]).faultIn (dieOfTile ((s.tilesOf x.rgn).headD 0))
    { ctx := x.ctx, oid := x.oid, srcu := 3, wr := true, kind := kind, held := false, tix := x.tix, off := x.off, step := x.step
      rgn := x.rgn, seq := 0, tile := 0, acc := 0, peer := some x.id }

/-- An element of a peer's accumulate is in at its port: it waits there for the close of the peer's step (R276). -/
def State.peerIn (s : State) (x : PeerStore) (a : Arrival) (space unit addr : Nat) (via : Option Xlat) : State :=
  ({ s with arrivals := s.arrivals ++ [{ a with rgn := x.rgn, space := space, unit := unit, addr := addr, via := via, port := some x.port }] } : State).peerDone x 0

/-- An element of a peer's accumulate is placed: with `DR` = 1 in the memory of a tile, else where the paired context's table says (R270, R373). -/
def State.placeArr (s : State) (x : PeerStore) (a : Arrival) : State :=
  match x.dtx with
  | some d =>
    match s.tileAt x.rgn d with
    | none => s.peerDone x cCAPBND
    | some k => if x.oid = oidScr then s.peerIn x a 0 k x.off none else s.peerIn x a 1 (clusterOf k) x.off none
  | none =>
    match s.walk x.ctx x.oid (x.off / frameB) with
    | .error kind => s.peerPark x kind
    | .ok h =>
      if allFrames ≤ h.2.2.2 then s.peerPark x 6
      else
        let f := x.off / frameB
        (s.serve1 x.port (s.runFrom x.ctx x.oid f h)).peerIn x a 2 0 (h.2.2.2 * frameB + x.off % frameB)
          (some ⟨x.ctx, x.oid, f, 1, h.2.2.2, h.2.2.1, (s.ctx x.ctx).vf⟩)

/-- Bytes of a peer's copy land as far as they can. -/
def State.landBytes (s : State) (x : PeerStore) : State :=
  match x.dtx with
  | some d =>
    match s.tileAt x.rgn d with
    | none => s.peerDone x cCAPBND
    | some k =>
      let sp := if x.oid = oidScr then Space.scr k else .pool (clusterOf k)
      ((s.wr sp x.off x.data).setTags sp x.off x.tags).peerDone x 0
  | none =>
    let r := State.landFrames x.port x.ctx x.oid (frameParts x.off x.data.length) x.data x.tags s
    match r.2 with
    | none => r.1.peerDone x 0
    | some (kind, off, bs, ts) => r.1.peerPark { x with off := off, data := bs, tags := ts } kind

/-- A landing goes on as far as it can; a frozen domain lands nothing (R371), and one whose way goes through a hub port that carries no data is lost
(R364). -/
def State.peerLand (s : State) (x : PeerStore) : State :=
  if x.parked || s.dom.frozen || !s.pstores.contains x then s
  else if (s.landDies x).any fun d => !(s.link (14 + d)).carries then s.peerDone x cLINKLOST
  else match x.arr with
    | some a => s.placeArr x a
    | none => s.landBytes x

/-- What a peer's command brings arrives: OBJFLT when its context has no region in Running (Table 112). `f` makes the landing from its number and its
region. -/
def State.peerLanding (s : State) (port c : Nat) (f : Nat → Nat → PeerStore) : State :=
  match s.runningOf c with
  | none => s.send "peer-landed" [port, s.pstoreid, cOBJFLT]
  | some r =>
    let x := f s.pstoreid r
    ({ s with pstores := s.pstores ++ [x], pstoreid := s.pstoreid + 1 } : State).peerLand x

/-- Bytes of a peer's copy, with the tags of their granules when it copies them. -/
def State.peerStore (s : State) (port c : Nat) (dtx : Option Nat) (o off : Nat) (bs : List Byte) (tags : List Bool) (tix step : Nat) : State :=
  s.peerLanding port c fun id r => ⟨id, port, c, r, dtx, o, off, bs, tix, step, false, tags, none⟩

/-- An element of a peer's accumulate. -/
def State.peerArrival (s : State) (port c : Nat) (dtx : Option Nat) (o off step : Nat) (a : Arrival) : State :=
  s.peerLanding port c fun id r => ⟨id, port, c, r, dtx, o, off, [], a.tix, step, false, [], some a⟩

/-- A peer tells how many columns the region in Running of its context c has. -/
def State.peerRegion (s : State) (i c w : Nat) : State :=
  let L := s.link i
  if 11 < i ∨ L.carries = false then s else s.putLink i { L with pwid := tset L.pwid c w }

/-- A peer's increment is mapped through the destination tile's bank, and waits for the end of the cycle among the remote increments (R223); the peer
is told what became of it (R225, R281). -/
def State.landSignal (s : State) (x : PeerSig) : State :=
  match (s.runningOf x.ctx).map fun r => s.tileAt r x.dtx with
  | none => s.send "peer-answer" [x.n, 4, 0, x.port]
  | some none => s.send "peer-answer" [x.n, 3, 0, x.port]
  | some (some k) =>
    if (s.link (14 + dieOfTile k)).carries = false then s.send "peer-answer" [x.n, 5, 14 + dieOfTile k, x.port]
    else match s.semPhys k x.en with
    | none => s.send "peer-answer" [x.n, 2, 0, x.port]
    | some p => s.setTile k ((s.tile k).addOp ⟨4, x.tix * 2 ^ 64 + x.seq, p, x.amount, x.en, x.n, 0, 6, x.port⟩)

/-- A peer's increment comes: a frozen domain holds it at its port (R371). -/
def State.peerSignal (s : State) (x : PeerSig) : State := if s.dom.frozen then { s with psigs := s.psigs ++ [x] } else s.landSignal x

/-- What a frozen domain held lands, and landings that have not met a fault, or whose fault has been answered, go on. -/
def State.peerTurn (s : State) : State :=
  let s := if s.dom.frozen then s else s.psigs.foldl State.landSignal { s with psigs := [] }
  s.pstores.foldl (fun s x => s.peerLand x) s

end Sys2Proof.Machine
end

