-- ==== Sys2Proof/Machine/Hub.lean ====
section
/-! DEFINITION. The hub: power-on, telemetry, the lease, the power cap, the partition block, and the registers that the host and the
functions write (00_scope.md R6 to R8, 01_architecture.md R23 to R30, 14_group.md R307 R319 R320, 15_queue.md R325, 16_context.md
R340, 17_link.md R374 R376). -/

namespace Sys2Proof.Machine

/-! ### Power-on and telemetry (R25 to R30) -/

/-- `FLASH_SEQ` of a bank. -/
def bankSeq (b : Option (Tab Nat × List Nat)) : Nat :=
  match b with
  | some x => tget 0 x.1 0x60
  | none => 0

/-- The valid bank with the higher sequence number. -/
def newerBank (a b : Option (Tab Nat × List Nat)) : Option (Tab Nat × List Nat) :=
  if a.isNone then b else if b.isNone then a else if bankSeq b < bankSeq a then a else b

/-- `POWER_ON` (R26, R215, R206): the package at its reset values, with the newer valid bank loaded; retired frames are Retired, and
frame 0 of each die, which holds its frame table, is Pinned to the physical function; they do not count in its `USED` (DEDUCED, assumption 37). -/
def execPowerOn (s : State) : Host.Outcome State Fault Refusal :=
  let b := newerBank s.hub.flash0 s.hub.flash1
  let x := b.getD ([], [])
  let z : State :=
    { hostMem := s.hostMem, inputs := s.inputs, agenda := s.agenda, freeCtr := s.freeCtr, outbox := s.outbox, powered := true
      dies := [0, 1, 2].map fun d => (d, { defect := (s.die d).defect })
      hub := { flash0 := s.hub.flash0, flash1 := s.hub.flash1, tel := x.1, fresh := b.isNone, retired := x.2 } }
  let z := x.2.foldl (fun (z : State) h => z.setFt h (mkFt fsRetired 0 0 0)) z
  let z := [0, 1, 2].foldl (fun (z : State) d => z.setFt (d * dieFrames) (mkFt fsPinned 0 0 0)) z
  .next (z.tel 0x48)

/-- The bin of a temperature and of a supply droop (Table 9). -/
def tempBin (t : Int) : Nat := if t < 20 then 0 else min 31 (((t - 20) / 3).toNat + 1)
def droopBin (mv : Nat) : Nat := min 15 (mv / 5)

/-- `TELEMETRY_SAMPLE`: one sample of each die, compute dies and then the hub. -/
def execTelemetrySample (temps : List Int) (droops : List Nat) (s : State) : Host.Outcome State Fault Refusal :=
  let s := (temps.take 4).zipIdx.foldl (fun (s : State) x => s.tel (0xB00 + (32 * x.2 + tempBin x.1) * 8)) s
  .next ((droops.take 4).zipIdx.foldl (fun (s : State) x => s.tel (0xF00 + (16 * x.2 + droopBin x.1) * 8)) s)

def execPwrMinTick (s : State) : Host.Outcome State Fault Refusal := .next (s.tel 0x40)

/-- `TELEMETRY_FLASH_WRITE` (R26): the store goes to the two banks in turn. -/
def execTelemetryFlashWrite (s : State) : Host.Outcome State Fault Refusal :=
  let s := s.tel 0x60
  let b := some (s.hub.tel, s.hub.retired)
  .next (if tget 0 s.hub.tel 0x60 % 2 = 0 then { s with hub := { s.hub with flash0 := b } } else { s with hub := { s.hub with flash1 := b } })

/-- The boundaries that may pass before the one at which a snapshot completes: that one is the 156th at most, 9.984 µs after the step of the request
began, at the nominal clock (R6, R28). -/
abbrev snapSteps := 155

/-- A snapshot request: ignored while one is being taken. -/
def Snapshot.request (x : Snapshot) (tel : Tab Nat) (left : Nat) : Snapshot :=
  if x.busy then x else { x with busy := true, next := tel, left := left }
/-- The new snapshot becomes visible. -/
def Snapshot.complete (x : Snapshot) : Snapshot :=
  if x.busy then { x with busy := false, valid := true, seq := (x.seq + 1) % 2 ^ 32, recs := x.next, next := [] } else x

/-- `SNAP`: a write to `TLM_CTL`. -/
def execSnap (v : BitVec 32) (s : State) : Host.Outcome State Fault Refusal :=
  .next (if v.getLsbD 0 then
      let r := s.delay
      { r.2 with hub := { s.hub with host := s.hub.host.request s.hub.tel (min r.1 snapSteps) } }
    else s)

def execMctpSnapshotRequest (s : State) : Host.Outcome State Fault Refusal :=
  let r := s.delay
  .next { r.2 with hub := { s.hub with mgmt := s.hub.mgmt.request s.hub.tel (min r.1 snapSteps) } }

def execSnapshotComplete (mgmt : Bool) (s : State) : Host.Outcome State Fault Refusal :=
  .next (if mgmt then { s with hub := { s.hub with mgmt := s.hub.mgmt.complete } }
    else { s with hub := { s.hub with host := s.hub.host.complete } })

/-- A byte of a requester's window (R27, Table 10 to Table 12). -/
def winByte (x : Snapshot) (fresh : Bool) (o : Nat) : Nat :=
  let sts := (if x.busy then 1 else 0) + (if x.valid then 2 else 0) + (if fresh then 4 else 0) + 2 ^ 8
  if o < 4 then 0
  else if o < 8 then sts / 2 ^ (8 * (o - 4)) % 256
  else if o < 12 then x.seq / 2 ^ (8 * (o - 8)) % 256
  else if !x.valid then 0
  else if o < 0x2000 then tget 0 x.recs (o / 8 * 8) / 2 ^ (8 * (o % 8)) % 256
  else tget 0 x.recs (o / 4 * 4) / 2 ^ (8 * (o % 4)) % 256

/-- A read of the window that R29 allows, a write of `TLM_CTL`. -/
def winOk (wr : Bool) (off width : Nat) : Bool :=
  if wr then off == 0 else (width == 4 || width == 8) && off % width == 0 && off + width ≤ 0x10000

/-- `TELEMETRY_UNSUPPORTED_ACCESS` (R29): it completes as an Unsupported Request and changes nothing. -/
def execTelemetryUnsupportedAccess (wr : Bool) (off width : Nat) (s : State) : Host.Outcome State Fault Refusal :=
  .next (if winOk wr off width then s else s.send "unsupported-request" [off, width])

/-- A read of the window by the physical function (R27, R29): the bytes, all of one snapshot, or an Unsupported Request. -/
def State.winRead (s : State) (off width : Nat) : State :=
  if winOk false off width then s.send "window" (off :: (List.range width).map fun i => winByte s.hub.host s.hub.fresh (off + i))
  else s.send "unsupported-request" [off, width]

/-- Bytes of a flash bank: its records and its retired frames. How they lie in a bank is not stated, and shows nowhere but in the CRC (assumption 52). -/
def bankBytes (recs : Tab Nat) (retired : List Nat) : List Byte :=
  (recs.flatMap fun x => leBytes 4 x.1 ++ leBytes 8 x.2) ++ retired.flatMap (leBytes 4)

/-- CRC-32 of bytes (IEEE 802.3). -/
def crc32 (bs : List Byte) : BitVec 32 :=
  ~~~(bs.foldl (fun (c : BitVec 32) b =>
    (List.range 8).foldl (fun (c : BitVec 32) _ => if c.getLsbD 0 then (c >>> 1) ^^^ 0xEDB88320 else c >>> 1) (c ^^^ b.setWidth 32)) 0xFFFFFFFF)

/-- What a flash bank holds when the hub reads it (R26): it is valid when its CRC-32 verifies. -/
def State.flashBank (s : State) (second : Bool) (recs : Tab Nat) (retired : List Nat) (crc : BitVec 32) : State :=
  let b := if crc = crc32 (bankBytes recs retired) then some (recs, retired) else none
  { s with hub := if second then { s.hub with flash1 := b } else { s.hub with flash0 := b } }

/-- A corrected error of a DRAM granule (R25): `PCCE` rises for its pseudo-channel. -/
def State.dramCe (s : State) (addr : Nat) : State :=
  if allFrames * frameB ≤ addr then s
  else (s.tel (s.pcueOff (ftVf (s.ft (addr / frameB))) addr - 0x6800 + 0x2000)).free.2

/-- `MCTP_TELEMETRY_READ` (R30): 4 to 64 bytes at an aligned offset of the management path's window. A read that R30 does not offer gets no answer
and changes nothing (DESIGN CHOICE, assumption 41). -/
def execMctpTelemetryRead (off len : Nat) (s : State) : Host.Outcome State Fault Refusal :=
  .next (if 4 ≤ len ∧ len ≤ 64 ∧ off % 4 = 0 ∧ off + len ≤ 0x10000 then
      s.send "mctp" ((List.range len).map fun i => winByte s.hub.mgmt s.hub.fresh (off + i))
    else s)

/-! ### The lease (R23) -/

/-- A lease lasts 1 ms, in ns. -/
abbrev leaseNs := 1000000

/-- `LEASE_RENEW`: by the Sorrel that holds it and runs. -/
def execLeaseRenew (d : Nat) (s : State) : Host.Outcome State Fault Refusal :=
  .next (if s.leader = some d then { s with hub := { s.hub with leaseLeft := leaseNs } } else s)

/-- Die d may hold the lease: it is in Running. One whose Sorrel a trap has halted is (R349). -/
def State.mayLead (s : State) (d : Nat) : Bool := (s.die d).state == 5

/-- The lease is not held, has not been renewed in time, or its holder cannot hold it. -/
def State.leaseGone (s : State) : Bool :=
  match s.hub.lease with
  | none => true
  | some d => s.hub.leaseLeft == 0 || !s.mayLead d

/-- Every control block is examined by the new leader (15_queue.md R334). -/
def State.replayAll (s : State) : State :=
  s.ctxs.foldl (fun s c => c.2.queues.foldl (fun s q => s.replay c.1 q.1) s) s

/-- `LEASE_LAPSE` (R23, R326, R334): the follower on the lowest-numbered Running die takes the lease. The loads of the old leader are
abandoned. A halted one takes it like any other and does nothing with it (R349; DEDUCED, assumption 9). -/
def execLeaseLapse (s : State) : Host.Outcome State Fault Refusal :=
  .next (if !s.leaseGone then s
    else
      let old := s.hub.lease
      let s := match old with
        | some d => ({ s with hub := { s.hub with lease := none, leaseLeft := 0 } } : State).abandonLoads d
        | none => s
      match [0, 1, 2].find? fun d => s.mayLead d && old != some d with
      | none => s
      | some d =>
        let s := { s with hub := { s.hub with lease := some d, leaseLeft := leaseNs } }
        let D := s.die d
        let s := s.setDie d { D with sem := tset (tset (tset D.sem 1 1) 2 1) 3 1 }
        if D.sorrel.halted then s else s.replayAll)

/-! ### Power cap and step period (14_group.md R319, R320) -/

def execPowerCapWrite (v : Nat) (s : State) : Host.Outcome State Fault Refusal :=
  .next { s with hub := { s.hub with capw := v % 2 ^ 16 } }

/-- `STEP_PERIOD_CHANGE`: the packages of the domain request these values of m, from 16 to 64; the smallest holds, on every tile
from the next step boundary of the domain on. -/
def execStepPeriodChange (ms : List Nat) (s : State) : Host.Outcome State Fault Refusal :=
  .next { s with hub := { s.hub with stepm := (ms.filter fun m => 16 ≤ m && m ≤ 64).foldl min 64 } }

/-! ### The partition block (14_group.md R307) -/

/-- Function v holds a region that is not Unplaced. -/
def State.holdsRegion (s : State) (v : Nat) : Bool := s.regions.any fun r => r.2.state != 0 && (s.ctx r.2.ctx).vf == v

/-- Some other function's mask meets this one. -/
def State.clash (s : State) (v x : Nat) (f : Fn → Nat) : Bool := s.fns.any fun y => y.1 != v && f y.2 &&& x != 0

/-- Place of a share in `TWQ`. -/
def twqIndex : PartField → Nat
  | .twqSeam => 1
  | .twqHub => 2
  | .twqGlink => 3
  | _ => 0

/-- `PARTITION_WRITE`. -/
def execPartitionWrite (v : Nat) (field : PartField) (x : Nat) (s : State) : Host.Outcome State Fault Refusal :=
  let F := s.fn v
  .next (if 31 < v ∨ s.locked v = true then s
    else match field with
      | .pcg =>
        let x := x % 2 ^ 384
        if F.used ≠ 0 ∨ s.clash v x Fn.pcg = true then s else s.setFn v { F with pcg := x }
      | .clmask =>
        let x := x % 2 ^ 432
        if s.holdsRegion v = true ∨ s.clash v x Fn.clmask = true then s else s.setFn v { F with clmask := x }
      | f =>
        if s.holdsRegion v then s
        else s.setFn v { F with twq := (List.range 4).map fun i => if i = twqIndex f then x % 256 else F.twq.getD i 0 })

/-! ### Registers without an event of their own (R7) -/

/-- A value cut to bits [hi − 1 : lo], in place. -/
def fieldAt (v lo hi : Nat) : Nat := v % 2 ^ hi / 2 ^ lo * 2 ^ lo

/-- A write of the frame-budget or scheduling block of function v. -/
def State.fnReg (s : State) (v : Nat) (f : Fn → Fn) : State := if 31 < v ∨ s.locked v = true then s else s.setFn v (f (s.fn v))
/-- As `fnReg`, of a field that function 0 does not have. -/
def State.vfReg (s : State) (v : Nat) (f : Fn → Fn) : State := if v = 0 then s else s.fnReg v f

/-- A write of Table 142: taken only in Bound. -/
def ctxReg (c : Nat) (reg : HostReg) (v : Nat) (s : State) (f : Ctx → Ctx) : Host.Outcome State Fault Refusal :=
  s.onCtx c (.register reg v) fun s => if (s.ctx c).state = 1 then s.setCtx c (f (s.ctx c)) else s

/-- A write of a queue block's field, taken while `ok` holds of the queue. -/
def queueReg (c q : Nat) (reg : HostReg) (v : Nat) (s : State) (ok : Queue → Bool) (f : Queue → Queue) : Host.Outcome State Fault Refusal :=
  s.onCtx c (.register reg v) fun s =>
    if (s.ctx c).state = 0 ∨ 15 < q ∨ ok (s.queue c q) = false then s else s.modQueue c q f

/-- A queue is Disabled. -/
def Queue.disabled (Q : Queue) : Bool := Q.half.qstate == 0

/-- A staged field of a key slot, written by a request that may (17_link.md R375). -/
def State.keyReg (s : State) (n v : Nat) (t : Bool) (f : KeySlot → KeySlot) : State :=
  if s.keyWritable n v t then s.setKey n (f (tget {} s.hub.keys n)) else s

/-- `REGISTER_WRITE`. -/
def execRegisterWrite (reg : HostReg) (v : Nat) (s : State) : Host.Outcome State Fault Refusal :=
  match reg with
  | .gbase n => .next (s.vfReg n fun F => { F with gbase := fieldAt v 2 48 })
  | .glen n => .next (s.vfReg n fun F => { F with glen := v % 2 ^ 20 })
  | .s2first n => .next (s.vfReg n fun F => { F with s2first := v % 2 ^ 19 })
  | .s2count n => .next (s.vfReg n fun F => { F with s2count := v % 2 ^ 20 })
  | .s2done n => .next (s.vfReg n fun F => if bitN v 1 then { F with s2done := false } else F)
  | .qbase c q => queueReg c q reg v s Queue.disabled fun Q => { Q with qbase := fieldAt v 10 64 }
  | .qsize c q => queueReg c q reg v s Queue.disabled fun Q => { Q with size := v % 8 }
  | .qprio c q => queueReg c q reg v s (fun _ => true) fun Q => { Q with prio := v % 4 }
  | .slice n => .next (s.fnReg n fun F => { F with slice := v % 64 })
  | .swt n i => .next (if 31 < n ∨ 63 < i then s else let F := s.fn n; s.setFn n { F with swt := tset F.swt i (BitVec.ofNat 64 v) })
  | .swmir n i => .next (if 31 < n ∨ 63 < i then s else let F := s.fn n; s.setFn n { F with swmir := tset F.swmir i (fieldAt v 3 64) })
  | .vf c =>
    s.onCtx c (.register reg v) fun s =>
      let x := s.ctx c
      if c = 0 ∨ 255 < c ∨ x.state ≠ 0 ∨ s.locked x.vf = true then s else s.setCtx c { x with vf := v % 32 }
  | .iface c =>
    s.onCtx c (.register reg v) fun s =>
      let x := s.ctx c
      if c = 0 ∨ 255 < c ∨ x.state ≠ 0 ∨ s.locked x.vf = true then s else s.setCtx c { x with iface := v % 64 }
  | .otbase c => ctxReg c reg v s fun x => { x with otbase := fieldAt v 6 48 }
  | .seed c => ctxReg c reg v s fun x => { x with seed := BitVec.ofNat 64 v }
  | .magtab c => ctxReg c reg v s fun x => { x with magtab := fieldAt v 10 48 }
  | .plbase c => ctxReg c reg v s fun x => { x with plbase := fieldAt v 5 48 }
  | .pllen c => ctxReg c reg v s fun x => { x with pllen := v % 2 ^ 24 }
  | .rcbase c => ctxReg c reg v s fun x => { x with rcbase := fieldAt v 4 48 }
  | .rclen c => ctxReg c reg v s fun x => { x with rclen := v % 2 ^ 16 }
  | .pclr c => ctxReg c reg v s fun x => { x with pclr := bitN v 0 }
  | .slotKey n f t => .next (s.keyReg n f t fun x => { x with stKey := BitVec.ofNat 256 v })
  | .slotOwner n f t =>
    .next (if (s.ctx (v % 256)).state ≠ 0 ∧ (s.ctx (v % 256)).vf = f then
      s.keyReg n f t fun x => { x with stOwner := v % 256 } else s)
  | .slotLast n f t => .next (s.keyReg n f t fun x => { x with stLast := BitVec.ofNat 64 v })
  | .ifpasid n i => .next (if 31 < n ∨ 63 < i then s else let F := s.fn n; s.setFn n { F with pasid := tset F.pasid i (v % 2 ^ 20) })
  | .readOnly => .next s

/-! ### Reads of the host (R7) -/

/-- A bit as a number. -/
def bit (b : Bool) : Nat := if b then 1 else 0

/-- The current value of a writable field, in place in its word; a field that only takes writes reads as zero, as does a key slot to a request that
may not reach it (R7, 17_link.md R375, R376). -/
def State.readField (s : State) (fn : Nat) (t : Bool) (r : HostReg) : Nat :=
  let slot := fun (n : Nat) (f : KeySlot → Nat) => if s.keyWritable n fn t then f (tget {} s.hub.keys n) else 0
  match r with
  | .gbase v => (s.fn v).gbase
  | .glen v => (s.fn v).glen
  | .s2first v => (s.fn v).s2first
  | .s2count v => (s.fn v).s2count * 2 ^ 19
  | .s2done v => bit (s.fn v).s2busy + 2 * bit (s.fn v).s2done
  | .qbase c q => (s.queue c q).qbase
  | .qsize c q => (s.queue c q).size * 2
  | .qprio c q => (s.queue c q).prio * 16
  | .slice v => (s.fn v).slice
  | .swt v i => (tget 0 (s.fn v).swt i).toNat
  | .swmir v i => tget 0 (s.fn v).swmir i
  | .vf c => (s.ctx c).vf
  | .iface c => (s.ctx c).iface * 2 ^ 8
  | .otbase c => (s.ctx c).otbase
  | .seed c => (s.ctx c).seed.toNat
  | .magtab c => (s.ctx c).magtab
  | .plbase c => (s.ctx c).plbase
  | .pllen c => (s.ctx c).pllen
  | .rcbase c => (s.ctx c).rcbase
  | .rclen c => (s.ctx c).rclen
  | .pclr c => 2 * bit (s.ctx c).pclr
  | .slotKey _ _ _ => 0
  | .slotOwner n _ _ => slot n fun x => x.stOwner + 2 ^ 8 * bit x.valid
  | .slotLast n _ _ => slot n fun x => x.last.toNat
  | .ifpasid v i => tget 0 (s.fn v).pasid i
  | .readOnly => 0

/-- Word i of the trap report (16_context.md R350): cause and source, `VAL`, `STEP`, `LSEQ`, and `REC`. -/
def Report.word (r : Report) (i : Nat) : Nat :=
  match i with
  | 0 => r.cause % 2 ^ 8 + r.srca % 8 * 2 ^ 8 + bit r.nest * 2 ^ 11 + r.tix % 2 ^ 11 * 2 ^ 12 + r.pc % 2 ^ 32 * 2 ^ 32
  | 1 => r.val
  | 2 => r.step
  | 3 => r.lseq
  | i + 4 => (r.words.getD i 0).toNat

/-- What a read of the host returns (R7). -/
def State.hostRead (s : State) (fn : Nat) (t : Bool) (r : HostRead) : Nat :=
  match r with
  | .field x => s.readField fn t x
  | .guar v => (s.fn v).guar
  | .burst v => (s.fn v).burst
  | .used v => (s.fn v).used
  | .s2sts v => bit (s.fn v).s2busy + 2 * bit (s.fn v).s2done
  | .part v .pcg => (s.fn v).pcg
  | .part v .clmask => (s.fn v).clmask
  | .part v f => (s.fn v).twq.getD (twqIndex f) 0
  | .power => s.hub.capw + s.hub.curm * 2 ^ 16
  | .queueEn c q => bit (s.queue c q).en + (s.queue c q).size * 2 + (s.queue c q).prio * 16
  | .qrd c q => (s.queue c q).half.qrd % 2 ^ 32
  | .qstate c q => (s.queue c q).half.qstate
  | .glim v => (s.fn v).slice + (s.fn v).glim * 2 ^ 8
  | .ctxg c => (s.ctx c).guilt + bit (s.ctx c).barred * 2 ^ 16
  | .swsts v i => tget 0 (s.fn v).swsts i
  | .ctl c =>
    let x := s.ctx c
    x.vf + x.iface * 2 ^ 8 + bit (x.state != 0) * 2 ^ 16 + bit x.scrubbed * 2 ^ 18 + bit x.savab * 2 ^ 19 + s.cstate c * 2 ^ 20
  | .bindc c => (s.ctx c).bindc
  | .plhead c => (s.ctx c).plhead
  | .pldrop c => (s.ctx c).pldrop
  | .rcnt c => (s.ctx c).rcnt
  | .ctxen c => bit (s.ctx c).ctxen + 2 * bit (s.ctx c).pclr
  | .report v i w => (tget {} (s.fn v).reports i).word w
  | .peer c e => (tget 0 (s.ctx c).peers e).toNat
  | .peerid p => (tget 0 s.hub.peerid p).toNat
  | .ppkg p => if p < 12 then pkgOf (s.link p).peer else 0
  | .lstate p => if p < 12 then (s.link p).state else 0
  | .ksvf n => tget 0 s.hub.ksvf n
  | .writeOnly => 0

/-- The event of the host that a context deferred, or that reaches it now. -/
def State.hostEvent (s : State) (e : CtxEv) : Host.Outcome State Fault Refusal :=
  match e with
  | .doorbell c q v => execDoorbell c q v s
  | .queueEnable c q => execQueueEnable c q s
  | .queueDisable c q => execQueueDisable c q s
  | .swcmd v i x => execSwcmd v i x s
  | .unbar c => execUnbar c s
  | .contextUnbind c => execContextUnbind c s
  | .contextBind c => execContextBind c s
  | .scrub c => execScrub c s
  | .ctxenSet c => execCtxenSet c s
  | .ctxenClear c => execCtxenClear c s
  | .plheadWrite c v => execPlheadWrite c v s
  | .register r v => execRegisterWrite r v s
  | .hostError c q => execHostErrorCompletion c q none s

end Sys2Proof.Machine
end

