-- ==== Sys2Proof/Machine/VecArith.lean ====
section
/-! DEFINITION. The vector arithmetic and conversion instructions of 06_vector_arith.md. -/
namespace Sys2Proof.Machine




/-- A vector word whose lanes are computed one by one: `lane` gives the result lane i (R139, R142). -/
def vWord (h : Hdr) (s : State) (r : BitVec 8) (mask : BitVec 3) (lat y : Nat) (lane : State → Nat → State × Lane) :
    Host.Outcome State Fault Refusal :=
  qWord h s fun s =>
    let act := s.myTile.mask mask.toNat
    let x := lanes64 act lane s
    vecRes x.1 lat y r.toNat x.2 act

/-- Element e of a floating lane. -/
def fElem (ty : Nat) (l : Lane) (e : Nat) : FV := (laneFV ty l).getD e .quiet

/-- A floating instruction with one rounding of an exact value of its sources (R143, R146). -/
def fpWord (h : Hdr) (f : FmtV) (s : State) (lat : Nat) (srcs : (Nat → Lane) → (Nat → Lane) → (Nat → Lane) → List (Nat → Lane))
    (op : Mode → List FV → Ex) : Host.Outcome State Fault Refusal :=
  let a := fun i => (s.myTile.v f.va.toNat).at i
  let b := opndB s f
  let c := fun i => (s.myTile.v f.vc.toNat).at i
  vWord h s f.vd f.mask lat 1 fun st i =>
    let r := eltsM (fun st e =>
        let vs := (srcs a b c).map fun g => fElem f.ty.toNat (g i) e
        arith st st.orgC (fmtOfTy f.ty.toNat) (st.modeAt f.rm i e) vs (op (st.modeAt f.rm i e) vs))
      (List.range (elems f.ty.toNat)) st
    (r.1, packF f.ty.toNat r.2)

/-- Two sources. -/
def fp2 (h : Hdr) (f : FmtV) (s : State) (lat : Nat) (op : Mode → FV → FV → Ex) :=
  fpWord h f s lat (fun a b _ => [a, b]) fun md vs => match vs with
    | [a, b] => op md a b
    | _ => .invalid
/-- Three sources. -/
def fp3 (h : Hdr) (f : FmtV) (s : State) (lat : Nat) (op : Mode → FV → FV → FV → Ex) :=
  fpWord h f s lat (fun a b c => [a, b, c]) fun md vs => match vs with
    | [a, b, c] => op md a b c
    | _ => .invalid
/-- One source. -/
def fp1 (h : Hdr) (f : FmtV) (s : State) (lat : Nat) (op : FV → Ex) :=
  fpWord h f s lat (fun a _ _ => [a]) fun _ vs => match vs with
    | [a] => op a
    | _ => .invalid

def execVadd (h : Hdr) (f : FmtV) (s : State) := fp2 h f s 4 fAdd
def execVsub (h : Hdr) (f : FmtV) (s : State) := fp2 h f s 4 fun md a b => fAdd md a (fNeg b)
def execVmul (h : Hdr) (f : FmtV) (s : State) := fp2 h f s 4 fun _ a b => fMul a b
def execVfma (h : Hdr) (f : FmtV) (s : State) := fp3 h f s 4 fFma
def execVfms (h : Hdr) (f : FmtV) (s : State) := fp3 h f s 4 fun md a b c => fFma md a b (fNeg c)
def execVfnma (h : Hdr) (f : FmtV) (s : State) := fp3 h f s 4 fun md a b c => fFma md (fNeg a) b c
def execVrcp (h : Hdr) (f : FmtV) (s : State) := fp1 h f s 12 fun a => fDiv (.fin false 1 0) a
def execVrsq (h : Hdr) (f : FmtV) (s : State) := fp1 h f s 12 fRsqrt
def execVsqr (h : Hdr) (f : FmtV) (s : State) := fp1 h f s 24 fSqrt
def execVdiv (h : Hdr) (f : FmtV) (s : State) := fp2 h f s 24 fun _ a b => fDiv a b
def execVex2 (h : Hdr) (f : FmtV) (s : State) := fp1 h f s 12 fExp2
def execVlg2 (h : Hdr) (f : FmtV) (s : State) := fp1 h f s 12 fLog2

/-- An instruction that returns bits of its inputs unrounded but consumes them (R143): `op` from the decoded values and the bits. -/
def fpBits (h : Hdr) (f : FmtV) (s : State) (two : Bool) (op : FV → FV → Nat → Nat → Nat) : Host.Outcome State Fault Refusal :=
  let a := fun i => (s.myTile.v f.va.toNat).at i
  let b := opndB s f
  vWord h s f.vd f.mask 4 1 fun st i =>
    let r := eltsM (fun st e =>
        let x := fElem f.ty.toNat (a i) e
        let y := fElem f.ty.toNat (b i) e
        arithBits st st.orgC (if two then [x, y] else [x])
          (op x y (elemBits f.ty.toNat (a i).bits e) (elemBits f.ty.toNat (b i).bits e)))
      (List.range (elems f.ty.toNat)) st
    (r.1, packF f.ty.toNat r.2)

/-- The weight of an element's sign bit. -/
def signW (ty : Nat) : Nat := 2 ^ (elemW ty - 1)

/-- The smaller and the larger input, −0 below +0 (Table 58). -/
def execVmin (h : Hdr) (f : FmtV) (s : State) := fpBits h f s true fun x y a b => if fLess y x then b else a
def execVmax (h : Hdr) (f : FmtV) (s : State) := fpBits h f s true fun x y a b => if fLess x y then b else a
def execVabs (h : Hdr) (f : FmtV) (s : State) := fpBits h f s false fun _ _ a _ => a % signW f.ty.toNat
def execVneg (h : Hdr) (f : FmtV) (s : State) := fpBits h f s false fun _ _ a _ => (a + signW f.ty.toNat) % (2 * signW f.ty.toNat)
def execVcps (h : Hdr) (f : FmtV) (s : State) :=
  fpBits h f s true fun _ _ a b => a % signW f.ty.toNat + b / signW f.ty.toNat * signW f.ty.toNat

/-- Exact sum of three decoded values; a sum of products is one exact value (R144). -/
def fAdd3 (md : Mode) (x y z : FV) : Ex :=
  match x, y, z with
  | .fin n1 m1 e1, .fin n2 m2 e2, .fin n3 m3 e3 =>
    let e := min e1 (min e2 e3)
    let v := fun (n : Bool) (m : Nat) (k : Int) => let t : Int := (m * 2 ^ (k - e).toNat : Nat); if n then -t else t
    let t := v n1 m1 e1 + v n2 m2 e2 + v n3 m3 e3
    if t = 0 then .zero (if m1 == 0 && m2 == 0 && m3 == 0 && n1 == n2 && n2 == n3 then n1 else md.code == 3)
    else exDyadic (t < 0) t.natAbs e
  | _, _, _ =>
    let infs := [x, y, z].filterMap fun v => match v with
      | .inf n => some n
      | _ => none
    if infs.all id then .inf true else if infs.all not then .inf false else .invalid

/-- R144: sources in the order a0, b0, a1, b1, c (R140). -/
def execVdp2 (h : Hdr) (f : FmtV) (s : State) :=
  let a := fun i => (s.myTile.v f.va.toNat).at i
  let b := opndB s f
  let c := fun i => (s.myTile.v f.vc.toNat).at i
  vWord h s f.vd f.mask 4 1 fun st i =>
    let a0 := fElem 1 (a i) 0
    let a1 := fElem 1 (a i) 1
    let b0 := fElem 1 (b i) 0
    let b1 := fElem 1 (b i) 1
    let cc := fElem 0 (c i) 0
    let md := st.modeAt f.rm i 0
    let ex := match fProd a0 b0, fProd a1 b1 with
      | some p, some q => fAdd3 md cc p q
      | _, _ => .invalid
    let r := arith st st.orgC fFP32 md [a0, b0, a1, b1, cc] ex
    (r.1, packF 0 [r.2])

/-! ### Integers (R147) -/

/-- The type is signed. -/
def signedTy (ty : Nat) : Bool := ty == 6 || ty == 8 || ty == 10

/-- An element as an integer, by the type's signedness. -/
def iElem (ty : Nat) (x : BitVec 32) (e : Nat) : Int :=
  if signedTy ty then sextN (elemW ty) (elemBits ty x e) else (elemBits ty x e : Int)

/-- The ids of the poisoned lanes among sources (integer and b32 lanes: by tag alone, R140). -/
def lanePois (l : List Lane) : List Nat := (l.filter Lane.tag).map Lane.id

/-- An integer instruction: elements by `op`, poison by tag. -/
def intWord (h : Hdr) (f : FmtV) (s : State) (srcs : Nat) (op : Nat → Int → Int → Int → Int) : Host.Outcome State Fault Refusal :=
  let a := fun i => (s.myTile.v f.va.toNat).at i
  let b := opndB s f
  let c := fun i => (s.myTile.v f.vc.toNat).at i
  vWord h s f.vd f.mask 2 0 fun st i =>
    let ids := lanePois ([a i, b i, c i].take srcs)
    (st, if ids ≠ [] then Lane.ipoison (poisonMerge ids)
      else packI f.ty.toNat ((List.range (elems f.ty.toNat)).map fun e =>
        .val (wrapN (elemW f.ty.toNat) (op (elemW f.ty.toNat) (iElem f.ty.toNat (a i).bits e) (iElem f.ty.toNat (b i).bits e) (iElem f.ty.toNat (c i).bits e)))))

/-- Clamp to the range of Table 15. -/
def clampTy (ty : Nat) (x : Int) : Int :=
  let w := elemW ty
  let lo : Int := if signedTy ty then -(2 ^ (w - 1) : Nat) else 0
  let hi : Int := if signedTy ty then (2 ^ (w - 1) : Nat) - 1 else (2 ^ w : Nat) - 1
  max lo (min hi x)

def execViadd (h : Hdr) (f : FmtV) (s : State) := intWord h f s 2 fun _ a b _ => a + b
def execVisub (h : Hdr) (f : FmtV) (s : State) := intWord h f s 2 fun _ a b _ => a - b
def execVimul (h : Hdr) (f : FmtV) (s : State) := intWord h f s 2 fun _ a b _ => a * b
def execVimad (h : Hdr) (f : FmtV) (s : State) := intWord h f s 3 fun _ a b c => a * b + c
/-- Bits [2w − 1 : w] of the exact product. -/
def execVimulh (h : Hdr) (f : FmtV) (s : State) := intWord h f s 2 fun w a b _ => a * b / (2 ^ w : Nat)
def execVimin (h : Hdr) (f : FmtV) (s : State) := intWord h f s 2 fun _ a b _ => min a b
def execVimax (h : Hdr) (f : FmtV) (s : State) := intWord h f s 2 fun _ a b _ => max a b
def execVadds (h : Hdr) (f : FmtV) (s : State) := intWord h f s 2 fun _ a b _ => clampTy f.ty.toNat (a + b)
def execVsubs (h : Hdr) (f : FmtV) (s : State) := intWord h f s 2 fun _ a b _ => clampTy f.ty.toNat (a - b)

/-- R145: an i32 lane of latency 4 from the FP pipe. -/
def execVdp4 (h : Hdr) (f : FmtV) (s : State) :=
  let a := fun i => (s.myTile.v f.va.toNat).at i
  let b := opndB s f
  let c := fun i => (s.myTile.v f.vc.toNat).at i
  vWord h s f.vd f.mask 4 1 fun st i =>
    let ids := lanePois [a i, b i, c i]
    (st, if ids ≠ [] then Lane.ipoison (poisonMerge ids)
      else ⟨BitVec.ofInt 32 ((List.range 4).foldl (fun n e => n + iElem f.ty.toNat (a i).bits e * iElem f.ty.toNat (b i).bits e)
        ((c i).bits.toNat : Int)), false⟩)

/-- A bitwise instruction on `b32` lanes. -/
def bitWord (h : Hdr) (f : FmtV) (s : State) (srcs : Nat) (op : BitVec 32 → BitVec 32 → BitVec 32) :
    Host.Outcome State Fault Refusal :=
  let a := fun i => (s.myTile.v f.va.toNat).at i
  let b := opndB s f
  vWord h s f.vd f.mask 2 0 fun st i =>
    let ids := lanePois ([a i, b i].take srcs)
    (st, if ids ≠ [] then Lane.ipoison (poisonMerge ids) else ⟨op (a i).bits (b i).bits, false⟩)

def execVand (h : Hdr) (f : FmtV) (s : State) := bitWord h f s 2 fun a b => a &&& b
def execVor (h : Hdr) (f : FmtV) (s : State) := bitWord h f s 2 fun a b => a ||| b
def execVxor (h : Hdr) (f : FmtV) (s : State) := bitWord h f s 2 fun a b => a ^^^ b
def execVandn (h : Hdr) (f : FmtV) (s : State) := bitWord h f s 2 fun a b => a &&& ~~~b
def execVpopc (h : Hdr) (f : FmtV) (s : State) := bitWord h f s 1 fun a _ => BitVec.ofNat 32 (popN 32 a.toNat)
def execVclz (h : Hdr) (f : FmtV) (s : State) := bitWord h f s 1 fun a _ => BitVec.ofNat 32 (clzN 32 a.toNat)

/-- A shift: n is the low log2(w) bits of the matching element; signedness is ignored (R147). -/
def shiftWord (h : Hdr) (f : FmtV) (s : State) (op : Nat → Nat → Nat → Nat) : Host.Outcome State Fault Refusal :=
  let a := fun i => (s.myTile.v f.va.toNat).at i
  let b := opndB s f
  vWord h s f.vd f.mask 2 0 fun st i =>
    let ids := lanePois [a i, b i]
    let w := elemW f.ty.toNat
    (st, if ids ≠ [] then Lane.ipoison (poisonMerge ids)
      else packI f.ty.toNat ((List.range (elems f.ty.toNat)).map fun e =>
        .val (op w (elemBits f.ty.toNat (a i).bits e) (elemBits f.ty.toNat (b i).bits e % w))))
def execVshl (h : Hdr) (f : FmtV) (s : State) := shiftWord h f s fun w a n => a * 2 ^ n % 2 ^ w
def execVshr (h : Hdr) (f : FmtV) (s : State) := shiftWord h f s fun _ a n => a / 2 ^ n
def execVsar (h : Hdr) (f : FmtV) (s : State) := shiftWord h f s fun w a n => wrapN w (sextN w a / (2 ^ n : Nat))

/-! ### Compares, classification, selection -/

/-- A word that writes lane mask `jD` (R148, R175): bit i for the active lanes; `j0` discards the write. -/
def jWord (h : Hdr) (s : State) (jd : BitVec 8) (act : BitVec 64) (g : State → Nat → State × Bool) :
    Host.Outcome State Fault Refusal :=
  qWord h s fun s =>
    let r := (List.range 64).foldl (fun (x : State × Nat) i =>
        if activeL act i then let y := g x.1 i; (y.1, x.2 + if y.2 then 2 ^ i else 0) else x) (s, 0)
    .result r.1 2 [.mask jd.toNat (BitVec.ofNat 64 r.2) act] none none

/-- R148. -/
def execVcmp (h : Hdr) (f : FmtV) (s : State) :=
  let a := fun i => (s.myTile.v f.va.toNat).at i
  let b := opndB s f
  jWord h s f.vd (s.myTile.mask f.mask.toNat) fun st i =>
    if f.ty.toNat = 0 then
      let x := fElem 0 (a i) 0
      let y := fElem 0 (b i) 0
      let r := consume st st.orgC [x, y]
      (r.1, condVec f.fn.toNat (fLess x y && !fEq x y) (fEq x y) (r.2 != []))
    else
      let x := iElem f.ty.toNat (a i).bits 0
      let y := iElem f.ty.toNat (b i).bits 0
      (st, condVec f.fn.toNat (x < y) (x == y) ((a i).tag || (b i).tag))

/-- The class bit of Table 63 of an element. -/
def classBit (f : Fmt) (v : FV) : Nat :=
  match v with
  | .inf n => if n then 0 else 7
  | .fin n m _ =>
    if m = 0 then (if n then 3 else 4)
    else if m < 2 ^ f.fb then (if n then 2 else 5)
    else (if n then 1 else 6)
  | .poison _ => 8
  | .quiet => 9
  | .signalling => 10

/-- R149: consumes nothing. -/
def execVcls (h : Hdr) (f : FmtV) (s : State) :=
  let a := fun i => (s.myTile.v f.va.toNat).at i
  vWord h s f.vd f.mask 2 0 fun st i =>
    (st, ⟨BitVec.ofNat 32 (packBits (elemW f.ty.toNat) ((laneFV f.ty.toNat (a i)).map fun v => 2 ^ classBit (fmtOfTy f.ty.toNat) v)), false⟩)

/-- R150. -/
def execVsel (h : Hdr) (f : FmtV) (s : State) :=
  let a := fun i => (s.myTile.v f.va.toNat).at i
  let b := opndB s f
  let m := s.myTile.mask f.vc.toNat
  vWord h s f.vd f.mask 2 0 fun st i => (st, if activeL m i then a i else b i)

/-! ### Conversion (R151 to R154) -/

/-- The exact value of an integer. -/
def exInt (x : Int) : Ex := if x = 0 then .zero false else .num (x < 0) x.natAbs 1 false

/-- Convert one element under R42 and R153. `src` is the element as bits with the poison ids its lane gives it. -/
def cvtElem (s : State) (st dt : Nat) (ovp : Bool) (md : Mode) (fv : FV) (iv : Int) (ipois : Option Nat) : State × Elt :=
  if isIntTy st then
    match ipois with
    | some id => (s, .pois id)
    | none =>
      if isIntTy dt then (s, .val (wrapN (elemW dt) (clampTy dt iv)))
      else
        let r := roundEx (fmtOfTy dt) md (exInt iv)
        if r.2 && ovp then let x := s.newOrigin s.orgC okOVF; (x.1, .pois x.2) else (s, .val r.1)
  else
    let r := consume s s.orgC [fv]
    if r.2 ≠ [] then (r.1, .pois (poisonMerge r.2))
    else if isIntTy dt then
      match fv with
      | .inf n => (s, .val (wrapN (elemW dt) (clampTy dt (if n then -(2 ^ 40 : Nat) else (2 ^ 40 : Nat)))))
      | v => (s, .val (wrapN (elemW dt) (clampTy dt ((roundInt md (fExact v)).getD 0))))
    else
      let x := roundEx (fmtOfTy dt) md (fExact fv)
      if x.2 && ovp then let y := s.newOrigin s.orgC okOVF; (y.1, .pois y.2) else (s, .val x.1)

/-- A result lane of a conversion (R153): an e2m1x8 or integer lane with a poisoned element is poison as a whole. -/
def packCvt (dt : Nat) (els : List Elt) : Lane := if dt < 5 then packF dt els else packI dt els

/-- Convert element e of lane l of type `st`. -/
def cvtOf (s : State) (f : FmtVX) (i L : Nat) (l : Lane) (e : Nat) : State × Elt :=
  let st := f.ty.toNat
  cvtElem s st f.dty.toNat f.ovp (s.modeAt f.rm i L) (fElem st l e) (iElem st l.bits e) (if l.tag then some l.id else none)

/-- Registers of a group, converted lane by lane (Table 65): the result lanes of the k destination registers. -/
def cvtLane (s : State) (f : FmtVX) (i : Nat) : State × List Lane :=
  let sc := elems f.ty.toNat
  let dc := elems f.dty.toNat
  let src := fun j => (s.myTile.v (f.va.toNat + j)).at i
  if dc < sc then
    let r := eltsM (fun s e => cvtOf s f i e (src 0) e) (List.range sc) s
    (r.1, (List.range (sc / dc)).map fun j => packCvt f.dty.toNat ((r.2.drop (j * dc)).take dc))
  else
    let r := eltsM (fun s e => cvtOf s f i e (src (e / sc)) (e % sc)) (List.range dc) s
    (r.1, [packCvt f.dty.toNat r.2])

/-- A group result: k registers from `vd`, all written in one cycle, `y` taking the highest (R152, R167). -/
def groupRes (s : State) (lat vd : Nat) (k : Nat) (act : BitVec 64) (rows : List (List Lane)) : QRes :=
  .result s lat ((List.range k).map fun j => .vec (vd + j) (rows.map fun r => r.getD j Lane.zero) act) (some (1, vd + k - 1)) none

/-- Lanes that give several result lanes each. -/
def rowsM (act : BitVec 64) (g : State → Nat → State × List Lane) : List Nat → State → State × List (List Lane)
  | [], s => (s, [])
  | i :: l, s =>
    let x := if activeL act i then g s i else (s, [])
    let r := rowsM act g l x.1
    (r.1, x.2 :: r.2)

/-- R151 to R153. -/
def execVcvt (h : Hdr) (f : FmtVX) (s : State) :=
  qWord h s fun s =>
    let act := s.myTile.mask f.mask.toNat
    let r := rowsM act (fun st i => cvtLane st f i) (List.range 64) s
    groupRes r.1 4 f.vd.toNat (max 1 (elems f.ty.toNat / elems f.dty.toNat)) act r.2

/-- The value of `vrnd`: the integral value that the mode rounds to, in the format of the element (R154). -/
def fRnd (md : Mode) (v : FV) : Ex :=
  match v with
  | .fin n m e =>
    match exDyadic n m e with
    | .num n a d more => exDyadic n (roundAt md n a d more 0) 0
    | x => x
  | .inf n => .inf n
  | _ => .invalid

/-- R154: rounding to an integer in the element's own format. -/
def execVrnd (h : Hdr) (f : FmtV) (s : State) :=
  fpWord h f s 4 (fun a _ _ => [a]) fun md vs => match vs with
    | [v] => fRnd md v
    | _ => .invalid

end Sys2Proof.Machine
end

