-- ==== Sys2Proof/Machine/VecData.lean ====
section
/-! DEFINITION. The movement, reduction, quantisation, poison and lane-mask instructions of 07_vector_data.md. -/

namespace Sys2Proof.Machine

/-! ### Moves and permutes (R157 to R159) -/

/-- A move: lane i of the result without any consumption (R157). -/
def mvWord (h : Hdr) (f : FmtV) (s : State) (lane : Nat → Lane) : Host.Outcome State Fault Refusal :=
  vWord h s f.vd f.mask 2 0 fun st i => (st, lane i)

/-- Lane i of source `VA`. -/
def srcA (s : State) (f : FmtV) (i : Nat) : Lane := (s.myTile.v f.va.toNat).at i

def execVmov (h : Hdr) (f : FmtV) (s : State) := mvWord h f s (srcA s f)
def execVsplat (h : Hdr) (f : FmtV) (s : State) := mvWord h f s (opndB s f)
def execViota (h : Hdr) (f : FmtV) (s : State) :=
  mvWord h f s fun i => let b := opndB s f i; if b.tag then b else ⟨b.bits + BitVec.ofNat 32 i, false⟩
def execVext (h : Hdr) (f : FmtV) (s : State) :=
  mvWord h f s fun _ => match opndIdx s f with
    | .inl n => srcA s f n
    | .inr id => Lane.ipoison id
def execVins (h : Hdr) (f : FmtV) (s : State) :=
  qWord h s fun s =>
    let act := s.myTile.mask f.mask.toNat
    match opndIdx s f with
    | .inl n => vecRes s 2 0 f.vd.toNat (mkVec fun _ => srcA s f 0) (act &&& BitVec.ofNat 64 (2 ^ n))
    | .inr id => vecRes s 2 0 f.vd.toNat (mkVec fun _ => Lane.ipoison id) act
def execVperm (h : Hdr) (f : FmtV) (s : State) :=
  mvWord h f s fun i =>
    let b := (s.myTile.v f.vb.toNat).at i
    if b.tag then Lane.ipoison b.id else srcA s f (b.bits.toNat % 64)
def execVshuf (h : Hdr) (f : FmtV) (s : State) :=
  mvWord h f s fun i =>
    let c := (s.myTile.v f.vc.toNat).at i
    let k := c.bits.toNat % 128
    if c.tag then Lane.ipoison c.id
    else if k < 64 then srcA s f k else (s.myTile.v f.vb.toNat).at (k - 64)
def execVrot (h : Hdr) (f : FmtV) (s : State) :=
  mvWord h f s fun i => match opndIdx s f with
    | .inl n => srcA s f ((i + n) % 64)
    | .inr id => Lane.ipoison id

/-- The set lanes of a mask, ascending. -/
def setLanes (m : BitVec 64) : List Nat := (List.range 64).filter (activeL m)
/-- A mask of the lanes below c. -/
def lowMask (c : Nat) : BitVec 64 := BitVec.ofNat 64 (2 ^ c - 1)

/-- R159. -/
def execVcmprs (h : Hdr) (f : FmtV) (s : State) :=
  qWord h s fun s =>
    let l := setLanes (s.myTile.mask f.mask.toNat)
    vecRes s 2 0 f.vd.toNat (mkVec fun i => srcA s f (l.getD i 0)) (lowMask l.length)
def execVexpd (h : Hdr) (f : FmtV) (s : State) :=
  qWord h s fun s =>
    let act := s.myTile.mask f.mask.toNat
    vecRes s 2 0 f.vd.toNat (mkVec fun i => srcA s f (((List.range i).filter (activeL act)).length)) act

/-! ### Reductions and scans (R160 to R165) -/

/-- The operations of Table 69 after the identity has been chosen. -/
inductive RedOp where
  | add
  | min
  | max
  | and
  | or
  | xor
deriving DecidableEq, Repr

/-- `FN` of `vred`. -/
def redOp (fn : Nat) : RedOp :=
  match fn with
  | 0 => .add
  | 1 => .min
  | 2 => .max
  | 3 => .and
  | 4 => .or
  | _ => .xor

/-- Table 70. -/
def redIdent (op : RedOp) (ty : Nat) : Nat :=
  match op with
  | .add | .or | .xor => 0
  | .and => 0xFFFFFFFF
  | .min => if ty = 0 then 0x7F800000 else if ty = 6 then 0x7FFFFFFF else 0xFFFFFFFF
  | .max => if ty = 0 then 0xFF800000 else if ty = 6 then 0x80000000 else 0

/-- a orders before b in the type, −0 below +0. -/
def tyLess (ty a b : Nat) : Bool :=
  if ty = 0 then fLess (decodeF fFP32 a) (decodeF fFP32 b)
  else if ty = 6 then sextN 32 a < sextN 32 b
  else a < b

/-- One combine (R162): poison merges; an invalid sum takes an INV origin; else one result. -/
def combine (op : RedOp) (ty : Nat) (md : Mode) (s : State) (a b : Elt) : State × Elt :=
  match a, b with
  | .pois i, .pois j => (s, .pois (poisonMerge [i, j]))
  | .pois i, _ => (s, .pois i)
  | _, .pois j => (s, .pois j)
  | .val x, .val y =>
    match op with
    | .add =>
      if ty = 0 then arith s s.orgC fFP32 md [] (fAdd md (decodeF fFP32 x) (decodeF fFP32 y))
      else (s, .val ((x + y) % 2 ^ 32))
    | .min => (s, .val (if tyLess ty y x then y else x))
    | .max => (s, .val (if tyLess ty x y then y else x))
    | .and => (s, .val (x &&& y))
    | .or => (s, .val (x ||| y))
    | .xor => (s, .val (x ^^^ y))

/-- A source lane adopted (R165): its bits, or poison with origins for foreign and signalling NaNs of f32. -/
def adopt (ty : Nat) (s : State) (l : Lane) : State × Elt :=
  if ty = 0 then arithBits s s.orgC (laneFV 0 l) l.bits.toNat
  else (s, if l.tag then .pois l.id else .val l.bits.toNat)

/-- The 64 entries: active lanes adopted in ascending order, inactive lanes the identity (R161). -/
def entries (ty ident : Nat) (act : BitVec 64) (v : Vec) (s : State) : State × List Elt :=
  eltsM (fun s i => if activeL act i then adopt ty s (v.at i) else (s, .val ident)) (List.range 64) s

/-- One level of the tree of R52: neighbours combine pairwise, in ascending order. -/
def pairLevel {α : Type} (g : State → α → α → State × α) : List α → State → State × List α
  | a :: b :: l, s =>
    let x := g s a b
    let r := pairLevel g l x.1
    (r.1, x.2 :: r.2)
  | l, s => (s, l)

/-- The six levels of the tree. -/
def treeOf {α : Type} (g : State → α → α → State × α) : Nat → List α → State → State × List α
  | 0, l, s => (s, l)
  | n + 1, l, s => let r := pairLevel g l s; treeOf g n r.2 r.1

/-- A result element as a lane of the type. -/
def eltLane (ty : Nat) (e : Elt) : Lane := if ty = 0 then packF 0 [e] else packI ty [e]

/-- `vred` (R162): the result goes to all 64 lanes, whatever the mask. -/
def execVred (h : Hdr) (f : FmtV) (s : State) :=
  qWord h s fun s =>
    let op := redOp f.fn.toNat
    let ty := f.ty.toNat
    let x := entries ty (redIdent op ty) (s.myTile.mask f.mask.toNat) (s.myTile.v f.va.toNat) s
    let r := treeOf (fun s a b => combine op ty ⟨f.rm.toNat, 0⟩ s a b) 6 x.2 x.1
    vecRes r.1 8 1 f.vd.toNat (mkVec fun _ => eltLane ty (r.2.headD (.val 0))) (BitVec.allOnes 64)

/-- `XCombine` of R163 on (value, index). -/
def xcombine (mx : Bool) (ty : Nat) (a b : Elt × Nat) : Elt × Nat :=
  match a.1, b.1 with
  | .val x, .val y =>
    let better := fun u v => if mx then tyLess ty v u else tyLess ty u v
    if better y x then b else if better x y then a else if a.2 ≤ b.2 then a else b
  | .pois i, .pois j => (.pois (poisonMerge [i, j]), if i ≤ j then a.2 else b.2)
  | .pois _, _ => a
  | _, .pois _ => b

/-- `vredx` (R163). -/
def execVredx (h : Hdr) (f : FmtV) (s : State) :=
  qWord h s fun s =>
    let ty := f.ty.toNat
    let mx := f.fn == 1
    let act := s.myTile.mask f.mask.toNat
    let x := entries ty (redIdent (if mx then .max else .min) ty) act (s.myTile.v f.va.toNat) s
    let es := x.2.zipIdx.map fun p => (p.1, if activeL act p.2 then p.2 else 0xFFFF)
    let r := treeOf (fun s a b => (s, xcombine mx ty a b)) 6 es x.1
    let w := r.2.headD (.val 0, 0)
    .result r.1 8 [.vec f.vd.toNat (mkVec fun _ => eltLane ty w.1) (BitVec.allOnes 64),
      .vec (f.vd.toNat + 1) (mkVec fun _ => ⟨BitVec.ofNat 32 w.2, false⟩) (BitVec.allOnes 64)] (some (1, f.vd.toNat + 1)) none

/-- One level of R164: x[i] := x[i−d] ∘ x[i] for i ≥ d, ascending. -/
def scanLevel (g : State → Elt → Elt → State × Elt) (d : Nat) (l : List Elt) (s : State) : State × List Elt :=
  eltsM (fun s i => if i < d then (s, l.getD i (.val 0)) else g s (l.getD (i - d) (.val 0)) (l.getD i (.val 0)))
    (List.range 64) s

/-- `vscan` (R164). -/
def execVscan (h : Hdr) (f : FmtV) (s : State) :=
  qWord h s fun s =>
    let excl := f.fn == 3
    let op := if excl then RedOp.add else redOp f.fn.toNat
    let ty := f.ty.toNat
    let act := s.myTile.mask f.mask.toNat
    let ident := redIdent op ty
    let x := entries ty ident act (s.myTile.v f.va.toNat) s
    let r := [1, 2, 4, 8, 16, 32].foldl
      (fun (p : State × List Elt) d => scanLevel (fun s a b => combine op ty ⟨f.rm.toNat, 0⟩ s a b) d p.2 p.1) x
    let out := if excl then .val ident :: r.2 else r.2
    vecRes r.1 8 1 f.vd.toNat (mkVec fun i => eltLane ty (out.getD i (.val ident))) act

/-! ### Quantisation (R166 to R171) -/

/-- Largest magnitude of an element format, as maxf of R168. -/
def maxfOf (dt : Nat) : Nat := if dt = 3 then 448 else 6

/-- |x| ≤ maxf × 2^(c − 127), for x = m × 2^e. -/
def fitsCode (m : Nat) (e : Int) (maxf c : Nat) : Bool :=
  let k : Int := e + 127 - c
  if 0 ≤ k then m * 2 ^ k.toNat ≤ maxf else m ≤ maxf * 2 ^ (-k).toNat

/-- The scale code of a block: the smallest that fits every element, 254 when none does (R168). -/
def blockCode (maxf : Nat) (vs : List FV) : Nat :=
  ((List.range 255).find? fun c => vs.all fun v => match v with
    | .fin _ m e => fitsCode m e maxf c
    | _ => false).getD 254

/-- One element scaled by 2^(127 − c): its encoding, and whether it was clamped. -/
def quantElem (dt : Nat) (md : Mode) (c : Nat) (v : FV) : Nat × Bool :=
  let f := fmtOfTy dt
  match v with
  | .fin n m e =>
    if fitsCode m e (maxfOf dt) c then ((roundEx f md (exDyadic n m (e + 127 - c))).1, false) else (f.maxBits n, true)
  | .inf n => (f.maxBits n, true)
  | _ => (0, false)

/-- The element lanes and the scale lane of a poison block of `n` lanes (R166). -/
def poisonBlock (n id : Nat) : List Lane × Lane :=
  (Lane.ipoison id :: List.replicate (n - 1) ⟨0, true⟩, ⟨BitVec.ofNat 32 (0xFF + id % 2 ^ 22 * 256), true⟩)

/-- Quantise block b (R168). -/
def quantBlock (f : FmtVX) (s : State) (b : Nat) : State × (List Lane × Lane) :=
  let dt := f.dty.toNat
  let dc := elems dt
  let sc := elems f.ty.toNat
  let nl := 32 / dc
  let src := fun n =>
    let i := b * nl + n / dc
    let e := n % dc
    fElem f.ty.toNat ((s.myTile.v (f.va.toNat + e / sc)).at i) (e % sc)
  let vs := (List.range 32).map src
  let r := consume s s.orgC vs
  if r.2 ≠ [] then (r.1, poisonBlock nl (poisonMerge r.2))
  else
    let c := blockCode (maxfOf dt) vs
    let q := (List.range 32).map fun n => quantElem dt (s.modeAt f.rm (b * nl + n / dc) (n % dc)) c (src n)
    if q.any Prod.snd && f.ovp then let x := r.1.newOrigin s.orgC okOVF; (x.1, poisonBlock nl x.2)
    else
      (r.1, ((List.range nl).map fun j =>
        ⟨BitVec.ofNat 32 (packBits (elemW dt) (((q.map Prod.fst).drop (j * dc)).take dc)), false⟩,
        ⟨BitVec.ofNat 32 c, false⟩))

/-- Blocks in ascending order, threading the state. -/
def blocksM (g : State → Nat → State × (List Lane × Lane)) : List Nat → State → State × List (List Lane × Lane)
  | [], s => (s, [])
  | b :: l, s => let x := g s b; let r := blocksM g l x.1; (r.1, x.2 :: r.2)

/-- `vmqnt` (R168). -/
def execVmqnt (h : Hdr) (f : FmtVX) (s : State) :=
  qWord h s fun s =>
    let r := blocksM (quantBlock f) (List.range (64 * elems f.dty.toNat / 32)) s
    let el := r.2.flatMap Prod.fst
    let sl := r.2.map Prod.snd
    .result r.1 6 [.vec f.vd.toNat (mkVec fun i => el.getD i Lane.zero) (BitVec.allOnes 64),
      .vec (f.vd.toNat + 1) (mkVec fun i => sl.getD i Lane.zero) (BitVec.allOnes 64)] (some (1, f.vd.toNat + 1)) none

/-- A scale lane (R166): a code; device poison with an id; or a foreign poison block. -/
inductive Scale where
  | code (c : Nat)
  | pois (id : Nat)
  | foreign
deriving DecidableEq, Repr

/-- The reading order of R166. -/
def scaleOf (l : Lane) : Scale :=
  let x := l.bits.toNat
  if x % 256 = 255 then (if l.tag && bitN x 29 then .pois (x / 256 % 2 ^ 22) else .foreign)
  else if l.tag then .pois l.id
  else .code (x % 256)

/-- A value times 2^k. -/
def FV.scale (v : FV) (k : Int) : FV :=
  match v with
  | .fin n m e => .fin n m (e + k)
  | x => x

/-- Dequantise the elements of lane i; `fb` is the foreign poison block met last and its id (R169). -/
def dqLane (f : FmtVX) (s : State) (i : Nat) (fb : Option (Nat × Nat)) : State × List Elt × Option (Nat × Nat) :=
  let st := f.ty.toNat
  let n := elems st
  let b := i * n / 32
  let l := (s.myTile.v f.va.toNat).at i
  match scaleOf ((s.myTile.v f.vb.toNat).at b) with
  | .pois id => (s, List.replicate n (.pois id), fb)
  | .foreign =>
    match fb with
    | some (b', id) =>
      if b' = b then (s, List.replicate n (.pois id), fb)
      else let x := s.newOrigin s.orgC okFOREIGN; (x.1, List.replicate n (.pois x.2), some (b, x.2))
    | none => let x := s.newOrigin s.orgC okFOREIGN; (x.1, List.replicate n (.pois x.2), some (b, x.2))
  | .code c =>
    let r := eltsM (fun s e =>
        let v := fElem st l e
        arith s s.orgC (fmtOfTy f.dty.toNat) (s.modeAt f.rm i e) [v] (fExact (v.scale ((c : Int) - 127))))
      (List.range n) s
    (r.1, r.2, fb)

/-- `vmdq` (R169). -/
def execVmdq (h : Hdr) (f : FmtVX) (s : State) :=
  qWord h s fun s =>
    let dc := elems f.dty.toNat
    let k := elems f.ty.toNat / dc
    let r := (List.range 64).foldl (fun (x : State × List (List Lane) × Option (Nat × Nat)) i =>
        let y := dqLane f x.1 i x.2.2
        (y.1, x.2.1 ++ [(List.range k).map fun j => packCvt f.dty.toNat ((y.2.1.drop (j * dc)).take dc)], y.2.2)) (s, [], none)
    groupRes r.1 6 f.vd.toNat k (BitVec.allOnes 64) r.2.1

/-- The ids of a scale lane, with a FOREIGN origin for a foreign poison block (R166, R170). -/
def scaleIds (s : State) (l : Lane) : State × List Nat :=
  match scaleOf l with
  | .code _ => (s, [])
  | .pois id => (s, [id])
  | .foreign => let x := s.newOrigin s.orgC okFOREIGN; (x.1, [x.2])

/-- `vscl` (R170). -/
def execVscl (h : Hdr) (f : FmtVX) (s : State) :=
  vWord h s f.vd f.mask 6 1 fun st i =>
    let t := st.myTile
    let acc := fElem 0 ((t.v f.vd.toNat).at i) 0
    let a := fElem 0 ((t.v f.va.toNat).at i) 0
    let sa := (t.v f.vb.toNat).at i
    let sb := (t.v (f.vb.toNat + 1)).at i
    let r := consume st st.orgC [acc, a]
    let ra := scaleIds r.1 sa
    let rb := scaleIds ra.1 sb
    let ids := r.2 ++ ra.2 ++ rb.2
    if ids ≠ [] then (rb.1, packF 0 [.pois (poisonMerge ids)])
    else
      let md := st.modeAt f.rm i 0
      let k : Int := (sa.bits.toNat % 256 : Nat) + (sb.bits.toNat % 256 : Nat) - 254
      let x := arith rb.1 st.orgC fFP32 md [] (fAdd md acc (a.scale k))
      (x.1, packF 0 [x.2])

/-- Element i of an LQ2 codeword through the magnitude table, as sign and quarters (R36). -/
def lq2Elem (mag : List (BitVec 32)) (w i : Nat) : Bool × Nat :=
  let m := (mag.getD (w % 256) 0).toNat / 2 ^ (4 * i) % 16
  let q := if bitN w 15 && m ≤ 7 then 2 * m + 1 else 2 * m
  let neg := if i < 7 then bitN w (8 + i) else popN 7 (w / 256) % 2 == 1
  (neg, q)

/-- Its exact E4M3 encoding. -/
def lq2E4M3 (mag : List (BitVec 32)) (w i : Nat) : Nat :=
  let x := lq2Elem mag w i
  (roundEx fE4M3 ⟨0, 0⟩ (exDyadic x.1 x.2 (-2))).1

/-- `vlqd` (R171). -/
def execVlqd (h : Hdr) (f : FmtVX) (s : State) :=
  qWord h s fun s =>
    let t := s.myTile
    let src := t.v f.va.toNat
    -- lane j of register vd + r comes from half (j mod 4) / 2 of source lane 16 r + j / 4
    let lane := fun r j =>
      let l := src.at (16 * r + j / 4)
      let w := l.bits.toNat / 2 ^ (16 * (j % 4 / 2)) % 2 ^ 16
      if l.tag then (⟨0x7F7F7F7F, true⟩ : Lane)
      else ⟨BitVec.ofNat 32 (packBits 8 ((List.range 4).map fun e => lq2E4M3 t.mag w (4 * (j % 2) + e))), false⟩
    .result s 6 ((List.range 4).map fun r => .vec (f.vd.toNat + r) (mkVec (lane r)) (BitVec.allOnes 64))
      (some (1, f.vd.toNat + 3)) none

/-! ### Poison instructions (R172 to R174) -/

/-- R172: one SOFT origin when a lane is active. -/
def execVpsn (h : Hdr) (f : FmtV) (s : State) :=
  qWord h s fun s =>
    let act := s.myTile.mask f.mask.toNat
    if act = 0 then vecRes s 2 0 f.vd.toNat [] act
    else
      let x := s.newOrigin s.orgC okSOFT
      vecRes x.1 2 0 f.vd.toNat (mkVec fun _ => eltLane f.ty.toNat (.pois x.2)) act

/-- The poison id of a lane read as a type, without consuming it (R173). -/
def laneId (ty : Nat) (l : Lane) : Option Nat :=
  if ty = 12 then (if l.tag then some l.id else none)
  else
    let ids := (laneFV ty l).filterMap fun v => match v with
      | .poison id => some id
      | _ => none
    if ids = [] then none else some (poisonMerge ids)

/-- R173. -/
def execVpid (h : Hdr) (f : FmtV) (s : State) :=
  mvWord h f s fun i => ⟨BitVec.ofNat 32 ((laneId f.ty.toNat (srcA s f i)).getD 0), false⟩

/-- The id `vprep` counts for a lane it replaces: of device poison, or the anonymous id of a foreign or signalling NaN (R174). -/
def prepId (ty : Nat) (l : Lane) : Option Nat :=
  match laneId ty l with
  | some id => some id
  | none =>
    if ty = 0 then (match decodeF fFP32 l.bits.toNat with
      | .quiet | .signalling => some anonId
      | _ => none)
    else none

/-- R174. -/
def execVprep (h : Hdr) (f : FmtV) (s : State) :=
  qWord h s fun s =>
    let act := s.myTile.mask f.mask.toNat
    let b := opndB s f
    let ty := f.ty.toNat
    if !(s.ctx (s.ctxNo s.me)).pclr then vecRes s 2 0 f.vd.toNat (mkVec (srcA s f)) act
    else
      let hit := (List.range 64).filter fun i => activeL act i && (prepId ty (srcA s f i)).isSome
      let v := mkVec fun i => if hit.contains i then b i else srcA s f i
      if hit = [] then vecRes s 2 0 f.vd.toNat v act
      else
        let id := poisonMerge (hit.filterMap fun i => prepId ty (srcA s f i))
        vecRes (s.logEntry s.orgC okCLEAR id hit.length) 2 0 f.vd.toNat v act

/-! ### Lane masks (R175) -/

/-- A word that computes a whole lane mask. -/
def jmWord (h : Hdr) (f : FmtV) (s : State) (op : BitVec 64 → BitVec 64 → BitVec 64) : Host.Outcome State Fault Refusal :=
  qWord h s fun s =>
    .result s 2 [.mask f.vd.toNat (op (s.myTile.mask f.va.toNat) (s.myTile.mask f.vb.toNat)) (BitVec.allOnes 64)] none none
def execJand (h : Hdr) (f : FmtV) (s : State) := jmWord h f s fun a b => a &&& b
def execJor (h : Hdr) (f : FmtV) (s : State) := jmWord h f s fun a b => a ||| b
def execJxor (h : Hdr) (f : FmtV) (s : State) := jmWord h f s fun a b => a ^^^ b
def execJnot (h : Hdr) (f : FmtV) (s : State) := jmWord h f s fun a _ => ~~~a
def execJpopc (h : Hdr) (f : FmtV) (s : State) :=
  mvWord h f s fun _ => ⟨BitVec.ofNat 32 (popN 64 (s.myTile.mask f.va.toNat).toNat), false⟩
def execJffs (h : Hdr) (f : FmtV) (s : State) :=
  mvWord h f s fun _ => ⟨BitVec.ofNat 32 (ctzN 64 (s.myTile.mask f.va.toNat).toNat), false⟩

end Sys2Proof.Machine
end

