-- ==== Sys2Proof/Machine/Matrix.lean ====
section
/-! DEFINITION. The matrix engine: shape registers, banks, the accumulator and its cells, gangs (11_matrix.md R238 to R263). -/

namespace Sys2Proof.Machine

/-! ### Shape registers (R240, R241) -/

/-- Fields of Table 98: k-steps, rows, row stride in bytes; the writable bits. -/
def shK (h : Nat) : Nat := 32 * (h % 4 + 1)
def shRows (h : Nat) : Nat := bitsN h 4 7 + 1
def shStr (h : Nat) : Nat := 4 * bitsN h 12 26
abbrev shMask : BitVec 64 := 0x3FFFFFF7F3

/-- The half of `hD` that a word names: the shadow with `.sh`. -/
def shKey (r : BitVec 8) (f : FmtV) : Nat := r.toNat % 4 + if f.fn = 1 then 4 else 0

/-- `hset` (R241). -/
def execHset (h : Hdr) (f : FmtV) (s : State) :=
  qWord h s fun s =>
    let a := s.cur.snap.s (f.vb.toNat % 64)
    if a.tag then .trap s { cause := cPOISADR, val := a.bits.toNat }
    else let t := s.myTile; .done (s.setMyTile { t with h := tset t.h (shKey f.vd f) (a.bits &&& shMask) })

/-- `hswp` (R241). -/
def execHswp (h : Hdr) (f : FmtV) (s : State) :=
  qWord h s fun s =>
    let t := s.myTile
    let d := f.vd.toNat % 4
    .done (s.setMyTile { t with h := tset (tset t.h d (tget 0 t.h (d + 4))) (d + 4) (tget 0 t.h d) })

/-- `hrd` (R241). -/
def execHrd (h : Hdr) (f : FmtV) (s : State) :=
  qWord h s fun s =>
    let d := f.vb.toNat % 64
    .result s 2 (if d = 0 then [] else [.scal (s.cur.snap.phys d) ⟨tget 0 s.myTile.h (shKey f.va f), false⟩]) none none

/-! ### The accumulator from the vector unit (R257 to R259) -/

/-- Row i of the accumulator. -/
def Tile.accRow (t : Tile) (i : Nat) : List (BitVec 32) := tget (List.replicate 128 0) t.acc i
/-- Element (i, j). -/
def Tile.accAt (t : Tile) (i j : Nat) : BitVec 32 := (t.accRow i).getD j 0
def Tile.setAccRow (t : Tile) (i : Nat) (l : List (BitVec 32)) : Tile := { t with acc := tset t.acc i l }

/-- FP32 device poison (R33, R239). -/
def isPois32 (x : BitVec 32) : Bool := (decodeF fFP32 x.toNat).isPoison

/-- An engine command that reads or writes the accumulator is in the queue (R259): `mxspl.cel`, `mxfil.cel` and `mxz.cel #0` do not. -/
def accBusy (t : Tile) : Bool :=
  t.meq.any fun c =>
    let o := bitsN c.w0 56 5
    o == 0x12 || o == 0x14 || o == 0x15 || (o == 0x13 && c.w0 % 16 != 0) || ((o == 0x16 || o == 0x17) && !bitN c.w0 0)

/-- Bits that stand outside the determinism guarantee (R259, R198): free values, one for each lane. -/
def State.freeLanes (s : State) : (Nat → BitVec 32) × State :=
  (fun i => BitVec.ofNat 32 (Config.freeWord (s.freeCtr + i)).toNat, { s with freeCtr := s.freeCtr + 64 })

/-- `mxrv` (R257, R259). -/
def execMxrv (h : Hdr) (f : FmtV) (s : State) :=
  qWord h s fun s =>
    let t := s.myTile
    let act := t.mask f.mask.toNat
    let q := f.va.toNat % 4
    match opndIdx s f with
    | .inr id => vecRes s 12 3 f.vd.toNat (mkVec fun _ => Lane.ipoison id) act
    | .inl r =>
      let r0 := t.accRow (2 * r)
      let r1 := t.accRow (2 * r + 1)
      let fr := s.freeLanes
      let busy := accBusy t
      let v := mkVec fun i =>
        let x := if busy then fr.1 i else (if i < 32 then r0 else r1).getD (32 * q + i % 32) 0
        ⟨x, isPois32 x⟩
      vecRes (if busy then fr.2 else s) 12 3 f.vd.toNat v act

/-- A row of the accumulator with the active lanes of half `hf` written in quarter q. -/
def putLanes (row : List (BitVec 32)) (q hf : Nat) (act : BitVec 64) (v : Nat → BitVec 32) : List (BitVec 32) :=
  (List.range 128).map fun j =>
    let i := 32 * hf + j % 32
    if j / 32 = q ∧ activeL act i = true then v i else row.getD j 0

/-- `mxwv` (R258, R259). -/
def execMxwv (h : Hdr) (f : FmtV) (s : State) :=
  qWord h s fun s =>
    let t := s.myTile
    let act := t.mask f.mask.toNat
    match opndIdx s f with
    | .inr id => .trap s { cause := cPOISADR, val := id }
    | .inl r =>
      let src := t.v f.va.toNat
      let fr := s.freeLanes
      let busy := accBusy t
      let v := fun i =>
        let l := src.at i
        if busy then fr.1 i else if l.tag then 0x7FE00000 ||| (l.bits &&& 0x3FFFFF) else l.bits
      let q := f.vd.toNat % 4
      let t := (t.setAccRow (2 * r) (putLanes (t.accRow (2 * r)) q 0 act v)).setAccRow (2 * r + 1)
        (putLanes (t.accRow (2 * r + 1)) q 1 act v)
      .done ((if busy then fr.2 else s).setMyTile t)

/-! ### Issue of engine commands (R242, R249) -/

/-- `OPC` and `ES` of a command. -/
def MeCmd.opc (c : MeCmd) : Nat := bitsN c.w0 56 5
def MeCmd.es (c : MeCmd) : Nat := c.w0 % 2 ^ 16

/-- The base offset of word 1, and the poisoned index (R242). -/
def meOff (s : State) (w : Nat) : Int × Option Scal :=
  let x := s.cur.snap.s (bitsN w 5 6)
  if bitsN w 5 6 = 0 then (sextN 32 (w / 2 ^ 16), none)
  else (sextN 32 (w / 2 ^ 16) + x.bits.toInt * 2 ^ bitsN w 11 3, if x.tag then some x else none)

/-- What a memory command checks for each row: bytes, rights, alignment, rows and stride. -/
structure MReq where
  n : Nat
  rights : Nat
  align : Nat
  rows : Nat
  str : Nat
deriving DecidableEq, Repr

/-- The checks of R242, row by row in ascending order, and then those of R225. -/
def meCheck (s : State) (f : FmtE) (q : Option MReq) : Except (TrapInfo × Bool) Unit :=
  let w := f.w1.toNat
  let o := meOff s w
  let r : Except TrapInfo (List (Nat × Nat)) := match q with
    | none => .ok []
    | some q => checkAll (s.cur.snap.capP (bitsN w 0 5)) q.n q.rights q.align
        ((List.range q.rows).map fun (r : Nat) => ⟨r, o.1 + r * q.str, poisVal o.2⟩)
  match r with
  | .error t => .error (t, false)
  | .ok _ =>
    if (f.wt ≠ 0 ∧ (s.semPhys s.me f.ws.toNat).isNone = true) ∨ (f.si ≠ 0 ∧ (s.semPhys s.me f.ss.toNat).isNone = true) then
      .error ({ cause := cCAPRGT }, true)
    else .ok ()

/-- A matrix command issues into the queue of 16 (R249): it copies its shape register's active half and its operand. -/
def meWord (h : Hdr) (f : FmtE) (s : State) (i : Instr) (shape : Nat) (q : Option MReq) : Host.Outcome State Fault Refusal :=
  qWord h s fun s =>
    let t := s.myTile
    if 16 ≤ t.meq.length then .wait
    else match meCheck s f q with
      | .error e => .trap (if e.2 then capRgt16 s else s) e.1
      | .ok _ =>
        let w := f.w1.toNat
        let cap := s.cur.snap.capP (bitsN w 0 5)
        let c : MeCmd :=
          { id := t.meid, instr := i, pc := s.cur.pc, w0 := s.cur.w0, w1 := w, cap := cap
            off := if q.isSome then cap.cur + (meOff s w).1 else 0, shape := BitVec.ofNat 64 shape, started := false, row := 0
            finished := false, left := 0, park := 0, ue := [], gang := 0, got := [], ord := t.dord }
        .done (s.setMyTile { t with meq := t.meq ++ [c], meid := t.meid + 1 })

/-- Element bytes and scale bytes of a row of K k-steps (Table 99). -/
def mxElemBytes (fmt K : Nat) : Nat := if fmt = 0 then K / 2 else if fmt = 1 then K else if fmt = 2 then K / 4 else 2 * K
def mxScaleBytes (fmt K : Nat) : Nat := if fmt = 3 then 0 else K / 32

/-- The active half of the shape register that bits [5:4] of `ES` name. -/
def shOf (s : State) (es : BitVec 16) : Nat := (tget 0 s.myTile.h (bitsN es.toNat 4 2)).toNat

/-- The rows of a load (R243). -/
def mxLoadReq (h es : Nat) : MReq :=
  { n := mxElemBytes (bitsN es 1 3) (shK h) + mxScaleBytes (bitsN es 1 3) (shK h), rights := rtR, align := 4, rows := shRows h, str := shStr h }

def execMxla (h : Hdr) (f : FmtE) (s : State) :=
  meWord h f s (.mxla h f) (shOf s f.es) (some (mxLoadReq (shOf s f.es) f.es.toNat))
def execMxlb (h : Hdr) (f : FmtE) (s : State) :=
  meWord h f s (.mxlb h f) (shOf s f.es) (some (mxLoadReq (shOf s f.es) f.es.toNat))
def execMxmma (h : Hdr) (f : FmtE) (s : State) := meWord h f s (.mxmma h f) 0 none
def execMxz (h : Hdr) (f : FmtE) (s : State) := meWord h f s (.mxz h f) 0 none
def execMxprm (h : Hdr) (f : FmtE) (s : State) := meWord h f s (.mxprm h f) 0 none

/-- The quarters of a mask, ascending. -/
def quarters (qm : Nat) : List Nat := (List.range 4).filter (bitN qm)

/-- Bytes of an element of `mxst` (R260). -/
def mxstE (es : Nat) : Nat := if bitsN es 6 2 = 0 then 4 else 2

/-- `mxst` (R260). -/
def execMxst (h : Hdr) (f : FmtE) (s : State) :=
  let es := f.es.toNat
  let e := mxstE es
  let sh := shOf s f.es
  meWord h f s (.mxst h f) sh
    (some { n := 32 * (quarters (es % 16)).length * e, rights := rtW, align := e, rows := shRows sh, str := shStr sh })

/-- Bytes of a record of `mxspl` and `mxfil` (R262). -/
def recBytes (es : Nat) : Nat := if bitN es 0 then 131584 else 16384 * (quarters (bitsN es 1 4)).length

def execMxspl (h : Hdr) (f : FmtE) (s : State) :=
  meWord h f s (.mxspl h f) 0 (some { n := recBytes f.es.toNat, rights := rtW, align := 16, rows := 1, str := 0 })
def execMxfil (h : Hdr) (f : FmtE) (s : State) :=
  meWord h f s (.mxfil h f) 0 (some { n := recBytes f.es.toNat, rights := rtR, align := 16, rows := 1, str := 0 })
def execMxgng (h : Hdr) (f : FmtE) (s : State) := meWord h f s (.mxgng h f) 0 none
def execMxrp (h : Hdr) (f : FmtE) (s : State) := meWord h f s (.mxrp h f) 0 none

/-! ### Banks (R243, R244) -/

/-- A bank by number: A0, A1, B0, B1. The rows of a bank, and the side poison of a row and block. -/
def Tile.bankRow (t : Tile) (b r : Nat) : List Byte := tget [] t.bank (128 * b + r)
def Tile.sideOf (t : Tile) (b r blk : Nat) : Option Nat := (t.side.find? fun x => x.1 == (128 * b + r) * 4 + blk).map Prod.snd

/-- A bank with nothing in it. -/
def Tile.clearBank (t : Tile) (b : Nat) : Tile :=
  { t with bank := t.bank.filter (fun x => x.1 / 128 != b), side := t.side.filter fun x => x.1 / 512 != b }

/-- The bank a load or `mxrp` writes. -/
def MeCmd.bank (c : MeCmd) : Nat := c.es % 2 + if c.opc = 0x11 then 2 else 0

/-- Where the origins of the matrix engine of tile k lie (R244, R247). -/
def State.orgM (s : State) (k : Nat) (c : MeCmd) (oid : Nat) : OrgAt :=
  { tile := k, src := 3, pc := c.pc, oid := oid, what := c.w0, step := (s.tile k).step }

/-- Put back a command. -/
def State.setMe (s : State) (k : Nat) (c : MeCmd) : State :=
  let t := s.tile k
  s.setTile k { t with meq := t.meq.map fun x => if x.id = c.id then c else x }

/-- A trap of a command that has entered the queue ends the grid at word 0 (R253). -/
def State.meFail (s : State) (k : Nat) (c : MeCmd) (t : TrapInfo) : State :=
  let s := s.setTile k { s.tile k with meDead := true }
  (s.tel (0x100 + 8 * t.cause)).endBy k 4 c.pc false t

/-- A command's effects are done; the time to its completion is not architectural (R248). -/
def State.meEnd (s : State) (k : Nat) (c : MeCmd) : State :=
  let d := s.delay
  d.2.setMe k { c with finished := true, left := d.1 }

/-- A row of a memory command that can be reached: its number, and its memory and ranges. -/
abbrev Reached := Nat × Space × List (Nat × Nat × Nat)

/-- Rows in order (number, offset in the object, bytes) up to the first that misses, with the offset of the miss. -/
def State.meReach (s : State) (k oid : Nat) : List (Nat × Nat × Nat) → List Reached × Option (Nat × Nat)
  | [] => ([], none)
  | (r, off, n) :: l =>
    match s.reach k k oid off n with
    | .error o => ([], some (r, o))
    | .ok x => let q := s.meReach k oid l; ((r, x.1, x.2) :: q.1, q.2)

/-- A link on the way of the rows that carries no data (R364). -/
def State.meDown (s : State) (k : Nat) (l : List Reached) : Option Nat := l.findSome? fun x => s.reachDown k x.2

/-- The command parks at a row whose translation misses (R251). -/
def State.mePark (s : State) (k : Nat) (c : MeCmd) (wr : Bool) (miss : Nat × Nat) : State :=
  ((s.setMe k { c with row := miss.1 }).startWalk k 2 c.id wr (s.ctxNo k) c.cap.oid miss.2).setPark k 2 c.id 1

/-- The rows a command has still to do: number, offset, bytes. -/
def MeCmd.rowsOf (c : MeCmd) (rows str n : Nat) : List (Nat × Nat × Nat) :=
  ((List.range rows).filter (c.row ≤ ·)).map fun r => (r, c.off.toNat + r * str, n)

/-- New UE origins of reached rows, in ascending address (R244, R263). -/
def State.meUE (s : State) (k : Nat) (c : MeCmd) (l : List Reached) : State × Tab Nat :=
  match l with
  | [] => (s, c.ue)
  | x :: _ =>
    let gs := (s.ueOf x.2.1 (l.flatMap fun y => y.2.2)).filter fun g => !c.ue.any fun y => y.1 == g.2
    let u := State.mkUE x.2.1 (s.orgM k c c.cap.oid) gs s
    (u.1, u.2.foldl (fun t g => tset t g.1 g.2) c.ue)

/-- The id of each byte of a reached row, when some granule is poisoned. -/
def rowIds (ue : Tab Nat) (x : Reached) : List (Option Nat) :=
  x.2.2.flatMap fun r => (List.range r.2.2).map fun i => (ue.find? fun y => y.1 == (r.2.1 + i) / x.2.1.gran).map Prod.snd

/-- The smallest id of some bytes. -/
def idIn (ids : List (Option Nat)) : Option Nat := ids.foldl mergeId none

/-- One row of a load written to its bank: elements from offset 0, scales from 256, and the side poison of its blocks. -/
def Tile.loadRow (t : Tile) (b fmt K r : Nat) (bytes : List Byte) (ids : List (Option Nat)) : Tile :=
  let e := mxElemBytes fmt K
  let row := (bytes.take e ++ List.replicate (256 - e) 0) ++ bytes.drop e ++ List.replicate (4 - mxScaleBytes fmt K) 0
  let t := { t with bank := tset t.bank (128 * b + r) row }
  let eb := mxElemBytes fmt 32
  (List.range (K / 32)).foldl (fun (t : Tile) blk =>
    match mergeId (idIn ((ids.drop (blk * eb)).take eb)) (if fmt = 3 then none else idIn ((ids.drop (e + blk)).take 1)) with
    | some id => { t with side := tset t.side ((128 * b + r) * 4 + blk) id }
    | none => t) t

/-- `mxla` and `mxlb` at work (R243, R244). -/
def State.meLoad (s : State) (k : Nat) (c : MeCmd) : State :=
  let h := c.shape.toNat
  let fmt := bitsN c.es 1 3
  let K := shK h
  let n := mxElemBytes fmt K + mxScaleBytes fmt K
  let q := s.meReach k c.cap.oid (c.rowsOf (shRows h) (shStr h) n)
  match s.meDown k q.1 with
  | some i => s.meFail k c { cause := cLINKLOST, val := i }
  | none =>
    let u := s.meUE k c q.1
    let c := { c with ue := u.2 }
    let s := q.1.foldl (fun (s : State) x =>
      s.setTile k ((s.tile k).loadRow c.bank fmt K x.1 (x.2.2.flatMap fun r => s.rd x.2.1 r.2.1 r.2.2) (if u.2 = [] then [] else rowIds u.2 x))) u.1
    match q.2 with
    | some m => s.mePark k c false m
    | none => s.meEnd k c

/-! ### Elements (R246) -/

/-- An element of a panel: an exact integer in units of the class, a BF16 value, or poison. -/
inductive MxE where
  | int (v : Int)
  | flt (x : FV)
  | pois (id : Nat)
deriving DecidableEq, Repr

/-- What a panel is decoded as: 0 MXFP4, 1 MXFP8, 2 LQ2, 3 BF16. -/
def eltFmt (cls : Nat) (lq : Bool) : Nat := if cls = 0 then 0 else if cls = 2 then 3 else if lq then 2 else 1

/-- An exact element as an integer multiple of 2^-u. -/
def unitInt (u : Int) : FV → MxE
  | .fin neg m e => let v : Int := m * 2 ^ (e + u).toNat; .int (if neg then -v else v)
  | .poison id => .pois id
  | x => .flt x

/-- Element k of a bank row, unscaled, side poison and block scale apart. -/
def rawElem (fmt : Nat) (mag : List (BitVec 32)) (row : List Byte) (k : Nat) : MxE :=
  let by_ := fun i => (row.getD i 0).toNat
  if fmt = 0 then unitInt 1 (decodeF fE2M1 (by_ (k / 2) / 2 ^ (4 * (k % 2)) % 16))
  else if fmt = 1 then unitInt 9 (decodeF fE4M3 (by_ k))
  else if fmt = 2 then
    let x := lq2Elem mag (by_ (2 * (k / 8)) + 256 * by_ (2 * (k / 8) + 1)) (k % 8)
    .int (if x.1 then -(128 * (x.2 : Int)) else 128 * x.2)
  else match decodeF fBF16 (by_ (2 * k) + 256 * by_ (2 * k + 1)) with
    | .poison id => .pois id
    | x => .flt x

/-- The id of a device poison block (R46): scale 0xFF apart, bytes 0 to 2 hold it with bit 21 set and [23:22] zero, and the others are
zero. -/
def blockId (bytes : List Byte) : Option Nat :=
  let v := leVal (bytes.take 3)
  if v / 2 ^ 21 = 1 ∧ (bytes.drop 3).all (· == 0) = true then some v else none

/-- Scale code of a row and block. -/
def scaleCode (t : Tile) (b r blk : Nat) : Nat := ((t.bankRow b r).getD (256 + blk) 0).toNat

/-- Foreign blocks met in a command: bank row and block, with the id. -/
abbrev Foreign := Tab Nat

/-- Element k of row r of bank b (R246): the foreign blocks so far and new origins go with it. -/
def panelElem (g : OrgAt) (fmt b r k : Nat) (x : State × Foreign) : (State × Foreign) × MxE :=
  let t := x.1.tile g.tile
  let row := t.bankRow b r
  let blk := k / 32
  match t.sideOf b r blk with
  | some id => (x, .pois id)
  | none =>
    if fmt ≠ 3 ∧ scaleCode t b r blk = 0xFF then
      let eb := mxElemBytes fmt 32
      match blockId ((row.drop (blk * eb)).take eb) with
      | some id => (x, .pois id)
      | none =>
        match x.2.find? fun y => y.1 == (128 * b + r) * 4 + blk with
        | some y => (x, .pois y.2)
        | none => let o := x.1.newOrigin g okFOREIGN; ((o.1, tset x.2 ((128 * b + r) * 4 + blk) o.2), .pois o.2)
    else match rawElem fmt t.mag row k with
      | .flt .quiet => let o := x.1.newOrigin g okFOREIGN; ((o.1, x.2), .pois o.2)
      | .flt .signalling => let o := x.1.newOrigin g okSNAN; ((o.1, x.2), .pois o.2)
      | e => (x, e)

/-- The elements of step k of rows 0 to 127 of a bank, in order. -/
def panelElems (g : OrgAt) (fmt b k : Nat) : List Nat → State × Foreign → (State × Foreign) × List MxE
  | [], x => (x, [])
  | r :: l, x =>
    let y := panelElem g fmt b r k x
    let z := panelElems g fmt b k l y.1
    (z.1, y.2 :: z.2)

/-! ### Cells and promotion (R245, R247, R248, R53) -/

/-- The cells and the pending key as they are worked on. -/
structure Cells where
  rows : List (List Int)
  pois : List (List (Option Nat))
  n : Nat
  cls : Nat
  a : List Nat
  b : List Nat
deriving DecidableEq, Repr

def zeroRow : List Int := List.replicate 128 0
def noIds : List (Option Nat) := List.replicate 128 none

/-- Empty cells. -/
def Cells.empty : Cells := ⟨List.replicate 128 zeroRow, List.replicate 128 noIds, 0, 3, [], []⟩

/-- The cells of a tile, and put back. -/
def Tile.cells (t : Tile) : Cells :=
  ⟨(List.range 128).map (tget zeroRow t.cell), (List.range 128).map (tget noIds t.cellp), t.celln, t.keyCls, t.keyA, t.keyB⟩
def Tile.setCells (t : Tile) (c : Cells) : Tile :=
  { t with
    cell := if c = .empty then [] else (List.range 128).map (fun i => (i, c.rows.getD i zeroRow))
    cellp := if c = .empty then [] else (List.range 128).map (fun i => (i, c.pois.getD i noIds))
    celln := c.n, keyCls := c.cls, keyA := c.a, keyB := c.b }

/-- A cell's value at promotion, exactly (R53). -/
def cellFV (cls sa sb : Nat) (v : Int) (p : Option Nat) : FV :=
  match p with
  | some id => .poison id
  | none =>
    if cls = 2 then decodeF fFP32 (wrapN 32 v)
    else .fin (v < 0) v.natAbs ((if cls = 0 then -2 else -18) + (sa : Int) + sb - 254)

/-- One element promoted. -/
def promote1 (g : OrgAt) (s : State) (x : BitVec 32) (v : FV) : State × BitVec 32 :=
  let a := decodeF fFP32 x.toNat
  let r := arith s g fFP32 ⟨0, 0⟩ [a, v] (fAdd ⟨0, 0⟩ a v)
  (r.1, BitVec.ofNat 32 (match r.2 with
    | .val b => b
    | .pois id => poison32 id))

/-- A row promoted, column by column. -/
def promoteRow (g : OrgAt) (cls sa : Nat) : List Nat → List Int → List (Option Nat) → List (BitVec 32) → State → State × List (BitVec 32)
  | sb :: bs, v :: vs, p :: ps, x :: xs, s =>
    let r := promote1 g s x (cellFV cls sa sb v p)
    let q := promoteRow g cls sa bs vs ps xs r.1
    (q.1, r.2 :: q.2)
  | _, _, _, _, s => (s, [])

/-- The row index, cells and ids by row. -/
def promoteRows (g : OrgAt) (c : Cells) : List Nat → List (List Int) → List (List (Option Nat)) → State → State
  | i :: l, v :: vs, p :: ps, s =>
    let t := s.tile g.tile
    let bs := (List.range 128).map fun j => c.b.getD j 0
    let r := promoteRow g c.cls (c.a.getD i 0) bs v p (t.accRow i) s
    promoteRows g c l vs ps (r.1.setTile g.tile ((r.1.tile g.tile).setAccRow i r.2))
  | _, _, _, s => s

/-- `PromoteAll`: every element of the accumulator takes its cell in, and the cells are empty. -/
def promoteAll (g : OrgAt) (x : State × Cells) : State × Cells :=
  (promoteRows g x.2 (List.range 128) x.2.rows x.2.pois x.1, .empty)

/-- A sum in its 48-bit cell. A sum outside it, which only a record read by `mxfil` or cells continued past 32 k-steps can lead to, is not stated: a free
value (assumption 7). -/
def sum48 (fr : Nat) (x : Int) : Int :=
  if -(2 ^ 47) ≤ x ∧ x < 2 ^ 47 then x else sextN 48 (Config.freeWord fr).toNat

/-- One cell of a k-step. -/
def macCell (g : OrgAt) (cls fr : Nat) (a b : MxE) (v : Int) (p : Option Nat) (s : State) : State × Int × Option Nat :=
  let id := fun (e : MxE) => match e with
    | .pois i => some i
    | _ => none
  match mergeId (mergeId (id a) (id b)) p with
  | some i => (s, 0, some i)
  | none =>
    if cls = 2 then
      let fv := fun (e : MxE) => match e with
        | .flt x => x
        | _ => FV.fin false 0 0
      let c := decodeF fFP32 (wrapN 32 v)
      let r := arith s g fFP32 ⟨0, 0⟩ [fv a, fv b, c] (fFma ⟨0, 0⟩ (fv a) (fv b) c)
      (match r.2 with
        | .val x => (r.1, (x : Int), none)
        | .pois i => (r.1, 0, some i))
    else
      let iv := fun (e : MxE) => match e with
        | .int x => x
        | _ => 0
      (s, sum48 fr (v + iv a * iv b), none)

/-- One row of a k-step. -/
def macRow (g : OrgAt) (cls fr : Nat) (a : MxE) : List MxE → List Int → List (Option Nat) → State → State × List Int × List (Option Nat)
  | b :: bs, v :: vs, p :: ps, s =>
    let r := macCell g cls fr a b v p s
    let q := macRow g cls (fr + 1) a bs vs ps r.1
    (q.1, r.2.1 :: q.2.1, r.2.2 :: q.2.2)
  | _, _, _, s => (s, [], [])

/-- All rows of a k-step. -/
def macRows (g : OrgAt) (cls fr : Nat) (b : List MxE) : List MxE → List (List Int) → List (List (Option Nat)) → State →
    State × List (List Int) × List (List (Option Nat))
  | a :: l, v :: vs, p :: ps, s =>
    let r := macRow g cls fr a b v p s
    let q := macRows g cls (fr + 128) b l vs ps r.1
    (q.1, r.2.1 :: q.2.1, r.2.2 :: q.2.2)
  | _, _, _, s => (s, [], [])

/-- The scale codes of the key of a k-step for one bank: side poison counts as 0xFF; none for `bf16`. -/
def keyCodes (t : Tile) (cls b k : Nat) : List Nat :=
  if cls = 2 then []
  else (List.range 128).map fun r => if (t.sideOf b r (k / 32)).isSome then 0xFF else scaleCode t b r (k / 32)

/-- What an `mxmma` is given by word 1 (Table 104). -/
structure Mma where
  ab : Nat
  bb : Nat
  cls : Nat
  alq : Bool
  blq : Bool
  klo : Nat
  kn : Nat
  p : Nat
deriving DecidableEq, Repr

def mmaOf (w : Nat) : Mma :=
  ⟨w % 2, bitsN w 1 1, bitsN w 2 2, bitN w 4, bitN w 5, bitsN w 6 7, bitsN w 13 7 + 1, bitsN w 20 5 + 1⟩

/-- One k-step (R245). The count n goes on past 32 where the cells are continued by a command whose P is not above it, since the pseudocode tests `n == P`
alone; a spilled record holds its low 8 bits (DESIGN CHOICE, assumption 66). -/
def kStep (g : OrgAt) (m : Mma) (x : State × Foreign × Cells) (k : Nat) : State × Foreign × Cells :=
  let t := x.1.tile g.tile
  let ka := keyCodes t m.cls m.ab k
  let kb := keyCodes t m.cls (2 + m.bb) k
  let y := if 0 < x.2.2.n ∧ (x.2.2.cls ≠ m.cls ∨ x.2.2.a ≠ ka ∨ x.2.2.b ≠ kb) then promoteAll g (x.1, x.2.2) else (x.1, x.2.2)
  let ea := panelElems g (eltFmt m.cls m.alq) m.ab k (List.range 128) (y.1, x.2.1)
  let eb := panelElems g (eltFmt m.cls m.blq) (2 + m.bb) k (List.range 128) ea.1
  let fr := eb.1.1.freeCtr
  let r := macRows g m.cls fr eb.2 ea.2 y.2.rows y.2.pois { eb.1.1 with freeCtr := fr + 16384 }
  let c : Cells := ⟨r.2.1, r.2.2, y.2.n + 1, m.cls, ka, kb⟩
  let z := if c.n = m.p then promoteAll g (r.1, c) else (r.1, c)
  (z.1, eb.1.2, z.2)

/-- `mxmma` at work. -/
def State.meMma (s : State) (k : Nat) (c : MeCmd) : State :=
  let m := mmaOf c.w1
  let r := ((List.range m.kn).map (m.klo + ·)).foldl (kStep (s.orgM k c 0) m) (s, [], (s.tile k).cells)
  (r.1.setTile k ((r.1.tile k).setCells r.2.2)).meEnd k c

/-- `mxprm` at work (R248). -/
def State.mePrm (s : State) (k : Nat) (c : MeCmd) : State :=
  let x := (s.tile k).cells
  if x.n = 0 then s.meEnd k c
  else
    let r := promoteAll (s.orgM k c 0) (s, x)
    (r.1.setTile k ((r.1.tile k).setCells r.2)).meEnd k c

/-- `mxz` at work (R248). -/
def State.meZero (s : State) (k : Nat) (c : MeCmd) : State :=
  let t := s.tile k
  let t := if c.es % 16 = 0 then t else
    { t with acc := (List.range 128).map fun i => (i, (t.accRow i).zipIdx.map fun x => if bitN c.es (x.2 / 32) then 0 else x.1) }
  let t := if bitN c.es 4 then t.setCells .empty else t
  (s.setTile k t).meEnd k c

/-! ### Storing, spilling and filling (R260 to R263) -/

/-- Elements converted for `mxst` in order: bits, and whether poisoned. -/
def mxstElems (g : OrgAt) (es : Nat) : List (BitVec 32) → State → State × List (Nat × Bool)
  | [], s => (s, [])
  | x :: l, s =>
    let r : State × Nat × Bool :=
      if bitsN es 6 2 = 0 then (s, x.toNat, isPois32 x)
      else
        let f := if bitsN es 6 2 = 1 then fBF16 else fFP16
        let v := decodeF fFP32 x.toNat
        let y := arith s g f ⟨bitsN es 8 3, 0⟩ [v] (fExact v)
        (y.1, match y.2 with
          | .val b => (b, false)
          | .pois _ => (f.marker, true))
    let q := mxstElems g es l r.1
    (q.1, r.2 :: q.2)

/-- `TVAL` of tile k. -/
def State.setTval (s : State) (k v : Nat) : State :=
  let t := s.tile k
  s.setTile k { t with core := { t.core with trap := { t.core.trap with tval := BitVec.ofNat 64 v } } }

/-- Rows of `mxst` in order (R261): a poisoned row without the right P stops the command, and `TVAL` holds the row and the column (R385). -/
def mxstRows (k : Nat) (c : MeCmd) : List Reached → State → Except State State
  | [], s => .ok s
  | x :: l, s =>
    let cols := (quarters (c.es % 16)).flatMap fun q => (List.range 32).map (32 * q + ·)
    let row := (s.tile k).accRow x.1
    let r := mxstElems (s.orgM k c 0) c.es (cols.map fun j => row.getD j 0) s
    match (r.2.zip cols).find? fun y => y.1.2 with
    | some y =>
      if c.cap.has rtP then mxstRows k c l (r.1.landAt x.2.1 (r.2.flatMap fun z => leBytes (mxstE c.es) z.1) x.2.2)
      else .error ((r.1.setTval k (x.1 + 2 ^ 8 * y.2)).meFail k c { cause := cPOISST, val := x.1 + 2 ^ 8 * y.2 })
    | none => mxstRows k c l (r.1.landAt x.2.1 (r.2.flatMap fun z => leBytes (mxstE c.es) z.1) x.2.2)

/-- `mxst` at work. -/
def State.meStore (s : State) (k : Nat) (c : MeCmd) : State :=
  let h := c.shape.toNat
  let q := s.meReach k c.cap.oid (c.rowsOf (shRows h) (shStr h) (32 * (quarters (c.es % 16)).length * mxstE c.es))
  match s.meDown k q.1 with
  | some i => s.meFail k c { cause := cLINKLOST, val := i }
  | none =>
    match mxstRows k c q.1 s with
    | .error s => s
    | .ok s =>
      match q.2 with
      | some m => s.mePark k c true m
      | none => s.meEnd k c

/-- The records of a spill or fill: quarter by quarter, or the cells. -/
def MeCmd.recs (c : MeCmd) : List (Nat × Nat × Nat) :=
  if bitN c.es 0 then c.rowsOf 1 0 131584 else c.rowsOf (quarters (bitsN c.es 1 4)).length 16384 16384

/-- The bytes of quarter Q (Table 102). -/
def accBytes (t : Tile) (q : Nat) : List Byte :=
  (List.range 128).flatMap fun i => (((t.accRow i).drop (32 * q)).take 32).flatMap fun x => leBytes 4 x.toNat

/-- The bytes of the cells. The scale codes of a record whose class has none, `bf16` or empty, are 0 (DESIGN CHOICE, assumption 66). -/
def cellBytes (c : Cells) : List Byte :=
  ((c.rows.zip c.pois).flatMap fun r => (r.1.zip r.2).flatMap fun x => leBytes 8 (match x.2 with
      | some id => id % 2 ^ 22 + 2 ^ 63
      | none => wrapN (if c.cls = 2 then 32 else 48) x.1))
    ++ (List.range 128).map (fun i => BitVec.ofNat 8 (c.a.getD i 0)) ++ (List.range 128).map (fun j => BitVec.ofNat 8 (c.b.getD j 0))
    ++ [BitVec.ofNat 8 c.n, BitVec.ofNat 8 c.cls] ++ List.replicate 254 0

/-- `mxspl` at work. -/
def State.meSpill (s : State) (k : Nat) (c : MeCmd) : State :=
  let q := s.meReach k c.cap.oid c.recs
  match s.meDown k q.1 with
  | some i => s.meFail k c { cause := cLINKLOST, val := i }
  | none =>
    let t := s.tile k
    let s := q.1.foldl (fun (s : State) x =>
      s.landAt x.2.1 (if bitN c.es 0 then cellBytes t.cells else accBytes t ((quarters (bitsN c.es 1 4)).getD x.1 0)) x.2.2) s
    match q.2 with
    | some m => s.mePark k c true m
    | none => s.meEnd k c

/-- Values of `w` bytes each from a byte string, with the id of the bytes that are poisoned. -/
def chunks (w : Nat) : Nat → List Byte → List (Option Nat) → List (Nat × Option Nat)
  | 0, _, _ => []
  | n + 1, bs, ids => (leVal (bs.take w), idIn (ids.take w)) :: chunks w n (bs.drop w) (ids.drop w)

/-- Quarter Q read back. -/
def Tile.fillAcc (t : Tile) (q : Nat) (bs : List Byte) (ids : List (Option Nat)) : Tile :=
  (List.range 128).foldl (fun (t : Tile) i =>
    let l := chunks 4 32 ((bs.drop (128 * i)).take 128) ((ids.drop (128 * i)).take 128)
    let row := t.accRow i
    t.setAccRow i (row.take (32 * q) ++ l.map (fun x => BitVec.ofNat 32 (match x.2 with
      | some id => poison32 id
      | none => x.1)) ++ row.drop (32 * q + 32))) t

/-- A cell of a record. -/
def recCell (cls : Nat) (x : Nat × Option Nat) : Int × Option Nat :=
  match x.2 with
  | some id => (0, some id)
  | none =>
    if bitN x.1 63 then (0, some (x.1 % 2 ^ 22))
    else (if cls = 2 then (x.1 % 2 ^ 32 : Nat) else sextN 48 x.1, none)

/-- The cells read back (R263). Class 3 clears every cell, those of an uncorrectable granule too, and the scale codes of class `bf16` are dropped (DESIGN CHOICE,
assumption 66). -/
def fillCells (bs : List Byte) (ids : List (Option Nat)) : Cells :=
  match idIn (ids.drop 131072) with
  | some id => ⟨List.replicate 128 zeroRow, List.replicate 128 (List.replicate 128 (some id)), 1, 2, [], []⟩
  | none =>
    let tr := bs.drop 131072
    let cls := (tr.getD 257 0).toNat % 4
    if cls = 3 then .empty
    else
      let rows := (List.range 128).map fun i => (chunks 8 128 ((bs.drop (1024 * i)).take 1024) ((ids.drop (1024 * i)).take 1024)).map (recCell cls)
      let codes := fun o => if cls = 2 then [] else (List.range 128).map fun i => (tr.getD (o + i) 0).toNat
      ⟨rows.map fun r => r.map Prod.fst, rows.map fun r => r.map Prod.snd, min 32 (tr.getD 256 0).toNat, cls, codes 0, codes 128⟩

/-- `mxfil` at work. -/
def State.meFill (s : State) (k : Nat) (c : MeCmd) : State :=
  let q := s.meReach k c.cap.oid c.recs
  match s.meDown k q.1 with
  | some i => s.meFail k c { cause := cLINKLOST, val := i }
  | none =>
    let u := s.meUE k c q.1
    let c := { c with ue := u.2 }
    let s := q.1.foldl (fun (s : State) x =>
      let bs := x.2.2.flatMap fun r => s.rd x.2.1 r.2.1 r.2.2
      let ids := if u.2 = [] then [] else rowIds u.2 x
      s.setTile k (if bitN c.es 0 then (s.tile k).setCells (fillCells bs ids)
        else (s.tile k).fillAcc ((quarters (bitsN c.es 1 4)).getD x.1 0) bs ids)) u.1
    match q.2 with
    | some m => s.mePark k c false m
    | none => s.meEnd k c

/-! ### Gangs (R254 to R256) -/

/-- Column and row of a tile in its region. -/
def State.colRow (s : State) (k : Nat) : Nat × Nat := let w := max 1 (s.rgnOf k).w; ((s.tile k).tix % w, (s.tile k).tix / w)

/-- The other members of the gang of a leader. -/
def State.gangOf (s : State) (k : Nat) : List Nat :=
  let w := (s.rgnOf k).w
  let x := s.colRow k
  ((List.range ((s.tile k).gsize - 1)).filter fun i => x.1 + 1 + i < w).filterMap fun i => s.byTix k ((s.tile k).tix + 1 + i)

/-- `mxgng` at work (R254). -/
def State.meGang (s : State) (k : Nat) (c : MeCmd) : State :=
  let g := 2 ^ (c.es % 4)
  (s.setTile k { s.tile k with gsize := g, gpos := (s.colRow k).1 % g, gsent := 0, grecv := 0 }).meEnd k c

/-- The leader's running gang load that pairs with load number m of tile k. -/
def State.gangLoad (s : State) (k m : Nat) : Option (Nat × MeCmd) :=
  let t := s.tile k
  match s.byTix k (t.tix - t.gpos) with
  | none => none
  | some l => ((s.tile l).meq.find? fun c => c.opc == 0x10 && c.gang == m && c.started && c.finished).map fun c => (l, c)

/-- `GANG_IMAGE_ARRIVAL` (R255): the whole image of the leader's paired load has arrived at tile k, whose `mxrp` has started. -/
def execGangImageArrival (k : Nat) (s : State) : Host.Outcome State Fault Refusal :=
  let t := s.tile k
  .next (match t.meq.find? fun c => c.opc == 0x19 && c.started && !c.finished && c.gang != 0 with
    | none => s
    | some c =>
      match s.gangLoad k c.gang with
      | none => s
      | some (l, d) =>
        let L := s.tile l
        let b := c.bank
        let t := t.clearBank b
        let t := (List.range 128).foldl (fun (t : Tile) r =>
          let t := { t with bank := tset t.bank (128 * b + r) (L.bankRow d.bank r) }
          (List.range 4).foldl (fun (t : Tile) blk =>
            match L.sideOf d.bank r blk with
            | some id => { t with side := tset t.side ((128 * b + r) * 4 + blk) id }
            | none => t) t) t
        (s.setTile k t).meEnd k c)

/-! ### Command processing (R249 to R251) -/

/-- Resources of Table 100: 0 A pipe, 1 B pipe, 2 array, 3 store path, 4 to 7 the banks. -/
def MeCmd.uses (c : MeCmd) : List Nat :=
  match c.opc with
  | 0x10 | 0x19 => [0, 4 + c.es % 2]
  | 0x11 => [1, 6 + c.es % 2]
  | 0x12 => [2, 4 + c.w1 % 2, 6 + c.w1 / 2 % 2]
  | 0x13 | 0x14 => [2]
  | 0x15 | 0x16 => [2, 3]
  | 0x17 => [2, 0]
  | _ => List.range 8

/-- A command that touches memory: `mxla`, `mxlb`, `mxst`, `mxspl`, `mxfil` (R251). -/
def MeCmd.touches (c : MeCmd) : Bool := [0x10, 0x11, 0x15, 0x16, 0x17].contains c.opc

/-- What a started command does. -/
def State.meDo (s : State) (k : Nat) (c : MeCmd) : State :=
  match c.opc with
    | 0x10 | 0x11 => s.meLoad k c
    | 0x12 => s.meMma k c
    | 0x13 => s.meZero k c
    | 0x14 => s.mePrm k c
    | 0x15 => s.meStore k c
    | 0x16 => s.meSpill k c
    | 0x17 => s.meFill k c
    | 0x18 => s.meGang k c
    | _ => if c.gang = 0 then s.meEnd k c else s

/-- A command that may make origins: of what it reads (`mxla`, `mxlb`, `mxfil`), of what it computes (`mxmma`, `mxprm`) or converts (`mxst`). -/
def MeCmd.mayOrigin (c : MeCmd) : Bool := [0x10, 0x11, 0x12, 0x14, 0x15, 0x17].contains c.opc

/-- Some earlier command may still have origins to number (R45). -/
def meUnread (l : List MeCmd) (c : MeCmd) : Bool := l.any fun x => x.id < c.id && !x.finished && x.mayOrigin

/-- A started command works as far as it can; one that touches memory after the stores it follows (R194). Origins are numbered in the order of the
commands: one that would make any waits for the earlier commands that may (R45). -/
def State.meWork (s : State) (k : Nat) (c : MeCmd) : State :=
  if !c.started || c.finished || c.park ≠ 0 || (c.touches && (s.tile k).storesBefore c.ord) then s
  else
    let z := s.meDo k c
    if meUnread (s.tile k).meq c && (z.rgnOf k).origins != (s.rgnOf k).origins then s else z

/-- Earlier commands of the queue share no resource with one (R249). -/
def meFree (l : List MeCmd) (c : MeCmd) : Bool := (l.filter fun x => x.id < c.id).all fun x => c.uses.all fun r => !x.uses.contains r

/-- What starting does to a command: its gang load number, and an empty bank for a load. -/
def State.meBegin (s : State) (k : Nat) (c : MeCmd) : State × MeCmd :=
  let t := s.tile k
  let t := { t with meStarted := true }
  if c.opc = 0x10 ∧ bitN c.es 6 = true ∧ 1 < t.gsize ∧ t.gpos = 0 then
    (s.setTile k { t.clearBank c.bank with gsent := t.gsent + 1 }, { c with started := true, gang := t.gsent + 1 })
  else if c.opc = 0x10 ∨ c.opc = 0x11 then (s.setTile k (t.clearBank c.bank), { c with started := true })
  else if c.opc = 0x19 ∧ 1 < t.gsize ∧ t.gpos ≠ 0 then
    (s.setTile k { t with grecv := t.grecv + 1 }, { c with started := true, gang := t.grecv + 1 })
  else (s.setTile k t, { c with started := true })

/-- The oldest waiting command starts. -/
def State.meStart (s : State) (k : Nat) : State :=
  match (s.tile k).meq.find? fun c => !c.started with
  | none => s
  | some c =>
    let r := s.meBegin k c
    (r.1.setMe k r.2).meWork k r.2

/-- `ME_COMMAND_START` (R249): running commands go on where they were held, and the oldest waiting one starts when it may. -/
def execMeCommandStart (k : Nat) (s : State) : Host.Outcome State Fault Refusal :=
  let s := (s.tile k).meq.foldl (fun s c => s.meWork k c) s
  let t := s.tile k
  .next (match t.meq.find? fun c => !c.started with
    | none => s
    | some c =>
      if t.meDead || t.meStarted || !s.engineOk k true || !meFree t.meq c then s
      else match s.takeWait k c.w0 false with
        | none => s
        | some s => s.meStart k)

/-- A command that writes the tile's own scratchpad or pool. -/
def MeCmd.landsHere (c : MeCmd) : Bool := (c.opc == 0x15 || c.opc == 0x16) && (c.cap.oid == oidScr || c.cap.oid == oidPool)

/-- A finished command may complete: its signal follows the landings in its tile's own memory of every earlier command (R196), and a gang load
waits for every member's paired `mxrp` (R255). -/
def State.meMayEnd (s : State) (k : Nat) (c : MeCmd) : Bool :=
  c.finished && c.park == 0
    && ((engSig c.w0).2 == 0 || !(s.tile k).meq.any fun x => x.id < c.id && x.landsHere && !x.finished) && (c.opc != 0x10 || c.gang == 0 || (s.gangOf k).all fun m => c.got.contains m)

/-- `ME_COMMAND_COMPLETE` (R249, R255): the command leaves the queue, and its signal is applied in this cycle. -/
def execMeCommandComplete (k id : Nat) (s : State) : Host.Outcome State Fault Refusal :=
  let t := s.tile k
  .next (match t.meq.find? (·.id == id) with
    | none => s
    | some c =>
      if !s.meMayEnd k c then s
      else
        let s := s.setTile k { t with meq := t.meq.filter (·.id != id) }
        let s := if c.opc = 0x19 ∧ c.gang ≠ 0 then
            match s.gangLoad k c.gang with
            | some (l, d) => s.setMe l { d with got := d.got ++ [k] }
            | none => s
          else s
        s.engSignal k 4 c.pc c.w0 fun s t => s.meFail k c t)

end Sys2Proof.Machine
end

