-- ==== Sys2Proof/Machine/FrontEnd.lean ====
section
/-! DEFINITION. What a front end does with the word at its PC: the checks of 04_encoding.md R102 in their order, the queue a word goes to,
and the waits of 03_tile.md R56 and 08_memory_order.md R186; `STEPW_RELEASE`. -/

namespace Sys2Proof.Machine

/-- The queue a word goes to (Table 23, R99): 0 when the front end executes it. -/
def queueOf (w0 : Nat) : Nat :=
  match clsOf w0 with
  | 2 | 5 => 2
  | 3 => 1
  | 4 => 3
  | 6 => if 1 ≤ opcOf w0 ∧ opcOf w0 ≤ 8 then bitsN w0 46 2 + 1 else 3
  | _ => 0

/-- The words a handler may execute (16_context.md R345). -/
def handlerWord (w0 : Nat) : Bool :=
  (clsOf w0 == 0 && opcOf w0 ≤ 3) || clsOf w0 == 1 || (clsOf w0 == 7 && opcOf w0 ≤ 1)

/-- What becomes of the word at the PC: the front end holds it; a trap; it executes it; it goes to a queue; it waits, with the kind and
object of its wait identity. -/
inductive FeAct where
  | hold
  | trap (t : TrapInfo)
  | run (i : Instr) (w0 w1 : Nat)
  | queue (i : Instr) (w0 w1 : Nat)
  | wait (kind obj : Nat)
deriving DecidableEq, Repr

/-- The words at a PC: the one there, and the one after it. -/
def State.wordsAt (s : State) (a : Agent) (pc : Nat) : Option (Nat × Nat) :=
  (s.codeAt a pc).map fun w => (w, (s.codeAt a (pc + 8)).getD 0)

/-- The first byte of the 272 that an `spl` or `rfl` names, with the registers of its dispatch. -/
def recAddr (s : State) (c : Core) (f : FmtM) : Int :=
  (c.capP f.cp.toNat).cur + (memOff { s with cur := { s.cur with snap := c } } f).1

/-- The record an `spl` writes. -/
def splAt (s : State) (c : Core) (i : Instr) : Option Nat :=
  match i with
  | .spl _ f => some (recAddr s c f).toNat
  | _ => none

/-- The wait of an `spl` for a full forwarding table, and of an `rfl` for an overlapping entry (R186). -/
def fwdWait (s : State) (t : Tile) (i : Instr) : Option Nat :=
  match i with
  | .spl _ _ => if 16 ≤ t.fwd.length then some 0 else none
  | .rfl _ f => if t.fwd.any fun x => rangesMeet x.2 272 (recAddr s t.core f).toNat 272 then some 1 else none
  | _ => none

/-- A queued word at dispatch (R58, R59, R56, R186). -/
def queueAct (s : State) (t : Tile) (i : Instr) (w0 w1 : Nat) : FeAct :=
  let p := (hdrOf w0).pred.toNat
  let q := queueOf w0
  if (t.core.qv p).2 then .trap { cause := cPOISBR, val := p }
  else if 16 ≤ (t.queue q).length then .wait 8 (q - 1)
  else match fwdWait s t i with
    | some o => .wait 9 o
    | none => .queue i w0 w1

/-- The word at the PC of tile k (R102): CAPBND, ILL and PRIV in that order, then what the word is. A cause left by `smap.adj` is raised
first, at this word (10_barrier.md R232). A `trap` or `tret` outside a handler waits for the full drain of R57 before its predicate is looked at, so
that POISBR of a poisoned one is raised when the drain has ended (DEDUCED, assumption 10). -/
def State.front (s : State) (k : Nat) : FeAct :=
  let t := s.tile k
  let c := t.core
  match (s.rgnOf k).adj.find? (·.1 == t.tix) with
  | some x => .trap { cause := x.2.1, val := x.2.2 }
  | none =>
    match s.wordsAt (.tile k) c.pc with
    | none => .trap { cause := cCAPBND, val := c.pc }
    | some (w0, w1) =>
      match decode w0 w1 with
      | .error _ => .trap { cause := cILL, val := w0 }
      | .ok i =>
        if isTwoWord w0 && c.pc / 8 % 2 == 1 then .trap { cause := cILL, val := w0 }
        else if c.trap.hnd && !handlerWord w0 then .trap { cause := cILL, val := w0 }
        else if clsOf w0 = 7 ∧ 2 ≤ opcOf w0 then .trap { cause := cPRIV, val := w0 }
        else if queueOf w0 ≠ 0 then queueAct s t i w0 w1
        else if clsOf w0 = 7 ∧ c.trap.hnd = false ∧ t.drained = false then .hold
        else .run i w0 w1

/-- The word at the PC of a Sorrel. -/
def State.frontS (s : State) (d : Nat) : FeAct :=
  let c := (s.die d).sorrel
  match s.wordsAt (.sorrel d) c.pc with
  | none => .trap { cause := cCAPBND, val := c.pc }
  | some (w0, w1) =>
    match decode w0 w1 with
    | .error _ => .trap { cause := cILL, val := w0 }
    | .ok i => .run i w0 w1

/-- The word may be the second of its cycle (R56): the first went to queue q. -/
def mayPair (q : Nat) (w0 : Nat) : Bool :=
  if isTwoWord w0 || clsOf w0 == 7 then false else queueOf w0 != q

/-- The word being handled by a front end. -/
def State.atWord (s : State) (a : Agent) (pc w0 w1 seq : Nat) : State :=
  { s with cur := { agent := a, q := 0, pc := pc, w0 := w0, w1 := w1, seq := seq, pred := true, snap := {} } }

/-- Tile k goes on to handle a word by itself. -/
def State.handle (s : State) (k w0 w1 : Nat) : State :=
  let t := s.tile k
  (s.setTile k { t with seqno := t.seqno + 1, pair := none }).atWord (.tile k) t.core.pc w0 w1 t.seqno

/-- The word at the PC of tile k enters its queue (R55, R58, R186). -/
def State.dispatch (s : State) (k : Nat) (i : Instr) (w0 w1 : Nat) : State :=
  let t := s.tile k
  let c := t.core
  let q := queueOf w0
  let e : QEntry :=
    { instr := i, pc := c.pc, w0 := w0, w1 := w1, seq := t.seqno, disp := t.now + 1, pred := (c.qv (hdrOf w0).pred.toNat).1, snap := c }
  let t := t.setQueue q (t.queue q ++ [e])
  s.setTile k { t with
    seqno := t.seqno + 1
    core := { c with pc := (c.pc + if isTwoWord w0 then 16 else 8) % 2 ^ 64 }
    pair := if isTwoWord w0 || c.pc / 8 % 2 == 1 then none else some q
    fwd := match splAt s c i with
      | some a => t.fwd ++ [(t.seqno, a)]
      | none => t.fwd }

/-- A list without the first entry that `p` finds. -/
def dropFirst {α : Type} (p : α → Bool) : List α → List α
  | [] => []
  | x :: l => if p x then l else x :: dropFirst p l

/-- A trap that the front end of tile k detects at the word at its PC; a cause of `smap.adj` is spent by it. -/
def State.feTrap (s : State) (k : Nat) (x : TrapInfo) : State :=
  let t := s.tile k
  let R := s.region t.rgn
  ((s.setTile k { t with pair := none }).setRegion t.rgn { R with adj := dropFirst (·.1 == t.tix) R.adj }).trapTile k 0 t.core.pc t.seqno x

/-- The queued word `e` of queue q of tile k as the word being issued. -/
def State.atEntry (s : State) (k q : Nat) (e : QEntry) : State :=
  { s with cur := { agent := .tile k, q := q, pc := e.pc, w0 := e.w0, w1 := e.w1, seq := e.seq, pred := e.pred, snap := e.snap } }

/-- `STEPW_RELEASE` (R120): the step that a `stepw` waits for has begun. -/
def execStepwRelease (k : Nat) (s : State) : Host.Outcome State Fault Refusal :=
  let t := s.tile k
  .next (match t.core.stepw with
    | some n => if n ≤ t.step then s.setTile k { t with core := { t.core with stepw := none } } else s
    | none => s)

/-- The front end of tile k handles no word now: it has halted or stopped, waits for a step, or a `call` or `ret` takes its cycles. -/
def Tile.feOff (t : Tile) : Bool := t.core.halted || t.core.stopped || t.core.stepw.isSome || t.core.win != []

end Sys2Proof.Machine
end

