-- ==== Sys2Proof/Machine/Probe.lean ====
section
/-! DEFINITION. Wait identities, blocked-step counts and probes (10_barrier.md R234 to R236), and the close of a region schedule step
(14_group.md R310, 08_memory_order.md R197, 10_barrier.md R228). -/

namespace Sys2Proof.Machine

/-- What an agent is blocked on: kind and object of its identity (R234), the PC of its blocked word, and the number of the word. -/
structure Wait where
  kind : Nat
  obj : Nat
  pc : Nat
  key : Nat
deriving DecidableEq, Repr

/-- The identity an agent publishes. -/
def Wait.ident (w : Wait) (agent tix : Nat) : BitVec 32 := waitIdent w.kind agent tix w.obj

/-- What the head of a queue waits for beyond its tokens: kind and object (Table 94). -/
def headWait (s : State) (k : Nat) (e : QEntry) : Option (Nat × Nat) :=
  let t := s.tile k
  match e.instr with
  | .semw _ f =>
    (match s.semPhys k f.sem.toNat with
      | some p => if t.count p < f.k8.toNat then some (2, p) else none
      | none => none)
  | .barw _ f =>
    (match s.barAt (s.ctxNo k) f.bh.toNat with
      | some o =>
        let d := ((s.bar o).phase - tget 0 t.wph f.bh.toNat).toNat
        if (s.bar o).state ≠ 3 ∧ (d = 0 ∨ 32767 < d) then some (4, f.bh.toNat) else none
      | none => none)
  | .markL _ f | .markS _ f => some (5, f.mkn.toNat)
  | .xpop _ _ => if t.xfifo.isEmpty then some (7, 0) else none
  | _ =>
    if isTwoWord e.w0 && clsOf e.w0 == 5 then (if 16 ≤ t.meq.length then some (3, 0) else none)
    else if isTwoWord e.w0 then (if 32 ≤ t.xeq.length then some (3, 1) else none)
    else none

/-- What queue q of tile k is blocked on: a push, a fence's owner, a token, or its head's own wait. -/
def State.queueWait (s : State) (k q : Nat) : Option Wait :=
  let t := s.tile k
  let pc := ((t.queue q).head?.map QEntry.pc).getD t.core.pc
  match t.pushw.find? (fun x => pusherOf x.2 == q), (if q = 3 then t.fence else none), (t.queue q).head? with
  | some x, _, _ => some ⟨1, x.2, pc, x.1⟩
  | none, some f, _ =>
    if f.rel && f.asked then f.owners.head?.map fun o => ⟨6, (s.tile o).tix, pc, f.seq⟩ else none
  | none, none, none => none
  | none, none, some e =>
    let h := hdrOf e.w0
    if t.now < e.disp then none
    else if h.popl && tget 0 t.tok (popLeft q) == 0 then some ⟨0, popLeft q, e.pc, e.seq⟩
    else if h.popr && tget 0 t.tok (popRight q) == 0 then some ⟨0, popRight q, e.pc, e.seq⟩
    else if !e.pred then none
    else (headWait s k e).map fun x => ⟨x.1, x.2, e.pc, e.seq⟩

/-- The wait of an engine command that is not met: its physical semaphore. -/
def State.engBlocked (s : State) (k w0 : Nat) : Option Nat :=
  let w := engWait w0
  if w.2 = 0 then none
  else match s.semPhys k w.1 with
    | some p => if (s.tile k).count p < w.2 then some p else none
    | none => none

/-- What agent a of tile k is blocked on: 0 front end, 1 L, 2 C, 3 S, 4 ME, 5 XE. -/
def State.blockedOn (s : State) (k a : Nat) : Option Wait :=
  let t := s.tile k
  if !t.live || t.trapped then none
  else if a = 0 then
    if t.feOff then none
    else match s.front k with
      | .wait kind obj => some ⟨kind, obj, t.core.pc, t.seqno⟩
      | _ => none
  else if a ≤ 3 then s.queueWait k a
  else if a = 4 then
    match t.meq.find? fun c => !c.started with
    | none => none
    | some c => if meFree t.meq c then (s.engBlocked k c.w0).map fun p => ⟨2, p, c.pc, c.id⟩ else none
  else
    match t.xeq with
    | [] => none
    | c :: _ =>
      if !s.xeClear k c then none
      else if !t.xeRoom c then some ⟨7, 1, c.pc, c.seq⟩
      else (s.engBlocked k c.w0).map fun p => ⟨2, p, c.pc, c.seq⟩

/-! ### Satisfiers and probes (R235) -/

/-- The queue that pops a FIFO. -/
def popperOf (f : Nat) : Nat := if f = 0 ∨ f = 4 then 2 else if f = 1 ∨ f = 3 then 3 else 1

/-- The queues of tile k that hold a word. -/
def State.holders (s : State) (k : Nat) (f : Instr → Bool) : List (Nat × Nat) :=
  ([1, 2, 3].filter fun q => ((s.tile k).queue q).any fun e => f e.instr).map fun q => (k, q)

/-- A `sems` on tile k to physical semaphore p; an arrival on barrier h. -/
def isSems (s : State) (k p : Nat) (i : Instr) : Bool :=
  match i with
  | .sems _ f => s.semPhys k f.sem.toNat == some p
  | _ => false
def isArrive (h : Nat) (i : Instr) : Bool :=
  match i with
  | .bara _ f | .barb _ f => f.bh.toNat == h
  | _ => false

/-- The engines whose queued or running commands name physical semaphore p of tile k in their signals. -/
def State.signallers (s : State) (k p : Nat) : List (Nat × Nat) :=
  (s.tilesOf (s.tile k).rgn).flatMap fun j =>
    let t := s.tile j
    let hit := fun (w0 : Nat) => (engSig w0).2 != 0 && s.semPhys k (engSig w0).1 == some p
    (if j = k ∧ t.meq.any (fun c => hit c.w0) = true then [(j, 4)] else [])
      ++ if (t.xeq ++ t.xrun).any fun c => hit c.w0 && (if c.remote then c.dtile == some k else j == k) then [(j, 5)] else []

/-- The front ends of a region that have not halted. -/
def State.frontEnds (s : State) (r : Nat) : List (Nat × Nat) :=
  ((s.tilesOf r).filter fun j => !(s.tile j).core.halted && !(s.tile j).ended).map fun j => (j, 0)

/-- The satisfiers of a wait of agent a of tile k (Table 94). -/
def State.satisfiers (s : State) (k a kind obj : Nat) : List (Nat × Nat) :=
  let r := (s.tile k).rgn
  match kind with
  | 0 => [(k, pusherOf obj)]
  | 1 => [(k, popperOf obj)]
  | 2 => s.holders k (isSems s k obj) ++ s.signallers k obj ++ s.frontEnds r
  | 3 => [(k, 4 + obj)]
  | 4 =>
    (s.tilesOf r).flatMap (fun j => s.holders j (isArrive obj)
      ++ if ((s.tile j).xeq ++ (s.tile j).xrun).any fun c => xBC c.w1 && xBH c.w1 == obj then [(j, 5)] else [])
      ++ s.frontEnds r
  | 5 => [(k, if a = 1 then 3 else 1)]
  | 7 => [(k, if obj = 0 then 5 else 3)]
  | 8 => [(k, obj + 1)]
  | 9 => [(k, 3)]
  | _ => []

/-- WAITCYC at the blocked word of an agent (R235, R253, R286). -/
def State.waitCyc (s : State) (k a : Nat) (w : Wait) (orphan : Bool) (path : List (BitVec 32)) : State :=
  let t := s.tile k
  let x : TrapInfo := { cause := cWAITCYC, words := waitRecord orphan false t.step path }
  if a ≤ 3 then s.trapTile k a w.pc w.key x
  else if a = 4 then
    match t.meq.find? fun c => c.id == w.key with
    | some c => s.meFail k c x
    | none => s
  else
    match (t.xeq ++ t.xrun).find? fun c => c.seq == w.key with
    | some c => s.xeFail k c x
    | none => s

/-- A probe to every satisfier of the last identity of its path, from agent a of tile k, sent by tile `sender`. -/
def State.forward (s : State) (path : List (BitVec 32)) (sender k a : Nat) (w : Wait) : State :=
  (s.satisfiers k a w.kind w.obj).foldl (fun (s : State) x =>
    let d := s.delay
    { d.2 with probes := d.2.probes ++ [⟨d.2.probeid, path, sender, x.1, x.2, d.1⟩], probeid := d.2.probeid + 1 }) s

/-- `PROBE_SEND` (R235): a count that a close has brought to a multiple of 4,096 sends a probe, or finds an orphan. -/
def execProbeSend (k a : Nat) (s : State) : Host.Outcome State Fault Refusal :=
  let t := s.tile k
  .next (match t.blk.find? (·.1 == a), s.blockedOn k a with
    | some (_, b), some w =>
      if !b.due || w.ident a t.tix != b.ident || w.key != b.key then s
      else
        let s := s.setTile k { t with blk := tset t.blk a { b with due := false } }
        if (w.kind = 2 ∨ w.kind = 4) ∧ s.satisfiers k a w.kind w.obj = [] then s.waitCyc k a w true [b.ident]
        else s.forward [b.ident] k k a w
    | _, _ => s)

/-- (`TIX`, `AGENT`) of an identity, as one number. -/
def agentKey (i : BitVec 32) : Nat := i.toNat / 2 ^ 8 % 2 ^ 11 * 16 + i.toNat / 16 % 16

/-- `PROBE_RECEIVE` (R235). -/
def execProbeReceive (n : Nat) (s : State) : Host.Outcome State Fault Refusal :=
  .next (match s.probes.find? (·.id == n) with
    | none => s
    | some p =>
      let s := { s with probes := s.probes.filter (·.id != n) }
      let t := s.tile p.tile
      match s.blockedOn p.tile p.agent with
      | none => s
      | some w =>
        let i := w.ident p.agent t.tix
        let me := agentKey i
        let keys := p.path.map agentKey
        if p.tile = p.sender ∧ p.path.head? = some i then
          (if keys.all (me ≤ ·) then s.waitCyc p.tile p.agent w false p.path else s)
        else if keys.contains me then s
        else s.forward (p.path ++ [i]) p.sender p.tile p.agent w)

/-! ### The close of a region step -/

/-- The blocked-step counts of tile k at a close: a count goes on while the agent is blocked on the same identity at the same word. -/
def State.countBlocked (s : State) (k : Nat) : State :=
  let t := s.tile k
  let blk := [0, 1, 2, 3, 4, 5].filterMap fun a =>
    (s.blockedOn k a).map fun w =>
      let i := w.ident a t.tix
      let n := match t.blk.find? (·.1 == a) with
        | some (_, b) => if b.ident = i ∧ b.key = w.key then b.count + 1 else 1
        | none => 1
      (a, ({ ident := i, count := n, pc := w.pc, key := w.key, due := n % 4096 == 0 } : Block))
  s.setTile k { t with blk := blk }

/-- Tile k has run the whole step, or does not run. -/
def Tile.atClose (t : Tile) : Bool := !t.live || (t.cyc == 128 && !t.trapped && !t.catchup)

/-- The tile begins its next step. -/
def Tile.nextStep (t : Tile) : Tile := if t.live then { t with step := t.step + 1, cyc := 0 } else t

/-- `REGION_STEP_CLOSE` (R310, R197, R228, R235, R314): once every tile has run the step and every accumulate due by it is in, the
accumulates are applied in key order, the barriers close, blocked-step counts rise, a request is latched, and the next step begins. -/
def execRegionStepClose (r : Nat) (s : State) : Host.Outcome State Fault Refusal :=
  let R := s.region r
  let ks := s.tilesOf r
  .next (if !R.mid || !(ks.all fun k => (s.tile k).atClose) || s.lateAw r R.rstep then s
    else
      let s := (s.applyDue r R.rstep).closeBarriers r R.rstep
      let s := ks.foldl State.countBlocked s
      let s := s.latch r
      let s := ks.foldl (fun (s : State) k => s.setTile k (s.tile k).nextStep) s
      let R := s.region r
      s.setRegion r { R with mid := false, rstep := R.rstep + 1, xsteps := R.xsteps + 1 })

end Sys2Proof.Machine
end

