-- ==== Sys2Proof/Machine/Dispatch.lean ====
section
/-! DEFINITION. The dispatch: one arm for each constructor of Instr, each one direct call of the meaning its family file gives it. -/

namespace Sys2Proof.Machine

/-- What an instruction or an event does to the machine: the agent that executes a word is in `s.cur`. -/
def exec (i : Instr) (s : State) : Host.Outcome State Fault Refusal :=
  match i with
  | .nop p f => Sys2Proof.Machine.execNop p f s
  | .bra p f => Sys2Proof.Machine.execBra p f s
  | .brp p f => Sys2Proof.Machine.execBrp p f s
  | .jmpc p f => Sys2Proof.Machine.execJmpc p f s
  | .call p f => Sys2Proof.Machine.execCall p f s
  | .ret p f => Sys2Proof.Machine.execRet p f s
  | .loop p f => Sys2Proof.Machine.execLoop p f s
  | .lend p f => Sys2Proof.Machine.execLend p f s
  | .lstg p f => Sys2Proof.Machine.execLstg p f s
  | .lbrk p f => Sys2Proof.Machine.execLbrk p f s
  | .stepw p f => Sys2Proof.Machine.execStepw p f s
  | .halt p f => Sys2Proof.Machine.execHalt p f s
  | .add p f => Sys2Proof.Machine.execAdd p f s
  | .sub p f => Sys2Proof.Machine.execSub p f s
  | .mul p f => Sys2Proof.Machine.execMul p f s
  | .mulhs p f => Sys2Proof.Machine.execMulhs p f s
  | .mulhu p f => Sys2Proof.Machine.execMulhu p f s
  | .divs p f => Sys2Proof.Machine.execDivs p f s
  | .divu p f => Sys2Proof.Machine.execDivu p f s
  | .rems p f => Sys2Proof.Machine.execRems p f s
  | .remu p f => Sys2Proof.Machine.execRemu p f s
  | .and p f => Sys2Proof.Machine.execAnd p f s
  | .or p f => Sys2Proof.Machine.execOr p f s
  | .xor p f => Sys2Proof.Machine.execXor p f s
  | .andn p f => Sys2Proof.Machine.execAndn p f s
  | .shl p f => Sys2Proof.Machine.execShl p f s
  | .shr p f => Sys2Proof.Machine.execShr p f s
  | .sar p f => Sys2Proof.Machine.execSar p f s
  | .rotr p f => Sys2Proof.Machine.execRotr p f s
  | .min p f => Sys2Proof.Machine.execMin p f s
  | .max p f => Sys2Proof.Machine.execMax p f s
  | .minu p f => Sys2Proof.Machine.execMinu p f s
  | .maxu p f => Sys2Proof.Machine.execMaxu p f s
  | .popc p f => Sys2Proof.Machine.execPopc p f s
  | .clz p f => Sys2Proof.Machine.execClz p f s
  | .ctz p f => Sys2Proof.Machine.execCtz p f s
  | .bswp p f => Sys2Proof.Machine.execBswp p f s
  | .addi p f => Sys2Proof.Machine.execAddi p f s
  | .li p f => Sys2Proof.Machine.execLi p f s
  | .lih p f => Sys2Proof.Machine.execLih p f s
  | .sel p f => Sys2Proof.Machine.execSel p f s
  | .cmp p f => Sys2Proof.Machine.execCmp p f s
  | .cmpi p f => Sys2Proof.Machine.execCmpi p f s
  | .pand p f => Sys2Proof.Machine.execPand p f s
  | .por p f => Sys2Proof.Machine.execPor p f s
  | .pxor p f => Sys2Proof.Machine.execPxor p f s
  | .pnot p f => Sys2Proof.Machine.execPnot p f s
  | .extb p f => Sys2Proof.Machine.execExtb p f s
  | .insb p f => Sys2Proof.Machine.execInsb p f s
  | .mfsr p f => Sys2Proof.Machine.execMfsr p f s
  | .mtsr p f => Sys2Proof.Machine.execMtsr p f s
  | .rlr p f => Sys2Proof.Machine.execRlr p f s
  | .cmov p f => Sys2Proof.Machine.execCmov p f s
  | .cder p f => Sys2Proof.Machine.execCder p f s
  | .cseto p f => Sys2Proof.Machine.execCseto p f s
  | .cinc p f => Sys2Proof.Machine.execCinc p f s
  | .crgt p f => Sys2Proof.Machine.execCrgt p f s
  | .cget p f => Sys2Proof.Machine.execCget p f s
  | .cchk p f => Sys2Proof.Machine.execCchk p f s
  | .cnul p f => Sys2Proof.Machine.execCnul p f s
  | .vadd h f => Sys2Proof.Machine.execVadd h f s
  | .vsub h f => Sys2Proof.Machine.execVsub h f s
  | .vmul h f => Sys2Proof.Machine.execVmul h f s
  | .vfma h f => Sys2Proof.Machine.execVfma h f s
  | .vfms h f => Sys2Proof.Machine.execVfms h f s
  | .vfnma h f => Sys2Proof.Machine.execVfnma h f s
  | .vmin h f => Sys2Proof.Machine.execVmin h f s
  | .vmax h f => Sys2Proof.Machine.execVmax h f s
  | .vabs h f => Sys2Proof.Machine.execVabs h f s
  | .vneg h f => Sys2Proof.Machine.execVneg h f s
  | .vcps h f => Sys2Proof.Machine.execVcps h f s
  | .vdp2 h f => Sys2Proof.Machine.execVdp2 h f s
  | .vrcp h f => Sys2Proof.Machine.execVrcp h f s
  | .vrsq h f => Sys2Proof.Machine.execVrsq h f s
  | .vsqr h f => Sys2Proof.Machine.execVsqr h f s
  | .vdiv h f => Sys2Proof.Machine.execVdiv h f s
  | .vex2 h f => Sys2Proof.Machine.execVex2 h f s
  | .vlg2 h f => Sys2Proof.Machine.execVlg2 h f s
  | .viadd h f => Sys2Proof.Machine.execViadd h f s
  | .visub h f => Sys2Proof.Machine.execVisub h f s
  | .vimul h f => Sys2Proof.Machine.execVimul h f s
  | .vimad h f => Sys2Proof.Machine.execVimad h f s
  | .vimulh h f => Sys2Proof.Machine.execVimulh h f s
  | .vimin h f => Sys2Proof.Machine.execVimin h f s
  | .vimax h f => Sys2Proof.Machine.execVimax h f s
  | .vdp4 h f => Sys2Proof.Machine.execVdp4 h f s
  | .vadds h f => Sys2Proof.Machine.execVadds h f s
  | .vsubs h f => Sys2Proof.Machine.execVsubs h f s
  | .vand h f => Sys2Proof.Machine.execVand h f s
  | .vor h f => Sys2Proof.Machine.execVor h f s
  | .vxor h f => Sys2Proof.Machine.execVxor h f s
  | .vandn h f => Sys2Proof.Machine.execVandn h f s
  | .vpopc h f => Sys2Proof.Machine.execVpopc h f s
  | .vclz h f => Sys2Proof.Machine.execVclz h f s
  | .vshl h f => Sys2Proof.Machine.execVshl h f s
  | .vshr h f => Sys2Proof.Machine.execVshr h f s
  | .vsar h f => Sys2Proof.Machine.execVsar h f s
  | .vcmp h f => Sys2Proof.Machine.execVcmp h f s
  | .vcls h f => Sys2Proof.Machine.execVcls h f s
  | .vsel h f => Sys2Proof.Machine.execVsel h f s
  | .vcvt h f => Sys2Proof.Machine.execVcvt h f s
  | .vrnd h f => Sys2Proof.Machine.execVrnd h f s
  | .vmov h f => Sys2Proof.Machine.execVmov h f s
  | .vsplat h f => Sys2Proof.Machine.execVsplat h f s
  | .viota h f => Sys2Proof.Machine.execViota h f s
  | .vext h f => Sys2Proof.Machine.execVext h f s
  | .vins h f => Sys2Proof.Machine.execVins h f s
  | .vperm h f => Sys2Proof.Machine.execVperm h f s
  | .vshuf h f => Sys2Proof.Machine.execVshuf h f s
  | .vrot h f => Sys2Proof.Machine.execVrot h f s
  | .vcmprs h f => Sys2Proof.Machine.execVcmprs h f s
  | .vexpd h f => Sys2Proof.Machine.execVexpd h f s
  | .vred h f => Sys2Proof.Machine.execVred h f s
  | .vredx h f => Sys2Proof.Machine.execVredx h f s
  | .vscan h f => Sys2Proof.Machine.execVscan h f s
  | .vmqnt h f => Sys2Proof.Machine.execVmqnt h f s
  | .vmdq h f => Sys2Proof.Machine.execVmdq h f s
  | .vscl h f => Sys2Proof.Machine.execVscl h f s
  | .vlqd h f => Sys2Proof.Machine.execVlqd h f s
  | .vpsn h f => Sys2Proof.Machine.execVpsn h f s
  | .vpid h f => Sys2Proof.Machine.execVpid h f s
  | .vprep h f => Sys2Proof.Machine.execVprep h f s
  | .jand h f => Sys2Proof.Machine.execJand h f s
  | .jor h f => Sys2Proof.Machine.execJor h f s
  | .jxor h f => Sys2Proof.Machine.execJxor h f s
  | .jnot h f => Sys2Proof.Machine.execJnot h f s
  | .jpopc h f => Sys2Proof.Machine.execJpopc h f s
  | .jffs h f => Sys2Proof.Machine.execJffs h f s
  | .lds h f => Sys2Proof.Machine.execLds h f s
  | .ldv h f => Sys2Proof.Machine.execLdv h f s
  | .ldvs h f => Sys2Proof.Machine.execLdvs h f s
  | .ldvg h f => Sys2Proof.Machine.execLdvg h f s
  | .ldvb h f => Sys2Proof.Machine.execLdvb h f s
  | .ldo h f => Sys2Proof.Machine.execLdo h f s
  | .ldc h f => Sys2Proof.Machine.execLdc h f s
  | .rfl h f => Sys2Proof.Machine.execRfl h f s
  | .markL h f => Sys2Proof.Machine.execMarkL h f s
  | .sts h f => Sys2Proof.Machine.execSts h f s
  | .stv h f => Sys2Proof.Machine.execStv h f s
  | .stvs h f => Sys2Proof.Machine.execStvs h f s
  | .stvx h f => Sys2Proof.Machine.execStvx h f s
  | .stc h f => Sys2Proof.Machine.execStc h f s
  | .spl h f => Sys2Proof.Machine.execSpl h f s
  | .markS h f => Sys2Proof.Machine.execMarkS h f s
  | .feno h f => Sys2Proof.Machine.execFeno h f s
  | .fenr h f => Sys2Proof.Machine.execFenr h f s
  | .fenq h f => Sys2Proof.Machine.execFenq h f s
  | .hset h f => Sys2Proof.Machine.execHset h f s
  | .hswp h f => Sys2Proof.Machine.execHswp h f s
  | .hrd h f => Sys2Proof.Machine.execHrd h f s
  | .mxrv h f => Sys2Proof.Machine.execMxrv h f s
  | .mxwv h f => Sys2Proof.Machine.execMxwv h f s
  | .mxla h f => Sys2Proof.Machine.execMxla h f s
  | .mxlb h f => Sys2Proof.Machine.execMxlb h f s
  | .mxmma h f => Sys2Proof.Machine.execMxmma h f s
  | .mxz h f => Sys2Proof.Machine.execMxz h f s
  | .mxprm h f => Sys2Proof.Machine.execMxprm h f s
  | .mxst h f => Sys2Proof.Machine.execMxst h f s
  | .mxspl h f => Sys2Proof.Machine.execMxspl h f s
  | .mxfil h f => Sys2Proof.Machine.execMxfil h f s
  | .mxgng h f => Sys2Proof.Machine.execMxgng h f s
  | .mxrp h f => Sys2Proof.Machine.execMxrp h f s
  | .xpop h f => Sys2Proof.Machine.execXpop h f s
  | .semw h f => Sys2Proof.Machine.execSemw h f s
  | .sems h f => Sys2Proof.Machine.execSems h f s
  | .semr h f => Sys2Proof.Machine.execSemr h f s
  | .semi h f => Sys2Proof.Machine.execSemi h f s
  | .bara h f => Sys2Proof.Machine.execBara h f s
  | .barb h f => Sys2Proof.Machine.execBarb h f s
  | .barw h f => Sys2Proof.Machine.execBarw h f s
  | .barq h f => Sys2Proof.Machine.execBarq h f s
  | .xcp h f => Sys2Proof.Machine.execXcp h f s
  | .xc2 h f => Sys2Proof.Machine.execXc2 h f s
  | .xcg h f => Sys2Proof.Machine.execXcg h f s
  | .xaw h f => Sys2Proof.Machine.execXaw h f s
  | .xawr h f => Sys2Proof.Machine.execXawr h f s
  | .xcas h f => Sys2Proof.Machine.execXcas h f s
  | .xsig h f => Sys2Proof.Machine.execXsig h f s
  | .xhsh h f => Sys2Proof.Machine.execXhsh h f s
  | .xopn h f => Sys2Proof.Machine.execXopn h f s
  | .xsel h f => Sys2Proof.Machine.execXsel h f s
  | .xfil h f => Sys2Proof.Machine.execXfil h f s
  | .trap p f => Sys2Proof.Machine.execTrap p f s
  | .tret p f => Sys2Proof.Machine.execTret p f s
  | .savc p f => Sys2Proof.Machine.execSavc p f s
  | .rstc p f => Sys2Proof.Machine.execRstc p f s
  | .rgstaPlc p f => Sys2Proof.Machine.execRgstaPlc p f s
  | .rgstaGo p f => Sys2Proof.Machine.execRgstaGo p f s
  | .rgstaRes p f => Sys2Proof.Machine.execRgstaRes p f s
  | .rgpre p f => Sys2Proof.Machine.execRgpre p f s
  | .rgfrzHold p f => Sys2Proof.Machine.execRgfrzHold p f s
  | .rgfrzRel p f => Sys2Proof.Machine.execRgfrzRel p f s
  | .rgmovMov p f => Sys2Proof.Machine.execRgmovMov p f s
  | .rgmovOut p f => Sys2Proof.Machine.execRgmovOut p f s
  | .rgretRel p f => Sys2Proof.Machine.execRgretRel p f s
  | .rgretAbt p f => Sys2Proof.Machine.execRgretAbt p f s
  | .rgretRd p f => Sys2Proof.Machine.execRgretRd p f s
  | .xinvAll p f => Sys2Proof.Machine.execXinvAll p f s
  | .xinvCtx p f => Sys2Proof.Machine.execXinvCtx p f s
  | .xinvObj p f => Sys2Proof.Machine.execXinvObj p f s
  | .xinvGfr p f => Sys2Proof.Machine.execXinvGfr p f s
  | .otwrWr p f => Sys2Proof.Machine.execOtwrWr p f s
  | .otwrRd p f => Sys2Proof.Machine.execOtwrRd p f s
  | .otwrFpop p f => Sys2Proof.Machine.execOtwrFpop p f s
  | .otwrFret p f => Sys2Proof.Machine.execOtwrFret p f s
  | .otwrFflt p f => Sys2Proof.Machine.execOtwrFflt p f s
  | .otwrFrm p f => Sys2Proof.Machine.execOtwrFrm p f s
  | .otwrGwr p f => Sys2Proof.Machine.execOtwrGwr p f s
  | .otwrFcp p f => Sys2Proof.Machine.execOtwrFcp p f s
  | .otwrQrd p f => Sys2Proof.Machine.execOtwrQrd p f s
  | .smapWr p f => Sys2Proof.Machine.execSmapWr p f s
  | .smapRd p f => Sys2Proof.Machine.execSmapRd p f s
  | .smapAdj p f => Sys2Proof.Machine.execSmapAdj p f s
  | .bmapBind p f => Sys2Proof.Machine.execBmapBind p f s
  | .bmapUnbind p f => Sys2Proof.Machine.execBmapUnbind p f s
  | .bmapRd p f => Sys2Proof.Machine.execBmapRd p f s
  | .bmapRst p f => Sys2Proof.Machine.execBmapRst p f s
  | .lnkcUp p f => Sys2Proof.Machine.execLnkcUp p f s
  | .lnkcDown p f => Sys2Proof.Machine.execLnkcDown p f s
  | .lnkcRkey p f => Sys2Proof.Machine.execLnkcRkey p f s
  | .lnkcAlgn p f => Sys2Proof.Machine.execLnkcAlgn p f s
  | .lnkcRun p f => Sys2Proof.Machine.execLnkcRun p f s
  | .lnkcQrl p f => Sys2Proof.Machine.execLnkcQrl p f s
  | .lnkcDrst p f => Sys2Proof.Machine.execLnkcDrst p f s
  | .lnkcDqrl p f => Sys2Proof.Machine.execLnkcDqrl p f s
  | .lnkqLnk p f => Sys2Proof.Machine.execLnkqLnk p f s
  | .lnkqDie p f => Sys2Proof.Machine.execLnkqDie p f s
  | .lnkqDom p f => Sys2Proof.Machine.execLnkqDom p f s
  | .measExt p f => Sys2Proof.Machine.execMeasExt p f s
  | .measRd p f => Sys2Proof.Machine.execMeasRd p f s
  | .measSha p f => Sys2Proof.Machine.execMeasSha p f s
  | .measNode p f => Sys2Proof.Machine.execMeasNode p f s
  | .rcpt p f => Sys2Proof.Machine.execRcpt p f s
  | .ksldLd p f => Sys2Proof.Machine.execKsldLd p f s
  | .ksldRes p f => Sys2Proof.Machine.execKsldRes p f s
  | .ksldEvc p f => Sys2Proof.Machine.execKsldEvc p f s
  | .ksldRd p f => Sys2Proof.Machine.execKsldRd p f s
  | .csigAlc p f => Sys2Proof.Machine.execCsigAlc p f s
  | .csigFre p f => Sys2Proof.Machine.execCsigFre p f s
  | .csigAdd p f => Sys2Proof.Machine.execCsigAdd p f s
  | .csigSet p f => Sys2Proof.Machine.execCsigSet p f s
  | .csigRd p f => Sys2Proof.Machine.execCsigRd p f s
  | .powerOn => Sys2Proof.Machine.execPowerOn s
  | .supplyInRegulation d => Sys2Proof.Machine.execSupplyInRegulation d s
  | .supplyLost d => Sys2Proof.Machine.execSupplyLost d s
  | .dieResetRelease d => Sys2Proof.Machine.execDieResetRelease d s
  | .dieMeasurementDone d pass digest => Sys2Proof.Machine.execDieMeasurementDone d pass digest s
  | .dieAdmissionCheckEnd d qcode => Sys2Proof.Machine.execDieAdmissionCheckEnd d qcode s
  | .dieWatchdog d => Sys2Proof.Machine.execDieWatchdog d s
  | .telemetrySample temps droops => Sys2Proof.Machine.execTelemetrySample temps droops s
  | .pwrMinTick => Sys2Proof.Machine.execPwrMinTick s
  | .telemetryFlashWrite => Sys2Proof.Machine.execTelemetryFlashWrite s
  | .snap v => Sys2Proof.Machine.execSnap v s
  | .snapshotComplete mgmt => Sys2Proof.Machine.execSnapshotComplete mgmt s
  | .telemetryUnsupportedAccess wr off width => Sys2Proof.Machine.execTelemetryUnsupportedAccess wr off width s
  | .mctpSnapshotRequest => Sys2Proof.Machine.execMctpSnapshotRequest s
  | .mctpTelemetryRead off len => Sys2Proof.Machine.execMctpTelemetryRead off len s
  | .leaseRenew d => Sys2Proof.Machine.execLeaseRenew d s
  | .leaseLapse => Sys2Proof.Machine.execLeaseLapse s
  | .stepwRelease t => Sys2Proof.Machine.execStepwRelease t s
  | .tilePartEnd t => Sys2Proof.Machine.execTilePartEnd t s
  | .fenrRequest t src => Sys2Proof.Machine.execFenrRequest t src s
  | .fenrAck t owner => Sys2Proof.Machine.execFenrAck t owner s
  | .dramAccessAtPort t k => Sys2Proof.Machine.execDramAccessAtPort t k s
  | .resultWriteback t => Sys2Proof.Machine.execResultWriteback t s
  | .tokenPushWaitEnd t => Sys2Proof.Machine.execTokenPushWaitEnd t s
  | .meCommandStart t => Sys2Proof.Machine.execMeCommandStart t s
  | .meCommandComplete t id => Sys2Proof.Machine.execMeCommandComplete t id s
  | .gangImageArrival t => Sys2Proof.Machine.execGangImageArrival t s
  | .xeCommandStart t => Sys2Proof.Machine.execXeCommandStart t s
  | .xeCommandComplete t id => Sys2Proof.Machine.execXeCommandComplete t id s
  | .xopnHeaderAtHub t id => Sys2Proof.Machine.execXopnHeaderAtHub t id s
  | .accumulateArrival t id => Sys2Proof.Machine.execAccumulateArrival t id s
  | .remoteIncrement k => Sys2Proof.Machine.execRemoteIncrement k s
  | .peerCommandArrival t id running ntiles => Sys2Proof.Machine.execPeerCommandArrival t id running ntiles s
  | .regionStepClose rg => Sys2Proof.Machine.execRegionStepClose rg s
  | .probeSend t agent => Sys2Proof.Machine.execProbeSend t agent s
  | .probeReceive k => Sys2Proof.Machine.execProbeReceive k s
  | .accumulateCloseTimeout rg => Sys2Proof.Machine.execAccumulateCloseTimeout rg s
  | .handlerTimeout t => Sys2Proof.Machine.execHandlerTimeout t s
  | .regionColumnStart rg col => Sys2Proof.Machine.execRegionColumnStart rg col s
  | .regionFreeze rg => Sys2Proof.Machine.execRegionFreeze rg s
  | .regionSaveComplete rg => Sys2Proof.Machine.execRegionSaveComplete rg s
  | .regionResumeStart rg => Sys2Proof.Machine.execRegionResumeStart rg s
  | .regionMoveComplete rg => Sys2Proof.Machine.execRegionMoveComplete rg s
  | .stepPeriodChange ms => Sys2Proof.Machine.execStepPeriodChange ms s
  | .invalidationComplete k => Sys2Proof.Machine.execInvalidationComplete k s
  | .translationWalkEnd d k => Sys2Proof.Machine.execTranslationWalkEnd d k s
  | .stallWireDrop rg => Sys2Proof.Machine.execStallWireDrop rg s
  | .dramUe addr => Sys2Proof.Machine.execDramUe addr s
  | .linkTrainingEnd j ok => Sys2Proof.Machine.execLinkTrainingEnd j ok s
  | .linkAttestEnd j qcode peer => Sys2Proof.Machine.execLinkAttestEnd j qcode peer s
  | .linkErrorBurst j => Sys2Proof.Machine.execLinkErrorBurst j s
  | .flitReceive j dir crcOk tagOk g cnt => Sys2Proof.Machine.execFlitReceive j dir crcOk tagOk g cnt s
  | .rolloverStart j dir => Sys2Proof.Machine.execRolloverStart j dir s
  | .rolloverAck j dir => Sys2Proof.Machine.execRolloverAck j dir s
  | .rolloverEnd j dir => Sys2Proof.Machine.execRolloverEnd j dir s
  | .domainStallRaise j => Sys2Proof.Machine.execDomainStallRaise j s
  | .domainStallDrop j => Sys2Proof.Machine.execDomainStallDrop j s
  | .hostLinkRetrain => Sys2Proof.Machine.execHostLinkRetrain s
  | .ideKeyRefresh => Sys2Proof.Machine.execIdeKeyRefresh s
  | .hostErrorCompletion c q xopn => Sys2Proof.Machine.execHostErrorCompletion c q xopn s
  | .ideKm fn key => Sys2Proof.Machine.execIdeKm fn key s
  | .tdispLock fn => Sys2Proof.Machine.execTdispLock fn s
  | .tdispRun fn => Sys2Proof.Machine.execTdispRun fn s
  | .tdispError fn => Sys2Proof.Machine.execTdispError fn s
  | .flr fn => Sys2Proof.Machine.execFlr fn s
  | .ksldCheckEnd c slot => Sys2Proof.Machine.execKsldCheckEnd c slot s
  | .doorbell c q v => Sys2Proof.Machine.execDoorbell c q v s
  | .queueEnable c q => Sys2Proof.Machine.execQueueEnable c q s
  | .queueDisable c q => Sys2Proof.Machine.execQueueDisable c q s
  | .queueSelect fn => Sys2Proof.Machine.execQueueSelect fn s
  | .timeSliceEnd fn => Sys2Proof.Machine.execTimeSliceEnd fn s
  | .launchPacket c q => Sys2Proof.Machine.execLaunchPacket c q s
  | .selectPacket c q => Sys2Proof.Machine.execSelectPacket c q s
  | .signalPacketWait c q => Sys2Proof.Machine.execSignalPacketWait c q s
  | .signalPacketAdd c q => Sys2Proof.Machine.execSignalPacketAdd c q s
  | .signalPacketSet c q => Sys2Proof.Machine.execSignalPacketSet c q s
  | .queueWaitEnd c q => Sys2Proof.Machine.execQueueWaitEnd c q s
  | .packetComplete c q => Sys2Proof.Machine.execPacketComplete c q s
  | .signalOperation k => Sys2Proof.Machine.execSignalOperation k s
  | .swcmd fn iface v => Sys2Proof.Machine.execSwcmd fn iface v s
  | .unbar c => Sys2Proof.Machine.execUnbar c s
  | .glimWrite fn v => Sys2Proof.Machine.execGlimWrite fn v s
  | .contextBind c => Sys2Proof.Machine.execContextBind c s
  | .contextUnbind c => Sys2Proof.Machine.execContextUnbind c s
  | .scrub c => Sys2Proof.Machine.execScrub c s
  | .scrubComplete c => Sys2Proof.Machine.execScrubComplete c s
  | .ctxenSet c => Sys2Proof.Machine.execCtxenSet c s
  | .ctxenClear c => Sys2Proof.Machine.execCtxenClear c s
  | .plheadWrite c v => Sys2Proof.Machine.execPlheadWrite c v s
  | .s2go fn => Sys2Proof.Machine.execS2go fn s
  | .guarWrite fn v => Sys2Proof.Machine.execGuarWrite fn v s
  | .burstWrite fn v => Sys2Proof.Machine.execBurstWrite fn v s
  | .partitionWrite fn field v => Sys2Proof.Machine.execPartitionWrite fn field v s
  | .powerCapWrite v => Sys2Proof.Machine.execPowerCapWrite v s
  | .peerEntryWrite c e v => Sys2Proof.Machine.execPeerEntryWrite c e v s
  | .peeridWrite port v => Sys2Proof.Machine.execPeeridWrite port v s
  | .ksvf slot v => Sys2Proof.Machine.execKsvf slot v s
  | .keySlotLoad slot fn tbit => Sys2Proof.Machine.execKeySlotLoad slot fn tbit s
  | .keySlotClr slot fn tbit => Sys2Proof.Machine.execKeySlotClr slot fn tbit s
  | .registerWrite reg v => Sys2Proof.Machine.execRegisterWrite reg v s
  | .remoteInvalidation port c oid first count => Sys2Proof.Machine.execRemoteInvalidation port c oid first count s
  | .peerFaultAnswer t id retry rec => Sys2Proof.Machine.execPeerFaultAnswer t id retry rec s
  | .peerPairConfirm c e => Sys2Proof.Machine.execPeerPairConfirm c e s

end Sys2Proof.Machine
end

