-- ==== Sys2Proof/Machine/Sched.lean ====
section
/-! DEFINITION. The clock of the package: what happens in a cycle and at the boundary of a domain step, in which order, and which events the
device makes of itself (03_tile.md R55 to R63, 14_group.md R310, 16_context.md R344 R348, 09_page.md R210, 17_link.md R371). An
instant that the spec leaves open is drawn from `Config.freeDelay` (assumption 5). -/

namespace Sys2Proof.Machine

/-- An outcome taken further. -/
def andThen (o : Host.Outcome State Fault Refusal) (f : State → Host.Outcome State Fault Refusal) : Host.Outcome State Fault Refusal :=
  match o with
  | .next s => f s
  | .fault r => .fault r
  | .refused r => .refused r

/-- The state an outcome gives, `s` when it gives none. -/
def nextOr (s : State) (o : Host.Outcome State Fault Refusal) : State :=
  match o with
  | .next t => t
  | _ => s

/-! ### Which agents work in a cycle -/

/-- The tiles of region r by region tile index. -/
def State.tilesByTix (s : State) (r : Nat) : List Nat := ((s.region r).tiles).filter fun k => (s.tile k).rgn == r

/-- Every tile that a region has. -/
def State.busyTiles (s : State) : List Nat := s.regions.flatMap fun r => s.tilesByTix r.1

/-- Tile k may run the rest of its step alone (R348): every other tile has frozen and every handler has returned. Two such tiles run
one after the other. -/
def State.alone (s : State) (k : Nat) : Bool :=
  (s.tilesOf (s.tile k).rgn).all fun j =>
    let t := s.tile j
    j == k || !t.live || (!t.trapped && (t.cyc == 128 || (t.catchup && k < j)))

/-- Tile k runs a cycle of its schedule now. -/
def State.runs (s : State) (k : Nat) : Bool :=
  let t := s.tile k
  let R := s.region t.rgn
  t.live && !t.trapped && t.cyc < 128 && !s.dom.frozen
    && if t.catchup then s.alone k else R.mid && !R.frozen && t.cyc == s.dom.cyc

/-! ### One tile's cycle -/

/-- A tile has left its schedule at a trap since `s`. -/
def State.newTrap (s s' : State) (k : Nat) : Bool := (s'.tile k).trapped || ((s.tile k).live && !(s'.tile k).live)

/-- The issue of the head of queue q of tile k. Marks that do not match trap whether or not they could issue (R190). -/
def State.issueOf (s : State) (k q : Nat) : Host.Outcome State Fault Refusal :=
  if !s.runs k || !((s.tile k).canIssue q || (s.tile k).markClash == some q) then .next s
  else match ((s.tile k).queue q).head? with
    | none => .next s
    | some e => exec e.instr (s.atEntry k q e)

/-- The first trap that the heads of tile k would raise in this cycle, L before C before S: the queue that raises it (R61, R344). -/
def State.trialQueue (s : State) (k : Nat) : List Nat → State → Option Nat
  | [], _ => none
  | q :: l, x =>
    let y := nextOr x (x.issueOf k q)
    if x.newTrap y k then some q else State.trialQueue s k l y

/-- The state in which all three heads have issued. -/
def State.allIssued (s : State) (k : Nat) : State := [1, 2, 3].foldl (fun x q => nextOr x (x.issueOf k q)) s

/-- The `sems` that would pass 65,535 in this cycle (R225): judged after the waits of the queues and of the engines (R223). -/
def State.semsTrap (s : State) (k : Nat) : Option SemOp :=
  let x := s.allIssued k
  match (x.tile k).semsOver with
  | none => none
  | some _ =>
    let y := nextOr x (execMeCommandStart k x)
    ((nextOr y (execXeCommandStart k y)).tile k).semsOver

/-- A `sems` that would pass 65,535 leaves the count there and traps in place of issuing (R225). -/
def State.takeSems (s : State) (k : Nat) (o : SemOp) : State :=
  let s := s.setTile k ((s.tile k).setCount o.phys semMax)
  let seq := (((s.tile k).queue o.agent).head?.map QEntry.seq).getD 0
  s.trapTile k o.agent o.pc seq { cause := cSEMOVF, val := semVal o.en o.phys }

/-- The front end of tile k does nothing now. In a handler only `tret` or a trap stops it (R345). -/
def Tile.idleFe (t : Tile) : Bool := if t.trapped then t.core.halted else t.feOff

/-- One slot of the front end of tile k (R56): the second follows a word that went to another queue. -/
def State.fetchTile (s : State) (k : Nat) (second : Bool) : Host.Outcome State Fault Refusal :=
  let t := s.tile k
  if !(s.runs k || (t.trapped && t.live && !s.dom.frozen)) || t.idleFe then .next s
  else
    let pairs := match t.pair, s.wordsAt (.tile k) t.core.pc with
      | some q, some w => mayPair q w.1
      | _, _ => false
    if second && !pairs then .next s
    else match s.front k with
      | .hold => .next s
      | .wait _ _ => .next s
      | .trap x => .next (s.feTrap k x)
      | .run i w0 w1 => exec i (s.handle k w0 w1)
      | .queue i w0 w1 => .next (s.dispatch k i w0 w1)

/-- A turn of the front end of tile k: the step that a `stepw` waits for may have begun. -/
def State.feTurn (s : State) (k : Nat) (second : Bool) : Host.Outcome State Fault Refusal :=
  andThen (execStepwRelease k s) fun s => s.fetchTile k second

/-- The front end of tile k traps in this cycle. -/
def State.feTraps (s : State) (k : Nat) : Bool :=
  let x := nextOr s (s.feTurn k false)
  s.newTrap x k || s.newTrap (nextOr x (x.feTurn k true)) k

/-- The front end and the heads of tile k tried before anything issues: a trap stops the tile before this cycle (R344). Of several traps of one
cycle the one of the lowest source is taken, as R350 reports it: the front end's in its turn, then L, C, S (DEDUCED, assumption 19). -/
def State.trial (s : State) (k : Nat) : Host.Outcome State Fault Refusal :=
  if !s.runs k || s.feTraps k then .next s
  else match s.trialQueue k [1, 2, 3] s, s.semsTrap k with
    | none, none => .next s
    | some q, none => s.issueOf k q
    | none, some o => .next (s.takeSems k o)
    | some q, some o => if o.agent < q then .next (s.takeSems k o) else s.issueOf k q

/-- A word that resets a die: the first of R10's kinds of event. -/
def resetsDie (i : Instr) : Bool :=
  match i with
  | .lnkcDrst _ _ => true
  | _ => false

/-- The front end of a Sorrel: one word a cycle, unless it has halted, waits for a completion, or moves its window. A word that resets a die runs
before everything else of the cycle (`first`), and any other word after it (R10). -/
def State.fetchSorrel (s : State) (d : Nat) (first : Bool) : Host.Outcome State Fault Refusal :=
  let c := (s.die d).sorrel
  if (s.die d).state ≠ 5 ∨ c.halted = true ∨ c.hold.isSome = true ∨ c.win ≠ [] then .next s
  else match s.frontS d with
    | .trap x => .next (if first then s else s.trapSorrel d c.pc x)
    | .run i w0 w1 | .queue i w0 w1 =>
      if resetsDie i != first then .next s
      else
        let s := if first then { s with agenda := s.agenda.erase (.fetch true d false) } else s
        exec i (s.atWord (.sorrel d) c.pc w0 w1 0)
    | .hold => .next s
    | .wait _ _ => .next s

/-- One cycle of a `call` or `ret` (R117) of the agent of `cur`: a record is written; a record is read, and its unit is written nine
cycles later. -/
def State.winStep (s : State) : State :=
  let c := s.core
  match c.win with
  | [] => s
  | w :: l =>
    let s := s.setCore { c with win := l }
    match w with
    | .spill u => spillUnit s u
    | .spillLink u ret =>
      let s := spillUnit s u
      s.setCore (s.core.setS 63 ⟨BitVec.ofNat 64 ret, false⟩)
    | .idle => s
    | .fill u =>
      let v := fillVals s u
      if s.onSorrel then s.setCore { s.core with filled := s.core.filled ++ [(10, v)] }
      else
        let t := s.myTile
        s.setMyTile { t with
          due := t.due ++ [⟨t.now + 9, t.seqno, 0, v.map fun x => Dest.scal x.1 x.2, none, false, false, none⟩] }

/-- A cycle of the units that a Sorrel's `ret` has read: one that was read nine cycles ago is written (R117, R136). -/
def Core.putFilled (c : Core) : Core :=
  let l := c.filled.map fun x => (x.1 - 1, x.2)
  (l.filter fun x => x.1 == 0).foldl (fun (c : Core) x => x.2.foldl (fun (c : Core) y => { c with sreg := tset c.sreg y.1 y.2 }) c)
    { c with filled := l.filter fun x => x.1 != 0 }

/-- Word `seq` still waits in the S queue. -/
def Tile.waitsS (t : Tile) (seq : Nat) : Bool := t.sq.any fun e => e.seq == seq

/-- A cycle of the register window of tile k, at the place of S-queue writes (R75, R117). -/
def State.window (s : State) (k : Nat) : State :=
  if s.runs k then ({ s with cur := { agent := .tile k } } : State).winStep else s

/-- What closes a cycle of tile k: it counts, and a tile that ran alone ends its step (R348). -/
def State.countCycle (s : State) (k : Nat) : State :=
  let t := s.tile k
  let t := { t with
    cyc := t.cyc + 1, issued := [], pair := none, meStarted := false, xeStarted := false, core := { t.core with wrote := [] }
    fwd := t.fwd.filter fun x => t.waitsS x.1 }
  if t.catchup && t.cyc == 128 then
    (s.setTile k { t with catchup := false }).stallMod t.rgn fun x => { x with trap := x.trap - 1 }
  else s.setTile k t

/-- The end of a cycle of tile k: results, fences, count changes and pushes (R62, R63, R69, R223), and its counters. -/
def State.endTile (s : State) (k : Nat) : Host.Outcome State Fault Refusal :=
  if s.runs k then
    andThen (execResultWriteback k s) fun s =>
    andThen (execTokenPushWaitEnd k ((s.fenceCheck k).applySemops k)) fun s => .next (s.countCycle k)
  else
    let s := if s.dom.frozen then s else (s.fenceCheck k).applySemops k
    let t := s.tile k
    let hit := t.trapped && t.live && !s.dom.frozen
    .next (s.setTile k { t with
      meStarted := false, xeStarted := false, issued := [], pair := none, hcyc := if hit then t.hcyc + 1 else t.hcyc
      core := { t.core with wrote := [] } })

/-! ### What takes its time -/

/-- A duration that stops at nothing: the events it leads to at its end. -/
def atZero (left : Nat) (e : DevEv) : List DevEv := if left = 0 then [e] else []

def DAcc.tick (a : DAcc) : DAcc := if a.st = 0 then { a with left := a.left - 1 } else a
def MeCmd.tick (c : MeCmd) : MeCmd := if c.finished && c.park == 0 then { c with left := c.left - 1 } else c
def XeCmd.tick (c : XeCmd) : XeCmd := if (c.finished && c.park == 0) || c.park == 4 then { c with left := c.left - 1 } else c

/-- An accumulate whose arrivals have still to come to a port of this package. -/
def XeCmd.arrives (c : XeCmd) : Bool := c.isAw && !c.ain && !c.peer

/-- Events of tile k whose time has come at the start of a cycle. -/
def State.tileEvents (s : State) (k : Nat) : List DevEv :=
  let t := s.tile k
  (t.dacc.flatMap fun a => if a.st = 0 then atZero a.left (.accAtPort k a.id) else [])
    ++ (match t.fence with
      | some x => if x.rel && x.asked && x.left = 0 then
          x.owners.map fun o => if (s.tile o).fenrIn.any fun y => y.1 == k then DevEv.fenrAck k o else DevEv.fenrRequest o k
        else []
      | none => [])
    ++ (if t.meq.any fun c => c.opc == 0x19 && c.started && !c.finished && c.gang != 0 then [DevEv.gangImage k] else [])
    ++ (t.xrun.flatMap fun c =>
        if c.park = 4 then atZero c.left (.xopnAtHub k c.seq)
        else if c.finished && c.park == 0 && c.arrives then atZero c.left (.awIn k c.seq)
        else [])
    ++ (if t.trapped && 2 ^ 20 ≤ t.hcyc then [DevEv.handlerLimit k] else [])

/-- Engine commands of tile k that complete in this cycle: their last effect has taken place (R249, R272). -/
def State.engineEnds (s : State) (k : Nat) : List DevEv :=
  let t := s.tile k
  if s.dom.frozen then []
  else
    (t.meq.flatMap fun c => if c.finished && c.park == 0 then atZero c.left (.meEnd k c.id) else [])
      ++ (t.xrun.flatMap fun c => if c.finished && c.park == 0 && !c.arrives then atZero c.left (.xeEnd k c.seq) else [])

/-- The counters of tile k go on. -/
def Tile.tick (t : Tile) : Tile :=
  { t with
    dacc := t.dacc.map DAcc.tick
    fence := t.fence.map fun (x : Fence) => if x.asked then { x with left := x.left - 1 } else x
    meq := t.meq.map MeCmd.tick
    xrun := t.xrun.map XeCmd.tick }

/-- Time passes for what is under way: first the events that are due, then the counters. -/
def State.timers (s : State) : State :=
  if s.dom.frozen then s
  else
    let ks := s.busyTiles
    let ev := ks.flatMap s.tileEvents
      ++ (s.incs.flatMap fun x => atZero x.left (.remInc x.id))
      ++ (s.dies.flatMap fun d => d.2.walks.flatMap fun w => atZero w.left (.walkEnd d.1 w.id))
      ++ (s.invals.flatMap fun v => atZero v.left (.invalEnd v.id))
    let s := ks.foldl (fun (s : State) k => s.setTile k (s.tile k).tick) s
    { s with
      incs := s.incs.map fun (x : RemInc) => { x with left := x.left - 1 }
      dies := s.dies.map fun (d : Nat × Die) => (d.1, { d.2 with walks := d.2.walks.map fun (w : Walk) => { w with left := w.left - 1 } })
      invals := s.invals.map fun (v : Inval) => { v with left := v.left - 1 }
      agenda := ev.map Task.dev ++ s.agenda }

/-! ### The boundary of a domain step -/

/-- Every tile of region r has run the step under way. -/
def State.allAtClose (s : State) (r : Nat) : Bool := (s.tilesOf r).all fun k => (s.tile k).atClose

/-- Commands that hold the close of region r note since when. -/
def State.noteLate (s : State) (r : Nat) : State :=
  let u := (s.region r).rstep
  let mark := fun (c : XeCmd) => if c.isAw && c.due ≤ u && !c.applied && !c.ain then { c with late := some (c.late.getD s.dom.step) } else c
  (s.tilesOf r).foldl (fun (s : State) k => let t := s.tile k; s.setTile k { t with xeq := t.xeq.map mark, xrun := t.xrun.map mark }) s

/-- Region r at the boundary: its step closes, or the close waits for a late arrival under the region's wire (R276). -/
def State.boundaryOf (x : State × List Task) (r : Nat) : State × List Task :=
  let s := x.1
  let R := s.region r
  if !R.mid || !s.allAtClose r then x
  else if s.lateAw r R.rstep then ((s.noteLate r).stallMod r (fun y => { y with late := true }), x.2 ++ [.dev (.awLimit r)])
  else (s.stallMod r (fun y => { y with late := false }), x.2 ++ [.dev (.stepClose r)])

/-- Insert behind those of no later launch. -/
def insSeq (x : Nat × Nat) : List (Nat × Nat) → List (Nat × Nat)
  | [] => [x]
  | y :: l => if x.1 < y.1 then x :: y :: l else y :: insSeq x l

/-- The regions in the order of their launches: closes of one instant are taken in it (R279). -/
def State.byLaunch (s : State) : List Nat := (s.regions.foldl (fun l r => insSeq (r.2.launch.lseq, r.1) l) []).map Prod.snd

/-- A choice that the spec leaves open (assumption 5). -/
def State.coin (s : State) : Bool × State := (Config.freeDelay s.freeCtr % 2 == 0, { s with freeCtr := s.freeCtr + 1 })

/-- Those of the events that happen at this boundary. -/
def choose : List DevEv → State → State × List DevEv
  | [], s => (s, [])
  | e :: l, s =>
    let c := s.coin
    let r := choose l c.2
    (r.1, if c.1 then e :: r.2 else r.2)

/-- What Sorrel firmware and the hub may do for queue q of context c. -/
def queueEvents (s : State) (c q : Nat) (Q : Queue) : List DevEv :=
  let ended := Q.launch.any fun L => L.rgn != 0 && ((s.region L.rgn).state == 9 || (s.region L.rgn).state == 10)
  (if s.atStage2 c q || (Q.done.isNone && Q.launch.any fun L => L.stage == 3) then [.packet c q] else [])
    ++ (if Q.half.qstate = 3 then [.waitEnd c q] else [])
    ++ (if Q.done.isSome || ended || Q.seq % 2 == 1 then [.packetDone c q] else [])

/-- Events that may happen at a boundary: at which one is open. -/
def State.openEvents (s : State) : List DevEv :=
  (((s.ctxs.map fun c => c.2.vf).eraseDups).map DevEv.queueSelect)
    ++ (s.ctxs.flatMap fun c => c.2.queues.flatMap fun q => queueEvents s c.1 q.1 q.2)
    ++ (s.hub.sigops.map fun x => DevEv.sigOp x.id)
    ++ (s.ctxs.flatMap fun c => (if c.2.state = 8 then [DevEv.scrubDone c.1] else [])
        ++ c.2.slots.flatMap fun x => if x.2.state = 1 then [DevEv.ksldEnd c.1 x.1] else [])
    ++ (s.regions.flatMap fun r => (if r.2.state = 6 ∧ r.2.hold = false then [DevEv.saveDone r.1] else [])
        ++ (if r.2.state = 8 then [DevEv.moveDone r.1] else []) ++ (if r.2.op.isSome then [DevEv.opDone r.1] else [])
        ++ if r.2.launch.stage = 8 then [DevEv.giveBack r.1] else [])

/-- Whole domain steps in 250 µs at the nominal clock (R6, R23); ns in a minute, after which the store goes to flash too (R25, R26), and in the ms of a
sample (R25). -/
abbrev renewSteps := 3906
abbrev minuteNs := 60000000000
abbrev sampleNs := 1000000

/-- Events that happen at this boundary. -/
def State.dueEvents (s : State) : List DevEv :=
  (s.busyTiles.flatMap fun k => ((s.tile k).blk.filter fun b => b.2.due).map fun b => DevEv.probeSend k b.1)
    ++ (s.probes.flatMap fun p => atZero p.left (.probe p.id))
    ++ (s.regions.flatMap fun r => if r.2.holdReq || r.2.state = 5 then [DevEv.freeze r.1] else [])
    ++ (s.regions.flatMap fun r => if r.2.frozen && !r.2.stall.up then [DevEv.wireDrop r.1] else [])
    ++ (s.fns.flatMap fun f => if f.2.holder.isSome && s.leader.isSome then atZero f.2.sliceLeft (.sliceEnd f.1) else [])
    ++ (match s.leader with
      | some d => if s.mayLead d && 0 < s.hub.leaseLeft && s.hub.renew = 0 then [DevEv.leaseRenew d] else []
      | none => [])
    ++ (if s.hub.host.busy then atZero s.hub.host.left (.snapshotDone false) else [])
    ++ (if s.hub.mgmt.busy then atZero s.hub.mgmt.left (.snapshotDone true) else [])
    ++ (if s.hub.minLeft = 0 then [.minute, .flashWrite] else [])
    ++ (if sampleNs ≤ s.hub.msAge then [.sample] else [])
    ++ (if s.leaseGone then [DevEv.leaseLapse] else [])

/-- The events after the closes of a boundary, and then the next step. -/
def State.events (s : State) : State :=
  let s := s.regions.foldl (fun (s : State) r => s.checkDraining r.1) s
  let due := s.dueEvents
  let H := s.hub
  let s := { s with hub := { H with
    renew := if H.renew = 0 then renewSteps else H.renew, minLeft := if H.minLeft = 0 then minuteNs else H.minLeft
    msAge := if sampleNs ≤ H.msAge then H.msAge - sampleNs else H.msAge } }
  let r := choose s.openEvents { s with probes := s.probes.map fun (p : Probe) => { p with left := p.left - 1 } }
  { r.1 with agenda := (due ++ r.2).map Task.dev ++ .newStep :: r.1.agenda }

/-! ### The next step -/

/-- A common multiple of 16 to 64: a step at any m is a whole number of such parts of a ns. -/
abbrev nsParts := 1182266884102822267511361600

/-- Time that a domain step has brought, in parts of a ns, with what was left over (14_group.md R320). -/
def State.stepParts (s : State) : Nat := s.hub.frac + 4096 * nsParts / max 1 s.hub.curm

/-- A step has passed for what is counted in ns and for what is counted in steps (R6). -/
def State.passStep (s : State) : State :=
  let n := s.stepParts / nsParts
  let snap := fun (x : Snapshot) => { x with left := x.left - 1 }
  { s with
    hub := { s.hub with
      leaseLeft := s.hub.leaseLeft - n, minLeft := s.hub.minLeft - n, msAge := s.hub.msAge + n, renew := s.hub.renew - 1, frac := s.stepParts % nsParts, curm := s.hub.stepm
      host := snap s.hub.host, mgmt := snap s.hub.mgmt }
    fns := s.fns.map fun (f : Nat × Fn) => (f.1, { f.2 with sliceLeft := f.2.sliceLeft - n }) }

/-- The domain's count moves by n: pending references to a domain step move with it (R370). -/
def State.adoptCount (s : State) (n : Int) : State :=
  let move := fun (x : Nat) => ((x : Int) + n).toNat
  let mark := fun (c : XeCmd) => { c with late := c.late.map move }
  { s with
    dom := { s.dom with step := move s.dom.step, adopt := none, freezeAt := s.dom.freezeAt.map move }
    links := s.links.map fun (l : Nat × Link) => (l.1, { l.2 with pofs := l.2.pofs - n })
    regions := s.regions.map fun (r : Nat × Region) => (r.1, if r.2.state = 2 then { r.2 with sstep := move r.2.sstep } else r.2)
    tiles := s.tiles.map fun (t : Nat × Tile) => (t.1, { t.2 with xeq := t.2.xeq.map mark, xrun := t.2.xrun.map mark }) }

/-- Region r at the start of a domain step: it counts down to its start, freezes under its wire or begins its next schedule step
(R210, R310). -/
def Region.begin (R : Region) : Region :=
  let R := if R.state = 2 ∧ 0 < R.startIn then
      { R with startIn := R.startIn - 1, rstep := if R.resume then R.rbase else 0 }
    else R
  let fr := R.stall.up || R.state == 6
  let goes := (R.state == 2 && R.startIn == 0) || R.state == 3 || R.state == 5
  { R with frozen := fr, mid := R.mid || (goes && !fr) }

/-- The tiles whose time it is to start. -/
def startEvents (r : Nat) (R : Region) : List DevEv :=
  if R.state = 2 ∧ R.startIn = 0 ∧ R.frozen = false then (if R.resume then [.resumeStart r] else [.columnStart r R.rstep]) else []

/-- The start of a domain step (R370, R371): the domain freezes at the close of its step, or its count goes on and every region begins. -/
def State.newStep (s : State) : State :=
  let s := s.passStep
  let D := s.dom
  if D.frozen && D.wire then { s with dom := { D with cyc := 0 } }
  else if !D.frozen && D.wire && D.freezeAt.any (fun n => n ≤ D.step) then
    ({ s with dom := { D with cyc := 0, frozen := true, freezeAt := none } } : State).tel 0x58
  else
    let s := { s with dom := { D with cyc := 0, frozen := false, step := (D.step + 1) % 2 ^ 64, freezeAt := if D.wire then D.freezeAt else none } }
    let s := match D.adopt with
      | some n => s.adoptCount n
      | none => s
    let s := { s with regions := s.regions.map fun (r : Nat × Region) => (r.1, r.2.begin) }
    { s with agenda := (s.regions.flatMap fun r => startEvents r.1 r.2).map Task.dev ++ s.agenda }

/-! ### The tasks of a cycle -/

/-- The packet task: what the packet of the queue is decides. -/
def State.packet (s : State) (c q : Nat) : Host.Outcome State Fault Refusal :=
  let p := (s.queue c q).pkt
  if pktF p 0 1 = 2 then execSelectPacket c q s
  else if pktF p 0 1 = 3 then
    (if pktF p 0x0A 1 = 1 then execSignalPacketAdd c q s
    else if pktF p 0x0A 1 = 2 then execSignalPacketSet c q s
    else execSignalPacketWait c q s)
  else execLaunchPacket c q s

/-- A sample of the sensors of the three compute dies and of the hub (R25): what they read is not the model's, free values. -/
def State.sampleDies (s : State) : Host.Outcome State Fault Refusal :=
  let w := fun i => Config.freeWord (s.freeCtr + i)
  execTelemetrySample ((List.range 4).map fun i => (w i).toInt) ((List.range 4).map fun i => (w (4 + i)).toNat) { s with freeCtr := s.freeCtr + 8 }

/-- An event of the device. -/
def State.devEvent (s : State) (e : DevEv) : Host.Outcome State Fault Refusal :=
  match e with
  | .walkEnd d k => execTranslationWalkEnd d k s
  | .accAtPort t k => execDramAccessAtPort t k s
  | .fenrRequest t src => execFenrRequest t src s
  | .fenrAck t o => execFenrAck t o s
  | .meEnd t id => execMeCommandComplete t id s
  | .gangImage t => execGangImageArrival t s
  | .xeEnd t id => execXeCommandComplete t id s
  | .xopnAtHub t id => execXopnHeaderAtHub t id s
  | .awIn t id => execAccumulateArrival t id s
  | .remInc k => execRemoteIncrement k s
  | .invalEnd k => execInvalidationComplete k s
  | .partEnd t => execTilePartEnd t s
  | .handlerLimit t => execHandlerTimeout t s
  | .stepClose r => execRegionStepClose r s
  | .columnStart r c => execRegionColumnStart r c s
  | .resumeStart r => execRegionResumeStart r s
  | .freeze r => execRegionFreeze r s
  | .saveDone r => execRegionSaveComplete r s
  | .moveDone r => execRegionMoveComplete r s
  | .wireDrop r => execStallWireDrop r s
  | .awLimit r => execAccumulateCloseTimeout r s
  | .probeSend t a => execProbeSend t a s
  | .probe k => execProbeReceive k s
  | .queueSelect v => execQueueSelect v s
  | .sliceEnd v => execTimeSliceEnd v s
  | .packet c q => s.packet c q
  | .waitEnd c q => execQueueWaitEnd c q s
  | .packetDone c q => execPacketComplete c q s
  | .sigOp k => execSignalOperation k s
  | .scrubDone c => execScrubComplete c s
  | .leaseRenew d => execLeaseRenew d s
  | .leaseLapse => execLeaseLapse s
  | .ksldEnd c sl => execKsldCheckEnd c sl s
  | .snapshotDone m => execSnapshotComplete m s
  | .minute => execPwrMinTick s
  | .flashWrite => execTelemetryFlashWrite s
  | .sample => s.sampleDies
  | .opDone r => .next (s.opDone r)
  | .giveBack r => .next (s.giveBack r)

/-- An event is not a word of a front end. -/
def State.asDev (s : State) : State := { s with cur := { agent := .dev } }

/-- Grids whose tile raised an unhandled trap end (R350), regions whose tiles have stopped drain (R312), contexts over their guilt limit are barred
(R335), landings of peers' commands go on, peers are told what no access holds any more, and the cycle is over. -/
def State.endCycle (s : State) : State :=
  let s := (s.regions.foldl (fun (s : State) r => s.checkDraining r.1) s.settleAll).barAll.peerTurn.answerInvs
  { s with dom := { s.dom with cyc := s.dom.cyc + 1 } }

/-- One task. -/
def runTask (t : Task) (s : State) : Host.Outcome State Fault Refusal :=
  match t with
  | .timers => .next s.timers
  | .trial k => s.trial k
  | .fetch true d first => s.fetchSorrel d first
  | .fetch false k second => s.feTurn k second
  | .issue k q => s.issueOf k q
  | .engine k xe => if xe then execXeCommandStart k s else execMeCommandStart k s
  | .window k => .next (s.window k)
  | .engineEnds k => .next { s with agenda := (s.engineEnds k).map Task.dev ++ s.agenda }
  | .arrive => .next { s with agenda := (s.incs.flatMap fun x => atZero x.left (DevEv.remInc x.id)).map Task.dev ++ s.agenda }
  | .endTile k => s.endTile k
  | .endSorrel d =>
    let s := ({ s with cur := { agent := .sorrel d } } : State).winStep
    .next (s.setCore { s.core.putFilled with wrote := [] })
  | .endCycle => .next s.endCycle
  | .host e => s.asDev.hostEvent e
  | .dev e => s.asDev.devEvent e
  | .boundary =>
    let r := s.byLaunch.foldl State.boundaryOf (s.settleAll, [])
    .next { r.1 with agenda := r.2 ++ .events :: r.1.agenda }
  | .events => .next s.events
  | .newStep => .next s.newStep

/-- The tasks of the next cycle, or of the boundary of the step. Phases go through all tiles in turn: front ends, L, C, S with the window, ME, XE
(R75, R223), the completions of the engines, the end of the cycle, and what has become of the part of a tile that has halted. Of the words of
the Sorrels those that reset a die come first, before the traps of the cycle, and the others last, after them (R10; where they stand beyond that is the
model's choice, assumption 4). -/
def State.plan (s : State) : List Task :=
  if !s.powered then []
  else if 128 ≤ s.dom.cyc then [.boundary]
  else
    let ks := s.busyTiles
    let ds := s.dies.map Prod.fst
    (ds.map fun d => .fetch true d true) ++ .timers :: (ks.map fun k => .trial k) ++ (ks.flatMap fun k => [.fetch false k false, .fetch false k true])
      ++ ([1, 2, 3].flatMap fun q => ks.map fun k => .issue k q) ++ (ks.map fun k => .window k)
      ++ (ks.map fun k => .engine k false) ++ (ks.map fun k => .engine k true) ++ (ks.map fun k => .engineEnds k) ++ .arrive
      :: (ks.map fun k => .endTile k) ++ (ks.map fun k => .dev (.partEnd k)) ++ [.endCycle]
      ++ (ds.flatMap fun d => [.fetch true d false, .endSorrel d])

/-! ### Outside agents -/

/-- The events of the table that an agent outside the model's own clock brings about. -/
def outsideEvent (i : Instr) : Bool :=
  match i with
  | .powerOn | .supplyInRegulation _ | .supplyLost _ | .dieResetRelease _ | .dieMeasurementDone _ _ _ | .dieAdmissionCheckEnd _ _
  | .dieWatchdog _ | .telemetryFlashWrite | .snap _ | .telemetryUnsupportedAccess _ _ _
  | .mctpSnapshotRequest | .mctpTelemetryRead _ _ | .peerCommandArrival _ _ _ _ | .stepPeriodChange _ | .dramUe _ | .linkTrainingEnd _ _
  | .linkAttestEnd _ _ _ | .linkErrorBurst _ | .flitReceive _ _ _ _ _ _ | .rolloverStart _ _ | .rolloverAck _ _ | .rolloverEnd _ _
  | .domainStallRaise _ | .domainStallDrop _ | .hostLinkRetrain | .ideKeyRefresh | .hostErrorCompletion _ _ _ | .ideKm _ _
  | .tdispLock _ | .tdispRun _ | .tdispError _ | .flr _ | .doorbell _ _ _ | .queueEnable _ _ | .queueDisable _ _ | .swcmd _ _ _
  | .unbar _ | .glimWrite _ _ | .contextBind _ | .contextUnbind _ | .scrub _ | .ctxenSet _ | .ctxenClear _ | .plheadWrite _ _
  | .s2go _ | .guarWrite _ _ | .burstWrite _ _ | .partitionWrite _ _ _ | .powerCapWrite _ | .peerEntryWrite _ _ _ | .peeridWrite _ _
  | .ksvf _ _ | .keySlotLoad _ _ _ | .keySlotClr _ _ _ | .registerWrite _ _ | .remoteInvalidation _ _ _ _ _
  | .peerFaultAnswer _ _ _ _ | .peerPairConfirm _ _ => true
  | _ => false

/-- The cycles until an input. -/
def Input.delay (i : Input) : Nat :=
  match i with
  | .event d _ | .hostStore d _ _ _ | .hostRead d _ _ _ | .winRead d _ _ | .dramCe d _ | .flashBank d _ _ _ _ | .flitSend d _ _ _
  | .flitAck d _ _ _ _ _ | .flitLast d _ _ _ | .driverStore d _ _ | .peerDomain d _ _ _ _ | .peerRegion d _ _ _
  | .peerStore d _ _ _ _ _ _ _ _ _ | .peerSignal d _ | .peerArrival d _ _ _ _ _ _ _ | .peerClose d _ _ _ _ | .peerOrigin d _ _ _
  | .peerOld d _ _ _ | .peerLost d _ _ _ | .peerAnswer d _ _ _ | .peerFault d _ _ | .peerInvalidated d _ _ | .peerUnpair d _ _ => d

/-- One cycle less. -/
def Input.sooner (i : Input) : Input :=
  match i with
  | .event d x => .event (d - 1) x
  | .hostStore d p a b => .hostStore (d - 1) p a b
  | .hostRead d r f t => .hostRead (d - 1) r f t
  | .winRead d a b => .winRead (d - 1) a b
  | .dramCe d a => .dramCe (d - 1) a
  | .flashBank d z a b c => .flashBank (d - 1) z a b c
  | .flitSend d i x p => .flitSend (d - 1) i x p
  | .flitAck d i x g n r => .flitAck (d - 1) i x g n r
  | .flitLast d i x n => .flitLast (d - 1) i x n
  | .driverStore d a b => .driverStore (d - 1) a b
  | .peerDomain d i m x n => .peerDomain (d - 1) i m x n
  | .peerRegion d i c w => .peerRegion (d - 1) i c w
  | .peerStore d p c x o a b g t n => .peerStore (d - 1) p c x o a b g t n
  | .peerSignal d x => .peerSignal (d - 1) x
  | .peerArrival d p c x o f n a => .peerArrival (d - 1) p c x o f n a
  | .peerClose d p l n z => .peerClose (d - 1) p l n z
  | .peerOrigin d k q x => .peerOrigin (d - 1) k q x
  | .peerOld d k q v => .peerOld (d - 1) k q v
  | .peerAnswer d k c p => .peerAnswer (d - 1) k c p
  | .peerLost d k q i => .peerLost (d - 1) k q i
  | .peerFault d k n => .peerFault (d - 1) k n
  | .peerInvalidated d i k => .peerInvalidated (d - 1) i k
  | .peerUnpair d c e => .peerUnpair (d - 1) c e

/-- What an outside agent does. -/
def Input.apply (i : Input) (s : State) : Host.Outcome State Fault Refusal :=
  match i with
  | .event _ x => if outsideEvent x then exec x s.asDev else .next s
  | .hostStore _ p a b => .next (s.hostWr (hostAt p a) b)
  | .hostRead _ r f t => .next (s.send "read" [s.hostRead f t r])
  | .winRead _ a w => .next (s.winRead a w)
  | .dramCe _ a => .next (s.dramCe a)
  | .flashBank _ z a b c => .next (s.flashBank z a b c)
  | .flitSend _ i d p => .next (s.flitSend i d p)
  | .flitAck _ i d g n r => .next (s.flitAck i d g n r)
  | .flitLast _ i d n => .next (s.flitLast i d n)
  | .driverStore _ a b => if allFrames * frameB < a + b.length then .fault .noSuchFrame else .next (s.devWr a b)
  | .peerDomain _ i m x n => .next (s.peerTells i m x n)
  | .peerRegion _ i c w => .next (s.peerRegion i c w)
  | .peerStore _ p c x o a b g t n => .next (s.peerStore p c x o a b g t n)
  | .peerSignal _ x => .next (s.peerSignal x)
  | .peerArrival _ p c x o f n a => .next (s.peerArrival p c x o f n a)
  | .peerClose _ p l n z => .next (s.peerClose p l n z)
  | .peerOrigin _ k q x => .next (s.peerOrigin k q x)
  | .peerOld _ k q v => .next (s.peerOld k q v)
  | .peerAnswer _ k c p => .next (s.peerSigAnswer k c p)
  | .peerLost _ k q i => .next (s.peerCmdLost k q i)
  | .peerFault _ k n => .next (s.peerFaulted k n)
  | .peerInvalidated _ i k => .next (s.peerGone i k)
  | .peerUnpair _ c e => .next (s.unpair c e)

/-- The priority of an event in R10: 1 resets, 2 faults and traps, 3 link and power events, 4 commands and packets. -/
def eventRank (i : Instr) : Nat :=
  match i with
  | .powerOn | .dieWatchdog _ | .flr _ => 1
  | .dramUe _ | .hostErrorCompletion _ _ _ | .tdispError _ | .peerFaultAnswer _ _ _ _ => 2
  | .supplyInRegulation _ | .supplyLost _ | .dieResetRelease _ | .dieMeasurementDone _ _ _ | .dieAdmissionCheckEnd _ _
  | .stepPeriodChange _ | .linkTrainingEnd _ _ | .linkAttestEnd _ _ _ | .linkErrorBurst _ | .flitReceive _ _ _ _ _ _ | .rolloverStart _ _
  | .rolloverAck _ _ | .rolloverEnd _ _ | .domainStallRaise _ | .domainStallDrop _ | .hostLinkRetrain | .ideKeyRefresh => 3
  | _ => 4

/-- A command or signal of tile k that arrives at its peer traps there: no region of the context runs, or the tile it names is not in it (12_copy.md
Table 112). -/
def State.arrivalTraps (s : State) (k id : Nat) (running : Bool) (ntiles : Nat) : Bool :=
  let beyond := fun w1 => xDR w1 && ntiles ≤ xDTX w1
  let w := (((s.tile k).xrun.filter fun c => c.seq == id && c.peer && c.park == 3).map XeCmd.w1)
    ++ (s.incs.filter fun x => x.tile == k && x.seq == id && x.sent).filterMap fun x => x.peer.map fun p => p.2.1
  w.any fun w1 => !running || beyond w1

/-- The priority of an input: what raises a trap or a fault comes with those (R10). -/
def Input.rank (s : State) (i : Input) : Nat :=
  match i with
  | .event _ (.peerCommandArrival k id run n) => if s.arrivalTraps k id run n then 2 else 4
  | .event _ x => eventRank x
  | .dramCe _ _ | .peerFault _ _ _ | .peerLost _ _ _ _ => 2
  | .peerAnswer _ _ code _ => if code = 0 then 4 else 2
  | .peerDomain _ _ _ _ _ | .flitSend _ _ _ _ | .flitAck _ _ _ _ _ _ | .flitLast _ _ _ _ | .peerRegion _ _ _ _ | .peerUnpair _ _ _ => 3
  | _ => 4

/-- Of the inputs whose time has come together, the one to apply first: the highest priority, and of one priority the earliest (R10). -/
def Input.first (s : State) (i : Input) (l : List Input) : Input :=
  (l.takeWhile fun x => x.delay == 0).foldl (fun b x => if x.rank s < b.rank s then x else b) i

/-- Between two cycles: an input whose time has come, or the next cycle. -/
def State.between (s : State) : Host.Outcome State Fault Refusal :=
  match s.inputs with
  | [] => .next { s with agenda := s.plan }
  | i :: l =>
    if i.delay = 0 then (i.first s l).apply { s with inputs := (i :: l).erase (i.first s l) }
    else .next { s with inputs := i.sooner :: l, agenda := s.plan }

/-! ### A single word to run -/

/-- A one-tile kernel image whose one stream is the words given (13_kernel.md R290): the stream index names 1,024 bytes of code. -/
def oneTileImage (bs : List Byte) : Memory :=
  let m := mwrite [] 6 [1, 1]
  let m := mwrite m 0x28 (leBytes 4 0x200 ++ leBytes 4 16 ++ leBytes 4 0x400 ++ leBytes 4 1024)
  mwrite (mwrite m 0x204 (leBytes 4 1024)) 0x400 bs

/-- Tile 0 as the one running tile of region 1, whose stream holds the words, at the start of the current cycle. -/
def State.oneTile (s : State) (w0 w1 : Nat) (f : Tile → Tile) : State :=
  let s := s.setRegion 1 { s.region 1 with state := 3, w := 1, h := 1, mid := true, image := oneTileImage (leBytes 8 w0 ++ leBytes 8 w1) }
  s.setTile 0 (f { s.tile 0 with rgn := 1, live := true, cyc := s.dom.cyc })

/-- A front-end word at the PC of tile 0, to be handled next. -/
def State.placeFe (s : State) (w0 w1 : Nat) : State :=
  { s.oneTile w0 w1 id with agenda := [.fetch false 0 false] }

/-- A queued word, dispatched in an earlier cycle, at the head of its queue with the tokens it pops, to be issued next. -/
def State.placeQueued (s : State) (i : Instr) (w0 w1 : Nat) : State :=
  let q := queueOf w0
  let h := hdrOf w0
  let put := fun (t : Tile) =>
    let t := if h.popl then { t with tok := tset t.tok (popLeft q) 1 } else t
    let t := if h.popr then { t with tok := tset t.tok (popRight q) 1 } else t
    t.setQueue q [{ instr := i, pc := 0, w0 := w0, w1 := w1, seq := 0, disp := 0, pred := true, snap := t.core }]
  { s.oneTile w0 w1 put with agenda := [.issue 0 q] }

/-- A supervisor word at the PC of the Sorrel of die 0, which runs. -/
def State.placeSv (s : State) (w0 : Nat) : State :=
  let D := s.die 0
  { s.setDie 0 { D with state := 5, sram := mwrite D.sram D.sorrel.pc (leBytes 8 w0) } with
    agenda := [.fetch true 0 (match decode w0 0 with
      | .ok i => resetsDie i
      | .error _ => false)] }

/-- The word placed where its kind is run from. -/
def State.placeWord (s : State) (w : Nat) : State :=
  let w0 := w % 2 ^ 64
  let w1 := w / 2 ^ 64 % 2 ^ 64
  if clsOf w0 = 7 ∧ 2 ≤ opcOf w0 then s.placeSv w0
  else match decode w0 w1 with
    | .ok i => if queueOf w0 = 0 then s.placeFe w0 w1 else s.placeQueued i w0 w1
    | .error _ => s.placeFe w0 w1

end Sys2Proof.Machine
end

