-- ==== Sys2Proof/Machine/Step.lean ====
section
/-! DEFINITION. One step of the package: the next task of the cycle under way, or, between cycles, an input whose time has come or the plan
of the next cycle. -/

namespace Sys2Proof.Machine

/-- One step. -/
def step (s : State) : Host.Outcome State Fault Refusal :=
  match s.agenda with
  | t :: l => runTask t { s with agenda := l }
  | [] => s.between

/-- `s` with one instruction placed so that the next step runs it (assumption 8). A word of 64 bits takes zeros as its word 1. -/
def State.withFetchWord (s : State) (nbits w : Nat) : State := s.placeWord (w % 2 ^ nbits)

end Sys2Proof.Machine
end

