-- ==== Sys2Proof/Safety.lean ====
section
/-! DEFINITION. The terms in which statements about runs are made: when a word goes, where it leaves its agent, what counts as canonical
memory, and what a word of one tile leaves alone. -/

namespace Sys2Proof.Machine

/-- What executing an instruction or a step answers. -/
abbrev Out := Host.Outcome State Fault Refusal

/-- The front-end word under predicate p has its effect: the predicate is true and not poisoned (03_tile.md R59). -/
def State.goes (s : State) (p : BitVec 4) : Prop := s.core.qv p.toNat = (true, false)

/-- The agent's registers are `c` and the next word follows. -/
def State.after (s : State) (c : Core) : State := (s.setCore c).setPc (s.cur.pc + 8)

/-- The queued word being executed is one of tile k, taken under a true predicate (R58, R59). -/
def State.issues (s : State) (k : Nat) : Prop := s.cur.agent = .tile k ∧ s.cur.pred = true

/-- The word being executed is one of tile k. -/
def State.byTile (s : State) (k : Nat) : Prop := s.cur.agent = .tile k
/-- The word being executed is one of the Sorrel of die d. -/
def State.bySorrel (s : State) (d : Nat) : Prop := s.cur.agent = .sorrel d

/-- Every memory of the package is in its canonical form. -/
def State.canonical (s : State) : Prop :=
  Memory.wf s.dram = true ∧ Memory.wf s.hostMem = true
    ∧ (∀ k, Memory.wf (s.tile k).scr = true ∧ Memory.wf (s.tile k).slot0 = true ∧ Memory.wf (s.tile k).slot1 = true)
    ∧ (∀ c, Memory.wf (s.pool c).mem = true) ∧ (∀ d, Memory.wf (s.die d).sram = true) ∧ ∀ r, Memory.wf (s.region r).image = true

/-- Every byte of every memory reads the same in two states (the frame of a word that stores nothing). -/
def sameMemory (s t : State) : Prop :=
  (∀ a, mget t.dram a = mget s.dram a) ∧ (∀ k a, mget (t.tile k).scr a = mget (s.tile k).scr a)
    ∧ (∀ c a, mget (t.pool c).mem a = mget (s.pool c).mem a) ∧ (∀ a, mget t.hostMem a = mget s.hostMem a)
    ∧ ∀ d a, mget (t.die d).sram a = mget (s.die d).sram a

/-- Nothing outside tile k differs. -/
def onlyTile (k : Nat) (s t : State) : Prop :=
  { t with tiles := s.tiles } = s ∧ ∀ j, j ≠ k → t.tile j = s.tile j

/-- Nothing outside tile k differs, and neither do the tile's front end, its vector registers, its lane masks and its scratchpad. -/
def State.quiet (s : State) (k : Nat) (t : State) : Prop :=
  onlyTile k s t ∧ (t.tile k).core = (s.tile k).core ∧ (t.tile k).vreg = (s.tile k).vreg ∧ (t.tile k).j = (s.tile k).j
    ∧ (t.tile k).scr = (s.tile k).scr

/-- A run without a stop: the step answers a next state. -/
def Continues (s : State) : Prop := ∃ t, step s = .next t

/-- The address of R112: the word's address plus 8 × sext(IMM32), modulo 2^64. -/
def State.target (s : State) (imm : BitVec 32) : Nat := (((s.cur.pc : Int) + 8 * imm.toInt) % 2 ^ 64).toNat

/-- The stage predicates that the loop engine writes for a pass of level `l`, and no other predicate (R80). -/
def Core.stages (c c' : Core) (l : Loop) : Prop :=
  ∀ m, c'.qv m = if 2 ≤ l.n ∧ 8 ≤ m ∧ m < 8 + l.n then (decide (l.f + (m - 8) ≤ l.p ∧ l.p < l.x + (m - 8)), false) else c.qv m

/-- What the loop words of level L leave: every register but the predicates, and every other level with its pending stage count (R118). -/
def Core.loopFrame (c c' : Core) (L : Nat) : Prop :=
  { c' with q := c.q, loops := c.loops, pend := c.pend } = c ∧ ∀ k, k ≠ L → c'.loop k = c.loop k ∧ c'.pendOf k = c.pendOf k

/-- The fields in which two capabilities agree but for the cursor. -/
def Cap.sameBut (x y : Cap) : Prop :=
  x.oid = y.oid ∧ x.rights = y.rights ∧ x.exp = y.exp ∧ x.lo = y.lo ∧ x.hi = y.hi ∧ x.tag = y.tag

/-- The state after a queued word of the executing tile that issues with a result: its tokens are taken, and its result waits to be
written lat − 1 cycles later. -/
def State.issued (s : State) (h : Hdr) (lat : Nat) (dst : List Dest) (y : Option (Nat × Nat)) : State :=
  putDue h (issueHead h s) lat dst y none

/-- Lane n of a word with lane mask field `m` is active (R83, R139). -/
def State.laneOn (s : State) (m : BitVec 3) (n : Nat) : Prop := n < 64 ∧ activeL (s.myTile.mask m.toNat) n = true

/-- A decoded element that starts no poison: a number or an infinity. -/
def FV.ordinary : FV → Bool
  | .fin _ _ _ => true
  | .inf _ => true
  | _ => false

/-- The word issues with a result of the lanes of its mask in `VD` and `y` of its pipe. -/
def State.gives (s : State) (i : Instr) (h : Hdr) (f : FmtV) (lat y : Nat) (v : Vec) : Prop :=
  exec i s = .next (s.issued h lat [.vec f.vd.toNat v (s.myTile.mask f.mask.toNat)] (some (y, f.vd.toNat)))

/-- A floating word whose sources start no poison and whose exact results are not invalid writes the rounded results (R143). -/
def State.rounds (s : State) (i : Instr) (h : Hdr) (f : FmtV) (lat : Nat) (srcs : Nat → Nat → List FV) (ex : Nat → Nat → Ex) : Prop :=
  (∀ n e, s.laneOn f.mask n → e < elems f.ty.toNat → (∀ x ∈ srcs n e, x.ordinary = true) ∧ ex n e ≠ .invalid) →
    ∃ v, s.gives i h f lat 1 v
      ∧ ∀ n e, s.laneOn f.mask n → e < elems f.ty.toNat →
          elemBits f.ty.toNat (v.at n).bits e
            = (roundEx (fmtOfTy f.ty.toNat) (s.modeAt f.rm n e) (ex n e)).1 % 2 ^ elemW f.ty.toNat

/-- An integer word (R147): elements modulo 2^w without poison, and a lane with a tagged source poison with the smallest id. -/
def State.integers (s : State) (i : Instr) (h : Hdr) (f : FmtV) (srcs : Nat → List Lane) (el : Nat → Nat → Int) : Prop :=
  ∃ v, s.gives i h f 2 0 v
    ∧ ∀ n, s.laneOn f.mask n →
        (((srcs n).all fun l => !l.tag) = true → (v.at n).tag = false
          ∧ ∀ e, e < elems f.ty.toNat → (elemBits f.ty.toNat (v.at n).bits e : Int) = el n e % 2 ^ elemW f.ty.toNat)
        ∧ (((srcs n).all fun l => !l.tag) = false → v.at n = Lane.ipoison (poisonMerge (((srcs n).filter Lane.tag).map Lane.id)))

/-- A word that puts lane `g n` in each active lane n, consuming nothing (R157). -/
def State.moves (s : State) (i : Instr) (h : Hdr) (f : FmtV) (g : Nat → Lane) : Prop :=
  ∃ v, s.gives i h f 2 0 v ∧ ∀ n, s.laneOn f.mask n → v.at n = g n

/-- Bytes of tile k's scratchpad outside a list of places of w bytes read as before, and so does every other memory. -/
def storesScr (k w : Nat) (l : List Nat) (s t : State) : Prop :=
  (∀ a, (∀ x ∈ l, a < x ∨ x + w ≤ a) → mget (t.tile k).scr a = mget (s.tile k).scr a)
    ∧ (∀ j, j ≠ k → (t.tile j).scr = (s.tile j).scr) ∧ (∀ j, (t.tile j).slot0 = (s.tile j).slot0 ∧ (t.tile j).slot1 = (s.tile j).slot1)
    ∧ (∀ c, t.pool c = s.pool c) ∧ t.dram = s.dram ∧ t.hostMem = s.hostMem ∧ (∀ d, (t.die d).sram = (s.die d).sram)
    ∧ ∀ r, (t.region r).image = (s.region r).image

/-- Bytes of a memory outside a list of places of w bytes read as before, and so does every other memory. -/
def storesAt (sp : Space) (w : Nat) (l : List Nat) (s t : State) : Prop :=
  (∀ a, (∀ x ∈ l, a < x ∨ x + w ≤ a) → t.rd sp a 1 = s.rd sp a 1) ∧ (∀ q a n, q ≠ sp → t.rd q a n = s.rd q a n)
    ∧ (∀ j, (t.tile j).slot0 = (s.tile j).slot0 ∧ (t.tile j).slot1 = (s.tile j).slot1)
    ∧ t.hostMem = s.hostMem ∧ (∀ d, (t.die d).sram = (s.die d).sram) ∧ ∀ r, (t.region r).image = (s.region r).image

/-- The capability tags of a memory after stores of w bytes at a list of places: `b` in the granules they touch, and as before elsewhere (R181, R182). -/
def tagsAt (sp : Space) (w : Nat) (l : List Nat) (b : Bool) (s t : State) : Prop :=
  ∀ a, ((∃ x ∈ l, x / 16 ≤ a / 16 ∧ a / 16 ≤ (x + w - 1) / 16) → t.tagAt sp a = b)
    ∧ ((∀ x ∈ l, a / 16 < x / 16 ∨ (x + w - 1) / 16 < a / 16) → t.tagAt sp a = s.tagAt sp a)

/-- The parts of an access of tile k lie each in one range of DRAM, at `adr`, through the cache of the tile's die, and no link on the way is down. -/
def State.reaches (s : State) (k oid : Nat) (parts : List Part) (adr : Part → Nat) : Prop :=
  (∀ p ∈ parts, s.phys (dieOfTile k) (s.ctxNo k) oid p.off p.n = .ok [(p.off, adr p, p.n)])
    ∧ s.pathDown (dieOfTile k) (parts.map fun p => (p.off, adr p, p.n)) = none

/-! ### Poison and its origins (02_numbers.md R44 to R50) -/

/-- The origins that consuming an element makes: a foreign NaN and a signalling NaN one each (R47). -/
def FV.takes : FV → List Nat
  | .quiet => [okFOREIGN]
  | .signalling => [okSNAN]
  | _ => []

/-- The sign of a number or an infinity. -/
def FV.isNeg : FV → Bool
  | .fin n _ _ => n
  | .inf n => n
  | _ => false

/-- A finite value times 2^k is at most `maxf` in magnitude. -/
def FV.under (maxf : Nat) (k : Int) : FV → Bool
  | .fin _ m e => m * 2 ^ (e + k).toNat ≤ maxf * 2 ^ (-(e + k)).toNat
  | _ => false

/-- The origins an element makes: those of its sources in operand order, or when all start no poison its own (R47, R48, R50). -/
def eltKinds (xs : List FV) (own : Option Nat) : List Nat := if xs.all FV.ordinary then own.toList else xs.flatMap FV.takes

/-- The executing word makes origins of these kinds, in order. -/
def State.taking (s : State) (kinds : List Nat) : State := kinds.foldl (fun s k => (s.newOrigin s.orgC k).1) s

/-- The ids of the sources of an element, in operand order: of poison, or of the origins it starts. -/
def State.idsOf (s : State) : List FV → List Nat
  | [] => []
  | .poison id :: l => id :: s.idsOf l
  | x :: l => x.takes.map (fun k => (s.newOrigin s.orgC k).2) ++ (s.taking x.takes).idsOf l

/-- The ids that an element's result is poison with; none when it is not. -/
def State.eltIds (s : State) (xs : List FV) (own : Option Nat) : List Nat :=
  if xs.all FV.ordinary then own.toList.map fun k => (s.newOrigin s.orgC k).2 else s.idsOf xs

/-- The state in which element e of lane n is reached: every element before it, of w in each active lane, has made its origins (R45, R141). -/
def State.upTo (s : State) (act : BitVec 64) (w : Nat) (kinds : Nat → Nat → List Nat) (n e : Nat) : State :=
  s.taking (((List.range n).filter (activeL act)).flatMap (fun i => (List.range w).flatMap (kinds i)) ++ (List.range e).flatMap (kinds n))

/-- A result lane of a type holds elements o, o + 1 and on: a floating lane each element's value or poison, and its tag when one is poison; any other
lane their values, or when one is poison the smallest id (R46, R140, R153). -/
def Lane.holds (l : Lane) (ty o : Nat) (ids : Nat → List Nat) (val : Nat → Nat) : Prop :=
  let bad := (List.range (elems ty)).flatMap fun e => ids (o + e)
  let plain := fun e => elemBits ty l.bits e = val (o + e) % 2 ^ elemW ty
  if ty < 5 then (l.tag = true ↔ bad ≠ []) ∧ ∀ e, e < elems ty →
      (ids (o + e) = [] → plain e)
      ∧ (ids (o + e) ≠ [] → elemBits ty l.bits e = if ty = 0 then poison32 (poisonMerge (ids (o + e))) else (fmtOfTy ty).marker % 2 ^ elemW ty)
  else (bad = [] → l.tag = false ∧ ∀ e, e < elems ty → plain e) ∧ (bad ≠ [] → l = Lane.ipoison (poisonMerge bad))

/-- A word issues with k result registers of a type, the elements of each active lane counted through them; the state it issues from has the origins of
all of its elements. -/
def State.grouped (s : State) (i : Instr) (h : Hdr) (lat vd k ty w : Nat) (act : BitVec 64) (kinds ids : Nat → Nat → List Nat)
    (val : Nat → Nat → Nat) : Prop :=
  ∃ vs : Nat → Vec,
    exec i s = .next ((s.upTo act w kinds 64 0).issued h lat ((List.range k).map fun j => .vec (vd + j) (vs j) act) (some (1, vd + k - 1)))
      ∧ ∀ n j, n < 64 → activeL act n = true → j < k → ((vs j).at n).holds ty (j * elems ty) (ids n) (val n)

/-- A floating word whole (R47 to R50, R141): the sources of each element, the origin its result makes when they start no poison, and its value when
there is none either. -/
def State.consumes (s : State) (i : Instr) (h : Hdr) (lat vd k ty w : Nat) (act : BitVec 64) (srcs : Nat → Nat → List FV)
    (own : Nat → Nat → Option Nat) (val : Nat → Nat → Nat) : Prop :=
  let kinds := fun n e => eltKinds (srcs n e) (own n e)
  s.grouped i h lat vd k ty w act kinds (fun n e => (s.upTo act w kinds n e).eltIds (srcs n e) (own n e)) val

/-- The origin of an exact result that is invalid (R48). -/
def Ex.own : Ex → Option Nat
  | .invalid => some okINV
  | _ => none

/-- A scale lane as a source (R166). -/
def scaleFV (l : Lane) : FV :=
  match scaleOf l with
  | .code _ => .fin false 0 0
  | .pois id => .poison id
  | .foreign => .quiet

/-- The rounded sum of two FP32 values, none when it is invalid. -/
def addR (md : Mode) (x y : Nat) : Option Nat :=
  match fAdd md (decodeF fFP32 x) (decodeF fFP32 y) with
  | .invalid => none
  | e => some (roundEx fFP32 md e).1

/-- The tree of R52 over the lanes from 2^n i on. -/
def redTree (g : Nat → Nat → Option Nat) (x : Nat → Nat) : Nat → Nat → Option Nat
  | 0, i => some (x i)
  | n + 1, i => (redTree g x n (2 * i)).bind fun a => (redTree g x n (2 * i + 1)).bind fun b => g a b

/-- The levels of R164. -/
def scanTree (g : Nat → Nat → Option Nat) : List Nat → (Nat → Option Nat) → Nat → Option Nat
  | [], x, i => x i
  | d :: l, x, i => scanTree g l (fun i => if i < d then x i else (x (i - d)).bind fun a => (x i).bind fun b => g a b) i

/-- The value of a reduction over the lanes in J that starts no poison (R160 to R162, Tables 69 and 70; `FN` as in Table 69). -/
def reduced (fn ty : Nat) (J : List Nat) (x : Nat → BitVec 32) (r : BitVec 32) : Prop :=
  let bits := fun (p : Nat → Prop) => ∀ b, b < 32 → (r.getLsbD b = true ↔ p b)
  (fn = 0 → r = BitVec.ofNat 32 (J.map fun j => (x j).toNat).sum)
    ∧ (fn = 1 → (J = [] → r.toNat = if ty = 0 then 0x7F800000 else if ty = 6 then 0x7FFFFFFF else 0xFFFFFFFF)
        ∧ (J ≠ [] → (∃ j ∈ J, r = x j) ∧ ∀ j ∈ J, tyLess ty (x j).toNat r.toNat = false))
    ∧ (fn = 2 → (J = [] → r.toNat = if ty = 0 then 0xFF800000 else if ty = 6 then 0x80000000 else 0)
        ∧ (J ≠ [] → (∃ j ∈ J, r = x j) ∧ ∀ j ∈ J, tyLess ty r.toNat (x j).toNat = false))
    ∧ (fn = 3 → bits fun b => ∀ j ∈ J, (x j).getLsbD b = true) ∧ (fn = 4 → bits fun b => ∃ j ∈ J, (x j).getLsbD b = true)
    ∧ (5 ≤ fn → bits fun b => (J.filter fun j => (x j).getLsbD b).length % 2 = 1)

/-- A lane of poison, as `vred`, `vredx`, `vscan` and `vpsn` write it (R46). -/
def poisLane (ty id : Nat) : Lane := if ty = 0 then ⟨BitVec.ofNat 32 (poison32 id), true⟩ else Lane.ipoison id

/-! ### Engines -/

/-- The accumulator of a tile and its cells have 128 rows of 128 (11_matrix.md R239). -/
def Tile.meWhole (t : Tile) : Prop :=
  ∀ i, i < 128 → (t.accRow i).length = 128 ∧ (tget zeroRow t.cell i).length = 128 ∧ (tget noIds t.cellp i).length = 128

/-- Cell (i, j): its sum, or its FP32 bits, and its id when it is poisoned. -/
def Tile.cellAt (t : Tile) (i j : Nat) : Int × Option Nat := ((tget zeroRow t.cell i).getD j 0, (tget noIds t.cellp i).getD j none)

/-- The exact value of a cell that is not poisoned, by the class and the scale codes of its key (R53). -/
def cellExact (cls sa sb : Nat) (v : Int) : FV :=
  if cls = 2 then decodeF fFP32 (v % 2 ^ 32).toNat else .fin (v < 0) v.natAbs ((if cls = 0 then -2 else -18) + (sa : Int) + sb - 254)

/-- The exact sum of an accumulator element and a value, and the element that takes the value in: one rounding to nearest, ties to even (R248). -/
def promoteEx (x : BitVec 32) (v : FV) : Ex := fAdd ⟨0, 0⟩ (decodeF fFP32 x.toNat) v
def promoted (x : BitVec 32) (v : FV) : BitVec 32 := BitVec.ofNat 32 (roundEx fFP32 ⟨0, 0⟩ (promoteEx x v)).1
/-- No poison starts there. -/
def promotes (x : BitVec 32) (v : FV) : Prop := (decodeF fFP32 x.toNat).ordinary = true ∧ v.ordinary = true ∧ promoteEx x v ≠ .invalid

/-- The threshold of an engine command's wait, in word 0. -/
def waitTh (w0 : Nat) : Nat := bitsN w0 32 8

/-- Command c is the only one of tile k's matrix engine and may start but for its wait, on physical semaphore p when it has one (R249). -/
def State.meAlone (s : State) (k p : Nat) (c : MeCmd) : Prop :=
  let t := s.tile k
  t.meq = [c] ∧ c.started = false ∧ c.finished = false ∧ c.park = 0 ∧ c.row = 0 ∧ c.ue = [] ∧ t.meDead = false ∧ t.meStarted = false
    ∧ s.engineOk k false = true ∧ t.storesBefore (if waitTh c.w0 = 0 then c.ord else max c.ord (tget 0 t.semOrd p)) = false
    ∧ (waitTh c.w0 ≠ 0 → s.semPhys k (bitsN c.w0 40 8) = some p)

/-- The command has taken its threshold, started and done all its work in state u. -/
def State.meRuns (s : State) (k p : Nat) (c : MeCmd) (u : State) : Prop :=
  exec (.meCommandStart k) s = .next u ∧ (u.tile k).count p = (s.tile k).count p - waitTh c.w0 ∧ (u.tile k).meStarted = true
    ∧ (u.tile k).core = (s.tile k).core ∧ ∃ x, (u.tile k).meq = [x] ∧ x.finished = true ∧ x.instr = c.instr

/-- Rows 0 to 127 of bank b from its step klo on, kn steps within one block, are the integers `v`, and `codes` are its scale codes (R246). -/
def Tile.panel (t : Tile) (fmt b klo kn : Nat) (v : Nat → Nat → Int) (codes : List Nat) : Prop :=
  klo / 32 = (klo + kn - 1) / 32 ∧ codes = (List.range 128).map (fun r => scaleCode t b r (klo / 32))
    ∧ ∀ r, r < 128 → t.sideOf b r (klo / 32) = none ∧ scaleCode t b r (klo / 32) ≠ 0xFF
        ∧ ∀ x, x < kn → rawElem fmt t.mag (t.bankRow b r) (klo + x) = .int (v r x)

/-! ### Sorrel's words -/

/-- A supervisor word of die d's Sorrel goes with its inputs unpoisoned: `sA` and the n registers from `sB` (R321). -/
def State.svReady (s : State) (d : Nat) (p : BitVec 4) (f : FmtZ) (n : Nat) : Prop :=
  s.bySorrel d ∧ s.goes p ∧ (s.core.s f.a.toNat).tag = false ∧ ∀ j, j < n → (s.core.s (f.b.toNat + j)).tag = false

/-- The state after a supervisor word that comes to u: its status stands in `sA`[1:0] and the next word follows. -/
def State.svDone (u : State) (a st : Nat) : State := (FRes.step (u.putStatus a st)).state

/-- A supervisor word comes to u with status st: nothing else differs from u. -/
def State.comes (s : State) (i : Instr) (f : FmtZ) (u : State) (st : Nat) : Prop := exec i s = .next (u.svDone f.a.toNat st)

/-- The value of a scalar register of the executing front end. -/
def State.reg (s : State) (n : Nat) : Nat := (s.core.s n).bits.toNat

end Sys2Proof.Machine
end

