-- ==== Sys2Proof/Certificates/Slice0/Obligations.lean ====
section
/-! DEFINITION. The statements about the model that are to be proved. Each docstring names the rule of the spec it formalises, or says that
it is derived. -/

open Sys2Proof Sys2Proof.Machine

/-! ### The whole machine: encoding, steps and frames -/

/-- R84 to R93, R101: every well-formed instruction that has words reads back from them, each operand at every value its encoding admits, and
its words fit in 64 bits. -/
def Obligations.DecodeReadsWhatEncodeWrites : Prop :=
  ∀ (i : Instr) (w0 w1 : Nat), words i = some (w0, w1) → i.wf = true → w0 < 2 ^ 64 ∧ w1 < 2 ^ 64 ∧ decode w0 w1 = .ok i

/-- Every step from a state whose memories are in their canonical form leads to such a state: scratchpads, shadow slots, pools, DRAM, the
Sorrels' SRAM, host memory and the images of the regions. -/
def Obligations.StepKeepsCanonicalMemory : Prop :=
  ∀ s t : State, s.canonical → step s = .next t → t.canonical

/-- R197: what the arrivals of a close leave does not depend on the order in which they came in: two orders of the same arrivals, with
distinct keys, come to the same state, at the close of a region of this package and at a close that a peer tells of its own. -/
def Obligations.ArrivalOrderDoesNotMatter : Prop :=
  ∀ (s : State) (l m : List Arrival), l.Perm m → (l.map fun a => (a.lseq, a.tix, a.seq, a.elem)).Nodup →
    (∀ r u, (∀ a ∈ l, a.port = none ∧ a.rgn = r ∧ a.due ≤ u) →
        ({ s with arrivals := l } : State).applyDue r u = ({ s with arrivals := m } : State).applyDue r u)
      ∧ ∀ p n u z, (∀ a ∈ l, a.port = some p ∧ a.lseq = n ∧ a.due ≤ u) →
        ({ s with arrivals := l } : State).peerClose p n u z = ({ s with arrivals := m } : State).peerClose p n u z

/-- R55, R58, R61, R84, R102: when the front end of a running tile takes its turn and the words at its PC decode to an instruction of its
own, the step is the instruction's meaning on the state that handles it; when they decode to a queued instruction and the queue has room,
the step puts that instruction in its queue; and when a queue's head may issue, the step is that head's meaning. Sorrel's front end runs
every word it decodes, one that resets a die in the first place of its cycle and any other in the last. The agenda of a cycle, those two places and the
order of inputs between cycles are the model's (assumptions 3 and 4). -/
def Obligations.StepRunsTheDecodedInstruction : Prop :=
  ∀ (s : State) (k q : Nat) (l : List Task) (i : Instr) (w0 w1 : Nat),
    let u := { s with agenda := l }
    let t := s.tile k
    let D := s.die k
    (s.agenda = .fetch false k false :: l → u.runs k = true → t.core.stepw = none → t.feOff = false → (s.region t.rgn).adj = [] →
        u.wordsAt (.tile k) t.core.pc = some (w0, w1) → decode w0 w1 = .ok i →
        (isTwoWord w0 = true → t.core.pc / 8 % 2 = 0) → t.core.trap.hnd = false →
        (clsOf w0 = 7 → opcOf w0 < 2 ∧ t.drained = true) →
          (queueOf w0 = 0 → step s = exec i (u.handle k w0 w1))
            ∧ (queueOf w0 ≠ 0 → (t.core.qv (hdrOf w0).pred.toNat).2 = false → (t.queue (queueOf w0)).length < 16 → fwdWait u t i = none →
                step s = .next (u.dispatch k i w0 w1)
                  ∧ ∃ e, ((u.dispatch k i w0 w1).tile k).queue (queueOf w0) = t.queue (queueOf w0) ++ [e] ∧ e.instr = i ∧ e.pc = t.core.pc
                    ∧ e.pred = (t.core.qv (hdrOf w0).pred.toNat).1 ∧ e.snap = t.core))
      ∧ (s.agenda = .issue k q :: l → u.runs k = true → t.canIssue q = true → ∀ e, (t.queue q).head? = some e →
          step s = exec e.instr (u.atEntry k q e))
      ∧ (s.agenda = .fetch true k false :: l → D.state = 5 → D.sorrel.halted = false → D.sorrel.hold = none → D.sorrel.win = [] →
          u.wordsAt (.sorrel k) D.sorrel.pc = some (w0, w1) → decode w0 w1 = .ok i →
          step s = if resetsDie i then .next u else exec i (u.atWord (.sorrel k) D.sorrel.pc w0 w1 0))
      ∧ (s.agenda = .fetch true k true :: l → D.state = 5 → D.sorrel.halted = false → D.sorrel.hold = none → D.sorrel.win = [] →
          u.wordsAt (.sorrel k) D.sorrel.pc = some (w0, w1) → decode w0 w1 = .ok i →
          step s = if resetsDie i then
              exec i (({ s with agenda := l.erase (.fetch true k false) } : State).atWord (.sorrel k) D.sorrel.pc w0 w1 0)
            else .next u)
      ∧ (s.agenda = [] → ∀ r, s.inputs = .event 0 i :: r → (∀ x ∈ r, x.delay = 0 → Input.rank s (.event 0 i) ≤ x.rank s) → outsideEvent i = true → step s = exec i ({ s with inputs := r } : State).asDev)

/-- Table 42, Table 67, Table 77, Table 96, Table 105, Table 113, Table 151, Table 159: words that the spec writes out decode to the
instructions it names, and the illegal ones are rejected. -/
def Obligations.DecodedWords : Prop :=
  decode 0x6159041800000000 0 = .ok (.ldv ⟨false, true, false, true, 9⟩ ⟨4, 3, 0, 0, 0, 0, 0⟩)
    ∧ decode 0x61000418A1800100 0 = .ok (.ldv ⟨false, false, false, false, 0⟩ ⟨4, 3, 5, 0, 3, 64, 0⟩)
    ∧ decode 0x4000080442080003 0 = .ok (.vfma ⟨false, false, false, false, 0⟩ ⟨8, 4, 0x42, 8, 0, 0, 0, 0, 3⟩)
    ∧ decode 0x21005030FFFFFFFF 0 = .ok (.addi 0 ⟨20, 3, 0, 0xFFFFFFFF⟩)
    ∧ decode 0x4A001408001C0000 0 = .ok (.vcvt ⟨false, false, false, false, 0⟩ ⟨20, 8, 0, 3, true, 0, 0, 0, 0, 0, 0⟩)
    ∧ decode 0x81000810C3800000 0 = .ok (.stv ⟨false, false, false, false, 0⟩ ⟨8, 2, 6, 0, 7, 0, 0⟩)
    ∧ decode 0x88000404A0000000 0 = .ok (.fenr ⟨false, false, false, false, 0⟩ ⟨0, 2, 0, 37, 0⟩)
    ∧ decode 0xC719050000000000 0 = .ok (.barw ⟨false, false, false, true, 9⟩ ⟨0, 5, 0, 0, 0, 0⟩)
    ∧ decode 0xB500000000000021 4 = .ok (.mxst ⟨false, false, false, false, 0⟩ ⟨0, 0, 0, 0, 0x21, 4⟩)
    ∧ decode 0xD00000000D010000 0x8000000000152A84 = .ok (.xcp ⟨false, false, false, false, 0⟩ ⟨0, 0, 13, 1, 0, 0x8000000000152A84⟩)
    ∧ decode 0xE003000000000001 0 = .ok (.trap 3 ⟨0, 0, 0, 1⟩) ∧ decode 0xED00500000000006 0 = .ok (.lnkcDrst 0 ⟨20, 0, 0, 6⟩)
    ∧ decode 0x4000080442080603 0 = .error .field ∧ decode 0x0010000000000000 0 = .error .tokenBit
    ∧ decode 0x0C00000000000000 0 = .error .unassigned ∧ decode 0xB200000000000000 0x00000000002FE000 = .error .field

/-- R92, R101: a word has one meaning: whatever decodes is well formed and encodes to the word it came from, so no bit of a word is left unread. -/
def Obligations.EncodeWritesWhatDecodeReads : Prop :=
  ∀ (i : Instr) (w0 w1 : Nat), w0 < 2 ^ 64 → w1 < 2 ^ 64 → decode w0 w1 = .ok i →
    i.wf = true ∧ words i = some (w0, if isTwoWord w0 then w1 else 0)

/-- The reset values that the spec gives (01 R30 to 17 R378: a package without power, links Down, contexts Free, `CAPW` 4,500, m 64, `GLIM` 64,
`SLICE` 9, `QPRIO` 3, the pending stage counts 1, Sorrel's `TVEC` 0xFFFFFFFF); that every other register and every byte is zero is the model's choice (assumptions 1 and 2). -/
def Obligations.ResetValues : Prop :=
  let s := State.reset
  s.powered = false ∧ s.hub.capw = 4500 ∧ s.hub.stepm = 64 ∧ s.hub.lease = none ∧ s.hub.flash0 = none ∧ s.hub.flash1 = none
    ∧ (∀ d, (s.die d).state = 0) ∧ (∀ i, (s.link i).state = 0) ∧ (∀ c, (s.ctx c).state = 0 ∧ (s.ctx c).guilt = 0)
    ∧ (∀ c q, (s.queue c q).prio = 3 ∧ (s.queue c q).en = false ∧ (s.queue c q).half.qstate = 0)
    ∧ (∀ v, (s.fn v).glim = 64 ∧ (s.fn v).slice = 9 ∧ (s.fn v).tdisp = 0 ∧ (s.fn v).reports = []) ∧ (∀ r, (s.region r).state = 0)
    ∧ (∀ k l, (s.tile k).core.pendOf l = 1 ∧ ((s.tile k).core.loop l).active = false)
    ∧ (∀ k n, (s.tile k).core.s n = ⟨0, false⟩ ∧ ((s.tile k).core.qv n = if n = 0 then (true, false) else (false, false))
        ∧ (s.tile k).core.cap n = ⟨0, false⟩ ∧ (s.tile k).v n = [] ∧ (s.tile k).core.pc = 0)
    ∧ (∀ a, mget s.dram a = 0 ∧ ∀ k, mget (s.tile k).scr a = 0) ∧ s.canonical
    ∧ (∀ k, let t := s.tile k
        t.core.trap = ⟨0, 0, 0, 0, 0, 0, 0, []⟩ ∧ t.core.w = 0 ∧ t.core.lo = 0 ∧ t.core.halted = false ∧ t.core.stepw = none ∧ t.rgn = 0
          ∧ t.live = false ∧ t.step = 0 ∧ t.cyc = 0 ∧ (∀ n, t.mask n = if n = 0 then BitVec.allOnes 64 else 0)
          ∧ (∀ n, tget 0 t.h n = 0 ∧ tget 0 t.sem n = 0 ∧ tget 0 t.tok n = 0 ∧ tget 0 t.psnc n = 0 ∧ tget 0 t.wph n = 0 ∧ tget [] t.acc n = []
            ∧ tget [] t.bank n = [] ∧ tget 0 t.side n = 0 ∧ tget Cap.null t.core.rl n = ⟨0, false⟩)
          ∧ (t.celln, t.keyCls, t.gsize, t.gpos) = (0, 3, 1, 0) ∧ (t.lq, t.cq, t.sq) = ([], [], []) ∧ (t.due, t.dacc) = ([], [])
          ∧ (t.meq, t.xeq, t.xrun, t.xfifo) = ([], [], [], []) ∧ (∀ a, mget t.slot0 a = 0 ∧ mget t.slot1 a = 0) ∧ (t.scrTag, t.scrUE) = ([], []))
    ∧ (∀ d, let D := s.die d
        D.sorrel.trap = ⟨0, 0, 0, 0, 0, 0xFFFFFFFF, 0, []⟩ ∧ D.sorrel.pc = 0 ∧ D.sorrel.w = 0 ∧ D.sorrel.lo = 0 ∧ D.sorrel.halted = false
          ∧ (∀ n, D.sorrel.s n = ⟨0, false⟩ ∧ D.sorrel.qv n = (if n = 0 then (true, false) else (false, false)) ∧ D.sorrel.cap n = ⟨0, false⟩
            ∧ D.sorrel.pendOf n = 1 ∧ (D.sorrel.loop n).active = false ∧ tget 0 D.sem n = 0)
          ∧ (∀ a, mget D.sram a = 0) ∧ (D.fbuf, D.fheld, D.fpop) = ([], [], []) ∧ (D.fover, D.epoch) = (0, 0) ∧ D.firq = false ∧ D.resets = 0)
    ∧ (∀ c, let P := s.pool c
        (∀ a, mget P.mem a = 0) ∧ (P.tags, P.ue) = ([], []) ∧ ∀ n, tget {} P.bar n = ⟨false, 0, 0, 0, 0, 0⟩)
    ∧ (s.dramTag, s.dramUE) = ([], []) ∧ (∀ a, mget s.hostMem a = 0) ∧ (s.arrivals, s.incs, s.probes, s.invals) = ([], [], [], [])
    ∧ (∀ n, (tget {} s.hub.sig n : Signal).used = false ∧ (tget {} s.hub.keys n : KeySlot).valid = false ∧ tget 0 s.hub.tel n = 0
        ∧ tget 0 s.hub.ksvf n = 0 ∧ tget 0 s.hub.peerid n = 0)
    ∧ s.hub.waiters = [] ∧ s.hub.lseq = 0 ∧ s.dom.step = 0
    ∧ (∀ c, let X := s.ctx c
        (X.chain, X.chainn) = (0, 0) ∧ (X.plhead, X.pldrop, X.rcnt) = (0, 0, 0) ∧ X.barred = false ∧ X.ctxen = false
          ∧ ∀ n, (tget {} X.slots n : Slot).state = 0)

/-- R59: under a false predicate a front-end word only lets the next word follow, and a queued word only takes its tokens and makes its pushes; under
a poisoned one a front-end word raises POISBR with the predicate's number. That an `xpop` or an engine command then waits for no place is read from
R59 (assumption 56). A `call` or `ret` first waits for the scalar writes before it (R117).
The same holds of the supervisor words and the semaphore words that a Sorrel runs, all of them in its front end. -/
def Obligations.FalsePredicates : Prop :=
  ∀ (p : BitVec 4) (h : Hdr) (C : FmtC) (S : FmtS) (I : FmtSI) (V : FmtV) (X : FmtVX) (M : FmtM) (G : FmtMG) (F : FmtF) (Y : FmtY) (Z : FmtZ)
      (E : FmtE) (s : State),
    let front := [Instr.nop p C, .bra p C, .brp p C, .jmpc p C, .loop p C, .lend p C, .lstg p C, .lbrk p C, .halt p C,
      .add p S, .sub p S, .mul p S, .mulhs p S, .mulhu p S, .divs p S, .divu p S, .rems p S, .remu p S, .and p S, .or p S, .xor p S,
      .andn p S, .shl p S, .shr p S, .sar p S, .rotr p S, .min p S, .max p S, .minu p S, .maxu p S, .popc p S, .clz p S, .ctz p S,
      .bswp p S, .addi p I, .li p I, .lih p I, .sel p S, .extb p S, .insb p S, .cget p S, .cmp p S, .cmpi p I, .pnot p S, .cchk p S,
      .pand p S, .por p S, .pxor p S, .cmov p S, .cder p S, .cseto p S, .cinc p S, .crgt p S, .cnul p S, .mfsr p S, .mtsr p S, .trap p Z,
      .tret p Z]
    let tile := [Instr.stepw p C, .rlr p S]
    let calls := [Instr.call p C, .ret p C]
    let queued := [Instr.vadd h V, .vsub h V, .vmul h V, .vdiv h V, .vfma h V, .vfms h V, .vfnma h V, .vmin h V, .vmax h V, .vabs h V,
      .vneg h V, .vcps h V, .vdp2 h V, .vdp4 h V, .vcmp h V, .vcls h V, .vsel h V, .vrcp h V, .vrsq h V, .vsqr h V, .vex2 h V, .vlg2 h V,
      .viadd h V, .visub h V, .vimul h V, .vimad h V, .vimulh h V, .vimin h V, .vimax h V, .vadds h V, .vsubs h V, .vand h V, .vor h V,
      .vxor h V, .vandn h V, .vpopc h V, .vclz h V, .vshl h V, .vshr h V, .vsar h V, .vcvt h X, .vins h V, .vcmprs h V, .vexpd h V,
      .vred h V, .vredx h V, .vscan h V, .vmqnt h X, .vmdq h X, .vlqd h X, .vpsn h V, .vprep h V, .vrnd h V, .vmov h V, .vsplat h V,
      .viota h V, .vext h V, .vperm h V, .vshuf h V, .vrot h V, .vpid h V, .jpopc h V, .jffs h V, .vscl h X, .jand h V, .jor h V,
      .jxor h V, .jnot h V, .lds h M, .ldv h M, .ldvs h M, .ldvg h G, .ldvb h M, .ldo h M, .ldc h M, .rfl h M, .sts h M, .stc h M,
      .spl h M, .stv h M, .stvs h M, .stvx h G, .feno h F, .fenr h F, .fenq h F, .hset h V, .hswp h V, .hrd h V, .mxrv h V, .mxwv h V,
      .mxla h E, .mxlb h E, .mxmma h E, .mxz h E, .mxprm h E, .mxst h E, .mxspl h E, .mxfil h E, .mxgng h E, .mxrp h E, .xpop h Y,
      .xcp h E, .xc2 h E, .xcg h E, .xaw h E, .xawr h E, .xcas h E, .xhsh h E, .xopn h E, .xfil h E, .xsig h E, .xsel h E, .semw h Y,
      .sems h Y, .semr h Y, .semi h Y, .bara h Y, .barb h Y, .barw h Y, .barq h Y]
    let sorrel := [Instr.savc p Z, .rstc p Z, .rgstaPlc p Z, .rgstaGo p Z, .rgstaRes p Z, .rgpre p Z, .rgfrzHold p Z, .rgfrzRel p Z, .rgmovMov p Z,
      .rgmovOut p Z, .rgretRel p Z, .rgretAbt p Z, .rgretRd p Z, .xinvAll p Z, .xinvCtx p Z, .xinvObj p Z, .xinvGfr p Z, .otwrWr p Z, .otwrRd p Z,
      .otwrFpop p Z, .otwrFret p Z, .otwrFflt p Z, .otwrFrm p Z, .otwrGwr p Z, .otwrFcp p Z, .otwrQrd p Z, .smapWr p Z, .smapRd p Z, .smapAdj p Z,
      .bmapBind p Z, .bmapUnbind p Z, .bmapRd p Z, .bmapRst p Z, .lnkcUp p Z, .lnkcDown p Z, .lnkcRkey p Z, .lnkcAlgn p Z, .lnkcRun p Z, .lnkcQrl p Z,
      .lnkcDrst p Z, .lnkcDqrl p Z, .lnkqLnk p Z, .lnkqDie p Z, .lnkqDom p Z, .measExt p Z, .measRd p Z, .measSha p Z, .measNode p Z, .rcpt p Z,
      .ksldLd p Z, .ksldRes p Z, .ksldEvc p Z, .ksldRd p Z, .csigAlc p Z, .csigFre p Z, .csigAdd p Z, .csigSet p Z, .csigRd p Z]
    let counts := [Instr.semw h Y, .sems h Y, .semr h Y, .semi h Y]
    let bare := h.pred = p ∧ (h.popl, h.popr, h.pshl, h.pshr) = (false, false, false, false)
    (s.core.qv p.toNat = (false, false) → (∀ i ∈ front, exec i s = .next (s.setPc (s.cur.pc + 8)))
        ∧ (s.scalarWaits = false → ∀ i ∈ calls, exec i s = .next (s.setPc (s.cur.pc + 8))) ∧ ∀ k, s.byTile k → ∀ i ∈ tile, exec i s = .next (s.setPc (s.cur.pc + 8)))
      ∧ ((s.core.qv p.toNat).2 = true → (∀ i ∈ front, exec i s = .next (s.take { cause := cPOISBR, val := p.toNat }))
        ∧ (s.scalarWaits = false → ∀ i ∈ calls, exec i s = .next (s.take { cause := cPOISBR, val := p.toNat })) ∧ ∀ k, s.byTile k → ∀ i ∈ tile, exec i s = .next (s.take { cause := cPOISBR, val := p.toNat }))
      ∧ (∀ d, s.bySorrel d →
          (s.core.qv p.toNat = (false, false) → (∀ i ∈ sorrel, exec i s = .next (s.setPc (s.cur.pc + 8)))
              ∧ (bare → ∀ i ∈ counts, exec i s = .next (s.setPc (s.cur.pc + 8))))
            ∧ ((s.core.qv p.toNat).2 = true → (∀ i ∈ sorrel, exec i s = .next (s.take { cause := cPOISBR, val := p.toNat }))
              ∧ (bare → ∀ i ∈ counts, exec i s = .next (s.take { cause := cPOISBR, val := p.toNat }))))
      ∧ ∀ k, s.byTile k → s.cur.pred = false → ∀ i ∈ queued, exec i s = .next (pushDone h (issueHead h s))

/-- R65, R67, R123: the frame of the scalar, predicate and capability words that go: one register of the executing front end is written, `s0`, `q0` and
`c0` discard writes, every other register keeps its value, and nothing outside the front end and no byte of memory changes. -/
def Obligations.FrontEndWordsWriteOneRegister : Prop :=
  ∀ (p : BitVec 4) (f : FmtS) (g : FmtSI) (s : State), s.goes p →
    let c := s.core
    (∀ i ∈ [Instr.add p f, .sub p f, .mul p f, .mulhs p f, .mulhu p f, .divs p f, .divu p f, .rems p f, .remu p f, .and p f, .or p f,
        .xor p f, .andn p f, .shl p f, .shr p f, .sar p f, .rotr p f, .min p f, .max p f, .minu p f, .maxu p f, .popc p f, .clz p f,
        .ctz p f, .bswp p f, .sel p f, .extb p f, .insb p f, .cget p f, .mfsr p f],
        ∃ x, exec i s = .next (s.after (c.setS f.d.toNat x)))
      ∧ (∀ i ∈ [Instr.addi p g, .li p g, .lih p g], ∃ x, exec i s = .next (s.after (c.setS g.d.toNat x)))
      ∧ (c.owned f.d.toNat = false → ∀ i ∈ [Instr.cmp p f, .pand p f, .por p f, .pxor p f, .pnot p f, .cchk p f],
          ∃ x y, exec i s = .next (s.after (c.setQ f.d.toNat x y)))
      ∧ (c.owned f.d.toNat = true → ∀ i ∈ [Instr.cmp p f, .pand p f, .por p f, .pxor p f, .pnot p f, .cchk p f],
          exec i s = .next (s.take { cause := cILL, val := s.cur.w0 }))
      ∧ (∀ i ∈ [Instr.cmov p f, .cnul p f, .crgt p f], ∃ x, exec i s = .next (s.after (c.setCap f.d.toNat x)))
      ∧ (∀ d n x, d < 64 → n < 64 → (c.setS d x).s n = (if n = d ∧ d ≠ 0 then x else c.s n) ∧ (c.setS d x).q = c.q ∧ (c.setS d x).c = c.c
          ∧ (c.setS d x).trap = c.trap ∧ (c.setS d x).loops = c.loops)
      ∧ (∀ d n x y, (c.setQ d x y).qv n = (if n = d ∧ d ≠ 0 then (x, y) else c.qv n) ∧ (c.setQ d x y).sreg = c.sreg ∧ (c.setQ d x y).c = c.c)
      ∧ (∀ d n x, (c.setCap d x).cap n = (if n = d ∧ d ≠ 0 then x else c.cap n) ∧ (c.setCap d x).sreg = c.sreg ∧ (c.setCap d x).q = c.q)
      ∧ (∀ k c', s.byTile k → let t := s.after c'
          sameMemory s t ∧ onlyTile k s t ∧ t.tile k = { s.tile k with core := { c' with pc := (s.cur.pc + 8) % 2 ^ 64 } })
      ∧ ∀ d c', s.bySorrel d → let t := s.after c'
          sameMemory s t ∧ { t with dies := s.dies } = s ∧ (∀ e, e ≠ d → t.die e = s.die e)
            ∧ t.die d = { s.die d with sorrel := { c' with pc := (s.cur.pc + 8) % 2 ^ 64 } }

/-! ### Control, scalar and capability words (05_control_scalar.md) -/

/-- R123 and Table 50: what each two-source scalar word writes when no source is poisoned; the next word follows.
R123: a poisoned source makes the scalar result poison with the smallest id of the poisoned sources, whatever the operation.
Table 50: the one-source words against independent readings: the count of one bits, of the zeros above the highest one bit, of the
zeros below the lowest, and the bytes reversed. -/
def Obligations.ScalarAluWords : Prop :=
  (∀ (p : BitVec 4) (f : FmtS) (s : State), s.goes p →
       let a := s.core.s f.a.toNat
       let b := s.core.s f.b.toNat
       let w := fun (v : BitVec 64) => (.next (s.after (s.core.setS f.d.toNat ⟨v, false⟩)) : Out)
       a.tag = false → b.tag = false →
         exec (.add p f) s = w (a.bits + b.bits) ∧ exec (.sub p f) s = w (a.bits - b.bits)
           ∧ exec (.mul p f) s = w (a.bits * b.bits)
           ∧ exec (.mulhs p f) s = w (BitVec.ofInt 64 (a.bits.toInt * b.bits.toInt / 2 ^ 64))
           ∧ exec (.mulhu p f) s = w (BitVec.ofNat 64 (a.bits.toNat * b.bits.toNat / 2 ^ 64))
           ∧ exec (.divs p f) s = w (if b.bits = 0 then BitVec.allOnes 64 else a.bits.sdiv b.bits)
           ∧ exec (.divu p f) s = w (if b.bits = 0 then BitVec.allOnes 64 else a.bits.udiv b.bits)
           ∧ exec (.rems p f) s = w (if b.bits = 0 then a.bits else a.bits - b.bits * a.bits.sdiv b.bits)
           ∧ exec (.remu p f) s = w (if b.bits = 0 then a.bits else a.bits.umod b.bits)
           ∧ exec (.and p f) s = w (a.bits &&& b.bits) ∧ exec (.or p f) s = w (a.bits ||| b.bits)
           ∧ exec (.xor p f) s = w (a.bits ^^^ b.bits) ∧ exec (.andn p f) s = w (a.bits &&& ~~~b.bits)
           ∧ exec (.shl p f) s = w (a.bits <<< (b.bits.toNat % 64)) ∧ exec (.shr p f) s = w (a.bits >>> (b.bits.toNat % 64))
           ∧ exec (.sar p f) s = w (a.bits.sshiftRight (b.bits.toNat % 64))
           ∧ exec (.rotr p f) s = w (a.bits.rotateRight (b.bits.toNat % 64))
           ∧ exec (.min p f) s = w (if a.bits.toInt < b.bits.toInt then a.bits else b.bits)
           ∧ exec (.max p f) s = w (if a.bits.toInt < b.bits.toInt then b.bits else a.bits)
           ∧ exec (.minu p f) s = w (if a.bits.toNat < b.bits.toNat then a.bits else b.bits)
           ∧ exec (.maxu p f) s = w (if a.bits.toNat < b.bits.toNat then b.bits else a.bits))
    ∧ (∀ (p : BitVec 4) (f : FmtS) (s : State), s.goes p →
       let a := s.core.s f.a.toNat
       let b := s.core.s f.b.toNat
       let ia := a.bits.toNat % 2 ^ 22
       let ib := b.bits.toNat % 2 ^ 22
       (a.tag || b.tag) = true →
         ∀ i ∈ [Instr.add p f, .sub p f, .mul p f, .mulhs p f, .mulhu p f, .divs p f, .divu p f, .rems p f, .remu p f, .and p f, .or p f,
             .xor p f, .andn p f, .shl p f, .shr p f, .sar p f, .rotr p f, .min p f, .max p f, .minu p f, .maxu p f],
           exec i s = .next (s.after (s.core.setS f.d.toNat
             ⟨BitVec.ofNat 64 (if a.tag && b.tag then min ia ib else if a.tag then ia else ib), true⟩)))
    ∧ (∀ (p : BitVec 4) (f : FmtS) (s : State), s.goes p →
       let a := s.core.s f.a.toNat
       a.tag = false →
         (∃ v, exec (.popc p f) s = .next (s.after (s.core.setS f.d.toNat ⟨v, false⟩))
           ∧ v.toNat = ((List.range 64).filter fun i => a.bits.getLsbD i).length)
         ∧ (∃ v, exec (.clz p f) s = .next (s.after (s.core.setS f.d.toNat ⟨v, false⟩)) ∧ v.toNat ≤ 64
           ∧ (∀ i, 64 - v.toNat ≤ i → a.bits.getLsbD i = false) ∧ (v.toNat < 64 → a.bits.getLsbD (63 - v.toNat) = true))
         ∧ (∃ v, exec (.ctz p f) s = .next (s.after (s.core.setS f.d.toNat ⟨v, false⟩)) ∧ v.toNat ≤ 64
           ∧ (∀ i, i < v.toNat → a.bits.getLsbD i = false) ∧ (v.toNat < 64 → a.bits.getLsbD v.toNat = true))
         ∧ ∃ v, exec (.bswp p f) s = .next (s.after (s.core.setS f.d.toNat ⟨v, false⟩))
           ∧ ∀ i, i < 8 → v.toNat / 2 ^ (8 * i) % 256 = a.bits.toNat / 2 ^ (8 * (7 - i)) % 256)
    ∧ (∀ (p : BitVec 4) (f : FmtS) (s : State), s.goes p →
       let a := s.core.s f.a.toNat
       a.tag = true → ∀ i ∈ [Instr.popc p f, .clz p f, .ctz p f, .bswp p f],
         exec i s = .next (s.after (s.core.setS f.d.toNat ⟨BitVec.ofNat 64 (a.bits.toNat % 2 ^ 22), true⟩)))

/-- R125, R126, R129, R134: immediates, the select, the bit fields and the capability read, with the fields of Table 53. R123: a poisoned source of an
immediate form or of a bit field makes the result poison with the smallest id. -/
def Obligations.ScalarImmediateSelectField : Prop :=
  ∀ (p : BitVec 4) (f : FmtS) (g : FmtSI) (s : State), s.goes p →
    let c := s.core
    let wr := fun (d : BitVec 6) (x : Scal) => (.next (s.after (c.setS d.toNat x)) : Out)
    ((c.s g.a.toNat).tag = false → exec (.addi p g) s = wr g.d ⟨(c.s g.a.toNat).bits + g.imm.signExtend 64, false⟩)
      ∧ exec (.li p g) s = wr g.d ⟨g.imm.signExtend 64, false⟩
      ∧ ((c.s g.d.toNat).tag = false →
          exec (.lih p g) s = wr g.d ⟨BitVec.ofNat 64 (g.imm.toNat * 2 ^ 32 + (c.s g.d.toNat).bits.toNat % 2 ^ 32), false⟩)
      ∧ ((c.qv f.c.toNat).2 = false →
          exec (.sel p f) s = wr f.d (if (c.qv f.c.toNat).1 then c.s f.a.toNat else c.s f.b.toNat))
      ∧ ((c.qv f.c.toNat).2 = true →
          let id := fun (x : Scal) => if x.tag then x.bits.toNat % 2 ^ 22 else 0x3FFFFF
          exec (.sel p f) s = wr f.d ⟨BitVec.ofNat 64 (min 0x3FFFFF (min (id (c.s f.a.toNat)) (id (c.s f.b.toNat)))), true⟩)
      ∧ ((c.s f.a.toNat).tag = false → ∀ pos len, f.k12.toNat = 64 * pos + (len - 1) → 1 ≤ len → pos + len ≤ 64 →
          exec (.extb p f) s = wr f.d ⟨BitVec.ofNat 64 ((c.s f.a.toNat).bits.toNat / 2 ^ pos % 2 ^ len), false⟩)
      ∧ ((c.s f.a.toNat).tag = false → (c.s f.d.toNat).tag = false → ∀ pos len, f.k12.toNat = 64 * pos + (len - 1) → 1 ≤ len →
          pos + len ≤ 64 → ∃ v : BitVec 64, exec (.insb p f) s = wr f.d ⟨v, false⟩
            ∧ ∀ i, i < 64 → v.getLsbD i =
                if pos ≤ i ∧ i < pos + len then (c.s f.a.toNat).bits.getLsbD (i - pos) else (c.s f.d.toNat).bits.getLsbD i)
      ∧ (let id := fun (x : Scal) => x.bits.toNat % 2 ^ 22
         let pois := fun (d : BitVec 6) (n : Nat) => wr d ⟨BitVec.ofNat 64 n, true⟩
         let a := c.s f.a.toNat
         let d := c.s f.d.toNat
         ((c.s g.a.toNat).tag = true → exec (.addi p g) s = pois g.d (id (c.s g.a.toNat)))
           ∧ ((c.s g.d.toNat).tag = true → exec (.lih p g) s = pois g.d (id (c.s g.d.toNat)))
           ∧ (a.tag = true → exec (.extb p f) s = pois f.d (id a))
           ∧ ((a.tag || d.tag) = true →
               exec (.insb p f) s = pois f.d (if a.tag && d.tag then min (id a) (id d) else if a.tag then id a else id d)))
      ∧ (let x := c.cap f.a.toNat
         let v := x.bits.toNat
         let e := v / 2 ^ 42 % 2 ^ 6
         let base := v / 2 ^ 21 % 2 ^ 21
         let top := v % 2 ^ 21
         ∀ y ∈ [(0, v / 2 ^ 104), (1, v / 2 ^ 96 % 2 ^ 8), (2, v / 2 ^ 48 % 2 ^ 48), (3, e), (4, base * 2 ^ e), (5, top * 2 ^ e),
             (6, if top < base then 0 else (top - base) * 2 ^ e), (7, if x.tag then 1 else 0), (8, v % 2 ^ 64), (9, v / 2 ^ 64)],
           f.k12.toNat = y.1 → exec (.cget p f) s = wr f.d ⟨BitVec.ofNat 64 y.2, false⟩)

/-- R127, R128, R135: what the compares and the predicate logic write in a predicate the loop engine does not own; a poisoned source gives false with
the tag set. R135: `cchk` answers as `Cap.Check` would, its offset read as signed (assumption 58). Table 51: the conditions of the 64-bit compares, as
signed and unsigned orders and bit tests. -/
def Obligations.PredicateWords : Prop :=
  (∀ (p : BitVec 4) (f : FmtS) (g : FmtSI) (s : State), s.goes p →
       let c := s.core
       let wr := fun (d : BitVec 6) (v t : Bool) => (.next (s.after (c.setQ d.toNat (v && !t) t)) : Out)
       (c.owned f.d.toNat = false →
         exec (.cmp p f) s = wr f.d (cond64 f.fn.toNat (c.s f.a.toNat).bits (c.s f.b.toNat).bits)
             ((c.s f.a.toNat).tag || (c.s f.b.toNat).tag)
           ∧ exec (.pand p f) s = wr f.d ((c.qv f.a.toNat).1 && (c.qv f.b.toNat).1) ((c.qv f.a.toNat).2 || (c.qv f.b.toNat).2)
           ∧ exec (.por p f) s = wr f.d ((c.qv f.a.toNat).1 || (c.qv f.b.toNat).1) ((c.qv f.a.toNat).2 || (c.qv f.b.toNat).2)
           ∧ exec (.pxor p f) s = wr f.d ((c.qv f.a.toNat).1 != (c.qv f.b.toNat).1) ((c.qv f.a.toNat).2 || (c.qv f.b.toNat).2)
           ∧ exec (.pnot p f) s = wr f.d (!(c.qv f.a.toNat).1) (c.qv f.a.toNat).2
           ∧ ((c.s f.b.toNat).tag = false → ∀ x : Cap, c.cap f.a.toNat = x →
               exec (.cchk p f) s = wr f.d (match capCheck x (c.s f.b.toNat).bits.toInt (2 ^ (f.k12.toNat / 256)) (f.k12.toNat % 256) 1 with
                 | .ok _ => true
                 | .error _ => false) false)
           ∧ ((c.s f.b.toNat).tag = true → exec (.cchk p f) s = wr f.d false true))
         ∧ (c.owned g.d.toNat = false →
             exec (.cmpi p g) s = wr g.d (cond64 g.k4.toNat (c.s g.a.toNat).bits (g.imm.signExtend 64)) (c.s g.a.toNat).tag))
    ∧ (∀ a b : BitVec 64,
       (cond64 0 a b = true ↔ a = b) ∧ (cond64 1 a b = true ↔ a ≠ b) ∧ (cond64 2 a b = true ↔ a.toInt < b.toInt)
         ∧ (cond64 3 a b = true ↔ b.toInt ≤ a.toInt) ∧ (cond64 4 a b = true ↔ a.toNat < b.toNat)
         ∧ (cond64 5 a b = true ↔ b.toNat ≤ a.toNat) ∧ (cond64 6 a b = true ↔ a.toInt ≤ b.toInt)
         ∧ (cond64 7 a b = true ↔ b.toInt < a.toInt) ∧ (cond64 8 a b = true ↔ a.toNat ≤ b.toNat)
         ∧ (cond64 9 a b = true ↔ b.toNat < a.toNat)
         ∧ (cond64 10 a b = true ↔ ∃ i, a.getLsbD i = true ∧ b.getLsbD i = true)
         ∧ (cond64 11 a b = true ↔ ∀ i, ¬(a.getLsbD i = true ∧ b.getLsbD i = true)))

/-- R112 to R114, R118, R121: where the transfers leave the PC, and what `halt` and `lbrk` leave.
R114, R113, R131, R347: a poisoned deciding predicate raises POISBR with its number, a poisoned target POISADR, a misaligned one
ALIGN. -/
def Obligations.TransferWords : Prop :=
  (∀ (p : BitVec 4) (f : FmtC) (s : State), s.goes p →
       let c := s.core
       let a := c.qv f.a.toNat
       let b := c.qv f.b.toNat
       let x := c.s f.a.toNat
       let t := (x.bits + f.imm.signExtend 64).toNat
       let going := fun (pc : Nat) => (.next (s.setPc pc) : Out)
       exec (.nop p f) s = going (s.cur.pc + 8)
         ∧ exec (.bra p f) s = going (s.target f.imm)
         ∧ (f.k4 < 4 → a.2 = false → (f.k4 < 2 ∨ b.2 = false) → exec (.brp p f) s =
             if (f.k4 = 0 ∧ a.1 = true) ∨ (f.k4 = 1 ∧ a.1 = false) ∨ (f.k4 = 2 ∧ a.1 = true ∧ b.1 = true)
               ∨ (f.k4 = 3 ∧ (a.1 = true ∨ b.1 = true)) then going (s.target f.imm) else going (s.cur.pc + 8))
         ∧ (x.tag = false → t % 8 = 0 → exec (.jmpc p f) s = going t)
         ∧ exec (.halt p f) s = .next (s.setCore { c with halted := true })
         ∧ (f.k4 < 8 → (c.loop f.k4.toNat).active = true →
             ∃ c', exec (.lbrk p f) s = .next ((s.setCore c').setPc (s.target f.imm))
               ∧ (∀ l, f.k4.toNat ≤ l → l < 8 → (c'.loop l).active = false)
               ∧ (∀ l, l < f.k4.toNat → c'.loop l = c.loop l) ∧ { c' with loops := c.loops } = c))
    ∧ (∀ (p : BitVec 4) (f : FmtC) (s : State), s.goes p →
       let c := s.core
       let x := c.s f.a.toNat
       let t := (x.bits + f.imm.signExtend 64).toNat
       ((c.qv f.a.toNat).2 = true → exec (.brp p f) s = .next (s.take { cause := cPOISBR, val := f.a.toNat }))
         ∧ (2 ≤ f.k4 → (c.qv f.a.toNat).2 = false → (c.qv f.b.toNat).2 = true →
             exec (.brp p f) s = .next (s.take { cause := cPOISBR, val := f.b.toNat }))
         ∧ (x.tag = true → exec (.jmpc p f) s = .next (s.take { cause := cPOISADR, val := x.bits.toNat }))
         ∧ (x.tag = false → t % 8 ≠ 0 → exec (.jmpc p f) s = .next (s.take { cause := cALIGN, val := t })))

/-- R116, R117: a `call` or `ret` is not handled while an earlier word has still to write a scalar; then a `call` that the frame area has room for and
that need not wait moves the window by n, leaves the return address in the `s63` of the new window and goes to its label, spilling the units below the
new Lo in the cycles that follow; a `ret` takes the window back and goes to the address in `s63`. That the CAPBND of a `call` waits for nothing but
those writes is read from R117 (assumption 10). A poisoned link raises POISADR and a misaligned one ALIGN. -/
def Obligations.CallAndReturn : Prop :=
  ∀ (p : BitVec 4) (f : FmtC) (s : State), s.goes p →
    let c := s.core
    let n := f.k4.toNat
    let lo2 := max c.lo (c.w + n + 6 - 62)
    let link := c.s 63
    let w := c.w - n
    (lo2 ≤ (frameArea s).2 → windowWaits s (c.lo < lo2) = false →
        (lo2 = c.lo → exec (.call p f) s =
          .next ((s.setCore (({ c with w := c.w + n, win := [] } : Core).setS 63 ⟨BitVec.ofNat 64 (s.cur.pc + 8), false⟩)).setPc
            (s.target f.imm)))
        ∧ (c.lo < lo2 → exec (.call p f) s =
          .next ((s.setCore { c with w := c.w + n, lo := lo2, win := spills (s.cur.pc + 8) (upTo c.lo lo2) }).setPc (s.target f.imm))))
      ∧ (s.scalarWaits = true → exec (.call p f) s = .next s ∧ exec (.ret p f) s = .next s)
      ∧ ((frameArea s).2 < lo2 → s.scalarWaits = false → exec (.call p f) s = .next (s.take { cause := cCAPBND }))
      ∧ (n ≤ c.w → windowWaits s (w < c.lo) = false → link.tag = false → link.bits.toNat % 8 = 0 →
          exec (.ret p f) s = .next ((s.setCore { c with
            w := w, lo := min c.lo w,
            win := (upTo w c.lo).map WinOp.fill ++ if w < c.lo then List.replicate 9 WinOp.idle else [] }).setPc link.bits.toNat))
      ∧ (c.w < n → s.scalarWaits = false → exec (.ret p f) s = .next (s.take { cause := cCAPBND }))
      ∧ (n ≤ c.w → windowWaits s (w < c.lo) = false → link.tag = true →
          exec (.ret p f) s = .next (s.take { cause := cPOISADR, val := link.bits.toNat }))
      ∧ (n ≤ c.w → windowWaits s (w < c.lo) = false → link.tag = false → link.bits.toNat % 8 ≠ 0 →
          exec (.ret p f) s = .next (s.take { cause := cALIGN, val := link.bits.toNat }))

/-- R118, R120: the loop words. `lstg` sets a pending count; `loop` enters pass 0 or, with too few passes to make, goes past its `lend`;
`lend` of the innermost level begins the next pass or ends the level; each pass that begins has its stage predicates written (R80), and nothing
else of the front end changes; `stepw` waits for a later step.
R81, R313, R314: a pass boundary of the outermost pre-emptible level counts, and with a request pending for it the level takes its end there: it
drains its stages or, with one stage, stops. A level that drained so stops at its end.
R118, R136, R347: the loop words and `stepw` that are ILL, and a poisoned count or step, which raises POISBR with its register. -/
def Obligations.LoopWords : Prop :=
  (∀ (p : BitVec 4) (f : FmtC) (s : State), s.goes p →
       let c := s.core
       let L := f.k4.toNat
       let x := (c.s f.a.toNat).bits.toNat % 2 ^ 32
       let stop := s.cur.pc + 8 * f.imm.toNat
       let l := c.loop L
       ((f.imm.toNat < 2 ∨ ∀ k, k < 8 → k ≠ L → ((c.loop k).active = false ∨ (c.loop k).n < 2) ∧ c.pendOf k < 2) →
           exec (.lstg p f) s = .next (s.after { c with pend := tset c.pend L f.imm.toNat }))
         ∧ (L < 8 → (∀ k, L ≤ k → k < 8 → (c.loop k).active = false) → (c.s f.a.toNat).tag = false →
             (x + c.pendOf L < 2 → ∃ c', exec (.loop p f) s = .next ((s.setCore c').setPc (stop + 8))
               ∧ (c'.loop L).active = false ∧ c'.pendOf L = 1 ∧ c.loopFrame c' L ∧ c'.q = c.q)
             ∧ (2 ≤ x + c.pendOf L → ∃ c', exec (.loop p f) s = .next ((s.setCore c').setPc (s.cur.pc + 8))
               ∧ (c'.loop L).active = true ∧ (c'.loop L).p = 0 ∧ (c'.loop L).x = x ∧ (c'.loop L).n = c.pendOf L
               ∧ (c'.loop L).start = s.cur.pc + 8 ∧ (c'.loop L).stop = stop ∧ c'.pendOf L = 1
               ∧ (c'.loop L).f = 0 ∧ (c'.loop L).stopped = false ∧ ((c'.loop L).kind, (c'.loop L).pre) = loopKind s L
               ∧ c.loopFrame c' L ∧ c.stages c' (c'.loop L)))
         ∧ (c.active.getLast? = some L → s.cur.pc = l.stop → (c.outerPre ≠ some L ∨ l.x ≤ l.p + 1 ∨ ∃ d, s.bySorrel d) →
             (l.p + 3 ≤ l.x + l.n → ∃ c', exec (.lend p f) s = .next ((s.setCore c').setPc l.start)
               ∧ c'.loop L = { l with p := l.p + 1 } ∧ c.loopFrame c' L ∧ c.stages c' { l with p := l.p + 1 })
             ∧ (l.x + l.n < l.p + 3 → l.stopped = false →
               exec (.lend p f) s = .next (s.after (c.setLoop L { l with p := l.p + 1, active := false })))
             ∧ (l.x + l.n < l.p + 3 → l.stopped = true →
               exec (.lend p f) s = .next (s.setCore { c.setLoop L { l with p := l.p + 1, active := false } with stopped := true })))
         ∧ (∀ k, s.byTile k → c.active.getLast? = some L → s.cur.pc = l.stop → c.outerPre = some L → l.p + 1 < l.x → 1 ≤ l.n →
             let t := s.tile k
             let R := s.region t.rgn
             let now := 128 * t.step + t.cyc + 1
             let counted := s.setTile k { t with bndc := t.bndc + 1 }
             let latched := s.setTile k { t with
               bndc := t.bndc + 1, rstep := now / 128, rcyc := now % 128, bstep := R.rstep + now / 128 - t.step }
             let last := { l with p := l.p + 1, x := l.p + 1, xr := l.x, fr := l.p + 1, stopped := true }
             (R.preq = false ∨ t.bndc + 1 < R.tgt → ∃ c', exec (.lend p f) s = .next ((counted.setCore c').setPc l.start)
               ∧ c'.loop L = { l with p := l.p + 1 } ∧ c.loopFrame c' L ∧ c.stages c' { l with p := l.p + 1 })
             ∧ (R.preq = true → R.tgt ≤ t.bndc + 1 → 2 ≤ l.n → ∃ c', exec (.lend p f) s = .next ((latched.setCore c').setPc l.start)
               ∧ c'.loop L = last ∧ c.loopFrame c' L ∧ c.stages c' last)
             ∧ (R.preq = true → R.tgt ≤ t.bndc + 1 → l.n = 1 →
               exec (.lend p f) s = .next (latched.setCore { c.setLoop L { last with active := false } with stopped := true })))
         ∧ (L < 8 → (∀ k, L ≤ k → k < 8 → (c.loop k).active = false) → (c.s f.a.toNat).tag = true →
             exec (.loop p f) s = .next (s.take { cause := cPOISBR, val := f.a.toNat + 64 }))
         ∧ (∀ k, s.byTile k → (c.s f.a.toNat).tag = true →
             exec (.stepw p f) s = .next (s.take { cause := cPOISBR, val := f.a.toNat + 64 }))
         ∧ (∀ k, s.byTile k → (c.s f.a.toNat).tag = false →
             let tgt := ((c.s f.a.toNat).bits.toNat + f.imm.toNat) % 2 ^ 64
             ((s.tile k).step < tgt → exec (.stepw p f) s = .next (s.after { c with stepw := some tgt }))
               ∧ (tgt ≤ (s.tile k).step → exec (.stepw p f) s = .next (s.setPc (s.cur.pc + 8)))))
    ∧ (∀ (p : BitVec 4) (f : FmtC) (s : State), s.goes p →
       let c := s.core
       let L := f.k4.toNat
       let ill := (.next (s.take { cause := cILL, val := s.cur.w0 }) : Out)
       ((∃ k, L ≤ k ∧ k < 8 ∧ (c.loop k).active = true) → exec (.loop p f) s = ill)
         ∧ (2 ≤ f.imm.toNat → (∃ k, k < 8 ∧ k ≠ L ∧ ((c.loop k).active = true ∧ 2 ≤ (c.loop k).n ∨ 2 ≤ c.pendOf k)) → exec (.lstg p f) s = ill)
         ∧ (c.active.getLast? ≠ some L → exec (.lend p f) s = ill) ∧ (s.cur.pc ≠ (c.loop L).stop → exec (.lend p f) s = ill)
         ∧ ((c.loop L).active = false → exec (.lbrk p f) s = ill)
         ∧ (∀ d, s.bySorrel d → exec (.stepw p f) s = ill))

/-- R130, R346, R136: `mfsr` writes the register named with its tag clear; `mtsr` writes what Table 144 lets the mode write and raises POISST for a
poisoned source; `rlr` reads the resource list. In a handler, of `TSTAT` `SKIP` and the reserved fields are
stored. Table 29, Table 144: what each special register reads on a tile, field by field; on Sorrel the numbers of Table 29 read 0, and so does `CTXID`, which is the model's choice (assumption 57). R132,
R133: what the capability words write, field by field, and when they trap; only `cseto` and `cinc` move the cursor, `crgt` and `cder` only take rights away,
and the bounds of a derived capability lie within its parent's and take the finest granule that fits. -/
def Obligations.SpecialAndCapabilityWords : Prop :=
  (∀ (p : BitVec 4) (f : FmtS) (s : State), s.goes p →
       let c := s.core
       let a := c.s f.a.toNat
       exec (.mfsr p f) s = .next (s.after (c.setS f.d.toNat ⟨BitVec.ofNat 64 (readSr s f.k12.toNat), false⟩))
         ∧ (a.tag = false → ∃ tr, exec (.mtsr p f) s = .next (s.after { c with trap := tr })
             ∧ (c.trap.hnd = false → f.k12.toNat ≠ 0x105 → tr = c.trap)
             ∧ (c.trap.hnd = true → c.trap.dq = 0 → f.k12.toNat = 0x103 → tr.trpc.toNat = a.bits.toNat % 2 ^ 32 / 8 * 8)
             ∧ (c.trap.hnd = true → f.k12.toNat = 0x100 → { tr with tstat := c.trap.tstat } = c.trap
                 ∧ ∀ i, i < 64 → tr.tstat.getLsbD i = (if i = 1 ∨ 4 ≤ i ∧ i < 16 ∨ 32 ≤ i then a.bits else c.trap.tstat).getLsbD i)
             ∧ ((f.k12.toNat ≠ 0x100 ∧ f.k12.toNat ≠ 0x103 ∧ f.k12.toNat ≠ 0x105 ∨ f.k12.toNat = 0x103 ∧ c.trap.dq ≠ 0) → tr = c.trap)
             ∧ (∀ d, s.bySorrel d → f.k12.toNat = 0x105 → tr.tvec.toNat = a.bits.toNat % 2 ^ 32)
             ∧ (∀ k, s.byTile k → tr.tvec = c.trap.tvec) ∧ tr.tcause = c.trap.tcause ∧ tr.tpc = c.trap.tpc ∧ tr.tval = c.trap.tval)
         ∧ (a.tag = true → exec (.mtsr p f) s = .next (s.take { cause := cPOISST, val := 1 }))
         ∧ (∀ k, s.byTile k → exec (.rlr p f) s = .next (s.after (c.setCap f.d.toNat (tget Cap.null c.rl f.a.toNat)))))
    ∧ (∀ (p : BitVec 4) (f : FmtS) (s : State), s.goes p →
       let c := s.core
       let a := c.cap f.a.toNat
       let b := c.s f.b.toNat
       let wr := fun (x : Cap) => (.next (s.after (c.setCap f.d.toNat x)) : Out)
       exec (.cmov p f) s = wr a
         ∧ exec (.cnul p f) s = wr ⟨0, false⟩
         ∧ (∃ x, exec (.crgt p f) s = wr x ∧ x.oid = a.oid ∧ x.cur = a.cur ∧ x.exp = a.exp ∧ x.lo = a.lo ∧ x.hi = a.hi ∧ x.tag = a.tag
             ∧ x.rights = a.rights &&& f.k12.toNat % 256)
         ∧ (b.tag = false → b.bits.toNat < 2 ^ 48 → ∃ x, exec (.cseto p f) s = wr x ∧ x.sameBut a ∧ x.cur = b.bits.toNat)
         ∧ (b.tag = false → ∀ n : Nat, (n : Int) = a.cur + b.bits.toInt + f.k12.toInt → n < 2 ^ 48 →
             ∃ x, exec (.cinc p f) s = wr x ∧ x.sameBut a ∧ x.cur = n)
         ∧ (let traps := fun (i : Instr) (cause val : Nat) => exec i s = .next (s.take { cause := cause, val := val })
            let lo := a.cur
            let hi := a.cur + b.bits.toNat
            let top := fun (e : Nat) => (hi + 2 ^ e - 1) / 2 ^ e
            let may := b.tag = false ∧ a.tag = true ∧ a.rights / 2 ^ 6 % 2 = 1 ∧ 6 ≤ a.exp ∧ a.exp ≤ 40
            (b.tag = true → ∀ i ∈ [Instr.cseto p f, .cinc p f, .cder p f], traps i cPOISADR b.bits.toNat)
              ∧ (b.tag = false → 2 ^ 48 ≤ b.bits.toNat → traps (.cseto p f) cCAPBND 0)
              ∧ (b.tag = false → ∀ z : Int, z = a.cur + b.bits.toInt + f.k12.toInt → (z < 0 ∨ 2 ^ 48 ≤ z) → traps (.cinc p f) cCAPBND 0)
              ∧ (b.tag = false → a.tag = false → traps (.cder p f) (if a.bits = 0 then cCAPNUL else cCAPTAG) 0)
              ∧ (b.tag = false → a.tag = true → a.rights / 2 ^ 6 % 2 = 0 → traps (.cder p f) cCAPRGT 0)
              ∧ (b.tag = false → a.tag = true → a.rights / 2 ^ 6 % 2 = 1 → (a.exp < 6 ∨ 40 < a.exp) → traps (.cder p f) cCAPBND 0)
              ∧ (may → (∀ e, 6 ≤ e → e ≤ 40 → 2 ^ 21 ≤ top e) → traps (.cder p f) cCAPBND 0)
              ∧ (may → ∀ e, 6 ≤ e → e ≤ 40 → top e < 2 ^ 21 → (∀ m, 6 ≤ m → m < e → 2 ^ 21 ≤ top m) →
                  let x0 := lo / 2 ^ e * 2 ^ e
                  let x1 := top e * 2 ^ e
                  ((x0 < a.lo ∨ a.hi < x1) → traps (.cder p f) cCAPBND 0)
                    ∧ (f.k12.toNat / 256 % 2 = 1 → (x0 ≠ lo ∨ x1 ≠ hi) → traps (.cder p f) cCAPBND 0)
                    ∧ (a.lo ≤ x0 → x1 ≤ a.hi → (f.k12.toNat / 256 % 2 = 0 ∨ x0 = lo ∧ x1 = hi) →
                      ∃ x, exec (.cder p f) s = wr x ∧ x.tag = true ∧ x.oid = a.oid ∧ x.cur = lo ∧ x.exp = e ∧ x.lo = x0 ∧ x.hi = x1
                        ∧ x.rights = a.rights &&& f.k12.toNat % 256 ∧ x.lo ≤ lo ∧ hi ≤ x.hi))))
    ∧ (∀ (s : State) (k : Nat), s.byTile k →
       let t := s.tile k
       let c := t.core
       let R := s.region t.rgn
       let X := s.ctx R.ctx
       let sr := readSr s
       sr 0 = t.tix ∧ (0 < R.w → R.w ≤ 256 → sr 1 % 2 ^ 8 = t.tix % R.w ∧ sr 1 / 2 ^ 8 = t.tix / R.w)
         ∧ (R.w < 256 → sr 2 % 2 ^ 8 = R.w ∧ sr 2 / 2 ^ 8 = R.h) ∧ sr 3 = t.step ∧ sr 4 = t.cyc ∧ sr 5 = X.seed.toNat ∧ sr 6 = 8 * (c.w % 62)
         ∧ ((∀ i, i < 6 → tget 0 t.tok i < 16) → (∀ i, i < 6 → sr 7 / 2 ^ (4 * i) % 16 = tget 0 t.tok i) ∧ sr 7 < 2 ^ 24)
         ∧ ((∀ i, i < 5 → tget 0 t.psnc i < 128) → (∀ i, i < 5 → sr 8 / 2 ^ (7 * i) % 128 = tget 0 t.psnc i) ∧ sr 8 < 2 ^ 35)
         ∧ sr 9 % 8 = c.active.getLast?.getD 0 ∧ (sr 9 / 8 % 2 = 0 ↔ c.active = [])
         ∧ ((∀ l ∈ c.active, (c.loop l).n < 2) → sr 9 / 16 = 0)
         ∧ (∀ l ∈ c.active, 2 ≤ (c.loop l).n → (∀ m ∈ c.active, 2 ≤ (c.loop m).n → l ≤ m) →
             sr 9 / 16 % 8 = l ∧ sr 9 / 2 ^ 7 % 2 = 1 ∧ sr 9 / 2 ^ 8 = (c.loop l).n - 1)
         ∧ (∀ l, l < 8 → sr (0x10 + l) = if (c.loop l).active then (c.loop l).p % 2 ^ 32 else 0)
         ∧ (R.ctx < 256 → X.vf < 256 → sr 0x107 % 2 = (if X.pclr then 1 else 0) ∧ sr 0x107 / 2 % 2 ^ 7 = 0 ∧ sr 0x107 / 2 ^ 8 % 2 ^ 8 = R.ctx
             ∧ sr 0x107 / 2 ^ 16 % 2 ^ 8 = X.vf ∧ sr 0x107 / 2 ^ 24 = X.iface))
    ∧ (∀ (s : State), let tr := s.core.trap
       readSr s 0x100 = tr.tstat.toNat ∧ readSr s 0x101 = tr.tcause.toNat ∧ readSr s 0x102 = tr.tpc.toNat ∧ readSr s 0x103 = tr.trpc.toNat
         ∧ readSr s 0x104 = tr.tval.toNat ∧ readSr s 0x105 = tr.tvec.toNat ∧ readSr s 0x106 = tr.tahead.toNat
         ∧ (∀ i, readSr s (0x110 + i) = (tr.trec.getD i 0).toNat) ∧ ∀ d, s.bySorrel d → readSr s 0x107 = 0 ∧ ∀ n, n < 0x100 → readSr s n = 0)

/-- R131, R133: whatever a capability word goes to, what it leaves in `cD` with its tag set is what was there, or has the object of its
source, no right the source lacks, and no byte outside the source's bounds. -/
def Obligations.AuthorityNeverGrows : Prop :=
  ∀ (p : BitVec 4) (f : FmtS) (s : State), s.cur.agent ≠ .dev →
    ∀ i ∈ [Instr.cmov p f, .cnul p f, .crgt p f, .cseto p f, .cinc p f, .cder p f], ∀ t, exec i s = .next t →
      let a := s.core.cap f.a.toNat
      let x := t.core.cap f.d.toNat
      x.tag = true → x = s.core.cap f.d.toNat
        ∨ (a.tag = true ∧ x.oid = a.oid ∧ x.rights &&& a.rights = x.rights ∧ a.lo ≤ x.lo ∧ x.hi ≤ a.hi)

/-! ### Vector words (06_vector_arith.md, 07_vector_data.md) -/

/-- R143, R38: every floating word whose sources are numbers or infinities and whose exact results are valid writes each element's exact result
rounded once. R143 and Table 58: the floating words that return bits of their inputs, on elements that start no poison; `vsel` and `vcls` consume
nothing at all (R149, R150). R146: `vrcp`, `vrsq`, `vsqr`, `vdiv`, `vex2` and `vlg2` give the exact result rounded once; that of `vex2` and `vlg2` is
a bounded evaluation of it (assumption 21). R44 to R50, R140, R141: every floating word whole, whatever its sources. Element by element, in lane order
and operand order, a foreign NaN and a signalling NaN make an origin each; when there is no poison and the exact result is invalid it makes an INV
origin; else the result is rounded once. A poisoned element takes the smallest id; its lane has its tag set; the word issues from the state with those
origins. R45, R354, R355: an origin takes the next number of its source, is counted in its launch's summary, and goes to the context's log, or is
counted in `PLDROP` when the log is full; one in a bound frame is lost (assumption 17). R148, Table 62: `vcmp` of f32 compares numbers, consumes its
sources as those words do, and finds a lane with poison unordered. -/
def Obligations.FloatingWords : Prop :=
  (∀ (h : Hdr) (f : FmtV) (s : State) (k : Nat), s.issues k →
       let ty := f.ty.toNat
       let a := fun n e => fElem ty (srcA s f n) e
       let b := fun n e => fElem ty (opndB s f n) e
       let c := fun n e => fElem ty ((s.myTile.v f.vc.toNat).at n) e
       let md := s.modeAt f.rm
       let two := fun n e => [a n e, b n e]
       let three := fun n e => [a n e, b n e, c n e]
       let one := fun n e => [a n e]
       s.rounds (.vadd h f) h f 4 two (fun n e => fAdd (md n e) (a n e) (b n e))
         ∧ s.rounds (.vsub h f) h f 4 two (fun n e => fAdd (md n e) (a n e) (fNeg (b n e)))
         ∧ s.rounds (.vmul h f) h f 4 two (fun n e => fMul (a n e) (b n e))
         ∧ s.rounds (.vfma h f) h f 4 three (fun n e => fFma (md n e) (a n e) (b n e) (c n e))
         ∧ s.rounds (.vfms h f) h f 4 three (fun n e => fFma (md n e) (a n e) (b n e) (fNeg (c n e)))
         ∧ s.rounds (.vfnma h f) h f 4 three (fun n e => fFma (md n e) (fNeg (a n e)) (b n e) (c n e))
         ∧ s.rounds (.vrcp h f) h f 12 one (fun n e => fDiv (.fin false 1 0) (a n e))
         ∧ s.rounds (.vrsq h f) h f 12 one (fun n e => fRsqrt (a n e))
         ∧ s.rounds (.vsqr h f) h f 24 one (fun n e => fSqrt (a n e))
         ∧ s.rounds (.vdiv h f) h f 24 two (fun n e => fDiv (a n e) (b n e))
         ∧ s.rounds (.vex2 h f) h f 12 one (fun n e => fExp2 (a n e))
         ∧ s.rounds (.vlg2 h f) h f 12 one (fun n e => fLog2 (a n e)))
    ∧ (∀ (h : Hdr) (f : FmtV) (s : State) (k : Nat), s.issues k →
       let ty := f.ty.toNat
       let A := fun n => srcA s f n
       let B := fun n => opndB s f n
       let a := fun n e => fElem ty (A n) e
       let b := fun n e => fElem ty (B n) e
       let x := fun n e => elemBits ty (A n).bits e
       let y := fun n e => elemBits ty (B n).bits e
       let sg := 2 ^ (elemW ty - 1)
       let bits := fun (i : Instr) (two : Bool) (r : Nat → Nat → Nat) =>
         (∀ n e, s.laneOn f.mask n → e < elems ty → (a n e).ordinary = true ∧ (two = true → (b n e).ordinary = true)) →
           ∃ v, s.gives i h f 4 1 v
             ∧ ∀ n e, s.laneOn f.mask n → e < elems ty → elemBits ty (v.at n).bits e = r n e % 2 ^ elemW ty
       bits (.vmin h f) true (fun n e => if fLess (b n e) (a n e) then y n e else x n e)
         ∧ bits (.vmax h f) true (fun n e => if fLess (a n e) (b n e) then y n e else x n e)
         ∧ bits (.vabs h f) false (fun n e => x n e % sg)
         ∧ bits (.vneg h f) false (fun n e => (x n e + sg) % (2 * sg))
         ∧ bits (.vcps h f) true (fun n e => x n e % sg + y n e / sg * sg)
         ∧ s.moves (.vsel h f) h f (fun n => if activeL (s.myTile.mask f.vc.toNat) n then A n else B n)
         ∧ s.moves (.vcls h f) h f (fun n => ⟨BitVec.ofNat 32 (packBits (elemW ty)
             ((laneFV ty (A n)).map fun v => 2 ^ classBit (fmtOfTy ty) v)), false⟩))
    ∧ (∀ (h : Hdr) (f : FmtV) (s : State) (k : Nat), s.issues k → f.ty.toNat < 5 →
       let ty := f.ty.toNat
       let act := s.myTile.mask f.mask.toNat
       let a := fun n e => fElem ty (srcA s f n) e
       let b := fun n e => fElem ty (opndB s f n) e
       let c := fun n e => fElem ty ((s.myTile.v f.vc.toNat).at n) e
       let md := s.modeAt f.rm
       let two := fun n e => [a n e, b n e]
       let three := fun n e => [a n e, b n e, c n e]
       let one := fun n e => [a n e]
       let x := fun n e => elemBits ty (srcA s f n).bits e
       let y := fun n e => elemBits ty (opndB s f n).bits e
       let sg := 2 ^ (elemW ty - 1)
       let full := fun (i : Instr) (lat : Nat) (srcs : Nat → Nat → List FV) (ex : Nat → Nat → Ex) =>
         s.consumes i h lat f.vd.toNat 1 ty (elems ty) act srcs (fun n e => (ex n e).own) fun n e => (roundEx (fmtOfTy ty) (md n e) (ex n e)).1
       let bits := fun (i : Instr) (srcs : Nat → Nat → List FV) (r : Nat → Nat → Nat) =>
         s.consumes i h 4 f.vd.toNat 1 ty (elems ty) act srcs (fun _ _ => none) r
       full (.vadd h f) 4 two (fun n e => fAdd (md n e) (a n e) (b n e))
         ∧ full (.vsub h f) 4 two (fun n e => fAdd (md n e) (a n e) (fNeg (b n e)))
         ∧ full (.vmul h f) 4 two (fun n e => fMul (a n e) (b n e))
         ∧ full (.vfma h f) 4 three (fun n e => fFma (md n e) (a n e) (b n e) (c n e))
         ∧ full (.vfms h f) 4 three (fun n e => fFma (md n e) (a n e) (b n e) (fNeg (c n e)))
         ∧ full (.vfnma h f) 4 three (fun n e => fFma (md n e) (fNeg (a n e)) (b n e) (c n e))
         ∧ full (.vrcp h f) 12 one (fun n e => fDiv (.fin false 1 0) (a n e))
         ∧ full (.vrsq h f) 12 one (fun n e => fRsqrt (a n e))
         ∧ full (.vsqr h f) 24 one (fun n e => fSqrt (a n e))
         ∧ full (.vdiv h f) 24 two (fun n e => fDiv (a n e) (b n e))
         ∧ full (.vex2 h f) 12 one (fun n e => fExp2 (a n e))
         ∧ full (.vlg2 h f) 12 one (fun n e => fLog2 (a n e))
         ∧ bits (.vmin h f) two (fun n e => if fLess (b n e) (a n e) then y n e else x n e)
         ∧ bits (.vmax h f) two (fun n e => if fLess (a n e) (b n e) then y n e else x n e)
         ∧ bits (.vabs h f) one (fun n e => x n e % sg)
         ∧ bits (.vneg h f) one (fun n e => (x n e + sg) % (2 * sg))
         ∧ bits (.vcps h f) two (fun n e => x n e % sg + y n e / sg * sg))
    ∧ (∀ (h : Hdr) (f : FmtV) (s : State) (k : Nat), s.issues k → f.ty.toNat = 0 →
       let act := s.myTile.mask f.mask.toNat
       let x := fun n => fElem 0 (srcA s f n) 0
       let y := fun n => fElem 0 (opndB s f n) 0
       ∃ v, exec (.vcmp h f) s = .next ((s.upTo act 1 (fun n _ => eltKinds [x n, y n] none) 64 0).issued h 2 [.mask f.vd.toNat v act] none)
         ∧ ∀ n, s.laneOn f.mask n →
           let ord := (x n).ordinary && (y n).ordinary
           let eq := fEq (x n) (y n)
           let lt := fLess (x n) (y n) && !eq
           v.getLsbD n = [ord && eq, !ord || !eq, ord && lt, ord && (lt || eq), ord && !(lt || eq), ord && !lt, !ord, ord].getD f.fn.toNat false)
    ∧ (∀ (s : State) (o : OrgAt) (kind : Nat),
       let t := s.tile o.tile
       let R := s.region t.rgn
       let C := s.ctx R.ctx
       let n := tget 0 t.psnc o.src
       let id := 2 ^ 21 + t.tix % 2 ^ 11 * 2 ^ 10 + o.src * 2 ^ 7 + n
       let u := (s.newOrigin o kind).1
       let at_ := C.plbase + 32 * C.plhead
       (s.newOrigin o kind).2 = id ∧ u.tile o.tile = { t with psnc := tset t.psnc o.src (min (n + 1) 127) }
         ∧ (∀ k, k ≠ o.tile → u.tile k = s.tile k)
         ∧ u.region t.rgn = { R with origins := min (R.origins + 1) (2 ^ 32 - 1), minid := if R.origins = 0 then id else min R.minid id }
         ∧ (∀ r, r ≠ t.rgn → u.region r = s.region r) ∧ (∀ c, c ≠ R.ctx → u.ctx c = s.ctx c)
         ∧ (C.pllen = 0 → u.ctx R.ctx = C ∧ u.dram = s.dram)
         ∧ (C.pllen ≠ 0 → C.plhead = C.pllen → u.ctx R.ctx = { C with pldrop := min (C.pldrop + 1) (2 ^ 32 - 1) } ∧ u.dram = s.dram)
         ∧ (C.pllen ≠ 0 → C.plhead ≠ C.pllen → u.ctx R.ctx = { C with plhead := C.plhead + 1 }
           ∧ (∀ a, a < at_ ∨ at_ + 32 ≤ a → mget u.dram a = mget s.dram a)
           ∧ (s.inBound at_ 32 = true → u.dram = s.dram)
           ∧ (s.inBound at_ 32 = false → Memory.wf s.dram = true → mread u.dram at_ 32 =
               leBytes 8 (kind + id * 2 ^ 8 + t.tix * 2 ^ 40) ++ leBytes 8 (o.pc % 2 ^ 32 + o.oid * 2 ^ 32) ++ leBytes 8 o.what
                 ++ leBytes 8 (o.step % 2 ^ 40 + R.launch.lseq % 2 ^ 24 * 2 ^ 40))))

/-- R147 and R142: the integer words wrap or saturate each element; R49: a tagged source lane makes the result lane poison.
R147: the bitwise words on whole lanes, with the same poison. -/
def Obligations.IntegerWords : Prop :=
  (∀ (h : Hdr) (f : FmtV) (s : State) (k : Nat), s.issues k →
       let ty := f.ty.toNat
       let w := elemW ty
       let A := srcA s f
       let B := opndB s f
       let C := fun n => (s.myTile.v f.vc.toNat).at n
       let a := fun n e => iElem ty (A n).bits e
       let b := fun n e => iElem ty (B n).bits e
       let c := fun n e => iElem ty (C n).bits e
       let two := fun n => [A n, B n]
       s.integers (.viadd h f) h f two (fun n e => a n e + b n e)
         ∧ s.integers (.visub h f) h f two (fun n e => a n e - b n e)
         ∧ s.integers (.vimul h f) h f two (fun n e => a n e * b n e)
         ∧ s.integers (.vimad h f) h f (fun n => [A n, B n, C n]) (fun n e => a n e * b n e + c n e)
         ∧ s.integers (.vimulh h f) h f two (fun n e => a n e * b n e / 2 ^ w)
         ∧ s.integers (.vimin h f) h f two (fun n e => min (a n e) (b n e))
         ∧ s.integers (.vimax h f) h f two (fun n e => max (a n e) (b n e))
         ∧ s.integers (.vadds h f) h f two (fun n e => clampTy ty (a n e + b n e))
         ∧ s.integers (.vsubs h f) h f two (fun n e => clampTy ty (a n e - b n e))
         ∧ s.integers (.vshl h f) h f two (fun n e =>
             (elemBits ty (A n).bits e * 2 ^ (elemBits ty (B n).bits e % w) : Nat))
         ∧ s.integers (.vshr h f) h f two (fun n e => (elemBits ty (A n).bits e / 2 ^ (elemBits ty (B n).bits e % w) : Nat))
         ∧ s.integers (.vsar h f) h f two (fun n e => sextN w (elemBits ty (A n).bits e) / 2 ^ (elemBits ty (B n).bits e % w)))
    ∧ (∀ (h : Hdr) (f : FmtV) (s : State) (k : Nat), s.issues k →
       let A := srcA s f
       let B := opndB s f
       let clean := fun (i : Instr) (two : Bool) (g : BitVec 32 → BitVec 32 → BitVec 32) =>
         ∃ v, s.gives i h f 2 0 v ∧ ∀ n, s.laneOn f.mask n →
           let ids := ((if two then [A n, B n] else [A n]).filter Lane.tag).map Lane.id
           (ids = [] → v.at n = ⟨g (A n).bits (B n).bits, false⟩) ∧ (ids ≠ [] → v.at n = Lane.ipoison (poisonMerge ids))
       clean (.vand h f) true (fun a b => a &&& b) ∧ clean (.vor h f) true (fun a b => a ||| b)
         ∧ clean (.vxor h f) true (fun a b => a ^^^ b) ∧ clean (.vandn h f) true (fun a b => a &&& ~~~b)
         ∧ clean (.vpopc h f) false (fun a _ => BitVec.ofNat 32 ((List.range 32).filter fun i => a.getLsbD i).length)
         ∧ clean (.vclz h f) false (fun a _ => BitVec.ofNat 32 (clzN 32 a.toNat)))

/-- R157, R158, R173, R175: the words that move lanes, taking poison with them and consuming none.
R148, R175: the words that write a lane mask. An integer compare sets the bit of an active lane whose elements compare. -/
def Obligations.MoveAndMaskWords : Prop :=
  (∀ (h : Hdr) (f : FmtV) (s : State) (k : Nat), s.issues k →
       let A := srcA s f
       let B := opndB s f
       let V := fun r n => (s.myTile.v r).at n
       s.moves (.vmov h f) h f A ∧ s.moves (.vsplat h f) h f B
         ∧ s.moves (.viota h f) h f (fun n => if (B n).tag then B n else ⟨(B n).bits + BitVec.ofNat 32 n, false⟩)
         ∧ (∀ x, opndIdx s f = .inl x →
             s.moves (.vext h f) h f (fun _ => A x) ∧ s.moves (.vrot h f) h f (fun n => A ((n + x) % 64))
               ∧ ∃ v, exec (.vins h f) s = .next (s.issued h 2 [.vec f.vd.toNat v (s.myTile.mask f.mask.toNat &&& BitVec.ofNat 64 (2 ^ x))]
                   (some (0, f.vd.toNat))) ∧ ∀ n, n < 64 → v.at n = A 0)
         ∧ s.moves (.vperm h f) h f (fun n =>
             if (V f.vb.toNat n).tag then Lane.ipoison (V f.vb.toNat n).id else A ((V f.vb.toNat n).bits.toNat % 64))
         ∧ s.moves (.vshuf h f) h f (fun n =>
             if (V f.vc.toNat n).tag then Lane.ipoison (V f.vc.toNat n).id
             else if (V f.vc.toNat n).bits.toNat % 128 < 64 then A ((V f.vc.toNat n).bits.toNat % 128)
             else V f.vb.toNat ((V f.vc.toNat n).bits.toNat % 128 - 64))
         ∧ s.moves (.vexpd h f) h f (fun n => A ((List.range n).filter (activeL (s.myTile.mask f.mask.toNat))).length)
         ∧ (∃ v, exec (.vcmprs h f) s = .next (s.issued h 2
               [.vec f.vd.toNat v (lowMask (setLanes (s.myTile.mask f.mask.toNat)).length)] (some (0, f.vd.toNat)))
             ∧ ∀ n, n < 64 → v.at n = A ((setLanes (s.myTile.mask f.mask.toNat)).getD n 0))
         ∧ s.moves (.vpid h f) h f (fun n => ⟨BitVec.ofNat 32 ((laneId f.ty.toNat (A n)).getD 0), false⟩)
         ∧ s.moves (.jpopc h f) h f (fun _ =>
             ⟨BitVec.ofNat 32 ((List.range 64).filter fun i => (s.myTile.mask f.va.toNat).getLsbD i).length, false⟩)
         ∧ s.moves (.jffs h f) h f (fun _ => ⟨BitVec.ofNat 32 (ctzN 64 (s.myTile.mask f.va.toNat).toNat), false⟩))
    ∧ (∀ (h : Hdr) (f : FmtV) (s : State) (k : Nat), s.issues k →
       let x := s.myTile.mask f.va.toNat
       let y := s.myTile.mask f.vb.toNat
       let wr := fun (i : Instr) (v : BitVec 64) => exec i s = .next (s.issued h 2 [.mask f.vd.toNat v (BitVec.allOnes 64)] none)
       wr (.jand h f) (x &&& y) ∧ wr (.jor h f) (x ||| y) ∧ wr (.jxor h f) (x ^^^ y) ∧ wr (.jnot h f) (~~~x)
         ∧ (f.ty.toNat ≠ 0 → ∃ v, exec (.vcmp h f) s = .next (s.issued h 2 [.mask f.vd.toNat v (s.myTile.mask f.mask.toNat)] none)
             ∧ ∀ n, s.laneOn f.mask n → (srcA s f n).tag = false → (opndB s f n).tag = false → f.fn.toNat < 6 →
               let a := iElem f.ty.toNat (srcA s f n).bits 0
               let b := iElem f.ty.toNat (opndB s f n).bits 0
               (v.getLsbD n = true ↔
                 [decide (a = b), decide (a ≠ b), decide (a < b), decide (a ≤ b), decide (b < a), decide (b ≤ a)].getD f.fn.toNat false = true)))

/-- R144, R145, R148, R151 to R154, R160 to R172: the words with a result of their own shape issue with their results in the
registers the rules name, after the table's latency; whatever origins they create are in the state they leave.
R161, R162: the integer sum of `vred` over unpoisoned lanes is the sum of the active lanes modulo 2^32, in all 64 lanes.
R144, R145, R151 to R154, R166 to R174: their results. `vdp2`, `vrnd`, `vcvt`, `vmdq` and `vscl` element by element, with the poison of each and the origins
of the state they issue from, as the words of R143; `vrnd` gives the integral value below or above the magnitude, the one that Table 17 names for the
mode; `vdp4` the exact sum modulo 2^32; `vlqd` the
values of its codewords in E4M3; `vmqnt` for each block the smallest code that holds its 32 elements, or 254, and the elements rounded or clamped, or
its poison block; `vpsn` one SOFT origin; `vprep` its source, with what it replaces counted in one CLEAR entry.
R160 to R165: `vred`, `vredx` and `vscan` adopt the active lanes in order, and give the value or the smallest id; sums of f32 in the order of R52 and R164. -/
def Obligations.GroupedWords : Prop :=
  (∀ (h : Hdr) (f : FmtV) (g : FmtVX) (s : State) (k : Nat), s.issues k →
       let vecs := fun (l : List Nat) (d : List Dest) => d.map (fun x => match x with
         | .vec r _ _ => r
         | _ => 0xFF) = l
       let gives := fun (i : Instr) (lat : Nat) (regs : List Nat) (y : Nat) =>
         ∃ (s' : State) (d : List Dest), exec i s = .next (s'.issued h lat d (some (y, regs.getLast?.getD 0))) ∧ vecs regs d ∧ s'.myTile.vreg = s.myTile.vreg
           ∧ s'.cur = s.cur
           ∧ ((∃ kinds, (∀ x ∈ kinds, x ∈ [okINV, okSNAN, okFOREIGN, okOVF, okSOFT]) ∧ s' = s.taking kinds)
             ∨ ∃ id cnt, i = .vprep h f ∧ s' = s.logEntry s.orgC okCLEAR id cnt)
       let d := f.vd.toNat
       gives (.vdp2 h f) 4 [d] 1 ∧ gives (.vdp4 h f) 4 [d] 1 ∧ gives (.vrnd h f) 4 [d] 1
         ∧ gives (.vcvt h g) 4 ((List.range (max 1 (elems g.ty.toNat / elems g.dty.toNat))).map (g.vd.toNat + ·)) 1
         ∧ gives (.vred h f) 8 [d] 1 ∧ gives (.vredx h f) 8 [d, d + 1] 1 ∧ gives (.vscan h f) 8 [d] 1
         ∧ gives (.vmqnt h g) 6 [g.vd.toNat, g.vd.toNat + 1] 1
         ∧ (1 ≤ elems g.ty.toNat / elems g.dty.toNat →
             gives (.vmdq h g) 6 ((List.range (elems g.ty.toNat / elems g.dty.toNat)).map (g.vd.toNat + ·)) 1)
         ∧ gives (.vscl h g) 6 [g.vd.toNat] 1 ∧ gives (.vlqd h g) 6 ((List.range 4).map (g.vd.toNat + ·)) 1
         ∧ gives (.vpsn h f) 2 [d] 0 ∧ gives (.vprep h f) 2 [d] 0)
    ∧ (∀ (h : Hdr) (f : FmtV) (s : State) (k : Nat), s.issues k → f.fn = 0 → f.ty.toNat = 6 ∨ f.ty.toNat = 7 →
       (∀ n, s.laneOn f.mask n → (srcA s f n).tag = false) →
         ∃ v, exec (.vred h f) s = .next (s.issued h 8 [.vec f.vd.toNat v (BitVec.allOnes 64)] (some (1, f.vd.toNat)))
           ∧ ∀ n, n < 64 → v.at n = ⟨BitVec.ofNat 32 (((List.range 64).map fun j =>
               if activeL (s.myTile.mask f.mask.toNat) j then (srcA s f j).bits.toNat else 0).sum), false⟩)
    ∧ (∀ (h : Hdr) (f : FmtV) (s : State) (k : Nat), s.issues k →
       let ty := f.ty.toNat
       let act := s.myTile.mask f.mask.toNat
       let A := srcA s f
       let B := opndB s f
       let C := fun n => (s.myTile.v f.vc.toNat).at n
       let md := s.modeAt f.rm
       let a := fun n e => fElem ty (A n) e
       let dot := fun n =>
         match fProd (fElem 1 (A n) 0) (fElem 1 (B n) 0), fProd (fElem 1 (A n) 1) (fElem 1 (B n) 1) with
         | some p, some q => fAdd3 (md n 0) (fElem 0 (C n) 0) p q
         | _, _ => .invalid
       s.consumes (.vdp2 h f) h 4 f.vd.toNat 1 0 1 act
           (fun n _ => [fElem 1 (A n) 0, fElem 1 (B n) 0, fElem 1 (A n) 1, fElem 1 (B n) 1, fElem 0 (C n) 0]) (fun n _ => (dot n).own)
           (fun n _ => (roundEx fFP32 (md n 0) (dot n)).1)
         ∧ (ty < 5 → s.consumes (.vrnd h f) h 4 f.vd.toNat 1 ty (elems ty) act (fun n e => [a n e]) (fun _ _ => none)
             (fun n e => (roundEx (fmtOfTy ty) (md n e) (fRnd (md n e) (a n e))).1))
         ∧ (f.rm.toNat < 6 → ∀ n e neg m x, a n e = .fin neg m x →
             let N := m * 2 ^ x.toNat
             let D := 2 ^ (-x).toNat
             let lo := N / D
             let r := N % D
             let q := if r ≠ 0 ∧ (f.rm = 0 ∧ (D < 2 * r ∨ 2 * r = D ∧ lo % 2 = 1) ∨ f.rm = 2 ∧ neg = false ∨ f.rm = 3 ∧ neg = true
               ∨ f.rm = 4 ∧ D ≤ 2 * r ∨ f.rm = 5 ∧ (md n e).rnd < 2 ^ 32 * r / D) then lo + 1 else lo
             fRnd (md n e) (a n e) = if q = 0 then .zero neg else .num neg q 1 false)
         ∧ (∃ v, exec (.vdp4 h f) s = .next (s.issued h 4 [.vec f.vd.toNat v act] (some (1, f.vd.toNat)))
           ∧ ∀ n, s.laneOn f.mask n →
             let p := fun e => iElem ty (A n).bits e * iElem ty (B n).bits e
             let bad := ([A n, B n, C n].filter Lane.tag).map Lane.id
             (bad = [] → v.at n = ⟨BitVec.ofInt 32 ((C n).bits.toNat + p 0 + p 1 + p 2 + p 3), false⟩)
               ∧ (bad ≠ [] → v.at n = Lane.ipoison (poisonMerge bad)))
         ∧ (act = 0 → ∃ v, exec (.vpsn h f) s = .next (s.issued h 2 [.vec f.vd.toNat v 0] (some (0, f.vd.toNat))))
         ∧ (act ≠ 0 → ∃ v, exec (.vpsn h f) s = .next ((s.newOrigin s.orgC okSOFT).1.issued h 2 [.vec f.vd.toNat v act] (some (0, f.vd.toNat)))
           ∧ ∀ n, s.laneOn f.mask n → v.at n = poisLane ty (s.newOrigin s.orgC okSOFT).2)
         ∧ ((s.ctx (s.ctxNo s.me)).pclr = false → ∃ v, exec (.vprep h f) s = .next (s.issued h 2 [.vec f.vd.toNat v act] (some (0, f.vd.toNat)))
           ∧ ∀ n, s.laneOn f.mask n → v.at n = A n)
         ∧ ((s.ctx (s.ctxNo s.me)).pclr = true →
           let ids := fun n => if ty = 12 then (if (A n).tag then [(A n).id] else []) else (laneFV ty (A n)).flatMap fun v => match v with
             | .poison id => [id]
             | .quiet | .signalling => if ty = 0 then [anonId] else []
             | _ => []
           let hit := (List.range 64).filter fun n => activeL act n && (ids n != [])
           ∃ (v : Vec) (u : State), exec (.vprep h f) s = .next (u.issued h 2 [.vec f.vd.toNat v act] (some (0, f.vd.toNat)))
             ∧ (∀ n, s.laneOn f.mask n → v.at n = if ids n = [] then A n else B n) ∧ (hit = [] → u = s)
             ∧ (hit ≠ [] → u = s.logEntry s.orgC okCLEAR (poisonMerge (hit.flatMap ids)) hit.length)))
    ∧ (∀ (h : Hdr) (f : FmtV) (s : State) (k : Nat), s.issues k → elems f.ty.toNat = 1 →
       let ty := f.ty.toNat
       let fn := f.fn.toNat
       let act := s.myTile.mask f.mask.toNat
       let A := srcA s f
       let J := (List.range 64).filter (activeL act)
       let src := fun n => if ty = 0 then [fElem 0 (A n) 0] else if (A n).tag then [.poison (A n).id] else []
       let kinds := fun (n _ : Nat) => eltKinds (src n) none
       let S := s.upTo act 1 kinds
       let ids := fun n => (S n 0).eltIds (src n) none
       let md : Mode := ⟨f.rm.toNat, 0⟩
       let all64 := BitVec.allOnes 64
       let lanes := fun (r : Lane) (v : Vec) => ∀ n, n < 64 → v.at n = r
       let fx := fun n => if activeL act n then (A n).bits.toNat else 0
       ((ty ≠ 0 ∨ fn = 1 ∨ fn = 2) → ∃ v r, exec (.vred h f) s = .next ((S 64 0).issued h 8 [.vec f.vd.toNat v all64] (some (1, f.vd.toNat))) ∧ lanes r v
           ∧ (J.flatMap ids = [] → r.tag = false ∧ reduced fn ty J (fun n => (A n).bits) r.bits)
           ∧ (J.flatMap ids ≠ [] → r = poisLane ty (poisonMerge (J.flatMap ids))))
         ∧ (ty = 0 → fn = 0 → (∀ n ∈ J, (fElem 0 (A n) 0).ordinary = true) → ∀ y, redTree (addR md) fx 6 0 = some y →
             ∃ v, exec (.vred h f) s = .next (s.issued h 8 [.vec f.vd.toNat v all64] (some (1, f.vd.toNat))) ∧ lanes ⟨BitVec.ofNat 32 y, false⟩ v)
         ∧ (∃ v w r i, exec (.vredx h f) s =
               .next ((S 64 0).issued h 8 [.vec f.vd.toNat v all64, .vec (f.vd.toNat + 1) w all64] (some (1, f.vd.toNat + 1)))
             ∧ lanes r v ∧ lanes ⟨BitVec.ofNat 32 i, false⟩ w
             ∧ (J = [] → i = 0xFFFF ∧ r.tag = false ∧ reduced (if fn = 1 then 2 else 1) ty J (fun n => (A n).bits) r.bits)
             ∧ (J ≠ [] → J.flatMap ids = [] → i ∈ J ∧ r = ⟨(A i).bits, false⟩ ∧ ∀ n ∈ J,
                 let better := fun (x y : BitVec 32) => if fn = 1 then tyLess ty y.toNat x.toNat else tyLess ty x.toNat y.toNat
                 better (A n).bits r.bits = false ∧ (n < i → better r.bits (A n).bits = true))
             ∧ (J.flatMap ids ≠ [] → i ∈ J ∧ r = poisLane ty (poisonMerge (J.flatMap ids)) ∧ poisonMerge (J.flatMap ids) ∈ ids i
                 ∧ ∀ n ∈ J, n < i → poisonMerge (J.flatMap ids) ∉ ids n))
         ∧ (fn < 4 →
           let ex := fn = 3
           let K := fun n => (List.range (if ex then n else n + 1)).filter (activeL act)
           ((ty ≠ 0 ∨ fn = 1 ∨ fn = 2) → ∃ v, exec (.vscan h f) s = .next ((S 64 0).issued h 8 [.vec f.vd.toNat v act] (some (1, f.vd.toNat)))
             ∧ ∀ n, s.laneOn f.mask n →
               ((K n).flatMap ids = [] → (v.at n).tag = false ∧ reduced (if ex then 0 else fn) ty (K n) (fun n => (A n).bits) (v.at n).bits)
                 ∧ ((K n).flatMap ids ≠ [] → v.at n = poisLane ty (poisonMerge ((K n).flatMap ids))))
             ∧ (ty = 0 → (fn = 0 ∨ fn = 3) → (∀ n ∈ J, (fElem 0 (A n) 0).ordinary = true) →
               (∀ n, n < 64 → (scanTree (addR md) [1, 2, 4, 8, 16, 32] (fun n => some (fx n)) n).isSome = true) →
               ∃ v, exec (.vscan h f) s = .next (s.issued h 8 [.vec f.vd.toNat v act] (some (1, f.vd.toNat)))
                 ∧ ∀ n, s.laneOn f.mask n → v.at n = ⟨BitVec.ofNat 32 (if ex ∧ n = 0 then 0 else
                     (scanTree (addR md) [1, 2, 4, 8, 16, 32] (fun n => some (fx n)) (if ex then n - 1 else n)).getD 0), false⟩)))
    ∧ (∀ (h : Hdr) (g : FmtVX) (s : State) (k : Nat), s.issues k →
       let st := g.ty.toNat
       let dt := g.dty.toNat
       let sc := elems st
       let dc := elems dt
       let w := max sc dc
       let x := fun n e => (s.myTile.v (g.va.toNat + e / sc)).at n
       let fv := fun n e => fElem st (x n e) (e % sc)
       let iv := fun n e => iElem st (x n e).bits (e % sc)
       let md := s.modeAt g.rm
       let ex := fun n e => if isIntTy st then exInt (iv n e) else fExact (fv n e)
       let r := fun n e => roundEx (fmtOfTy dt) (md n e) (ex n e)
       s.consumes (.vcvt h g) h 4 g.vd.toNat (max 1 (sc / dc)) dt w (s.myTile.mask g.mask.toNat)
         (fun n e => if isIntTy st then (if (x n e).tag then [.poison (x n e).id] else []) else [fv n e])
         (fun n e => if isIntTy dt = false ∧ g.ovp = true ∧ (r n e).2 = true then some okOVF else none)
         (fun n e => if isIntTy dt then wrapN (elemW dt) (clampTy dt (if isIntTy st then iv n e else match fv n e with
             | .inf neg => if neg then -(2 ^ 40) else 2 ^ 40
             | v => (roundInt (md n e) (fExact v)).getD 0))
           else (r n e).1))
    ∧ (∀ (l : Lane), let x := l.bits.toNat
       (x % 256 = 255 → l.tag = true → bitN x 29 = true → scaleOf l = .pois (x / 2 ^ 8 % 2 ^ 22))
         ∧ (x % 256 = 255 → (l.tag = false ∨ bitN x 29 = false) → scaleOf l = .foreign)
         ∧ (x % 256 ≠ 255 → l.tag = true → scaleOf l = .pois l.id) ∧ (x % 256 ≠ 255 → l.tag = false → scaleOf l = .code (x % 256)))
    ∧ (∀ (h : Hdr) (g : FmtVX) (s : State) (k : Nat), s.issues k →
       let st := g.ty.toNat
       let dt := g.dty.toNat
       let sc := elems st
       let dc := elems dt
       let md := s.modeAt g.rm
       let A := fun n => (s.myTile.v g.va.toNat).at n
       let B := fun n => (s.myTile.v g.vb.toNat).at n
       let B1 := fun n => (s.myTile.v (g.vb.toNat + 1)).at n
       let D := fun n => (s.myTile.v g.vd.toNat).at n
       let sum := fun n => fAdd (md n 0) (fElem 0 (D n) 0) ((fElem 0 (A n) 0).scale ((B n).bits.toNat % 256 + (B1 n).bits.toNat % 256 - 254))
       s.consumes (.vscl h g) h 6 g.vd.toNat 1 0 1 (s.myTile.mask g.mask.toNat)
           (fun n _ => [fElem 0 (D n) 0, fElem 0 (A n) 0, scaleFV (B n), scaleFV (B1 n)]) (fun n _ => (sum n).own)
           (fun n _ => (roundEx fFP32 (md n 0) (sum n)).1)
         ∧ ((st = 3 ∨ st = 5) → 1 ≤ sc / dc →
           let z := fun n => scaleOf (B (n * sc / 32))
           let kinds := fun n e => match z n with
             | .foreign => if n * sc % 32 = 0 ∧ e = 0 then [okFOREIGN] else []
             | .pois _ => []
             | .code _ => eltKinds [fElem st (A n) e] none
           let S := s.upTo (BitVec.allOnes 64) sc kinds
           s.grouped (.vmdq h g) h 6 g.vd.toNat (sc / dc) dt sc (BitVec.allOnes 64) kinds
             (fun n e => match z n with
               | .foreign => let t := S (n * sc / 32 * 32 / sc) 0; [(t.newOrigin t.orgC okFOREIGN).2]
               | .pois id => [id]
               | .code _ => (S n e).eltIds [fElem st (A n) e] none)
             (fun n e => match z n with
               | .code c => (roundEx (fmtOfTy dt) (md n e) (fExact ((fElem st (A n) e).scale ((c : Int) - 127)))).1
               | _ => 0))
         ∧ (∃ vs : Nat → Vec, exec (.vlqd h g) s = .next (s.issued h 6 ((List.range 4).map fun r => .vec (g.vd.toNat + r) (vs r) (BitVec.allOnes 64))
               (some (1, g.vd.toNat + 3)))
           ∧ ∀ r n, r < 4 → n < 64 →
             let l := A (16 * r + n / 4)
             let y := (vs r).at n
             (l.tag = true → y = ⟨0x7F7F7F7F, true⟩)
               ∧ (l.tag = false → y.tag = false ∧ ∀ e, e < 4 →
                 let w := l.bits.toNat / 2 ^ (16 * (n % 4 / 2)) % 2 ^ 16
                 let i := 4 * (n % 2) + e
                 let m := (s.myTile.mag.getD (w % 256) 0).toNat / 2 ^ (4 * i) % 16
                 let q := if bitN w 15 = true ∧ m ≤ 7 then 2 * m + 1 else 2 * m
                 let neg := if i < 7 then bitN w (8 + i) else decide (((List.range 7).filter fun j => bitN w (8 + j)).length % 2 = 1)
                 fEq (decodeF fE4M3 (elemBits 3 y.bits e)) (.fin neg q (-2)) = true ∧ bitN (elemBits 3 y.bits e) 7 = neg))
         ∧ ((dt = 3 ∨ dt = 5) → sc ≤ dc →
           let nl := 32 / dc
           let maxf := if dt = 3 then 448 else 6
           let src := fun b n => fElem st ((s.myTile.v (g.va.toNat + n % dc / sc)).at (b * nl + n / dc)) (n % dc % sc)
           let clean := fun b => (List.range 32).all fun n => (src b n).ordinary
           let clamps := fun b => g.ovp && (List.range 32).any fun n => !(src b n).under maxf (-127)
           let kinds := fun b n => if clean b then (if n = 31 ∧ clamps b = true then [okOVF] else []) else (src b n).takes
           let S := s.upTo (BitVec.allOnes 64) 32 kinds
           let ids := fun b => if clean b then (if clamps b then [((S b 31).newOrigin (S b 31).orgC okOVF).2] else []) else (S b 0).idsOf ((List.range 32).map (src b))
           ∃ (v y : Vec) (c : Nat → Nat), exec (.vmqnt h g) s = .next ((S (2 * dc) 0).issued h 6
               [.vec g.vd.toNat v (BitVec.allOnes 64), .vec (g.vd.toNat + 1) y (BitVec.allOnes 64)] (some (1, g.vd.toNat + 1)))
             ∧ (∀ n, 2 * dc ≤ n → n < 64 → y.at n = Lane.zero)
             ∧ ∀ b, b < 2 * dc →
               (ids b = [] → y.at b = ⟨BitVec.ofNat 32 (c b), false⟩ ∧ c b ≤ 254
                 ∧ ((∀ n, n < 32 → (src b n).under maxf (127 - c b) = true) ∨ c b = 254)
                 ∧ (∀ z, z < c b → ∃ n, n < 32 ∧ (src b n).under maxf (127 - z) = false)
                 ∧ ∀ j e, j < nl → e < dc →
                   let x := src b (j * dc + e)
                   (v.at (b * nl + j)).tag = false ∧ elemBits dt (v.at (b * nl + j)).bits e =
                     if x.under maxf (127 - c b) then (roundEx (fmtOfTy dt) (md (b * nl + j) e) (fExact (x.scale (127 - c b)))).1 % 2 ^ elemW dt
                     else if dt = 3 then 0x7E + (if x.isNeg then 0x80 else 0) else 7 + if x.isNeg then 8 else 0)
               ∧ (ids b ≠ [] → let id := poisonMerge (ids b)
                 y.at b = ⟨BitVec.ofNat 32 (0xFF + id % 2 ^ 22 * 2 ^ 8), true⟩ ∧ v.at (b * nl) = Lane.ipoison id
                   ∧ ∀ j, 0 < j → j < nl → v.at (b * nl + j) = ⟨0, true⟩)))

/-! ### Loads, stores, marks and fences (08_memory_order.md) -/

/-- R178: the first check that fails, in lane order, is the trap a load or a store raises, and nothing else happens; `rfl` and `spl` reach the
tile's own scratchpad only.
R83: `Cap.Check` case by case, in its order, on the fields of Table 78 cut out of the capability: the null capability, a clear tag, a missing
right, bounds that are not a span of the capability's exponent, a misaligned address; and the object and the offset when all are met.
R178, R347: the checks of an access in lane order: the trap of the first that fails, POISADR with the operand where its offset is poisoned, and
otherwise the place of every lane. -/
def Obligations.FailedChecksTrap : Prop :=
  (∀ (c : Cap) (off : Int) (n m align : Nat), 0 < align → m < 2 ^ 8 →
       let e := (c.bits.extractLsb' 42 6).toNat
       let lo := (c.bits.extractLsb' 21 21).toNat * 2 ^ e
       let hi := (c.bits.extractLsb' 0 21).toNat * 2 ^ e
       let adr : Int := (c.bits.extractLsb' 48 48).toNat + off
       let missing := ∃ i, i < 8 ∧ m.testBit i = true ∧ c.bits.getLsbD (96 + i) = false
       let inside := 6 ≤ e ∧ e ≤ 40 ∧ (lo : Int) ≤ adr ∧ adr + n ≤ hi
       (c.bits = 0 → c.tag = false → capCheck c off n m align = .error cCAPNUL)
         ∧ (c.bits ≠ 0 → c.tag = false → capCheck c off n m align = .error cCAPTAG)
         ∧ (c.tag = true → missing → capCheck c off n m align = .error cCAPRGT)
         ∧ (c.tag = true → ¬ missing → ¬ inside → capCheck c off n m align = .error cCAPBND)
         ∧ (c.tag = true → ¬ missing → inside → adr % align ≠ 0 → capCheck c off n m align = .error cALIGN)
         ∧ (c.tag = true → ¬ missing → inside → adr % align = 0 →
             ∃ a : Nat, (a : Int) = adr ∧ capCheck c off n m align = .ok ((c.bits.extractLsb' 104 24).toNat, a)))
    ∧ (∀ (c : Cap) (n m align : Nat) (l r : List Chk) (x : Chk), (∀ y ∈ l, y.pois = none ∧ ∃ z, capCheck c y.off n m align = .ok z) →
       (∃ q, checkAll c n m align l = .ok q ∧ q.map Prod.fst = l.map Chk.lane ∧ q.map (fun z => (z.2 : Int)) = l.map fun y => (c.cur : Int) + y.off)
         ∧ (∀ v, x.pois = some v → checkAll c n m align (l ++ x :: r) = .error { cause := cPOISADR, val := v })
         ∧ (∀ e, x.pois = none → capCheck c x.off n m align = .error e →
             checkAll c n m align (l ++ x :: r) = .error { cause := e, val := (x.off % 2 ^ 64).toNat }))
    ∧ (∀ (h : Hdr) (f : FmtM) (s : State) (k : Nat), s.issues k →
       let c := s.cur.snap.capP f.cp.toNat
       let other := fun (i : Instr) (rights : Nat) => ∀ l, checkAll c 272 rights 16 (chkOne s f) = .ok l → c.oid ≠ oidScr →
         exec i s = (.next (s.take { cause := cCAPRGT, val := ((memOff s f).1 % 2 ^ 64).toNat }) : Out)
       other (.rfl h f) rtR ∧ other (.spl h f) rtW)
    ∧ ∀ (h : Hdr) (f : FmtM) (g : FmtMG) (s : State) (k : Nat) (t : TrapInfo), s.issues k →
    let c := s.cur.snap.capP f.cp.toNat
    let cg := s.cur.snap.capP g.cp.toNat
    let n := 2 ^ f.sz.toNat
    let fails := fun (i : Instr) (r : Except TrapInfo (List (Nat × Nat))) =>
      r = .error t → exec i s = (.next (s.take t) : Out)
    fails (.lds h f) (checkAll c n rtR n (chkOne s f)) ∧ fails (.ldv h f) (checkAll c 4 rtR 4 (chkContig s f))
      ∧ fails (.ldvs h f) (checkAll c n rtR n (chkStride s f)) ∧ fails (.ldvg h g) (checkAll cg 4 rtR 4 (chkIdx s g))
      ∧ fails (.ldvb h f) (checkAll c n rtR n (chkSplat s f)) ∧ fails (.ldo h f) (checkAll c 4 rtR 4 (chkContig s f))
      ∧ fails (.ldc h f) (checkAll c 16 rtR 16 (chkOne s f)) ∧ fails (.rfl h f) (checkAll c 272 rtR 16 (chkOne s f))
      ∧ fails (.stc h f) (checkAll c 16 (if (s.cur.snap.cap (f.ds.toNat % 16)).tag then rtW + rtD else rtW) 16 (chkOne s f))
      ∧ fails (.sts h f) (checkAll c n rtW n (chkOne s f)) ∧ fails (.stv h f) (checkAll c 4 rtW 4 (chkContig s f))
      ∧ fails (.stvs h f) (checkAll c n rtW n (chkStride s f)) ∧ fails (.stvx h g) (checkAll cg 4 rtW 4 (chkIdx s g))
      ∧ fails (.spl h f) (checkAll c 272 rtW 16 (chkOne s f))

/-- R180, R182, R185, R187: loads from the tile's own scratchpad and its pool, with no uncorrectable byte and no DRAM load under way, give the
little-endian bytes at each checked address, zero or sign extended, after 10 and 26 cycles; `ldvb` repeats its element; a capability keeps its granule's
tag when the source capability has D. A load with every lane off takes the latency of the memory its capability names, which is the model's choice
(assumption 18).
A load from any other object sends its access to DRAM and its result waits 1,024 cycles; at its port the access takes the bytes of DRAM, and the result is
then written with them. -/
def Obligations.LoadWords : Prop :=
  (∀ (h : Hdr) (f : FmtM) (g : FmtMG) (s : State) (k : Nat), s.issues k → (s.tile k).scrUE = [] → (s.pool (clusterOf k)).ue = [] → (s.tile k).dacc = [] →
       ∀ (o : Nat) (sp : Space) (lat : Nat), (o, sp, lat) ∈ [(oidScr, .scr k, 10), (oidPool, .pool (clusterOf k), 26)] →
       let c := s.cur.snap.capP f.cp.toNat
       let cg := s.cur.snap.capP g.cp.toNat
       let n := 2 ^ f.sz.toNat
       let ds := f.ds.toNat
       let rd := fun (a w : Nat) => leVal (s.rd sp a w)
       let vec := fun (i : Instr) (cap : Cap) (w ds : Nat) (act : BitVec 64) (chks : List Chk) => cap.oid = o →
         ∀ l, checkAll cap w rtR w chks = .ok l →
           ∃ v, exec i s = .next (s.issued h lat [.vec ds v act] (some (2, ds))) ∧ ∀ x ∈ l, v.at x.1 = ⟨BitVec.ofNat 32 (rd x.2 w), false⟩
       vec (.ldv h f) c 4 ds (actOf s f.mask) (chkContig s f) ∧ vec (.ldo h f) c 4 ds (actOf s f.mask) (chkContig s f)
         ∧ (f.sz.toNat < 3 → vec (.ldvs h f) c n ds (actOf s f.mask) (chkStride s f))
         ∧ vec (.ldvg h g) cg 4 g.ds.toNat (actOf s g.mask) (chkIdx s g)
         ∧ (c.oid = o → ∀ x a, checkAll c n rtR n (chkOne s f) = .ok [(x, a)] → ds % 64 ≠ 0 →
             exec (.lds h f) s = .next (s.issued h lat [.scal (s.cur.snap.phys (ds % 64))
               ⟨if bitN ds 6 then BitVec.ofInt 64 (sextN (8 * n) (rd a n)) else BitVec.ofNat 64 (rd a n), false⟩] none))
         ∧ (c.oid = o → ∀ x a, checkAll c 16 rtR 16 (chkOne s f) = .ok [(x, a)] →
             exec (.ldc h f) s = .next (s.issued h lat [.cap (ds % 16) ⟨BitVec.ofNat 128 (rd a 16), s.tagAt sp a && c.has rtD⟩] none))
         ∧ (c.oid = o → f.sz.toNat < 3 → ∀ x a, checkAll c n rtR n (chkSplat s f) = .ok [(x, a)] →
             ∃ v, exec (.ldvb h f) s = .next (s.issued h lat [.vec ds v (actOf s f.mask)] (some (2, ds)))
               ∧ ∀ j, j < 64 → (v.at j).tag = false ∧ ∀ e, e < 4 / n → (v.at j).bits.toNat / 2 ^ (8 * n * e) % 2 ^ (8 * n) = rd a n)
         ∧ (o = oidScr → c.oid = oidScr → ∀ x a, checkAll c 272 rtR 16 (chkOne s f) = .ok [(x, a)] →
             ∃ v, exec (.rfl h f) s = .next (s.issued h 10 [.vec ds v (BitVec.allOnes 64)] (some (2, ds)))
               ∧ ∀ j, j < 64 → v.at j = ⟨BitVec.ofNat 32 (rd (a + 4 * j) 4), bitN (rd (a + 256) 16) j⟩))
    ∧ (∀ (h : Hdr) (f : FmtM) (g : FmtMG) (s : State) (k : Nat), s.issues k →
       let c := s.cur.snap.capP f.cp.toNat
       let cg := s.cur.snap.capP g.cp.toNat
       let n := 2 ^ f.sz.toNat
       let issues := fun (i : Instr) (cap : Cap) (r : Except TrapInfo (List (Nat × Nat))) => ∀ l, r = .ok l →
         ∃ s' dst y acc, exec i s = (.next (putDue h (issueHead h s') (loadLat cap.oid) dst y acc) : Out)
       issues (.lds h f) c (checkAll c n rtR n (chkOne s f)) ∧ issues (.ldv h f) c (checkAll c 4 rtR 4 (chkContig s f))
         ∧ issues (.ldvs h f) c (checkAll c n rtR n (chkStride s f)) ∧ issues (.ldvg h g) cg (checkAll cg 4 rtR 4 (chkIdx s g))
         ∧ issues (.ldvb h f) c (checkAll c n rtR n (chkSplat s f)) ∧ issues (.ldo h f) c (checkAll c 4 rtR 4 (chkContig s f))
         ∧ issues (.ldc h f) c (checkAll c 16 rtR 16 (chkOne s f)))
    ∧ (∀ (h : Hdr) (f : FmtM) (g : FmtMG) (s : State) (k : Nat), s.issues k →
       let c := s.cur.snap.capP f.cp.toNat
       let cg := s.cur.snap.capP g.cp.toNat
       let n := 2 ^ f.sz.toNat
       let ds := f.ds.toNat
       let sends := fun (i : Instr) (cap : Cap) (w : Nat) (chks : List Chk) (form : LoadForm) (y : Option (Nat × Nat)) => cap.oid ≠ oidScr → cap.oid ≠ oidPool →
         ∀ l, checkAll cap w rtR w chks = .ok l → l ≠ [] →
           ∃ s' x, exec i s = (.next (putDue h (issueHead h s') 1024 [] y (some x.id)) : Out) ∧ (s'.tile k).dacc = (s.tile k).dacc ++ [x]
             ∧ x.write = false ∧ x.oid = cap.oid ∧ x.st = 0 ∧ x.ues = none ∧ x.form = some form ∧ x.parts = l.map (fun z => ⟨z.1, z.2, w, []⟩)
             ∧ s'.dram = s.dram
       sends (.lds h f) c n (chkOne s f) (.scal (if ds % 64 = 0 then 0 else s.cur.snap.phys (ds % 64)) (bitN ds 6)) none
         ∧ sends (.ldv h f) c 4 (chkContig s f) (.vec ds (actOf s f.mask)) (some (2, ds))
         ∧ sends (.ldo h f) c 4 (chkContig s f) (.vec ds (actOf s f.mask)) (some (2, ds))
         ∧ sends (.ldvs h f) c n (chkStride s f) (.vec ds (actOf s f.mask)) (some (2, ds))
         ∧ sends (.ldvg h g) cg 4 (chkIdx s g) (.vec g.ds.toNat (actOf s g.mask)) (some (2, g.ds.toNat))
         ∧ sends (.ldvb h f) c n (chkSplat s f) (.splat ds (actOf s f.mask)) (some (2, ds))
         ∧ sends (.ldc h f) c 16 (chkOne s f) (.cap (ds % 16) (c.has rtD)) none)
    ∧ (∀ (s : State) (k j : Nat) (a : DAcc) (form : LoadForm) (adr : Part → Nat), (s.tile k).dacc = [a] → (a.st, a.id, a.write, a.ues) = (0, j, false, none) →
       a.form = some form → s.reaches k a.oid a.parts adr → s.dramUE = [] →
       let rd := fun (p : Part) => leVal (mread s.dram (adr p) p.n)
       ∃ u y, exec (.dramAccessAtPort k j) s = .next u ∧ u.dram = s.dram ∧ (u.tile k).dacc = [y] ∧ y.st = 3 ∧ y.id = j
         ∧ (∀ r act, form = .vec r act → (a.parts.map Part.lane).Nodup → ∃ v, y.val = [.vec r v act]
             ∧ ∀ p ∈ a.parts, p.lane < 64 → v.at p.lane = ⟨BitVec.ofNat 32 (rd p), false⟩)
         ∧ (∀ ph sgn p, form = .scal ph sgn → ph ≠ 0 → a.parts = [p] →
             y.val = [.scal ph ⟨if sgn then BitVec.ofInt 64 (sextN (8 * p.n) (rd p)) else BitVec.ofNat 64 (rd p), false⟩])
         ∧ (∀ r act p, form = .splat r act → a.parts = [p] → p.n ∈ [1, 2, 4] → ∃ v, y.val = [.vec r v act]
             ∧ ∀ i, i < 64 → (v.at i).tag = false ∧ ∀ e, e < 4 / p.n → (v.at i).bits.toNat / 2 ^ (8 * p.n * e) % 2 ^ (8 * p.n) = rd p)
         ∧ (∀ n d p, form = .cap n d → a.parts = [p] → y.val = [.cap n ⟨BitVec.ofNat 128 (rd p), s.tagAt .dram (adr p) && d⟩]))
    ∧ (∀ (s : State) (k : Nat) (x : Due) (y : DAcc), let t := s.tile k
       t.due = [x] → x.at_ ≤ t.now → x.acc = some y.id → t.dacc = [y] → y.st = 3 →
         exec (.resultWriteback k) s = .next (s.setTile k (Tile.land { t with due := [], dacc := [] } x y.val)))

/-- R181, R182, R184, R185: stores to the tile's own scratchpad and its pool whose checks pass and whose data may be stored write the bytes at the
checked addresses and no other byte of any memory; of lanes that overlap the higher one's bytes remain; every store but `stc` clears the tag of each granule
it touches, and `stc` writes that of its source. FP32 poison is stored as it stands through a capability with P.
R187: a store to any other object sends its access to DRAM, and at its port the bytes land and the tags follow.
R184: a poisoned scalar is never stored, and a poisoned lane only as 32 bits of FP32 poison through a capability with P: otherwise
POISST with the mask of the poisoned lanes, after every address check has passed, and nothing is stored. -/
def Obligations.StoreWords : Prop :=
  (∀ (h : Hdr) (f : FmtM) (g : FmtMG) (s : State) (k : Nat), s.issues k → Memory.wf (s.tile k).scr = true → Memory.wf (s.pool (clusterOf k)).mem = true →
       (∀ a ∈ (s.tile k).dacc, a.write = true → (s.tile k).depoch ≤ a.epoch) →
       ∀ (o : Nat) (sp : Space), (o, sp) ∈ [(oidScr, .scr k), (oidPool, .pool (clusterOf k))] →
       let c := s.cur.snap.capP f.cp.toNat
       let cg := s.cur.snap.capP g.cp.toNat
       let n := 2 ^ f.sz.toNat
       let v := s.cur.snap.s (f.ds.toNat % 64)
       let cv := s.cur.snap.cap (f.ds.toNat % 16)
       let scal := fun (i : Instr) (w : Nat) (x : Nat) (b : Bool) (r : Except TrapInfo (List (Nat × Nat))) => ∀ y a, r = .ok [(y, a)] →
         ∃ t, exec i s = .next t ∧ t.rd sp a w = leBytes w x ∧ storesAt sp w [a] s t ∧ tagsAt sp w [a] b s t
       let vec := fun (i : Instr) (cap : Cap) (w : Nat) (narrow : Bool) (reg : Nat) (r : Except TrapInfo (List (Nat × Nat))) => ∀ l, r = .ok l →
         let lane := fun j => ((s.tile k).v reg).at j
         (∀ x ∈ l, (lane x.1).tag = false ∨ narrow = false ∧ cap.has rtP = true ∧ (lane x.1).bits.toNat / 2 ^ 22 ≠ 0) →
           ∃ t, exec i s = .next t ∧ storesAt sp w (l.map Prod.snd) s t ∧ tagsAt sp w (l.map Prod.snd) false s t
             ∧ ∀ x ∈ l, (∀ y ∈ l, x.1 < y.1 → x.2 + w ≤ y.2 ∨ y.2 + w ≤ x.2) → t.rd sp x.2 w = leBytes w (lane x.1).bits.toNat
       (c.oid = o →
         (v.tag = false → scal (.sts h f) n v.bits.toNat false (checkAll c n rtW n (chkOne s f)))
           ∧ scal (.stc h f) 16 cv.bits.toNat cv.tag (checkAll c 16 (if cv.tag then rtW + rtD else rtW) 16 (chkOne s f))
           ∧ vec (.stv h f) c 4 false f.ds.toNat (checkAll c 4 rtW 4 (chkContig s f))
           ∧ vec (.stvs h f) c n (f.sz.toNat < 2) f.ds.toNat (checkAll c n rtW n (chkStride s f))
           ∧ (o = oidScr → ∀ y a, checkAll c 272 rtW 16 (chkOne s f) = .ok [(y, a)] →
               ∃ t, exec (.spl h f) s = .next t ∧ mread (t.tile k).scr a 272 = splRecord ((s.tile k).v f.ds.toNat)
                 ∧ storesAt sp 272 [a] s t ∧ tagsAt sp 272 [a] false s t))
         ∧ (cg.oid = o → vec (.stvx h g) cg 4 false g.ds.toNat (checkAll cg 4 rtW 4 (chkIdx s g))))
    ∧ (∀ (h : Hdr) (f : FmtM) (g : FmtMG) (s : State) (k : Nat), s.issues k →
       let c := s.cur.snap.capP f.cp.toNat
       let cg := s.cur.snap.capP g.cp.toNat
       let n := 2 ^ f.sz.toNat
       let v := s.cur.snap.s (f.ds.toNat % 64)
       let cv := s.cur.snap.cap (f.ds.toNat % 16)
       let sends := fun (i : Instr) (cap : Cap) (w rights : Nat) (chks : List Chk) (ctag : Option Bool) (data : Nat → Nat) => cap.oid ≠ oidScr → cap.oid ≠ oidPool →
         ∀ l, checkAll cap w rights w chks = .ok l → l ≠ [] →
           ∃ s' x, exec i s = (.next (pushDone h (issueHead h s')) : Out) ∧ (s'.tile k).dacc = (s.tile k).dacc ++ [x]
             ∧ x.write = true ∧ x.oid = cap.oid ∧ x.st = 0 ∧ x.ues = none ∧ x.epoch = (s.tile k).depoch ∧ x.ctag = ctag
             ∧ x.parts = l.map (fun z => ⟨z.1, z.2, w, leBytes w (data z.1)⟩) ∧ s'.dram = s.dram
       let lanes := fun (reg : Nat) => (∀ j, j < 64 → (((s.tile k).v reg).at j).tag = false)
       let bits := fun (reg j : Nat) => (((s.tile k).v reg).at j).bits.toNat
       (v.tag = false → sends (.sts h f) c n rtW (chkOne s f) none (fun _ => v.bits.toNat))
         ∧ sends (.stc h f) c 16 (if cv.tag then rtW + rtD else rtW) (chkOne s f) (some cv.tag) (fun _ => cv.bits.toNat)
         ∧ (lanes f.ds.toNat → sends (.stv h f) c 4 rtW (chkContig s f) none (bits f.ds.toNat)
             ∧ sends (.stvs h f) c n rtW (chkStride s f) none (bits f.ds.toNat))
         ∧ (lanes g.ds.toNat → sends (.stvx h g) cg 4 rtW (chkIdx s g) none (bits g.ds.toNat)))
    ∧ (∀ (s : State) (k j : Nat) (a : DAcc) (adr : Part → Nat), (s.tile k).dacc = [a] → (a.st, a.id, a.write, a.ues) = (0, j, true, none) →
       s.reaches k a.oid a.parts adr → (∀ p ∈ a.parts, p.data.length = p.n) → Memory.wf s.dram = true →
       ∃ u, exec (.dramAccessAtPort k j) s = .next u ∧ (u.tile k).dacc = []
         ∧ (∀ b, (∀ p ∈ a.parts, b < adr p ∨ adr p + p.n ≤ b) → mget u.dram b = mget s.dram b)
         ∧ (∀ l p r, a.parts = l ++ p :: r → (∀ q ∈ r, adr p + p.n ≤ adr q ∨ adr q + q.n ≤ adr p) → mread u.dram (adr p) p.n = p.data)
         ∧ (a.ctag = none → ∀ b, u.tagAt .dram b = true ↔
             s.tagAt .dram b = true ∧ ∀ p ∈ a.parts, b / 16 < adr p / 16 ∨ (adr p + p.n - 1) / 16 < b / 16)
         ∧ ∀ b p, a.ctag = some b → a.parts = [p] → u.tagAt .dram (adr p) = b)
    ∧ (∀ (h : Hdr) (f : FmtM) (g : FmtMG) (s : State) (k : Nat), s.issues k →
       let c := s.cur.snap.capP f.cp.toNat
       let cg := s.cur.snap.capP g.cp.toNat
       let n := 2 ^ f.sz.toNat
       let refused := fun (i : Instr) (cap : Cap) (reg : Nat) (narrow : Bool) (r : Except TrapInfo (List (Nat × Nat))) => ∀ l, r = .ok l →
         let v := fun j => (s.myTile.v reg).at j
         (∃ x ∈ l, (v x.1).tag = true ∧ (narrow = true ∨ cap.has rtP = false ∨ (v x.1).bits.toNat / 2 ^ 22 = 0)) →
           ∃ m, exec i s = (.next (s.take { cause := cPOISST, val := m }) : Out) ∧ ∀ j, m.testBit j = true ↔ j ∈ l.map Prod.fst ∧ (v j).tag = true
       (∀ l, checkAll c n rtW n (chkOne s f) = .ok l → (s.cur.snap.s (f.ds.toNat % 64)).tag = true →
           exec (.sts h f) s = .next (s.take { cause := cPOISST, val := 1 }))
         ∧ refused (.stv h f) c f.ds.toNat false (checkAll c 4 rtW 4 (chkContig s f))
         ∧ refused (.stvs h f) c f.ds.toNat (f.sz.toNat < 2) (checkAll c n rtW n (chkStride s f))
         ∧ refused (.stvx h g) cg g.ds.toNat false (checkAll cg 4 rtW 4 (chkIdx s g)))

/-- R190 to R193: a pair of marks with one number, both fit to issue, issue together; a `feno` opens the next store epoch beyond the tile; a
`fenq` with nothing to wait for completes in its cycle; a `fenr` and a `fenq` that waits hold the S queue. -/
def Obligations.MarksAndFences : Prop :=
  ∀ (h : Hdr) (f : FmtF) (s : State) (k : Nat), s.issues k →
    let t := s.tile k
    let R := s.rgnOf k
    (∀ e g l ho, s.cur.q = 1 → t.sq = e :: l → e.instr = .markS ho g → g.mkn = f.mkn → t.canIssue 1 = true → t.canIssue 3 = true →
        ∃ u, exec (.markL h f) s = .next u ∧ (u.tile k).sq = l ∧ (u.tile k).lq = t.lq.drop 1)
      ∧ (∀ e g l ho, s.cur.q = 3 → t.lq = e :: l → e.instr = .markL ho g → g.mkn = f.mkn → t.canIssue 1 = true → t.canIssue 3 = true →
          ∃ u, exec (.markS h f) s = .next u ∧ (u.tile k).lq = l ∧ (u.tile k).sq = t.sq.drop 1)
      ∧ (∀ a b la lb ha hb g, s.cur.q = 1 → t.lq = a :: la → t.sq = b :: lb → a.instr = .markL ha f → b.instr = .markS hb g → g.mkn ≠ f.mkn →
          a.disp ≤ t.now → b.disp ≤ t.now → 1 ∉ t.issued → 3 ∉ t.issued → a.seq < b.seq →
          exec (.markL h f) s = .next (s.take { cause := cILL, val := s.cur.w0 }))
      ∧ exec (.feno h f) s = .next (pushDone h (issueHead h
          (if f.scp = 0 then s else s.setTile k { t with depoch := t.depoch + 1 })))
      ∧ (f.all = 1 ∨ f.tix.toNat < R.w * R.h → ∃ u x, exec (.fenr h f) s = .next u ∧ (u.tile k).fence = some x ∧ x.rel = true
          ∧ x.scope = f.scp.toNat ∧ x.ord = t.dord ∧ x.asked = false)
      ∧ (f.all = 0 → R.w * R.h ≤ f.tix.toNat → exec (.fenr h f) s = .next (s.take { cause := cCAPBND }))
      ∧ ((f.scp = 0 ∨ t.storesBefore t.dord = false) → (f.all = 0 ∨ t.copiesBefore t.xseq = false) →
          exec (.fenq h f) s = .next (pushDone h (issueHead h s)))
      ∧ (f.scp ≠ 0 → t.storesBefore t.dord = true → ∃ u x, exec (.fenq h f) s = .next u ∧ (u.tile k).fence = some x ∧ x.rel = false
          ∧ x.ord = t.dord)

/-- R61, R69, R78: the frame of a queued word that issues with a result: it leaves its queue, takes its tokens, and its result waits lat − 1 cycles;
until then no register, no lane mask and no byte of memory has changed, and nothing outside the tile.
R62, R66, R69: a due result is written with its `y` register and leaves every other vector register as it was.
R63: at the end of a cycle the waiting pushes and then those of the cycle are made: a push that still waits has a full FIFO, or another word's
push of its queue waits; no push is lost and no FIFO comes to hold more than 8. A single waiting push is made as soon as its FIFO has room. -/
def Obligations.ResultsAndTokens : Prop :=
  (∀ (s : State) (k : Nat) (h : Hdr) (lat : Nat) (dst : List Dest) (y : Option (Nat × Nat)), s.byTile k → 1 ≤ s.cur.q → s.cur.q ≤ 3 →
       let t := s.tile k
       let u := s.issued h lat dst y
       sameMemory s u ∧ onlyTile k s u ∧ (u.tile k).core = t.core ∧ (u.tile k).vreg = t.vreg ∧ (u.tile k).j = t.j ∧ (u.tile k).h = t.h
         ∧ (u.tile k).due = t.due ++ [⟨t.now + lat - 1, s.cur.seq, s.cur.q, dst, y, h.pshl, h.pshr, none⟩]
         ∧ (u.tile k).queue s.cur.q = (t.queue s.cur.q).drop 1 ∧ (∀ q, 1 ≤ q → q ≤ 3 → q ≠ s.cur.q → (u.tile k).queue q = t.queue q)
         ∧ (h.popl = false → h.popr = false → (u.tile k).tok = t.tok)
         ∧ (h.popl = true → h.popr = false → tget 0 (u.tile k).tok (popLeft s.cur.q) = tget 0 t.tok (popLeft s.cur.q) - 1)
         ∧ (h.popl = false → h.popr = true → tget 0 (u.tile k).tok (popRight s.cur.q) = tget 0 t.tok (popRight s.cur.q) - 1))
    ∧ (∀ (t : Tile) (d : Due) (r : Nat) (v : Vec) (act : BitVec 64) (y : Nat), d.y = some (y, r) →
       let u := t.land d [.vec r v act]
       (∀ n, n < 64 → (r ≠ 0x48 + y) → (u.v r).at n = if activeL act n then v.at n else (t.v r).at n)
         ∧ (r ≠ 0x48 + y → u.v (0x48 + y) = u.v r)
         ∧ (∀ x, x ≠ r → x ≠ 0x48 + y → u.v x = t.v x) ∧ u.core = t.core ∧ u.j = t.j ∧ u.scr = t.scr)
    ∧ (∀ (s : State) (k : Nat),
       let t := s.tile k
       let held := fun (l : List (Nat × Nat)) f => (l.filter fun x => x.2 == f).length
       ∃ T, exec (.tokenPushWaitEnd k) s = .next (s.setTile k T)
         ∧ T.pushnow = [] ∧ T.core = t.core ∧ T.scr = t.scr ∧ T.vreg = t.vreg ∧ T.due = t.due
         ∧ (∀ f, tget 0 T.tok f + held T.pushw f = tget 0 t.tok f + held (t.pushw ++ t.pushnow) f)
         ∧ (∀ x ∈ T.pushw, 8 ≤ tget 0 T.tok x.2 ∨ ∃ y ∈ T.pushw, pusherOf y.2 = pusherOf x.2 ∧ y.1 ≠ x.1)
         ∧ ((∀ f, tget 0 t.tok f ≤ 8) → ∀ f, tget 0 T.tok f ≤ 8)
         ∧ (∀ seq f, (t.pushw = [(seq, f)] ∧ t.pushnow = []) ∨ (t.pushw = [] ∧ t.pushnow = [(seq, f)]) →
           (tget 0 t.tok f < 8 → tget 0 T.tok f = tget 0 t.tok f + 1 ∧ T.pushw = [])
             ∧ (8 ≤ tget 0 t.tok f → T.tok = t.tok ∧ T.pushw = [(seq, f)])))

/-! ### Semaphores, barriers and traps (10_barrier.md, 16_context.md) -/

/-- R221, R223, R225: a satisfied wait takes its threshold at once and an unsatisfied one waits; `sems` and `semi` are applied at the end of
the cycle; `semr` reads the count as it stood; a name without a valid map entry raises CAPRGT and adds 16 to the context's guilt; the value 0 of
that trap, which is no access, is read from R347 (assumption 54).
R100, R225: Sorrel's front end waits for, raises, reads and sets its own semaphores in program order. -/
def Obligations.SemaphoreWords : Prop :=
  (∀ (h : Hdr) (f : FmtY) (s : State) (k : Nat), s.issues k →
       let t := s.tile k
       let n := f.k8.toNat
       let e := f.sem.toNat
       let a := s.cur.snap.s f.sd.toNat
       (∀ p, s.semPhys k e = some p →
         (n ≤ t.count p → t.count p ≤ 65535 → ∃ u, exec (.semw h f) s = .next u ∧ (u.tile k).count p = t.count p - n
             ∧ ∀ q, q ≠ p → (u.tile k).count q = t.count q)
           ∧ (t.count p < n → exec (.semw h f) s = .next s)
           ∧ exec (.sems h f) s = .next (pushDone h (issueHead h (s.setTile k { t with semops := t.semops ++
               [⟨2, s.cur.q, p, n, e, s.cur.pc, s.cur.w0, s.cur.q, k⟩] })))
           ∧ (f.sd ≠ 0 → exec (.semr h f) s = .next (s.issued h 2 [.scal (s.cur.snap.phys f.sd.toNat)
               ⟨BitVec.ofNat 64 (t.count p + tget 0 t.semTaken p), false⟩] none))
           ∧ (a.tag = false → a.bits.toNat ≤ 65535 → exec (.semi h f) s = .next (pushDone h (issueHead h (s.setTile k { t with
               semops := t.semops ++ [⟨1, s.cur.q, p, a.bits.toNat, e, s.cur.pc, s.cur.w0, s.cur.q, k⟩] }))))
           ∧ (a.tag = false → 65535 < a.bits.toNat → exec (.semi h f) s =
               .next ((s.setTile k (t.setCount p 65535)).take { cause := cSEMOVF, val := e + p * 2 ^ 16 }))
           ∧ (a.tag = true → exec (.semi h f) s = .next (s.take { cause := cPOISST, val := 1 })))
         ∧ (s.semPhys k e = none → ∀ i ∈ [Instr.semw h f, .sems h f, .semr h f, .semi h f],
             exec i s = .next ((s.addGuilt (s.ctxNo k) 16).take { cause := cCAPRGT })))
    ∧ (∀ (h : Hdr) (f : FmtY) (s : State) (d : Nat), s.bySorrel d → s.goes h.pred →
       (h.popl || h.popr || h.pshl || h.pshr) = false →
         let e := f.sem.toNat
         let n := f.k8.toNat
         let c := (tget 0 (s.die d).sem e).toNat
         let a := s.core.s f.sd.toNat
         let sets := fun (v : Nat) => (.next ((s.setSorSem e v).setPc (s.cur.pc + 8)) : Out)
         (n ≤ c → exec (.semw h f) s = sets (c - n)) ∧ (c < n → exec (.semw h f) s = .next s)
           ∧ (c + n ≤ 65535 → exec (.sems h f) s = sets (c + n))
           ∧ exec (.semr h f) s = .next (s.after (s.core.setS f.sd.toNat ⟨BitVec.ofNat 64 c, false⟩))
           ∧ (a.tag = false → a.bits.toNat ≤ 65535 → exec (.semi h f) s = sets a.bits.toNat))

/-- R228, R230, R237: an arrival takes effect at the close of the next region step; a wait is satisfied while the phase is 1 to 32,767 ahead
of the tile's own count of waits; in Error it raises WAITCYC; a handle that is not bound raises CAPRGT, whose value 0 is read from R347 (assumption 54).
R229 (Table 91): what the arrivals of one close do to a bound barrier that is not in Error: short of COUNT they add up; at COUNT
exactly a phase ends with nothing over; beyond it the rest counts for the next phase; at twice COUNT or with an arrival of the other
mode, Error; and Error stays. -/
def Obligations.BarrierWords : Prop :=
  (∀ (h : Hdr) (f : FmtY) (s : State) (k : Nat), s.issues k →
       let t := s.tile k
       let R := s.region t.rgn
       let hn := f.bh.toNat
       let a := s.cur.snap.s f.sd.toNat
       let arrives := fun (o : Nat × Nat) (m : Bool) (n : Nat) => (.next (pushDone h (issueHead h
         (s.setRegion t.rgn { R with barq := R.barq ++ [⟨R.rstep + 1, o.1, o.2, m, n⟩] }))) : Out)
       (∀ o, s.barAt R.ctx hn = some o →
         let b := s.bar o
         let w := tget 0 t.wph hn
         let ahead := (b.phase - w).toNat
         exec (.bara h f) s = arrives o false 1
           ∧ (a.tag = false → a.bits ≠ 0 → a.bits.toNat ≤ 2 ^ 41 → exec (.barb h f) s = arrives o true a.bits.toNat)
           ∧ (a.tag = false → a.bits = 0 → exec (.barb h f) s = .next (pushDone h (issueHead h s)))
           ∧ (b.state ≠ 3 → 1 ≤ ahead → ahead ≤ 32767 → exec (.barw h f) s =
               .next (pushDone h (issueHead h (s.setTile k { t with wph := tset t.wph hn (w + 1) }))))
           ∧ (b.state ≠ 3 → (ahead = 0 ∨ 32767 < ahead) → exec (.barw h f) s = .next s)
           ∧ (b.state = 3 → exec (.barw h f) s =
               .next (s.take { cause := cWAITCYC, words := waitRecord false true t.step [waitIdent 4 s.cur.q t.tix hn] }))
           ∧ (f.sd ≠ 0 → ∃ v : BitVec 64, exec (.barq h f) s = .next (s.issued h 26 [.scal (s.cur.snap.phys f.sd.toNat) ⟨v, false⟩] none)
               ∧ v.toNat % 2 ^ 16 = b.phase.toNat ∧ v.toNat / 2 ^ 16 % 4 = b.state % 4 ∧ v.toNat / 2 ^ 22 = b.arrived % 2 ^ 42))
         ∧ (s.barAt R.ctx hn = none → ∀ i ∈ [Instr.bara h f, .barb h f, .barw h f, .barq h f],
             exec i s = .next ((s.addGuilt R.ctx 16).take { cause := cCAPRGT })))
    ∧ (∀ (b : Barrier) (x : Nat), b.state = 1 ∨ b.state = 2 → 0 < b.count → 1 ≤ x →
       let a := b.arrived + x
       (a < b.count → b.close x false = { b with state := 1, arrived := a })
         ∧ (a = b.count → b.close x false = { b with state := 2, arrived := 0, phase := b.phase + 1 })
         ∧ (b.count < a → a < 2 * b.count → b.close x false = { b with state := 1, arrived := a - b.count, phase := b.phase + 1 })
         ∧ (2 * b.count ≤ a → (b.close x false).state = 3) ∧ (b.close x true).state = 3
         ∧ ∀ y w, ((b.close x true).close y w).state = 3)

/-- R345, R346: a trap that the front end of a tile detects, of a cause that a handler may take, with a handler present and none running,
enters it: `TSTAT` says so with no queue, `TCAUSE`, `TPC` and `TVAL` hold the cause, the word's PC and the value, `TRPC` the word itself
(after an `swtrap` the word after it), and the front end goes on at `TVEC`.
R344, R346: a trap that queue q (1 L, 2 C, 3 S) detects enters the handler with that queue in `TSTAT.DQ` and the front end's own PC in
`TRPC`.
R350: without a handler to enter, or inside one, the trap of a tile stops the tile and stands as the report of its grid, unless one
raised earlier stands. -/
def Obligations.TrapEntry : Prop :=
  (∀ (s : State) (k : Nat) (x : TrapInfo), s.byTile k → s.cur.q = 0 → s.cur.pc < 2 ^ 32 - 8 → handlerMay x.cause = true →
       let c := (s.tile k).core
       c.trap.hnd = false → c.trap.tvec ≠ 0xFFFFFFFF →
         let u := s.take x
         let r := (u.tile k).core.trap
         r.hnd = true ∧ r.dq = 0 ∧ r.tcause.toNat = x.cause ∧ r.tpc.toNat = s.cur.pc
           ∧ r.trpc.toNat = (if x.cause = cSWTRAP then s.cur.pc + 8 else s.cur.pc) ∧ r.tval.toNat = x.val % 2 ^ 64
           ∧ r.tahead = 0 ∧ r.trec = x.words ∧ r.tvec = c.trap.tvec
           ∧ (u.tile k).core.pc = c.trap.tvec.toNat ∧ (u.tile k).trapped = true ∧ (u.tile k).core.halted = false
           ∧ (u.tile k).core.sreg = c.sreg ∧ (u.tile k).core.q = c.q ∧ (u.tile k).core.c = c.c ∧ (u.tile k).vreg = (s.tile k).vreg
           ∧ sameMemory s u ∧ ∀ j, j ≠ k → u.tile j = s.tile j)
    ∧ (∀ (s : State) (k : Nat) (x : TrapInfo), s.byTile k → 1 ≤ s.cur.q → s.cur.q ≤ 3 → s.cur.pc < 2 ^ 32 → handlerMay x.cause = true →
       let c := (s.tile k).core
       c.trap.hnd = false → c.trap.tvec ≠ 0xFFFFFFFF → c.pc < 2 ^ 32 →
         let u := s.take x
         let r := (u.tile k).core.trap
         r.hnd = true ∧ r.dq = s.cur.q ∧ r.tcause.toNat = x.cause ∧ r.tpc.toNat = s.cur.pc ∧ r.trpc.toNat = c.pc
           ∧ (u.tile k).core.pc = c.trap.tvec.toNat ∧ (u.tile k).core.fePc = c.pc)
    ∧ (∀ (s : State) (k : Nat) (x : TrapInfo), s.byTile k →
       let t := s.tile k
       let c := t.core
       c.trap.hnd = true ∨ c.trap.tvec = 0xFFFFFFFF ∨ handlerMay x.cause = false → (s.region t.rgn).report = none →
         let u := s.take x
         (u.tile k).live = false ∧ (u.tile k).core.halted = true
           ∧ ∃ r, (u.region t.rgn).report = some r ∧ r.cause = x.cause ∧ r.srca = s.cur.q ∧ r.nest = c.trap.hnd ∧ r.tix = t.tix
             ∧ r.pc = s.cur.pc % 2 ^ 32 ∧ r.val = x.val % 2 ^ 64 ∧ r.step = t.step ∧ r.words = x.words)

/-- R348, R349: `trap` raises SWTRAP with its number; `tret` in a handler clears `HND` and `SKIP`, goes on at `TRPC` when no queue
trapped, and leaves the handler; outside one it is ILL, and with another bit of `TSTAT` set it raises BADSTAT.
R345, R346, R349: `trap` with a handler present and none running enters it, on a tile and on Sorrel: `TCAUSE` SWTRAP, `TVAL` the number, `TPC` the word,
`TRPC` the word after it, and the front end at `TVEC` (on Sorrel without its bits [2:0], assumption 44); nothing else of the front end, no other
tile and no byte of memory changes. A Sorrel without a handler, or in it, halts with its trap registers as they stand.
R348: `tret` of a tile and of Sorrel whole: past the trapping word when `SKIP` is set and `TRPC` still names it; after a queue's trap the front end
goes on where its dispatch stopped, and with `SKIP` that queue's head becomes a word whose predicate is false. -/
def Obligations.TrapAndReturn : Prop :=
  (∀ (p : BitVec 4) (f : FmtZ) (s : State), s.goes p →
    let c := s.core
    let r := c.trap
    exec (.trap p f) s = .next (s.take { cause := cSWTRAP, val := f.imm.toNat % 2 ^ 16 })
      ∧ (r.hnd = false → exec (.tret p f) s = .next (s.take { cause := cILL, val := s.cur.w0 }))
      ∧ (r.hnd = true → r.tstat.toNat / 16 % 2 ^ 12 = 0 → r.tstat.toNat / 2 ^ 32 = 0 → ∀ k, s.byTile k →
          (r.dq = 0 → r.skip = false → ∃ u, exec (.tret p f) s = .next u ∧ (u.tile k).core.pc = r.trpc.toNat
            ∧ (u.tile k).core.trap.hnd = false ∧ (u.tile k).core.trap.skip = false ∧ (u.tile k).trapped = false
            ∧ (u.tile k).core.halted = c.feHalted ∧ (u.tile k).core.sreg = c.sreg)
          ∧ (r.dq ≠ 0 → r.skip = false → c.fePc < 2 ^ 64 → ∃ u, exec (.tret p f) s = .next u ∧ (u.tile k).core.pc = c.fePc
            ∧ (u.tile k).core.trap.hnd = false ∧ (u.tile k).trapped = false ∧ (u.tile k).lq = (s.tile k).lq
            ∧ (u.tile k).cq = (s.tile k).cq ∧ (u.tile k).sq = (s.tile k).sq))
      ∧ (r.hnd = true → (r.tstat.toNat / 16 % 2 ^ 12 ≠ 0 ∨ r.tstat.toNat / 2 ^ 32 ≠ 0) →
          exec (.tret p f) s = .next (s.take { cause := cBADSTAT, val := r.tstat.toNat })))
    ∧ (∀ (p : BitVec 4) (f : FmtZ) (s : State), s.goes p →
       let c := s.core
       let r := c.trap
       let entered := fun (x : TrapRegs) => x.hnd = true ∧ x.skip = false ∧ x.dq = 0 ∧ x.tcause = 0x60 ∧ x.tval.toNat = f.imm.toNat % 2 ^ 16
         ∧ x.tpc.toNat = s.cur.pc ∧ x.trpc.toNat = s.cur.pc + 8 ∧ x.tahead = 0 ∧ x.trec = [] ∧ x.tvec = r.tvec
       let left := fun (x : TrapRegs) => x.hnd = false ∧ x.skip = false ∧ x.tstat.toNat / 4 = r.tstat.toNat / 4 ∧ { x with tstat := r.tstat } = r
       let back := if r.skip = true ∧ r.trpc = r.tpc then
           r.tpc.toNat + if (s.codeAt s.cur.agent r.tpc.toNat).any isTwoWord = true then 16 else 8
         else r.trpc.toNat
       (∀ k, s.byTile k →
         let t := s.tile k
         (s.cur.q = 0 → s.cur.pc < 2 ^ 32 - 8 → r.hnd = false → r.tvec ≠ 0xFFFFFFFF → ∃ u, exec (.trap p f) s = .next u ∧
           let T := u.tile k
           entered T.core.trap ∧ T.core.trap.tstat.toNat / 2 ^ 16 % 2 ^ 16 = t.due.length % 2 ^ 16 ∧ T.core.pc = r.tvec.toNat
             ∧ T.trapped = true ∧ T.core.halted = false ∧ T.core.fePc = c.pc
             ∧ (T.core.sreg, T.core.q, T.core.c, T.core.loops) = (c.sreg, c.q, c.c, c.loops)
             ∧ (T.vreg, T.j, T.lq, T.cq, T.sq, T.due) = (t.vreg, t.j, t.lq, t.cq, t.sq, t.due)
             ∧ sameMemory s u ∧ ∀ j, j ≠ k → u.tile j = s.tile j)
         ∧ (r.hnd = true → r.tstat.toNat / 16 % 2 ^ 12 = 0 → r.tstat.toNat / 2 ^ 32 = 0 → ∃ u, exec (.tret p f) s = .next u ∧
           let T := u.tile k
           left T.core.trap ∧ T.core.pc = (if r.dq = 0 then back else c.fePc % 2 ^ 64)
             ∧ T.trapped = false ∧ T.catchup = true ∧ T.core.halted = c.feHalted ∧ T.core.stopped = c.feStopped
             ∧ (T.core.sreg, T.core.q, T.core.c, T.core.loops) = (c.sreg, c.q, c.c, c.loops)
             ∧ (T.vreg, T.j, T.due) = (t.vreg, t.j, t.due)
             ∧ (∀ q, 1 ≤ q → q ≤ 3 → T.queue q = match t.queue q with
                 | [] => []
                 | e :: l => (if r.dq = q ∧ r.skip = true then { e with pred := false } else e) :: l)
             ∧ sameMemory s u ∧ onlyTile k s u))
         ∧ ∀ d, s.bySorrel d →
           let D := s.die d
           (s.cur.pc < 2 ^ 32 - 8 → r.hnd = false → r.tvec ≠ 0xFFFFFFFF → ∃ u x, exec (.trap p f) s = .next u ∧ entered x
               ∧ u = s.setDie d { D with sorrel := { c with trap := x, pc := r.tvec.toNat / 8 * 8 } })
             ∧ (r.hnd = true ∨ r.tvec = 0xFFFFFFFF →
               exec (.trap p f) s = .next (s.setDie d { D with sorrel := { c with halted := true } }))
             ∧ (r.hnd = true → r.tstat.toNat / 16 % 2 ^ 12 = 0 → r.tstat.toNat / 2 ^ 32 = 0 → ∃ x, left x
               ∧ exec (.tret p f) s = .next ((s.setCore { c with trap := x }).setPc back)))

/-- R100: every supervisor word of a tile's stream raises PRIV with the word as its value and has no other effect; Sorrel runs them.
R321: a supervisor word with a poisoned input, `sA` or a register of its input group, gives status 1 and changes nothing else. For `otwr`, `smap` and `bmap`,
whose rules name no poison (R220, R232), and for the words of the other chapters, this is read from R321 (assumption 17). -/
def Obligations.SupervisorWordChecks : Prop :=
  (∀ (p : BitVec 4) (f : FmtZ) (s : State) (k : Nat), s.byTile k →
       ∀ i ∈ [Instr.savc p f, .rstc p f, .rgstaPlc p f, .rgstaGo p f, .rgstaRes p f, .rgpre p f, .rgfrzHold p f, .rgfrzRel p f,
           .rgmovMov p f, .rgmovOut p f, .rgretRel p f, .rgretAbt p f, .rgretRd p f, .xinvAll p f, .xinvCtx p f,
           .xinvObj p f, .xinvGfr p f, .otwrWr p f, .otwrRd p f, .otwrFpop p f, .otwrFret p f, .otwrFflt p f,
           .otwrFrm p f, .otwrGwr p f, .otwrFcp p f, .otwrQrd p f, .smapWr p f, .smapRd p f, .smapAdj p f, .bmapBind p f,
           .bmapUnbind p f, .bmapRd p f, .bmapRst p f, .lnkcUp p f, .lnkcDown p f, .lnkcRkey p f, .lnkcAlgn p f,
           .lnkcRun p f, .lnkcQrl p f, .lnkcDrst p f, .lnkcDqrl p f, .lnkqLnk p f, .lnkqDie p f, .lnkqDom p f,
           .measExt p f, .measRd p f, .measSha p f, .measNode p f, .rcpt p f, .ksldLd p f, .ksldRes p f, .ksldEvc p f,
           .ksldRd p f, .csigAlc p f, .csigFre p f, .csigAdd p f, .csigSet p f, .csigRd p f],
         exec i s = .next (s.take { cause := cPRIV, val := s.cur.w0 }))
    ∧ (∀ (p : BitVec 4) (f : FmtZ) (s : State) (d : Nat), s.bySorrel d → s.goes p → (s.core.s f.a.toNat).tag = true →
       ∀ i ∈ [Instr.otwrWr p f, .otwrRd p f, .otwrFpop p f, .otwrFret p f, .otwrFflt p f, .otwrFrm p f, .otwrGwr p f, .otwrFcp p f,
           .otwrQrd p f, .smapWr p f, .smapRd p f, .smapAdj p f, .bmapBind p f, .bmapUnbind p f, .bmapRd p f, .bmapRst p f, .ksldLd p f,
           .ksldRes p f, .ksldEvc p f, .ksldRd p f, .measExt p f, .measRd p f, .measSha p f, .measNode p f, .rgstaPlc p f, .rgstaGo p f,
           .rgstaRes p f, .rgpre p f, .rgfrzHold p f, .rgfrzRel p f, .rgmovMov p f, .rgmovOut p f, .rgretRel p f, .rgretAbt p f,
           .rgretRd p f, .csigAlc p f, .csigFre p f, .csigAdd p f, .csigSet p f, .csigRd p f, .lnkcUp p f,
           .lnkcDown p f, .lnkcRkey p f, .lnkcAlgn p f, .lnkcRun p f, .lnkcQrl p f, .lnkcDrst p f, .lnkcDqrl p f, .lnkqLnk p f,
           .lnkqDie p f, .lnkqDom p f, .rcpt p f],
         s.comes i f s 1)
    ∧ (∀ (p : BitVec 4) (f : FmtZ) (s : State) (d : Nat), s.bySorrel d → s.goes p → (s.core.s f.a.toNat).tag = true →
       ∀ i ∈ [Instr.savc p f, .rstc p f],
         exec i s = .next (FRes.step (s.putReg f.a.toNat (s.reg f.a.toNat / 8 * 8 + 1))).state)
    ∧ (∀ (p : BitVec 4) (f : FmtZ) (s : State) (d j : Nat), s.bySorrel d → s.goes p → (s.core.s (f.b.toNat + j)).tag = true →
       (∀ x ∈ [(Instr.otwrWr p f, 8), (.otwrFrm p f, 1), (.otwrGwr p f, 1), (.otwrFcp p f, 1), (.smapWr p f, 1), (.smapRd p f, 1),
           (.smapAdj p f, 1), (.bmapBind p f, 2), (.ksldLd p f, 2), (.ksldRes p f, 1), (.measExt p f, 6), (.measSha p f, 2),
           (.measNode p f, 12), (.rgstaPlc p f, 1), (.rgmovMov p f, 1), (.rgmovOut p f, 1), (.csigAlc p f, 1), (.csigAdd p f, 1),
           (.csigSet p f, 1), (.rcpt p f, 1)],
         j < x.2 → s.comes x.1 f s 1)
         ∧ (j = 0 → ∀ i ∈ [Instr.savc p f, .rstc p f],
           exec i s = .next (FRes.step (s.putReg f.a.toNat (s.reg f.a.toNat / 8 * 8 + 1))).state))

/-! ### Engines (11_matrix.md, 12_copy.md) -/

/-- R241, R8: `hset` writes the half it names with the reserved bits zero, and a poisoned scalar raises POISADR; `hswp` exchanges the halves;
`hrd` gives a half to its scalar; no other shape register, lane or register of the tile changes.
R257, R258: `mxrv` gives the elements of two rows of a quarter with their poison tags, after 12 cycles and with `y3`; `mxwv` writes the
active lanes there, a tagged one as device poison, and leaves every other element; a poisoned index poisons the lanes of `mxrv` and
traps `mxwv`. R259: while an engine command on the accumulator is queued the words still go, with bits that are not fixed. -/
def Obligations.MatrixRegisterWords : Prop :=
  (∀ (h : Hdr) (f : FmtV) (s : State) (k : Nat), s.issues k →
       let t := s.tile k
       let half := fun (u : State) n => tget 0 (u.tile k).h n
       let a := s.cur.snap.s (f.vb.toNat % 64)
       let key := fun (r : BitVec 8) => r.toNat % 4 + if f.fn = 1 then 4 else 0
       let d := f.vd.toNat % 4
       let w := f.vb.toNat % 64
       (a.tag = false → ∃ u, exec (.hset h f) s = .next u ∧ s.quiet k u ∧ half u (key f.vd) = a.bits &&& 0x3FFFFFF7F3
           ∧ ∀ n, n ≠ key f.vd → half u n = half s n)
         ∧ (a.tag = true → exec (.hset h f) s = .next (s.take { cause := cPOISADR, val := a.bits.toNat }))
         ∧ (∃ u, exec (.hswp h f) s = .next u ∧ s.quiet k u ∧ half u d = half s (d + 4) ∧ half u (d + 4) = half s d
             ∧ ∀ n, n ≠ d → n ≠ d + 4 → half u n = half s n)
         ∧ (w ≠ 0 → exec (.hrd h f) s = .next (s.issued h 2 [.scal (s.cur.snap.phys w) ⟨tget 0 t.h (key f.va), false⟩] none))
         ∧ (w = 0 → exec (.hrd h f) s = .next (s.issued h 2 [] none)))
    ∧ (∀ (h : Hdr) (f : FmtV) (s : State) (k : Nat), s.issues k →
       let t := s.tile k
       let act := t.mask f.mask.toNat
       let el := fun (u : State) i j => (u.tile k).accAt i j
       let rd := fun (s' : State) (v : Vec) => exec (.mxrv h f) s = .next (s'.issued h 12 [.vec f.vd.toNat v act] (some (3, f.vd.toNat)))
       (∀ r, opndIdx s f = .inl r →
         (accBusy t = false →
           (∃ v, rd s v ∧ ∀ n, s.laneOn f.mask n →
               (v.at n).bits = el s (2 * r + n / 32) (32 * (f.va.toNat % 4) + n % 32) ∧ (v.at n).tag = isPois32 (v.at n).bits)
           ∧ ∃ u, exec (.mxwv h f) s = .next u ∧ s.quiet k u
             ∧ ∀ i j, j < 128 → el u i j =
                 let n := 32 * (i % 2) + j % 32
                 let l := (t.v f.va.toNat).at n
                 if i / 2 = r ∧ j / 32 = f.vd.toNat % 4 ∧ activeL act n = true then
                   if l.tag then 0x7FE00000 ||| (l.bits &&& 0x3FFFFF) else l.bits
                 else el s i j)
         ∧ (accBusy t = true → (∃ (s' : State) (v : Vec), s'.tiles = s.tiles ∧ rd s' v) ∧ ∃ u, exec (.mxwv h f) s = .next u
             ∧ (u.tile k).vreg = t.vreg ∧ (u.tile k).core = t.core))
         ∧ (∀ id, opndIdx s f = .inr id →
             (∃ v, rd s v ∧ ∀ n, n < 64 → v.at n = Lane.ipoison id)
               ∧ exec (.mxwv h f) s = .next (s.take { cause := cPOISADR, val := id })))

/-- R242: when the index is not poisoned, every row passes `Cap.Check` and the semaphores used are mapped, a memory command passes its
checks; the first row that fails raises its trap at word 0 with the row's offset; a semaphore without a map entry raises CAPRGT.
R269: the checks of a copy command in their order: a poisoned offset or length, a poisoned value, the length, the peer entry, the
destination, the source; and it passes when all are met. The value 0 of CAPRGT for a semaphore or a peer entry, which is no access, is read from R347
(assumption 54). -/
def Obligations.EngineChecks : Prop :=
  (∀ (s : State) (f : FmtE) (q : MReq),
       let w := f.w1.toNat
       let x := s.cur.snap.s (bitsN w 5 6)
       let b := sextN 32 (bitsN w 16 32) + if bitsN w 5 6 = 0 then 0 else x.bits.toInt * 2 ^ bitsN w 11 3
       let c := s.cur.snap.capP (bitsN w 0 5)
       let row := fun (r : Nat) => capCheck c (b + r * q.str) q.n q.rights q.align
       let mapped := (f.wt = 0 ∨ (s.semPhys s.me f.ws.toNat).isSome = true) ∧ (f.si = 0 ∨ (s.semPhys s.me f.ss.toNat).isSome = true)
       (bitsN w 5 6 = 0 ∨ x.tag = false) →
         ((∀ r, r < q.rows → ∃ y, row r = .ok y) → mapped → meCheck s f (some q) = .ok ())
           ∧ ((∀ r, r < q.rows → ∃ y, row r = .ok y) → ¬ mapped → meCheck s f (some q) = .error ({ cause := cCAPRGT }, true))
           ∧ (∀ r e, r < q.rows → (∀ r', r' < r → ∃ y, row r' = .ok y) → row r = .error e →
               meCheck s f (some q) = .error ({ cause := e, val := wrapN 64 (b + r * q.str) }, false)))
    ∧ (∀ (s : State) (f : FmtE) (sig : Bool) (q : XReq),
       let w := f.w1.toNat
       let reg := fun n => s.cur.snap.s n
       let clean := fun (l : List Nat) => ∀ n ∈ l, (reg n).tag = false
       let dst := sideOpt (s.cur.snap.capP (bitsN w 0 5)) (reg (bitsN w 5 6)).bits.toInt q.dst
       let src := sideOpt (s.cur.snap.capP (bitsN w 11 5)) (reg (bitsN w 16 6)).bits.toInt q.src
       (∀ n l, q.adr = n :: l → (reg n).tag = true → xCheck s f sig q = .error ({ cause := cPOISADR, val := (reg n).bits.toNat }, false))
         ∧ (clean q.adr →
           (¬ clean q.val → xCheck s f sig q = .error ({ cause := cPOISST, val := 1 }, false))
           ∧ (clean q.val →
             (q.lenOk = false → xCheck s f sig q = .error ({ cause := cCAPBND }, false))
             ∧ (q.lenOk = true → bitsN w 40 4 ≠ 0 → s.peerOk (s.ctxNo s.me) (bitsN w 40 4) = false →
                 xCheck s f sig q = .error ({ cause := cCAPRGT }, false))
             ∧ (q.lenOk = true → bitsN w 40 4 = 0 →
               (∀ x, dst = .error x → xCheck s f sig q = .error (x, false))
               ∧ (∀ d x, dst = .ok d → bitN w 39 = false → src = .error x → xCheck s f sig q = .error (x, false))
               ∧ (∀ d g, dst = .ok d → bitN w 39 = false → src = .ok g → q.list = none → bitN w 50 = false → f.wt = 0 → f.si = 0 →
                   xCheck s f sig q = .ok (if sig then (none, 0) else d, g))))))

/-- R242, R249, R265: a matrix command that passes its checks enters the queue of 16, with the active half of its shape register as it stands;
a full queue makes it wait; a failed check raises its trap and the command does not enter.
R268, R269, R276: a copy command that passes the checks of its row of Table 109 enters the queue of 32 with the next sequence number and
the step its arrivals are due; a full queue makes it wait; a failed check raises its trap and the command does not enter. -/
def Obligations.EngineCommandsIssue : Prop :=
  (∀ (h : Hdr) (f : FmtE) (s : State) (k : Nat), s.issues k →
       let t := s.tile k
       let es := f.es.toNat
       let sh := tget 0 t.h (bitsN es 4 2)
       let hn := sh.toNat
       let enters := fun (i : Instr) (shape : BitVec 64) (q : Option MReq) =>
         (t.meq.length < 16 → meCheck s f q = .ok () → ∃ u c, exec i s = .next u ∧ s.quiet k u ∧ (u.tile k).meq = t.meq ++ [c] ∧ c.instr = i
             ∧ c.pc = s.cur.pc ∧ c.w0 = s.cur.w0 ∧ c.w1 = f.w1.toNat ∧ c.shape = shape ∧ c.started = false ∧ c.finished = false
             ∧ c.cap = s.cur.snap.capP (f.w1.toNat % 32) ∧ (u.tile k).acc = t.acc ∧ (u.tile k).bank = t.bank)
           ∧ (16 ≤ t.meq.length → exec i s = .next s)
           ∧ (t.meq.length < 16 → ∀ x, meCheck s f q = .error (x, false) → exec i s = .next (s.take x))
           ∧ (t.meq.length < 16 → ∀ x, meCheck s f q = .error (x, true) → exec i s = .next ((s.addGuilt (s.ctxNo k) 16).take x))
       let K := 32 * (hn % 4 + 1)
       let load : MReq :=
         { n := [K / 2 + K / 32, K + K / 32, K / 4 + K / 32, 2 * K].getD (bitsN es 1 3) 0, rights := rtR, align := 4,
           rows := bitsN hn 4 7 + 1, str := 4 * bitsN hn 12 26 }
       let e := if bitsN es 6 2 = 0 then 4 else 2
       let qs := fun (m : Nat) => ((List.range 4).filter (bitN m)).length
       let rec_ := fun (r : Nat) => ({ n := if bitN es 0 then 131584 else 16384 * qs (bitsN es 1 4), rights := r, align := 16, rows := 1, str := 0 } : MReq)
       (bitsN es 1 3 ≤ 3 → enters (.mxla h f) sh (some load) ∧ enters (.mxlb h f) sh (some load)) ∧ enters (.mxmma h f) 0 none ∧ enters (.mxz h f) 0 none
         ∧ enters (.mxprm h f) 0 none
         ∧ enters (.mxst h f) sh (some { n := 32 * qs (es % 16) * e, rights := rtW, align := e, rows := bitsN hn 4 7 + 1, str := 4 * bitsN hn 12 26 })
         ∧ enters (.mxspl h f) 0 (some (rec_ rtW)) ∧ enters (.mxfil h f) 0 (some (rec_ rtR)) ∧ enters (.mxgng h f) 0 none ∧ enters (.mxrp h f) 0 none)
    ∧ (∀ (h : Hdr) (f : FmtE) (s : State) (k : Nat), s.issues k →
       let t := s.tile k
       let w := f.w1.toNat
       let es := f.es.toNat
       let ds := bitsN w 5 6
       let fs := bitsN w 16 6
       let ls := bitsN w 22 6
       let limm := bitsN w 51 13
       let reg := fun n => (s.cur.snap.s n).bits.toNat
       let n := if ls = 0 then limm else reg ls
       let enters := fun (i : Instr) (sig : Bool) (q : XReq) =>
         (t.xeq.length < 32 → ∀ d g, xCheck s f sig q = .ok (d, g) → ∃ u c, exec i s = .next u ∧ s.quiet k u ∧ (u.tile k).xeq = t.xeq ++ [c]
             ∧ (u.tile k).xseq = (t.xseq + 1) % 2 ^ 32 ∧ c.seq = t.xseq ∧ c.instr = i ∧ c.pc = s.cur.pc ∧ c.w0 = s.cur.w0 ∧ c.w1 = w
             ∧ c.dobj = d.1 ∧ c.dofs = d.2 ∧ c.fobj = g.1 ∧ c.fofs = g.2 ∧ c.len = q.len ∧ c.started = false ∧ c.finished = false
             ∧ c.due = (s.rgnOf k).rstep + max (bitsN es 9 4)
                 (if bitsN w 40 4 ≠ 0 then 8 else if d.1 = some 0xFFFFF0 ∨ d.1 = some 0xFFFFF1 then 1 else 2))
           ∧ (32 ≤ t.xeq.length → exec i s = .next s)
           ∧ (t.xeq.length < 32 → ∀ x, xCheck s f sig q = .error (x, false) → exec i s = .next (s.take x))
           ∧ (t.xeq.length < 32 → ∀ x, xCheck s f sig q = .error (x, true) → exec i s = .next ((s.addGuilt (s.ctxNo k) 16).take x))
       let al := if bitN es 1 then 16 else 1
       let rd := if bitN es 1 then rtD else 0
       let L := reg ls
       let N := reg (ls + 1)
       let st := reg (ls + 2)
       let side := fun (r : Nat) (d : Int) => ({ rights := r, n := (((N : Int) - 1) * d).natAbs + L, low := min 0 (((N : Int) - 1) * d) } : Side)
       let b := limm * 2 ^ (bitsN es 2 3 + 2)
       let word : Side := { rights := rtA, n := 4, align := 4 }
       enters (.xcp h f) false
           { adr := [ds, fs, ls], lenOk := 1 ≤ n && n ≤ 2 ^ 24 && (!bitN es 1 || n % 16 == 0), len := n,
             dst := some { rights := rtW + rd, n := n, align := al }, src := some { rights := rtR + rd, n := n, align := al } }
         ∧ enters (.xc2 h f) false
           { adr := [ds, fs, ls, ls + 1, ls + 2], lenOk := 1 ≤ L && L ≤ 2 ^ 24 && 1 ≤ N && N ≤ 65536, len := L * N,
             dst := some (side rtW (sextN 32 (st / 2 ^ 32))), src := some (side rtR (sextN 32 st)) }
         ∧ enters (.xcg h f) false
           { adr := [ds, fs, ls], len := b, list := some (L, limm), dst := some { rights := rtW, n := b, idx := bitN es 1 },
             src := some { rights := rtR, n := b, idx := !bitN es 1 } }
         ∧ enters (.xaw h f) false
           { adr := [ds, fs, ls], lenOk := 4 ≤ n && n ≤ 4096 && n % 4 == 0, len := n, dst := some { rights := rtA, n := n, align := 4 },
             src := some { rights := rtR, n := n, align := 4 } }
         ∧ enters (.xawr h f) false { adr := [ds], val := [fs], len := 4, dst := some word }
         ∧ enters (.xcas h f) false { adr := [ds], val := [fs, ls], len := 4, dst := some word }
         ∧ enters (.xsig h f) true { dst := if bitsN w 40 4 = 0 then none else some { rights := rtS, n := 0 } }
         ∧ enters (.xhsh h f) false
           { adr := [ds, fs, ls], lenOk := 1 ≤ n && n ≤ 65536, len := n, dst := some { rights := rtW, n := 48, align := 16 },
             src := some { rights := rtH, n := n, align := 65536 } }
         ∧ enters (.xopn h f) false
           { adr := [ds, fs, ls], lenOk := 1 ≤ n && n ≤ 2 ^ 24, len := n, rsig := false, dst := some { rights := rtW, n := n, align := 16 },
             src := some { rights := rtR, n := n + 32, align := 16 } }
         ∧ enters (.xsel h f) false { val := [fs] }
         ∧ enters (.xfil h f) false
           { adr := [ds, ls], val := [fs], lenOk := 1 ≤ n && n ≤ 2 ^ 24, len := n, dst := some { rights := rtW, n := n } })

/-- R248, R249, R254: an `mxz`, `mxprm` or `mxgng` that is the only command of a live tile whose stall wire is low starts when its wait is satisfied,
which consumes the threshold, and not before; without a threshold it does not wait. Once started `mxz` clears the quarters it names and no others,
`mxgng` sets the gang and its position and resets its counts, and `mxprm` without pending cells changes no element. That `mxz` waits and starts as any
command does is read from R251 and Table 100 (assumption 20). R243, R260 to R263: over the tile's own scratchpad, with no error in it: `mxla` and
`mxlb` leave each row of the shape in the bank they name, elements from byte 0, scales from byte 256 and zeros elsewhere, the other rows empty, and no
side poison; `mxst` writes each row's elements of its quarters, as FP32 or rounded once, at the row's address, and stops at a poisoned one without the
right P; `mxspl` writes the quarters or the cells in the layout of Table 102 and `mxfil` reads them back; each touches no other byte, bank or element.
R245, R246, R248, R53: `mxmma` of an integer class adds to each cell the sum over its steps of the products of its row's and its column's elements;
when the count of steps reaches P the cells are promoted: each element takes its cell's exact value in with one rounding, and the cells are empty;
pending cells of another key are promoted before; a step of `bf16` rounds each fused product and sum once. `mxprm` promotes pending cells. R249: a
finished command leaves the queue, and its signal is applied in that cycle; one that is not finished stays. R255: when the leader's paired gang load
has its image, a started `mxrp` receives every row of it, with its side poison, into the bank the receiver names, and no other bank changes. That the
work is done in one cycle is the model's choice (assumptions 5 and 27); a record with count 0 and a class other than 3 keeps its cells (assumption
29). -/
def Obligations.MatrixCommandRuns : Prop :=
  (∀ (s : State) (k p : Nat) (c : MeCmd),
       let t := s.tile k
       let el := fun (u : State) i j => (u.tile k).accAt i j
       let th := bitsN c.w0 32 8
       let es := c.w0 % 2 ^ 16
       c.opc ∈ [0x13, 0x14, 0x18] → t.meq = [c] → c.started = false → c.finished = false → c.park = 0 → t.meDead = false → t.meStarted = false → s.engineOk k false = true →
       t.storesBefore c.ord = false → (th ≠ 0 → s.semPhys k (bitsN c.w0 40 8) = some p) →
         (t.count p < th → exec (.meCommandStart k) s = .next s)
           ∧ (th ≤ t.count p → ∃ u, exec (.meCommandStart k) s = .next u ∧ (u.tile k).count p = t.count p - th
               ∧ (u.tile k).meStarted = true ∧ (u.tile k).core = t.core
               ∧ (c.opc = 0x13 → (∀ i j, i < 128 → j < 128 → el u i j = if bitN es (j / 32) then 0 else el s i j)
                   ∧ ∃ x, (u.tile k).meq = [x] ∧ x.finished = true ∧ x.instr = c.instr)
               ∧ (c.opc = 0x14 → t.celln = 0 → ∀ i j, el u i j = el s i j)
               ∧ (c.opc = 0x18 → (u.tile k).gsize = 2 ^ (es % 4) ∧ (u.tile k).gpos = t.tix % max 1 (s.rgnOf k).w % 2 ^ (es % 4)
                   ∧ (u.tile k).gsent = 0 ∧ (u.tile k).grecv = 0)))
    ∧ (∀ (s : State) (k id : Nat) (c : MeCmd),
       let t := s.tile k
       let si := bitsN c.w0 16 8
       let rest := t.meq.filter (·.id != id)
       t.meq.find? (·.id == id) = some c → c.gang = 0 →
         (c.finished = true → c.park = 0 → si = 0 → exec (.meCommandComplete k id) s = .next (s.setTile k { t with meq := rest }))
           ∧ (c.finished = true → c.park = 0 → si ≠ 0 → (t.meq.any fun x => x.id < c.id && x.landsHere && !x.finished) = false →
             ∀ p, s.semPhys k (bitsN c.w0 24 8) = some p → exec (.meCommandComplete k id) s = .next (s.setTile k { t with meq := rest, semops := t.semops ++
                 [⟨3, 4, p, si, bitsN c.w0 24 8, c.pc, c.w0, 4, k⟩] }))
           ∧ (c.finished = false → exec (.meCommandComplete k id) s = .next s))
    ∧ (∀ (s : State) (k l : Nat) (c d : MeCmd),
       let t := s.tile k
       t.meq.find? (fun x => x.opc == 0x19 && x.started && !x.finished && x.gang != 0) = some c → s.gangLoad k c.gang = some (l, d) → k ≠ l →
         ∃ u, exec (.gangImageArrival k) s = .next u
           ∧ (∀ r, r < 128 → (u.tile k).bankRow c.bank r = (s.tile l).bankRow d.bank r
               ∧ ∀ b, b < 4 → (u.tile k).sideOf c.bank r b = (s.tile l).sideOf d.bank r b)
           ∧ (∀ b r, b ≠ c.bank → r < 128 → (u.tile k).bankRow b r = t.bankRow b r)
           ∧ (u.tile k).acc = t.acc ∧ (u.tile k).core = t.core ∧ (∃ x ∈ (u.tile k).meq, x.finished = true ∧ x.id = c.id)
           ∧ ∀ j, j ≠ k → u.tile j = s.tile j)
    ∧ (∀ (s : State) (k p : Nat) (c : MeCmd), s.meAlone k p c → waitTh c.w0 ≤ (s.tile k).count p → c.cap.oid = 0xFFFFF0 →
       let t := s.tile k
       let es := c.w0 % 2 ^ 16
       let hn := c.shape.toNat
       let rows := bitsN hn 4 7 + 1
       let str := 4 * bitsN hn 12 26
       let a := c.off.toNat
       let el := fun (u : State) i j => (u.tile k).accAt i j
       let loads := fun (b : Nat) =>
         let fmt := bitsN es 1 3
         let K := 32 * (hn % 4 + 1)
         let e := [K / 2, K, K / 4, 2 * K].getD fmt 0
         let sc := if fmt = 3 then 0 else K / 32
         t.scrUE = [] → fmt ≤ 3 → ∃ u, s.meRuns k p c u ∧ sameMemory s u ∧ (u.tile k).acc = t.acc
           ∧ (∀ r i, r < rows → ((u.tile k).bankRow b r).getD i 0 =
               if i < e then mget t.scr (a + r * str + i)
               else if 256 ≤ i ∧ i < 256 + sc then mget t.scr (a + r * str + e + (i - 256)) else 0)
           ∧ (∀ r, r < 128 → (rows ≤ r → (u.tile k).bankRow b r = []) ∧ ∀ q, q < 4 → (u.tile k).sideOf b r q = none)
           ∧ ∀ b' r, b' ≠ b → r < 128 → (u.tile k).bankRow b' r = t.bankRow b' r ∧ ∀ q, q < 4 → (u.tile k).sideOf b' r q = t.sideOf b' r q
       let four := bitsN es 6 2 = 0
       let e := if four then 4 else 2
       let qm := (List.range 4).filter (bitN es)
       let qs := (List.range 4).filter (bitN (bitsN es 1 4))
       let x := fun r m => t.accAt r (32 * qm.getD (m / 32) 0 + m % 32)
       let out := if bitsN es 6 2 = 1 then fBF16 else fFP16
       let v := fun r m => if four then (x r m).toNat else (roundEx out ⟨bitsN es 8 3, 0⟩ (fExact (decodeF fFP32 (x r m).toNat))).1
       (c.opc = 0x10 → loads (es % 2)) ∧ (c.opc = 0x11 → loads (es % 2 + 2))
         ∧ (c.opc = 0x15 → Memory.wf t.scr = true → (rows = 1 ∨ 32 * qm.length * e ≤ str) →
             (∀ r m, r < rows → m < 32 * qm.length → (decodeF fFP32 (x r m).toNat).ordinary = true) →
             ∃ u, s.meRuns k p c u ∧ (∀ r m, r < rows → m < 32 * qm.length → mread (u.tile k).scr (a + r * str + e * m) e = leBytes e (v r m))
               ∧ storesScr k (32 * qm.length * e) ((List.range rows).map fun r => a + r * str) s u ∧ (u.tile k).acc = t.acc)
         ∧ (c.opc = 0x15 → four → c.cap.has rtP = false → (s.region t.rgn).report = none → ∀ r m, r < rows → m < 32 * qm.length →
             isPois32 (x r m) = true → (∀ r' m', m' < 32 * qm.length → (r' < r ∨ (r' = r ∧ m' < m)) → isPois32 (x r' m') = false) →
             ∃ u z, exec (.meCommandStart k) s = .next u ∧ (u.region t.rgn).report = some z ∧ z.cause = cPOISST ∧ z.srca = 4 ∧ z.pc = c.pc % 2 ^ 32
               ∧ z.val = r + 2 ^ 8 * (32 * qm.getD (m / 32) 0 + m % 32) ∧ (u.tile k).live = false)
         ∧ (c.opc = 0x16 → bitN es 0 = false → Memory.wf t.scr = true → t.meWhole → ∃ u, s.meRuns k p c u
             ∧ (∀ r i j, r < qs.length → i < 128 → j < 32 →
                 mread (u.tile k).scr (a + 16384 * r + 128 * i + 4 * j) 4 = leBytes 4 (t.accAt i (32 * qs.getD r 0 + j)).toNat)
             ∧ storesScr k 16384 ((List.range qs.length).map fun r => a + 16384 * r) s u)
         ∧ (c.opc = 0x16 → bitN es 0 = true → Memory.wf t.scr = true → t.meWhole → ∃ u, s.meRuns k p c u ∧ storesScr k 131584 [a] s u
             ∧ (∀ i j, i < 128 → j < 128 → leVal (mread (u.tile k).scr (a + 1024 * i + 8 * j) 8) =
                 match (t.cellAt i j).2 with
                 | some id => id % 2 ^ 22 + 2 ^ 63
                 | none => ((t.cellAt i j).1 % 2 ^ (if t.keyCls = 2 then 32 else 48)).toNat)
             ∧ (∀ i, i < 128 → mget (u.tile k).scr (a + 131072 + i) = BitVec.ofNat 8 (t.keyA.getD i 0)
                 ∧ mget (u.tile k).scr (a + 131200 + i) = BitVec.ofNat 8 (t.keyB.getD i 0))
             ∧ mget (u.tile k).scr (a + 131328) = BitVec.ofNat 8 t.celln ∧ mget (u.tile k).scr (a + 131329) = BitVec.ofNat 8 t.keyCls
             ∧ ∀ i, i < 254 → mget (u.tile k).scr (a + 131330 + i) = 0)
         ∧ (c.opc = 0x17 → bitN es 0 = false → t.scrUE = [] → t.meWhole → ∃ u, s.meRuns k p c u ∧ sameMemory s u
             ∧ (∀ r i j, r < qs.length → i < 128 → j < 32 → el u i (32 * qs.getD r 0 + j) =
                 BitVec.ofNat 32 (leVal (mread t.scr (a + 16384 * r + 128 * i + 4 * j) 4)))
             ∧ ∀ i j, i < 128 → j < 128 → j / 32 ∉ qs → el u i j = el s i j)
         ∧ (c.opc = 0x17 → bitN es 0 = true → t.scrUE = [] →
             let cls := (mget t.scr (a + 131329)).toNat % 4
             let cell := fun i j => leVal (mread t.scr (a + 1024 * i + 8 * j) 8)
             ∃ u, s.meRuns k p c u ∧ sameMemory s u ∧ (u.tile k).acc = t.acc ∧ (u.tile k).keyCls = cls
               ∧ (cls = 3 → (u.tile k).celln = 0 ∧ ∀ i j, i < 128 → j < 128 → (u.tile k).cellAt i j = (0, none))
               ∧ (cls ≠ 3 → (u.tile k).celln = min 32 (mget t.scr (a + 131328)).toNat
                 ∧ (∀ i j, i < 128 → j < 128 → (u.tile k).cellAt i j =
                     if bitN (cell i j) 63 then (0, some (cell i j % 2 ^ 22)) else ((if cls = 2 then ((cell i j % 2 ^ 32 : Nat) : Int) else sextN 48 (cell i j)), none))
                 ∧ (cls ≠ 2 → ∀ i, i < 128 → (u.tile k).keyA.getD i 0 = (mget t.scr (a + 131072 + i)).toNat
                     ∧ (u.tile k).keyB.getD i 0 = (mget t.scr (a + 131200 + i)).toNat))))
    ∧ (∀ (s : State) (k p : Nat) (c : MeCmd), s.meAlone k p c →
       let t := s.tile k
       let el := fun (u : State) i j => (u.tile k).accAt i j
       let v := fun i j => (t.cellAt i j).1
       let old := fun i j => cellExact t.keyCls (t.keyA.getD i 0) (t.keyB.getD j 0) (v i j)
       let empty := fun (u : State) => (u.tile k).celln = 0 ∧ (u.tile k).keyCls = 3 ∧ ∀ i j, i < 128 → j < 128 → (u.tile k).cellAt i j = (0, none)
       let w := c.w1
       let cls := bitsN w 2 2
       let fmt := fun (lq : Bool) => if cls = 0 then 0 else if lq then 2 else 1
       let klo := bitsN w 6 7
       let kn := bitsN w 13 7 + 1
       let P := bitsN w 20 5 + 1
       (c.opc ∈ [0x10, 0x11, 0x12, 0x14, 0x15, 0x16, 0x17] → t.count p < waitTh c.w0 → exec (.meCommandStart k) s = .next s)
         ∧ (waitTh c.w0 ≤ t.count p → t.meWhole → (∀ i j, i < 128 → j < 128 → (t.cellAt i j).2 = none) →
           (c.opc = 0x14 → t.celln ≠ 0 → (∀ i j, i < 128 → j < 128 → promotes (el s i j) (old i j)) →
             ∃ u, s.meRuns k p c u ∧ empty u ∧ ∀ i j, i < 128 → j < 128 → el u i j = promoted (el s i j) (old i j))
           ∧ (c.opc = 0x12 → cls ≤ 1 → ∀ (A B : Nat → Nat → Int) (ka kb : List Nat),
             t.panel (fmt (bitN w 4)) (w % 2) klo kn A ka → t.panel (fmt (bitN w 5)) (2 + bitsN w 1 1) klo kn B kb →
             let dot := fun i j m => ((List.range m).map fun x => A i x * B j x).sum
             ((t.celln = 0 ∨ (t.keyCls = cls ∧ t.keyA = ka ∧ t.keyB = kb)) →
               (∀ i j m, i < 128 → j < 128 → m ≤ kn → -(2 ^ 47) ≤ v i j + dot i j m ∧ v i j + dot i j m < 2 ^ 47) →
               (t.celln + kn < P → ∃ u, s.meRuns k p c u ∧ (u.tile k).celln = t.celln + kn
                   ∧ ((u.tile k).keyCls, (u.tile k).keyA, (u.tile k).keyB) = (cls, ka, kb)
                   ∧ ∀ i j, i < 128 → j < 128 → (u.tile k).cellAt i j = (v i j + dot i j kn, none) ∧ el u i j = el s i j)
               ∧ (t.celln + kn = P → (∀ i j, i < 128 → j < 128 → (decodeF fFP32 (el s i j).toNat).ordinary = true) → ∃ u, s.meRuns k p c u ∧ empty u
                   ∧ ∀ i j, i < 128 → j < 128 →
                     el u i j = promoted (el s i j) (cellExact cls (ka.getD i 0) (kb.getD j 0) (v i j + dot i j kn))))
             ∧ (0 < t.celln → ¬ (t.keyCls = cls ∧ t.keyA = ka ∧ t.keyB = kb) → kn < P →
               (∀ i j, i < 128 → j < 128 → promotes (el s i j) (old i j)) →
               (∀ i j m, i < 128 → j < 128 → m ≤ kn → -(2 ^ 47) ≤ dot i j m ∧ dot i j m < 2 ^ 47) →
               ∃ u, s.meRuns k p c u ∧ (u.tile k).celln = kn ∧ ∀ i j, i < 128 → j < 128 → (u.tile k).cellAt i j = (dot i j kn, none)
                 ∧ el u i j = promoted (el s i j) (old i j)))
           ∧ (c.opc = 0x12 → cls = 2 → kn = 1 → t.celln + 1 < P → (t.celln = 0 ∨ (t.keyCls = 2 ∧ t.keyA = [] ∧ t.keyB = [])) → ∀ (A B : Nat → FV),
             let f := fun i j => fFma ⟨0, 0⟩ (A i) (B j) (decodeF fFP32 (v i j % 2 ^ 32).toNat)
             (∀ r, r < 128 → t.sideOf (w % 2) r (klo / 32) = none ∧ t.sideOf (2 + bitsN w 1 1) r (klo / 32) = none
               ∧ rawElem 3 t.mag (t.bankRow (w % 2) r) klo = .flt (A r) ∧ rawElem 3 t.mag (t.bankRow (2 + bitsN w 1 1) r) klo = .flt (B r)
               ∧ (A r).ordinary = true ∧ (B r).ordinary = true) →
             (∀ i j, i < 128 → j < 128 → (decodeF fFP32 (v i j % 2 ^ 32).toNat).ordinary = true ∧ f i j ≠ .invalid) →
             ∃ u, s.meRuns k p c u ∧ (u.tile k).celln = t.celln + 1 ∧ (u.tile k).keyCls = 2
               ∧ ∀ i j, i < 128 → j < 128 → (u.tile k).cellAt i j = (((roundEx fFP32 ⟨0, 0⟩ (f i j)).1 : Int), none) ∧ el u i j = el s i j)))

/-- R271, R275, R281, R282, R284: with no command running, the oldest command that may start waits for its semaphore and then takes the threshold and
starts, and without a threshold it starts at once; `xsig` completes in that cycle and its signal is under way; `xsel` posts its word; `xcp`, `xc2`, `xcg`, `xfil` and `xhsh` within the tile's scratchpad, clean of errors, leave
exactly the bytes of their definitions; an element of `xcg` whose check fails ends the grid with its cause and its offset, the elements before it written. That a copy whose
bytes can all be reached reads them all and lands in its start cycle is the model's choice of instants (assumptions 5 and 27).
R272, R285: a command that has landed, an accumulate also having been applied, leaves the running set; one that pushes an entry adds it, with its value, its status and its
sequence number; its signal is applied on its own tile, or is sent to the destination tile with `RSIG`; and a command that has not
landed, or whose earlier neighbour still owes its entry, stays.
R285: `xpop` waits for an entry, removes the oldest and gives it to its scalar two cycles later. -/
def Obligations.CopyCommandRuns : Prop :=
  (∀ (s : State) (k p : Nat) (c : XeCmd) (l : List XeCmd),
       let t := s.tile k
       let th := bitsN c.w0 32 8
       let rest := if th = 0 then l else l.map fun x => { x with ord := max x.ord (tget 0 t.semOrd p) }
       let si := bitsN c.w0 16 8
       let a := c.dofs.toNat
       let g := c.fofs.toNat
       t.xrun = [] → t.xeq = c :: l → s.xeMayStart k c = true → c.finished = false → c.park = 0 → c.buf = [] → c.ue = [] → c.pois = [] → c.peer = false →
       t.storesBefore (if th = 0 then c.ord else max c.ord (tget 0 t.semOrd p)) = false → (th ≠ 0 → s.semPhys k (bitsN c.w0 40 8) = some p) →
         (t.count p < th → exec (.xeCommandStart k) s = .next s)
           ∧ (th ≤ t.count p →
             let starts := fun (u : State) => exec (.xeCommandStart k) s = .next u ∧ (u.tile k).count p = t.count p - th ∧ (u.tile k).xeq = rest
               ∧ (u.tile k).core = t.core ∧ ∃ x, (u.tile k).xrun = [x] ∧ x.seq = c.seq ∧ x.finished = true
             (c.opc = 0x16 → ∃ u, exec (.xeCommandStart k) s = .next u ∧ (u.tile k).count p = t.count p - th ∧ (u.tile k).xeq = rest
                 ∧ (u.tile k).xrun = [] ∧ (u.tile k).core = t.core ∧ (u.tile k).scr = t.scr ∧ (si = 0 → u.incs = s.incs)
                 ∧ (si ≠ 0 → ∀ d, c.dtile = some d → ∃ x, u.incs = s.incs ++ [x] ∧ x.dtile = d ∧ x.en = bitsN c.w0 24 8 ∧ x.amount = si
                   ∧ x.tile = k ∧ x.seq = c.seq ∧ x.peer = none))
             ∧ (c.opc = 0x19 → (s.region t.rgn).rword = none →
                 ∃ u, starts u ∧ (u.region t.rgn).rword = some (t.tix, c.seq, BitVec.ofNat 32 (c.val 0)) ∧ (u.tile k).scr = t.scr)
             ∧ (c.opc = 0x10 → bitN c.w0 1 = false → c.dobj = some 0xFFFFF0 → c.fobj = some 0xFFFFF0 → c.dtile = some k → t.scrUE = [] →
                 Memory.wf t.scr = true → 1 ≤ c.len → a + c.len ≤ 0x80000 → g + c.len ≤ 0x80000 →
                 ∃ u, starts u ∧ (∀ i, i < c.len → mget (u.tile k).scr (a + i) = mget t.scr (g + i))
                   ∧ ∀ x, x < a ∨ a + c.len ≤ x → mget (u.tile k).scr x = mget t.scr x)
             ∧ (c.opc = 0x1A → c.dobj = some 0xFFFFF0 → c.fobj = none → c.dtile = some k → Memory.wf t.scr = true → 1 ≤ c.len → a + c.len ≤ 0x80000 →
                 ∃ u, starts u ∧ (∀ i, i < c.len → mget (u.tile k).scr (a + i) = BitVec.ofNat 8 (bitsN (c.val 0) (8 * (i % 8)) 8))
                   ∧ ∀ x, x < a ∨ a + c.len ≤ x → mget (u.tile k).scr x = mget t.scr x)
             ∧ (c.dobj = some 0xFFFFF0 → c.fobj = some 0xFFFFF0 → c.dtile = some k → t.scrUE = [] → Memory.wf t.scr = true →
               (c.opc = 0x17 → 1 ≤ c.len → a + 48 ≤ 0x80000 → g + c.len ≤ 0x80000 →
                 ∃ u, starts u ∧ mread (u.tile k).scr a 48 = sha384 (0 :: leBytes 8 (g / 65536) ++ mread t.scr g c.len) ∧ storesScr k 48 [a] s u)
               ∧ (c.opc = 0x11 →
                 let L := c.val 1
                 let N := c.val 2
                 let D := fun (r : Nat) => c.dofs + r * sextN 32 (c.val 3 / 2 ^ 32)
                 let F := fun (r : Nat) => c.fofs + r * sextN 32 (c.val 3)
                 1 ≤ L → (∀ r, r < N → 0 ≤ D r ∧ D r + L ≤ 0x80000 ∧ 0 ≤ F r ∧ F r + L ≤ 0x80000) →
                 (∀ r q, r < N → q < N → r ≠ q → D r + L ≤ D q ∨ D q + L ≤ D r) →
                 ∃ u, starts u ∧ (∀ r i, r < N → i < L → mget (u.tile k).scr ((D r).toNat + i) = mget t.scr ((F r).toNat + i))
                   ∧ storesScr k L ((List.range N).map fun r => (D r).toNat) s u)
               ∧ (c.opc = 0x12 →
                 let es := c.w0 % 2 ^ 16
                 let sc := bitN es 1
                 let e := 2 ^ (bitsN es 2 3 + 2)
                 let n := bitsN c.w1 51 13
                 let off := fun (j : Nat) => (if sc then c.dofs else c.fofs) + sextN 32 (leVal (mread t.scr (c.val 1 + 4 * j) 4))
                 let chk := fun (j : Nat) => capCheck (if sc then c.dcap else c.fcap) (off j) e (if sc then rtW else rtR) 1
                 ∀ (A : Nat → Nat) (m : Nat), m ≤ n → (∀ j, j < m → chk j = .ok (0xFFFFF0, A j) ∧ A j + e ≤ 0x80000) → a + n * e ≤ 0x80000 → g + n * e ≤ 0x80000 →
                 let D := fun (j : Nat) => if sc then A j else a + j * e
                 let F := fun (j : Nat) => if sc then g + j * e else A j
                 (∀ i j, i < m → j < m → i ≠ j → D i + e ≤ D j ∨ D j + e ≤ D i) →
                 let written := fun (u : State) => (∀ j i, j < m → i < e → mget (u.tile k).scr (D j + i) = mget t.scr (F j + i))
                   ∧ storesScr k e ((List.range m).map D) s u
                 (m = n → ∃ u, starts u ∧ written u)
                   ∧ (∀ x, m < n → chk m = .error x → (s.region t.rgn).report = none → ∃ u z, exec (.xeCommandStart k) s = .next u ∧ written u
                     ∧ (u.region t.rgn).report = some z ∧ z.cause = x ∧ z.val = (off m % 2 ^ 64).toNat ∧ z.srca = 5 ∧ z.pc = c.pc % 2 ^ 32
                     ∧ (u.tile k).live = false)))))
    ∧ (∀ (s : State) (k id : Nat) (c : XeCmd),
       let t := s.tile k
       let si := bitsN c.w0 16 8
       let ss := bitsN c.w0 24 8
       let waits := c.pushes = true ∧ ∃ x ∈ t.xrun, x.pushes = true ∧ x.seq < c.seq
       let v := BitVec.ofNat 64 (c.res.1 % 2 ^ 32 + c.res.2 % 16 * 2 ^ 32 + c.seq % 2 ^ 24 * 2 ^ 40)
       let T : Tile := { t with xrun := t.xrun.filter (·.seq != id), xfifo := if c.pushes then t.xfifo ++ [v] else t.xfifo }
       t.xrun.find? (·.seq == id) = some c → bitN c.w1 50 = false →
         ((c.finished = false ∨ waits ∨ c.isAw = true ∧ (c.applied = false ∨ c.peer = true ∧ c.told = false)) → exec (.xeCommandComplete k id) s = .next s)
           ∧ (c.finished = true → c.park = 0 → (c.isAw = true → c.applied = true ∧ (c.peer = true → c.told = true)) → ¬ waits →
             (si = 0 → exec (.xeCommandComplete k id) s = .next (s.setTile k T))
             ∧ (si ≠ 0 → c.opc ≠ 0x16 → (c.opc = 0x18 ∨ bitN c.w0 0 = false) → s.landsBefore k c.seq k none = false → ∀ p, s.semPhys k ss = some p →
                 exec (.xeCommandComplete k id) s = .next (s.setTile k { T with semops := t.semops ++ [⟨3, 5, p, si, ss, c.pc, c.w0, 5, k⟩] }))
             ∧ (si ≠ 0 → c.opc = 0x16 ∨ (c.opc ≠ 0x18 ∧ bitN c.w0 0 = true) → c.peer = false → ∀ d, c.dtile = some d → ∃ u x, exec (.xeCommandComplete k id) s = .next u
                 ∧ u.incs = s.incs ++ [x] ∧ x.dtile = d ∧ x.en = ss ∧ x.amount = si ∧ x.tile = k ∧ x.seq = c.seq ∧ u.tile k = T)))
    ∧ (∀ (h : Hdr) (f : FmtY) (s : State) (k : Nat), s.issues k →
       let t := s.tile k
       (t.xfifo = [] → exec (.xpop h f) s = .next s)
         ∧ ∀ x l, t.xfifo = x :: l →
             exec (.xpop h f) s = .next ((s.setTile k { t with xfifo := l }).issued h 2
               (if f.sd = 0 then [] else [.scal (s.cur.snap.phys f.sd.toNat) ⟨x, false⟩]) none))

/-- R223, R225: a remote increment that no earlier command of its engine holds back is applied through the destination tile's map, and one
without a map entry ends the sender's grid with CAPRGT.
R276, R286: the arrivals of an accumulate that has read its operands reach their port with its due step and its key; a close held 4,096 steps
for a command that has not started ends the grid with WAITCYC.
R277, R278 (Table 111): one arrival leaves the result of its operation on the old value at its address and nowhere else, and the old value
goes to a command that returns it; a compare-and-swap writes only on equality. A floating sum is rounded once in the mode of the command, a minimum or maximum
is one of the two; poison among them gives poison with the smallest id, a foreign or a signalling NaN and an invalid sum an origin of the source tile's XE.
That an uncorrectable granule is combined from the bits it holds is the model's choice (assumption 26).
An arrival from a peer makes no origin here: its id takes the number that the peer has told, and the peer is told of it and of the old value; what is told
of an own command at a peer completes it, and its origins are numbered at the close. How this is told is the model's choice (assumption 7). -/
def Obligations.ArrivalsAndIncrements : Prop :=
  (∀ (s : State) (n : Nat) (x : RemInc), s.incs.find? (·.id == n) = some x →
       let d := s.tile x.dtile
       let rest : State := { s with incs := s.incs.filter (·.id != n) }
       (incHeld s x = true → exec (.remoteIncrement n) s = .next s)
         ∧ (incHeld s x = false → x.peer = none → ∀ p, s.semPhys x.dtile x.en = some p → exec (.remoteIncrement n) s =
             .next (rest.setTile x.dtile { d with semops := d.semops ++
               [⟨4, (s.tile x.tile).tix * 2 ^ 64 + x.seq, p, x.amount, x.en, x.pc, x.w0, 5, x.tile⟩] }))
         ∧ (incHeld s x = false → x.peer = none → s.semPhys x.dtile x.en = none → (s.rgnOf x.tile).report = none → ∃ u r, exec (.remoteIncrement n) s = .next u
             ∧ (u.rgnOf x.tile).report = some r ∧ r.cause = cCAPRGT ∧ r.srca = 5 ∧ r.pc = x.pc % 2 ^ 32 ∧ (u.tile x.tile).live = false)
         ∧ (incHeld s x = false → ∀ p, x.peer = some p → s.peerDown x.tile p.2.1 = none → exec (.remoteIncrement n) s =
             .next (({ s with incs := s.incs.map fun y => if y.id = n then { y with sent := true } else y } : State).send "peer-signal"
               [n, p.1, s.peerCtx x.tile p.2.1, (s.peerTile x.tile p.2.1).2, p.2.2, x.en, x.amount, (s.tile x.tile).tix, x.seq]))
         ∧ (incHeld s x = false → ∀ p i, x.peer = some p → s.peerDown x.tile p.2.1 = some i → (s.rgnOf x.tile).report = none →
             ∃ u r, exec (.remoteIncrement n) s = .next u ∧ (u.rgnOf x.tile).report = some r ∧ r.cause = cLINKLOST ∧ r.val = i % 2 ^ 64 ∧ r.srca = 5
               ∧ r.pc = x.pc % 2 ^ 32 ∧ (u.tile x.tile).live = false))
    ∧ (∀ (s : State) (k id : Nat) (c : XeCmd),
       let t := s.tile k
       (t.xrun.find? (·.seq == id) = some c → c.isAw = true → c.finished = true → c.ain = false → c.park = 0 → c.peer = false →
         c.dobj = some 0xFFFFF0 → s.seamDown (dieOfTile k) (dieOfTile (c.dtile.getD k)) = none → ∃ u l, exec (.accumulateArrival k id) s = .next u ∧ u.arrivals = s.arrivals ++ l ∧ l.length = c.elems.length
           ∧ (∀ a ∈ l, a.rgn = t.rgn ∧ a.due = c.due ∧ a.tix = t.tix ∧ a.seq = c.seq ∧ a.at = .scr (c.dtile.getD k))
           ∧ (∃ x ∈ (u.tile k).xrun, x.seq = c.seq ∧ x.ain = true) ∧ (u.tile k).scr = t.scr)
         ∧ (∀ rg x, (s.dueAw rg (s.region rg).rstep).find? (fun x => !x.2.started && x.2.late.any fun d => d + 4096 ≤ s.dom.step) = some x →
             (s.rgnOf x.1).report = none → ∃ u r, exec (.accumulateCloseTimeout rg) s = .next u ∧ (u.rgnOf x.1).report = some r
               ∧ r.cause = cWAITCYC ∧ r.srca = 5 ∧ r.pc = x.2.pc % 2 ^ 32 ∧ (u.tile x.1).live = false))
    ∧ (∀ (s : State) (u : Nat) (a : Arrival) (k : Nat), a.space = 0 → a.unit = k → a.tile = k → a.port = none → Memory.wf (s.tile k).scr = true →
       let m := (s.tile k).scr
       let o : BitVec 32 := BitVec.ofNat 32 (leVal (mread m a.addr 4))
       let t := (s.applyArr u a).tile k
       let leaves := fun (v : BitVec 32) => BitVec.ofNat 32 (leVal (mread t.scr a.addr 4)) = v
       (∀ x, x < a.addr ∨ a.addr + 4 ≤ x → mget t.scr x = mget m x)
         ∧ (∀ c ∈ t.xrun, c.seq = a.seq → c.res = (o.toNat, 0))
         ∧ (∀ e, a.exp = some e → leaves (if o = e then a.v else o))
         ∧ (a.exp = none → a.vp = none → a.ty ≠ 0 →
           (a.op = 0 → leaves (o + a.v)) ∧ (a.op = 3 → leaves (o &&& a.v)) ∧ (a.op = 4 → leaves (o ||| a.v)) ∧ (a.op = 5 → leaves (o ^^^ a.v))
             ∧ (a.op = 6 → leaves a.v) ∧ (a.op = 1 → a.ty = 1 → leaves (if a.v.toInt < o.toInt then a.v else o))
             ∧ (a.op = 2 → a.ty = 2 → leaves (if o.toNat < a.v.toNat then a.v else o)))
         ∧ (∀ id, a.exp = none → a.vp = some id → a.ty ≠ 0 → leaves (BitVec.ofNat 32 (id % 2 ^ 22)))
         ∧ (a.exp = none → a.ty = 0 →
           let x := decodeF fFP32 o.toNat
           let y := match a.vp with
             | some id => FV.poison id
             | none => decodeF fFP32 a.v.toNat
           let md : Mode := ⟨a.rm, 0⟩
           let made := fun (kind : Nat) => (s.newOrigin ⟨k, 4, a.pc, 0, a.w0, u⟩ kind).2
           let bits := fun (id : Nat) => BitVec.ofNat 32 (poison32 id)
           (x.ordinary = true → y.ordinary = true →
             (a.op = 0 → fAdd md x y ≠ .invalid → leaves (BitVec.ofNat 32 (roundEx fFP32 md (fAdd md x y)).1))
               ∧ (a.op = 0 → fAdd md x y = .invalid → leaves (bits (made okINV)))
               ∧ (a.op = 1 → leaves (if fLess y x then a.v else o)) ∧ (a.op = 2 → leaves (if fLess x y then a.v else o)))
             ∧ (∀ i, x = .poison i → y.ordinary = true → leaves (bits i)) ∧ (∀ i, x.ordinary = true → y = .poison i → leaves (bits i))
             ∧ (∀ i j, x = .poison i → y = .poison j → leaves (bits (min i j)))
             ∧ (x = .quiet → y.ordinary = true → leaves (bits (made okFOREIGN))) ∧ (x.ordinary = true → y = .quiet → leaves (bits (made okFOREIGN)))
             ∧ (x = .signalling → y.ordinary = true → leaves (bits (made okSNAN)))))
    ∧ (∀ (s : State) (u p : Nat) (a : Arrival) (z : List (Nat × Nat × Nat)), a.port = some p →
       let r := State.applyPeer u (s, z) a
       let S := r.1
       let o : BitVec 32 := BitVec.ofNat 32 (leVal (s.rd a.at a.addr 4))
       (∀ j, (S.tile j).psnc = (s.tile j).psnc) ∧ (∀ r, (S.region r).origins = (s.region r).origins ∧ (S.region r).minid = (s.region r).minid)
         ∧ (∀ c, S.ctx c = s.ctx c) ∧ (∀ k x, (a.space ≠ 0 ∨ a.unit ≠ k ∨ x < a.addr ∨ a.addr + 4 ≤ x) → mget (S.tile k).scr x = mget (s.tile k).scr x)
         ∧ (∃ l, S.outbox = s.outbox ++ l ++ [⟨"peer-old", [p, a.lseq, a.tix, a.seq, o.toNat]⟩])
         ∧ ∀ m k, z.find? (fun y => y.1 == a.tix && y.2.1 == a.seq) = some (a.tix, a.seq, m) → a.space = 0 → a.unit = k → Memory.wf (s.tile k).scr = true →
           m < 128 → a.exp = none → a.vp = none → a.ty = 0 → (s.region 0).origins = 0 → (decodeF fFP32 o.toNat).ordinary = true → decodeF fFP32 a.v.toNat = .quiet →
           leVal (mread (S.tile k).scr a.addr 4) = 0x7FE00000 + a.tix % 2 ^ 11 * 2 ^ 10 + 4 * 2 ^ 7 + m
             ∧ (a.tix, a.seq, min (m + 1) 127) ∈ r.2
             ∧ S.outbox = s.outbox ++ [⟨"peer-origin", [p, a.lseq, a.tix, a.seq, okFOREIGN]⟩, ⟨"peer-old", [p, a.lseq, a.tix, a.seq, o.toNat]⟩])
    ∧ (∀ (s : State) (u p k seq kind v : Nat) (a : Arrival) (c : XeCmd), (s.tile k).xrun.find? (fun c => c.seq == seq && c.peer && c.isAw) = some c →
       let n := tget 0 (s.tile k).psnc 4
       (a.space = 3 → a.port = some p → a.tile = k → a.seq = seq → (∀ x ∈ (s.tile k).xrun, x.porg = []) →
           (s.applyArr u a).outbox = s.outbox ++ [⟨"peer-close", [p, a.lseq, u, a.tix, seq, n]⟩] ∧ sameMemory s (s.applyArr u a))
         ∧ (∃ x ∈ ((s.peerOld k seq v).tile k).xrun, x.seq = seq ∧ x.told = true ∧ x.res = (v % 2 ^ 32, 0))
         ∧ (c.applied = false → (∃ x ∈ ((s.peerOrigin k seq kind).tile k).xrun, x.seq = seq ∧ x.porg = c.porg ++ [kind])
             ∧ ((s.peerOrigin k seq kind).tile k).psnc = (s.tile k).psnc)
         ∧ (c.applied = true → c.porg = [] → tget 0 ((s.peerOrigin k seq kind).tile k).psnc 4 = min (n + 1) 127
             ∧ ((s.peerOrigin k seq kind).rgnOf k).origins = min ((s.rgnOf k).origins + 1) (2 ^ 32 - 1)))

/-- R270, R286 (Table 112), R373: a command that reaches a peer without a running region, or whose tile index lies outside it, ends its grid with
OBJFLT or CAPBND; else it is done there. A fault answer ends the grid with OBJFLT unless it asks for another try.
R283: the hub's handling of an `xopn` into the scratchpad: a slot that is not loaded or belongs to another context gives status 3 (with
guilt for another's), another length field 1, a counter that does not rise 2; and a tag that verifies gives the plaintext,
status 0 and the new counter. Memory changes only then. -/
def Obligations.PeersAndHubCipher : Prop :=
  (∀ (s : State) (k id n : Nat) (c : XeCmd) (rec : List (BitVec 64)),
       let t := s.tile k
       let R := s.rgnOf k
       let ends := fun (i : Instr) (cause : Nat) => ∃ u r, exec i s = .next u ∧ (u.rgnOf k).report = some r ∧ r.cause = cause ∧ r.srca = 5
         ∧ r.pc = c.pc % 2 ^ 32 ∧ (u.tile k).live = false ∧ (u.tile k).xeDead = true
       t.xrun.find? (·.seq == id) = some c → c.peer = true → c.park = 3 → R.report = none →
         ends (.peerCommandArrival k id false n) cOBJFLT
           ∧ (bitN c.w1 39 = true → n ≤ bitsN c.w1 28 11 → ends (.peerCommandArrival k id true n) cCAPBND)
           ∧ (bitN c.w1 39 = false ∨ bitsN c.w1 28 11 < n → ∃ u x, exec (.peerCommandArrival k id true n) s = .next u ∧ x ∈ (u.tile k).xrun
               ∧ x.seq = c.seq ∧ x.finished = true ∧ x.park = 0 ∧ (u.tile k).core = t.core)
           ∧ ends (.peerFaultAnswer k id false rec) cOBJFLT ∧ exec (.peerFaultAnswer k id true rec) s = .next s)
    ∧ (∀ (s : State) (k id : Nat) (c : XeCmd),
       let t := s.tile k
       let src := c.buf.flatMap ReadBuf.bytes
       let cnt := leVal ((src.drop 4).take 8)
       let n := c.w0 % 2 ^ 16 % 256
       let x := tget {} s.hub.keys n
       let own := s.ctxNo k
       let ct := (src.drop 16).take c.len
       let r := gcm x.bytes (src.take 12) (src.take 16) ct ct
       let a := c.dofs.toNat
       t.xrun.find? (·.seq == id) = some c → c.opc = 0x18 → c.park = 4 → c.dobj = some 0xFFFFF0 → c.dtile = some k → c.unnumbered = [] → Memory.wf t.scr = true →
         let gives := fun (st : Nat) (u : State) => exec (.xopnHeaderAtHub k id) s = .next u
           ∧ ∃ y ∈ (u.tile k).xrun, y.seq = c.seq ∧ y.finished = true ∧ y.res = (0, st)
         let fails := fun (st : Nat) => ∃ u, gives st u ∧ (u.tile k).scr = t.scr ∧ u.hub = s.hub
         (x.valid = false → fails 3) ∧ (x.valid = true → x.owner ≠ own → fails 3)
           ∧ (x.valid = true → x.owner ≠ own → ∃ u, gives 3 u ∧ (u.ctx own).guilt = min ((s.ctx own).guilt + 16) 0xFFFF)
           ∧ (x.valid = true → x.owner = own →
             (leVal ((src.drop 12).take 4) ≠ c.len → fails 1)
             ∧ (leVal ((src.drop 12).take 4) = c.len → cnt ≤ x.last.toNat → fails 2)
             ∧ (leVal ((src.drop 12).take 4) = c.len → x.last.toNat < cnt → r.2 ≠ (src.drop (16 + c.len)).take 16 → fails 1)
             ∧ (leVal ((src.drop 12).take 4) = c.len → x.last.toNat < cnt → r.2 = (src.drop (16 + c.len)).take 16 → r.1.length = c.len →
                 ∃ u, gives 0 u ∧ mread (u.tile k).scr a c.len = r.1 ∧ (tget {} u.hub.keys n).last = BitVec.ofNat 64 cnt
                   ∧ ∀ b, b < a ∨ a + c.len ≤ b → mget (u.tile k).scr b = mget t.scr b)))

/-! ### Sorrel's words (09_page.md to 17_link.md) -/

/-- R202, R203, R204, R205, R214, R218, R219, R220: `otwr.rd` gives the eight words of an entry; `otwr.wr` writes a well-formed entry
whose move Table 85 allows and whose frames are not bound, and drops its translations on every die; `otwr.gwr` writes a guest-frame
entry and drops what it mapped; `otwr.qrd` gives a function's budgets; `xinv` drops what it selects and holds Sorrel. Otherwise the
word only gives its status.
R217: an invalidation removes exactly the selected translations of the dies in its scope, and raises their epochs. The model's choices in it: a move that
Table 85 does not list gives 1 (assumption 11), status 2 before 1 and 3 last, an entry or table in a bound frame being 3 (assumption 17), the reserved
bits of a guest-frame entry (assumption 40), and `xinv` with a poisoned register, which drops what the register's bits select (assumption 53). -/
def Obligations.TableWords : Prop :=
  (∀ (p : BitVec 4) (f : FmtZ) (s : State) (d : Nat),
       let a := s.reg f.a.toNat
       let b := s.reg f.b.toNat
       let c := a / 2 ^ 24 % 256
       let i := a % 2 ^ 24
       let w := (List.range 8).map fun j => s.reg (f.b.toNat + j)
       let e := mkEnt w
       let bad := s.entOk c e = false ∨ otMove (mkEnt (s.otWords c i)).state e.state = false
       let wr := (s.dramWr (s.otBase c + 64 * i) (wordsBytes w)).invWord true fun x => x.ctx == c && x.oid == i
       (s.svReady d p f 0 →
           (s.otLen c ≤ i → s.comes (.otwrRd p f) f s 2)
             ∧ (i < s.otLen c → s.comes (.otwrRd p f) f (s.putRegs f.b.toNat (s.otWords c i)) 0)
             ∧ s.comes (.otwrQrd p f) f (s.putRegs f.b.toNat [(s.fn (a % 32)).guar % 2 ^ 20 + (s.fn (a % 32)).burst % 2 ^ 20 * 2 ^ 32, (s.fn (a % 32)).used]) 0)
         ∧ (s.svReady d p f 8 →
           let fixed := s.inBound (s.otBase c + 64 * i) 64
           (i = 0 → (descOk w = false → s.comes (.otwrWr p f) f s 1) ∧ (descOk w = true → fixed = true → s.comes (.otwrWr p f) f s 3)
               ∧ (descOk w = true → fixed = false → s.comes (.otwrWr p f) f wr 0))
             ∧ (i ≠ 0 → s.otLen c ≤ i → s.comes (.otwrWr p f) f s 2)
             ∧ (i ≠ 0 → i < s.otLen c →
               (bad → s.comes (.otwrWr p f) f s 1)
               ∧ (¬ bad → (fixed = true ∨ ∃ h ∈ s.entHosts c e, h ∈ s.boundFrames) → s.comes (.otwrWr p f) f s 3)
               ∧ (¬ bad → fixed = false → (∀ h ∈ s.entHosts c e, h ∉ s.boundFrames) → s.comes (.otwrWr p f) f wr 0)))
         ∧ (s.svReady d p f 1 →
           let v := a / 2 ^ 24 % 32
           let g := a % 2 ^ 19
           let x := b % 2 ^ 32
           ((v = 0 ∨ (s.fn v).glen ≤ g) → s.comes (.otwrGwr p f) f s 1)
             ∧ (v ≠ 0 → g < (s.fn v).glen → (bitN x 19 = true ∧ x % 2 ^ 19 ∈ s.boundFrames) ∨ s.inBound ((s.fn v).gbase + 4 * g) 4 = true →
                 s.comes (.otwrGwr p f) f s 3)
             ∧ (v ≠ 0 → g < (s.fn v).glen → (bitN x 19 = false ∨ x % 2 ^ 19 ∉ s.boundFrames) → s.inBound ((s.fn v).gbase + 4 * g) 4 = false →
                 s.comes (.otwrGwr p f) f
                 ((s.dramWr ((s.fn v).gbase + 4 * g) (leBytes 4 x)).invWord true fun y => y.fn == v && y.guest < g + 1 && g < y.guest + y.run) 0))
         ∧ (s.bySorrel d → s.goes p →
           let drops := fun (i : Instr) (sel : Xlat → Bool) => exec i s = .next (FRes.step (s.invWord (bitN f.imm.toNat 3) sel)).state
           drops (.xinvAll p f) (fun _ => true) ∧ drops (.xinvCtx p f) (fun x => x.ctx == a % 256)
             ∧ drops (.xinvObj p f) (fun x => x.ctx == a / 2 ^ 24 % 256 && x.oid == a % 2 ^ 24)
             ∧ drops (.xinvGfr p f) (fun x => x.fn == a % 32 && x.guest < b % 2 ^ 19 + f.imm.toNat / 2 ^ 8 && b % 2 ^ 19 < x.guest + x.run)))
    ∧ (∀ (s : State) (d : Nat) (pkg : Bool) (sel : Xlat → Bool), s.bySorrel d → d < 3 →
       let u := s.invWord pkg sel
       (∀ e, e < 3 → (pkg = true ∨ e = d) → (u.die e).etc = (s.die e).etc.filter (fun x => !sel x) ∧ (u.die e).epoch = (s.die e).epoch + 1)
         ∧ (∀ e, pkg = false → e ≠ d → u.die e = s.die e)
         ∧ (u.die d).sorrel.hold = some (1, s.invalid) ∧ u.dram = s.dram ∧ u.tiles = s.tiles)

/-- R208, R215 (Table 86), R216, R297, R307: `otwr.frm` moves a frame that nothing binds between its states, charging and releasing the function it
belongs to; every other move of Table 86 gives status 3, among them a Migrating frame without an error to Retired. `otwr.fcp` copies one frame. R210
to R213: `otwr.fpop` takes the oldest fault record; `otwr.fret` answers a popped record that a retry may resolve, so that its access goes on; one that
it may not resolve, and every `otwr.fflt`, ends the grid with OBJFLT. The model's choices in it: whose function a frame is charged to (assumption 13),
which frames count as Guaranteed when one leaves (assumption 11), the fall of the fault interrupt when `otwr.fpop` empties the buffer (assumption 53),
status 1 for a frame of 393,216 or more (assumption 16), the order of the statuses, the count `otwr.fpop` gives and `otwr.fcp` on a bound frame
(assumption 17). -/
def Obligations.FrameAndFaultWords : Prop :=
  (∀ (p : BitVec 4) (f : FmtZ) (s : State) (d : Nat), s.svReady d p f 1 →
       let a := s.reg f.a.toNat
       let h := a % 2 ^ 19
       let w := s.reg f.b.toNat
       let old := s.ft h % 8
       let ov := s.ft h / 8 % 32
       let ue := s.ft h / 2 ^ 27 % 2 ^ 16
       let g := w / 2 ^ 8 % 2 ^ 19
       let new := w % 8
       let v := w / 8 % 32
       let F := s.fn v
       let becomes := fun (st : Nat) (v : Nat) => s.setFt h (mkFt st v g ue)
       let charge := fun (u : State) (v : Nat) (n : Int) => u.setFn v { u.fn v with used := (((u.fn v).used : Int) + n).toNat }
       let held := fun (v : Nat) => if s.countFt v 1 < (s.fn v).guar then 1 else 2
       (393216 ≤ h → s.comes (.otwrFrm p f) f s 1)
         ∧ (h < 393216 → h ∈ s.boundFrames → s.comes (.otwrFrm p f) f s 3)
         ∧ (h < 393216 → h ∉ s.boundFrames →
           (old = 0 → new = 1 ∨ new = 2 → F.used < F.burst → F.groupOn (h / 131072) = true →
               s.comes (.otwrFrm p f) f (charge (becomes (held v) v) v 1) 0)
             ∧ (old = 0 → new = 1 ∨ new = 2 → F.burst ≤ F.used ∨ F.groupOn (h / 131072) = false → s.comes (.otwrFrm p f) f s 3)
             ∧ (old = 1 ∨ old = 2 → new = 3 → s.comes (.otwrFrm p f) f (becomes 3 ov) 0)
             ∧ (old = 3 → new = 1 ∨ new = 2 → s.comes (.otwrFrm p f) f (becomes (held ov) ov) 0)
             ∧ (old = 1 ∨ old = 2 ∨ old = 3 → new = 4 → s.comes (.otwrFrm p f) f ((becomes 4 ov).noteMigr h (s.wasGuar h)) 0)
             ∧ (old = 4 ∨ old = 1 ∨ old = 2 → new = 0 →
                 s.comes (.otwrFrm p f) f (((charge (becomes 0 v) ov (-1)).reclassify ov (s.wasGuar h)).noteMigr h false) 0)
             ∧ (old = 4 → new = 5 → 1 ≤ ue → s.hub.retired.length < 4096 →
                 let u := ((charge (becomes 5 ov) ov (-1)).reclassify ov (s.wasGuar h)).noteMigr h false
                 s.comes (.otwrFrm p f) f { u with hub := { u.hub with retired := sins u.hub.retired h } } 0)
             ∧ (5 ≤ old ∨ 5 < new ∨ (old = 0 ∧ new ≠ 1 ∧ new ≠ 2) ∨ ((old = 1 ∨ old = 2) ∧ (new = 1 ∨ new = 2 ∨ new = 5))
                ∨ (old = 3 ∧ (new = 0 ∨ new = 3 ∨ new = 5)) ∨ (old = 4 ∧ new ≠ 0 ∧ (new ≠ 5 ∨ ue = 0)) → s.comes (.otwrFrm p f) f s 3))
         ∧ (let adr := fun x => if bitN x 63 then x % 2 ^ 63 else x % 2 ^ 19 * 2097152
           let bad := fun x => (bitN x 63 = true ∧ x % 2097152 ≠ 0) ∨ (bitN x 63 = false ∧ 393216 ≤ x % 2 ^ 19)
           let bound := fun x => bitN x 63 = false ∧ x % 2 ^ 19 ∈ s.boundFrames
           (bad a ∨ bad w → s.comes (.otwrFcp p f) f s 1)
             ∧ (¬ bad a → ¬ bad w → (bound a ∨ bound w) → s.comes (.otwrFcp p f) f s 3)
             ∧ (¬ bad a → ¬ bad w → ¬ bound a → ¬ bound w → s.comes (.otwrFcp p f) f (s.copyFrame (adr a) (adr w) (bitN a 63) (bitN w 63)) 0)))
    ∧ (∀ (p : BitVec 4) (f : FmtZ) (s : State) (d : Nat), s.svReady d p f 0 →
       let a := s.reg f.a.toNat
       let D := s.die d
       let live := fun (n ov : Nat) => a % 2 ^ 16 + a / 2 ^ 27 % 2 ^ 5 * 2 ^ 27 + n % 2 ^ 11 * 2 ^ 16 + ov % 2 ^ 32 * 2 ^ 32
       let found := D.fpop.find? (·.seq == a % 2 ^ 32)
       (D.fbuf = [] → s.comes (.otwrFpop p f) f (s.putReg f.a.toNat (live 0 D.fover)) 2)
         ∧ (∀ r l, D.fbuf = r :: l → D.fheld = [] → s.comes (.otwrFpop p f) f
             (((s.setDie d { D with fbuf := l, fpop := D.fpop ++ [r], firq := !l.isEmpty }).putRegs f.b.toNat r.words).putReg f.a.toNat (live l.length D.fover)) 0)
         ∧ (found = none → s.comes (.otwrFret p f) f s 2 ∧ s.comes (.otwrFflt p f) f s 2)
         ∧ (∀ r, found = some r → (r.kind = 0 ∨ r.kind = 1) → s.comes (.otwrFret p f) f ((s.answered d r).goOn r) 0)
         ∧ (∀ r, r.peer = none → s.goOn r = s.setPark r.tile r.srcu r.acc 0)
         ∧ (∀ r, found = some r → r.kind ≠ 0 → r.kind ≠ 1 → s.comes (.otwrFret p f) f (s.objFlt d r) 0)
         ∧ (∀ r, found = some r → s.comes (.otwrFflt p f) f (s.objFlt d r) 0))

/-- R222, R232: `smap` reads, writes and adjusts the map of a tile that a region holds, and refuses a running one; `bmap` binds a handle to a free
slot of a cluster of the region, reads it, resets it and unbinds it. The order of the statuses is the model's (assumption 17), and so is which region
counts as running for `smap` (assumption 23); `bmap.unbind` and `bmap.rst` are refused in Running alone, as Table 91 writes it. -/
def Obligations.MapWords : Prop :=
  ∀ (p : BitVec 4) (f : FmtZ) (s : State) (d : Nat),
    let a := s.reg f.a.toNat
    let v := s.reg f.b.toNat
    let x := a % 2 ^ 7
    let y := a / 2 ^ 8 % 2 ^ 5
    let b := a / 2 ^ 16 % 2
    let k := 96 * y + x
    let t := s.tile k
    let n := v % 256
    let ph := v / 2 ^ 8 % 512
    let e := tget {} (t.smap b) n
    let cnt := if e.valid then t.count e.phys else 0
    (s.svReady d p f 1 → (95 < x ∨ 17 < y) → ∀ i ∈ [Instr.smapWr p f, .smapRd p f, .smapAdj p f], s.comes i f s 1)
      ∧ (s.svReady d p f 1 → x ≤ 95 → y ≤ 17 → (k ∈ (s.die (dieOfTile k)).defect ∨ s.holder k b = none) →
          ∀ i ∈ [Instr.smapWr p f, .smapRd p f, .smapAdj p f], s.comes i f s 2)
      ∧ (s.svReady d p f 1 → x ≤ 95 → y ≤ 17 → k ∉ (s.die (dieOfTile k)).defect → ∀ r, s.holder k b = some r →
        s.comes (.smapRd p f) f (s.putReg f.b.toNat (e.phys % 512 * 2 ^ 8 + (if e.valid then 2 ^ 24 + t.count e.phys * 2 ^ 32 else 0))) 0
          ∧ ((s.region r).running = true → s.comes (.smapWr p f) f s 3 ∧ s.comes (.smapAdj p f) f s 3)
          ∧ ((s.region r).running = false →
            (ph ∈ usedPhys t b n → s.comes (.smapWr p f) f s 1)
            ∧ (ph ∉ usedPhys t b n → bitN v 24 = false → cnt ≠ 0 → s.comes (.smapWr p f) f s 3)
            ∧ (bitN v 24 = true → ph ∉ usedPhys t b n → e.valid = false →
                s.comes (.smapWr p f) f (s.putMap r k b (t.setSmap b (tset (t.smap b) n ⟨true, ph⟩))) 0)
            ∧ (e.valid = false → s.comes (.smapAdj p f) f s 2)
            ∧ (e.valid = true → ∀ m : Nat, ((t.count e.phys : Int) + sextN 32 (v / 2 ^ 32) = m) → m ≤ 65535 →
                s.comes (.smapAdj p f) f (s.putMap r k b (t.setCount e.phys m)) 0)
            ∧ (e.valid = true → 65535 < (t.count e.phys : Int) + sextN 32 (v / 2 ^ 32) →
                s.comes (.smapAdj p f) f ((s.putMap r k b (t.setCount e.phys 65535)).adjLater r k cSEMOVF (semVal n e.phys)) 3)
            ∧ (e.valid = true → (t.count e.phys : Int) + sextN 32 (v / 2 ^ 32) < 0 →
                s.comes (.smapAdj p f) f ((s.putMap r k b (t.setCount e.phys 0)).adjLater r k cSEMUND (semVal n e.phys)) 3)))
      ∧ (s.svReady d p f 2 →
        let m := s.reg (f.b.toNat + 1)
        let cl := 48 * (v / 2 ^ 8 % 16) + v % 64
        let sl := v / 2 ^ 16 % 16
        let r := v / 2 ^ 32 % 2 ^ 16
        let c := a / 2 ^ 24 % 256
        let lim := if bitN v 24 then 2 ^ 40 else 1728
        let o := (s.homePool r cl, sl)
        ((m = 0 ∨ lim < m ∨ 48 ≤ v % 64 ∨ cl ∉ s.clustersOf r ∨ (s.bar o).state ≠ 0) → s.comes (.bmapBind p f) f s 1)
          ∧ ((s.region r).out = false → s.homePool r cl = cl)
          ∧ (m ≠ 0 → m ≤ lim → v % 64 < 48 → cl ∈ s.clustersOf r → (s.bar o).state = 0 →
            ((s.barAt c (a % 64)).isSome = true → s.comes (.bmapBind p f) f s 3)
            ∧ (s.barAt c (a % 64) = none → s.comes (.bmapBind p f) f
                ((s.setCtx c { s.ctx c with bmap := tset (s.ctx c).bmap (a % 64) o }).setBar o ⟨bitN v 24, m, 0, 0, 1, r⟩) 0)))
      ∧ (s.svReady d p f 0 →
        let c := a / 2 ^ 24 % 256
        (s.barAt c (a % 64) = none → ∀ i ∈ [Instr.bmapUnbind p f, .bmapRd p f, .bmapRst p f], s.comes i f s 2)
          ∧ (∀ o, s.barAt c (a % 64) = some o →
            let B := s.bar o
            let cl := s.homeCluster B.rgn o.1
            s.comes (.bmapRd p f) f (s.putRegs f.b.toNat
                [cl % 48 + cl / 48 * 2 ^ 8 + o.2 * 2 ^ 16 + (if B.mode then 2 ^ 24 else 0) + B.state % 4 * 2 ^ 25 + B.rgn % 2 ^ 16 * 2 ^ 32,
                 B.arrived % 2 ^ 42 + B.phase.toNat * 2 ^ 48, B.count]) 0
              ∧ (s.shownState (s.region B.rgn) = 3 → s.comes (.bmapUnbind p f) f s 3 ∧ s.comes (.bmapRst p f) f s 3)
              ∧ (s.shownState (s.region B.rgn) ≠ 3 → s.comes (.bmapUnbind p f) f (s.unbindBar c (a % 64)) 0
                ∧ ∃ u, s.comes (.bmapRst p f) f u 0 ∧ u.bar o = { B with phase := 0, arrived := 0, state := 1 })))

/-- R296 to R298, R300, R302: the slot words need the lease and act on the state of their slot (Table 118); the measurement words extend and read a
context's chain, and hash what Sorrel gives them. The order of the statuses, the lease first and the state before the length, and `ksld.res` of an
Empty slot (2) and of one in another state (3) are the model's (assumption 17). `ksld.res` whose source cannot be read gives 1. That the whole
transfer of `ksld.res` is one step, and that `ksld.ld` holds its Sorrel until the check ends, is read from R298 (assumption 25). -/
def Obligations.SlotAndMeasurementWords : Prop :=
  ∀ (p : BitVec 4) (f : FmtZ) (s : State) (d : Nat),
    let a := s.reg f.a.toNat
    let g := fun j => s.reg (f.b.toNat + j)
    let c := a / 2 ^ 24 % 256
    let sl := a % 256
    let x := s.slotOf c sl
    let lead := s.hub.lease = some d
    (s.svReady d p f 2 →
        let n := g 1
        (¬ lead → s.comes (.ksldLd p f) f s 3)
          ∧ (lead → x.state ≠ 0 → s.comes (.ksldLd p f) f s 3)
          ∧ (lead → x.state = 0 → (n % 16 ≠ 0 ∨ n < 128 ∨ 2 ^ 32 - 16 < n) → s.comes (.ksldLd p f) f s 1)
          ∧ (lead → x.state = 0 → n % 16 = 0 → 128 ≤ n → n ≤ 2 ^ 32 - 16 → s.comes (.ksldLd p f) f
              ((s.setSlotOf c sl { state := 1, loading := [g 0 % 2 ^ 24, n, d, f.a.toNat, f.b.toNat] }).holdFor 5 (c * 256 + sl)) (a % 4))
          ∧ (let off := g 0 % 2 ^ 18
            (off % 8 ≠ 0 ∨ 2 ^ 18 < off + n → s.comes (.measSha p f) f s 1)
            ∧ (off % 8 = 0 → off + n ≤ 2 ^ 18 → s.comes (.measSha p f) f
                (s.putRegs f.b.toNat (digWords (digNum (sha384 (mread (s.die d).sram off n))))) 0)))
      ∧ (s.svReady d p f 1 → ¬ lead → s.comes (.ksldRes p f) f s 3)
      ∧ (s.svReady d p f 1 → lead →
        let h := g 0 % 2 ^ 19
        let n := (x.len + 2097151) / 2097152
        (x.state = 0 → s.comes (.ksldRes p f) f s 2)
          ∧ (x.state ≠ 0 → x.state ≠ 2 ∨ s.areaOk (s.ctx c).vf h n = false → s.comes (.ksldRes p f) f s 3)
          ∧ (x.state = 2 → s.areaOk (s.ctx c).vf h n = true → s.objBytes c (x.loading.headD 0) 0 x.len = none → s.comes (.ksldRes p f) f s 1)
          ∧ (x.state = 2 → s.areaOk (s.ctx c).vf h n = true → ∀ bs, s.objBytes c (x.loading.headD 0) 0 x.len = some bs →
            (digNum (sha384 bs) = x.digest → s.comes (.ksldRes p f) f
                (((s.zeroFrames h n).dramWr (h * 2097152) bs).setSlotOf c sl { x with state := 3, frame := h, count := 0 }) 0)
            ∧ (digNum (sha384 bs) ≠ x.digest → s.comes (.ksldRes p f) f ((s.zeroFrames h n).dramWr (h * 2097152) bs) 1)))
      ∧ (s.svReady d p f 0 →
        (¬ lead → ∀ i ∈ [Instr.ksldEvc p f, .ksldRd p f], s.comes i f s 3)
          ∧ (lead →
            (x.state = 0 → s.comes (.ksldEvc p f) f s 2) ∧ (x.state = 1 → s.comes (.ksldEvc p f) f s 3)
            ∧ (x.state = 2 ∨ x.state = 3 → s.comes (.ksldEvc p f) f (s.setSlotOf c sl {}) 0)
            ∧ (x.state = 4 ∨ x.state = 5 → s.comes (.ksldEvc p f) f (s.setSlotOf c sl { x with state := 5 }) 0)
            ∧ s.comes (.ksldRd p f) f (s.putRegs f.b.toNat
                ((x.state % 8 + x.count % 256 * 2 ^ 8 + x.len % 2 ^ 32 * 2 ^ 32) :: x.frame :: digWords x.digest)) 0)
          ∧ s.comes (.measRd p f) f (s.putRegs f.b.toNat (digWords (s.ctx c).chain)) 0)
      ∧ (s.svReady d p f 6 →
        let t := a / 2 ^ 32 % 4
        let D := wordsDig ((List.range 6).map g)
        let C := s.ctx c
        ((¬ lead ∨ t = 1) → s.comes (.measExt p f) f s 3) ∧ (lead → t = 0 → s.comes (.measExt p f) f s 1)
          ∧ (lead → t = 2 ∨ t = 3 → s.comes (.measExt p f) f (s.setCtx c { C with
              chain := digNum (sha384 (digBytes C.chain ++ [BitVec.ofNat 8 t] ++ digBytes D)), chainn := C.chainn + 1 }) 0))
      ∧ (s.svReady d p f 12 →
        let l := (List.range 12).map g
        s.comes (.measNode p f) f (s.putRegs f.b.toNat
          (digWords (digNum (sha384 ([1] ++ digBytes (wordsDig l) ++ digBytes (wordsDig (l.drop 6))))))) 0)

/-- R312 to R322, R352: the region words act on the region that a handle names in the states Table 125 gives them, and give status 2 for an Unplaced
region and 3 for another state. R318: `rgmov.mov` moves a Saved region to a placement that passes, its own only when its image is out, and gives the
placement; it holds the tiles there and Sorrel until the move completes. R321, R322: `rgsta.plc` places the launch that its queue holds at stage 3,
explicitly or by search, and gives the handle with the placement; it refuses reserved bits, a slot that is not Resident or In use, a queue without
that launch, and a placement that does not fit. The order of these checks and of `rgmov.mov`'s is the model's (assumption 17), and so are which
transfers count as under way (assumption 47) and which region as running (assumption 23). That `rgmov.out`, `savc` and `rstc` hold their Sorrel and
have their whole effect at the end of the transfer is read from R316 and R352 (assumption 25), and that a move to the own placement with the image in
place gives 0 whatever the tiles around hold is assumption 48. -/
def Obligations.RegionWords : Prop :=
  (∀ (p : BitVec 4) (f : FmtZ) (s : State) (d : Nat),
       let a := s.reg f.a.toNat
       let r := a % 2 ^ 16
       let R := s.region r
       let g := s.reg f.b.toNat
       let fr := g % 2 ^ 19
       let put3 := fun (i : Instr) (u : State) (st : Nat) => exec i s = .next (FRes.step (u.putReg f.a.toNat (a / 8 * 8 + st))).state
       let pw := placedWord R.rot R.ox R.oy
       (s.svReady d p f 0 →
           (R.state = 0 → ∀ i ∈ [Instr.rgstaGo p f, .rgstaRes p f, .rgpre p f, .rgfrzHold p f, .rgfrzRel p f, .rgretRel p f, .rgretAbt p f,
               .rgretRd p f], s.comes i f s 2)
             ∧ (R.state ≠ 0 →
               s.comes (.rgretRd p f) f (s.putRegs f.b.toNat (s.recordWords r)) 0
               ∧ (R.state = 1 → s.slotPasses R = true → ∃ u n, s.comes (.rgstaGo p f) f u 0 ∧ (u.region r).state = 2 ∧ (u.region r).startIn = 2 + n
                   ∧ (u.region r).sstep = s.dom.step + 2 + n)
               ∧ ((R.state ≠ 1 ∨ s.slotPasses R = false) → s.comes (.rgstaGo p f) f s 3)
               ∧ (s.slotPasses R = true ↔ ((s.slotOf R.ctx R.launch.slot).state = 3 ∨ (s.slotOf R.ctx R.launch.slot).state = 4)
                   ∧ (s.slotOf R.ctx R.launch.slot).count < 255)
               ∧ (R.state = 7 → R.out = false → R.slotsOut = none → R.op = none → ∃ u, s.comes (.rgstaRes p f) f u 0 ∧ (u.region r).state = 2
                   ∧ (u.region r).resume = true)
               ∧ ((R.state ≠ 7 ∨ R.out = true ∨ R.slotsOut ≠ none ∨ R.op ≠ none) → s.comes (.rgstaRes p f) f s 3)
               ∧ ((s.shownState R = 3 ∨ s.shownState R = 4) → R.preq = false → R.preReq = false → (∃ l ∈ R.loops, l.2.2 = true) →
                   s.comes (.rgpre p f) f ((s.setRegion r { R with preReq := true }).holdOp 2 r f.a.toNat) 0)
               ∧ (((s.shownState R ≠ 3 ∧ s.shownState R ≠ 4) ∨ R.preq = true ∨ R.preReq = true ∨ (∀ l ∈ R.loops, l.2.2 = false)) →
                   s.comes (.rgpre p f) f s 3)
               ∧ (s.shownState R = 3 → R.holdReq = false → s.comes (.rgfrzHold p f) f ((s.setRegion r { R with holdReq := true }).holdOp 3 r f.a.toNat) 0)
               ∧ (s.shownState R ≠ 3 → s.comes (.rgfrzHold p f) f s 3)
               ∧ (R.state = 6 → R.hold = true → s.comes (.rgfrzRel p f) f ((s.setRegion r { R with state := 3, hold := false }).retire r) 0)
               ∧ ((∃ k ∈ s.tilesOf r, (s.tile k).ended = false) → (s.setRegion r { R with state := 3, hold := false }).retire r =
                   s.setRegion r { R with state := 3, hold := false })
               ∧ ((R.state ≠ 6 ∨ R.hold = false) → s.comes (.rgfrzRel p f) f s 3)
               ∧ ((R.state = 1 ∨ R.state = 9 ∨ R.state = 10) → s.comes (.rgretRel p f) f (s.release r) 0)
               ∧ (R.state ≠ 1 → R.state ≠ 9 → R.state ≠ 10 → s.comes (.rgretRel p f) f s 3)
               ∧ ((R.state = 9 ∨ R.state = 10) → s.comes (.rgretAbt p f) f s 3)
               ∧ (R.state ≠ 9 → R.state ≠ 10 → s.comes (.rgretAbt p f) f (s.abort r 4) 0)))
         ∧ (s.svReady d p f 1 →
           (R.state = 0 → (∀ i ∈ [Instr.rgmovMov p f, .rgmovOut p f], s.comes i f s 2) ∧ put3 (.savc p f) s 2 ∧ put3 (.rstc p f) s 2)
             ∧ (R.state = 7 → R.out = false → R.op = none → s.areaOk (s.ctx R.ctx).vf fr (R.w * R.h / 2) = true →
                 s.comes (.rgmovOut p f) f (s.beginOp r 6 f.a.toNat (0, fr, 0)) 0)
             ∧ (R.state ≠ 0 → (R.state ≠ 7 ∨ R.out = true ∨ R.op ≠ none) → s.comes (.rgmovOut p f) f s 3)
             ∧ (R.state ≠ 0 → placeWord g = none → s.comes (.rgmovMov p f) f s 1)
             ∧ (R.state = 7 → R.out = false → R.slotsOut = none → R.op = none → placeWord g = some (R.ox, R.oy, R.rot, false) →
                 ([R.seam0, R.seam1].filter (· != 0) = [] ∨ (R.rot ≠ 1 ∧ R.rot ≠ 3)) → s.comes (.rgmovMov p f) f (s.putReg f.b.toNat pw) 0)
             ∧ (R.state ≠ 0 → (R.state ≠ 7 ∨ R.slotsOut ≠ none ∨ R.op ≠ none) → placeWord g ≠ none → s.comes (.rgmovMov p f) f s 3)
             ∧ (R.state = 7 → R.slotsOut = none → R.op = none →
               let seams := [R.seam0, R.seam1].filter (· != 0)
               let req : PlaceReq := ⟨r, R.ctx, R.w, R.h, seams, R.tw⟩
               let goes := fun (x : Nat × Nat × Nat × Nat) => ∃ u, s.comes (.rgmovMov p f) f u 0 ∧ u.region r = { R with state := 8, move := some x }
                 ∧ u.reg f.b.toNat = placedWord x.1 x.2.1 x.2.2.1 ∧ (u.die d).sorrel.hold = some (4, r)
                 ∧ (∀ k ∈ placeTiles x.1 R.w R.h x.2.1 x.2.2.1, (u.tile k).rgn = r)
                 ∧ ∀ k, k ∉ placeTiles x.1 R.w R.h x.2.1 x.2.2.1 → u.tile k = s.tile k
               let stays := fun (rot ox oy : Nat) => R.out = false ∧ rot = R.rot ∧ ox = R.ox ∧ oy = R.oy
               (∀ ox oy rot, placeWord g = some (ox, oy, rot, false) → seams ≠ [] → rot = 1 ∨ rot = 3 → s.comes (.rgmovMov p f) f s 1)
               ∧ (∀ ox oy rot, placeWord g = some (ox, oy, rot, false) → seams = [] ∨ (rot ≠ 1 ∧ rot ≠ 3) → ¬ stays rot ox oy →
                 (s.placeOk req rot ox oy = none → s.comes (.rgmovMov p f) f s 3)
                 ∧ (∀ b, s.placeOk req rot ox oy = some b → goes (rot, ox, oy, b)))
               ∧ (placeWord g = some (0, 0, 0, true) →
                 (s.autoPlace req = none → s.comes (.rgmovMov p f) f s 3)
                 ∧ (∀ x, s.autoPlace req = some x → ¬ stays x.1 x.2.1 x.2.2.1 → goes x)
                 ∧ (∀ x, s.autoPlace req = some x → stays x.1 x.2.1 x.2.2.1 → s.comes (.rgmovMov p f) f
                     (s.putReg f.b.toNat (placedWord x.1 x.2.1 x.2.2.1)) 0)))
             ∧ (R.state = 7 → R.out = true → R.slotsOut = none → R.op = none → s.areaOk (s.ctx R.ctx).vf fr R.areaFrames = true →
                 put3 (.savc p f) (s.beginOp r 7 f.a.toNat (1, fr, 0)) 0)
             ∧ (R.state ≠ 0 → (R.state ≠ 7 ∨ R.out = false ∨ R.slotsOut ≠ none ∨ R.op ≠ none) → put3 (.savc p f) s 3)
             ∧ (R.state ≠ 0 → R.op = none → R.slotsOut = some fr →
               (s.bankFree r 0 R.tiles = true → put3 (.rstc p f) (s.beginOp r 7 f.a.toNat (2, fr, 0)) 0)
               ∧ (s.bankFree r 0 R.tiles = false → s.bankFree r 1 R.tiles = true → put3 (.rstc p f) (s.beginOp r 7 f.a.toNat (2, fr, 1)) 0)
               ∧ (s.bankFree r 0 R.tiles = false → s.bankFree r 1 R.tiles = false → put3 (.rstc p f) s 3))
             ∧ (R.state ≠ 0 → (R.slotsOut ≠ some fr ∨ R.op ≠ none) → put3 (.rstc p f) s 3)))
    ∧ (∀ (s : State) (r fr b : Nat),
       let R := s.region r
       let u := s.opDone r
       let freed := fun (w : Nat) => ∀ d, d < 3 → (s.die d).sorrel.hold = some (w, r) → (u.die d).sorrel.hold = none
       (R.op = some (0, fr, b) → u.region r = { R with out := true, savef := fr, op := none } ∧ freed 6)
         ∧ (R.op = some (1, fr, b) → u.region r = { R with slotsOut := some fr, op := none } ∧ freed 7)
         ∧ (R.op = some (2, fr, b) → u.region r = { R with slotsOut := none, bank := b, op := none } ∧ freed 7)
         ∧ (R.op = none → u = s))
    ∧ (∀ (p : BitVec 4) (f : FmtZ) (s : State) (d : Nat), s.svReady d p f 1 →
       let a := s.reg f.a.toNat
       let c := a / 2 ^ 24 % 256
       let q := a / 2 ^ 16 % 16
       let sl := a % 256
       let w := s.reg f.b.toNat
       let x := (s.slotOf c sl).state
       let rsv := a / 2 ^ 32 ≠ 0 ∨ a / 2 ^ 20 % 16 ≠ 0 ∨ a / 2 ^ 8 % 256 ≠ 0
       (rsv → s.comes (.rgstaPlc p f) f s 1)
         ∧ (¬ rsv → x ≠ 3 → x ≠ 4 → s.comes (.rgstaPlc p f) f s 2)
         ∧ (¬ rsv → x = 3 ∨ x = 4 →
           (s.stage3 c q sl = none → s.comes (.rgstaPlc p f) f s 2)
           ∧ (∀ L, s.stage3 c q sl = some L →
             (placeWord w = none → s.comes (.rgstaPlc p f) f s 1)
             ∧ (∀ z, placeWord w = some z →
               (∀ e, s.tryPlace c q L z = .error e → s.comes (.rgstaPlc p f) f s e)
               ∧ (∀ u r, s.tryPlace c q L z = .ok (u, r) → s.comes (.rgstaPlc p f) f
                   (u.putReg f.b.toNat (r * 2 ^ 48 + ((u.region r).ox + (u.region r).oy * 256 + (u.region r).rot * 2 ^ 13))) 0)))))

/-- R336, R337, R338, R358, R360: `csig` allocates, frees, adds to, sets and reads a signal handle; an addition past 2^64 - 1 and a smaller set are
signal errors, which release every waiter with an error, and a change releases the waiters whose target is reached; `rcpt` signs a body that is well
formed for the leading Sorrel of a context with a ring. Status 2 of `csig.add` and `csig.set` for a handle that is not in use and the order of the
statuses of `rcpt` are the model's (assumption 17). -/
def Obligations.SignalAndReceiptWords : Prop :=
  ∀ (p : BitVec 4) (f : FmtZ) (s : State) (d : Nat),
    let a := s.reg f.a.toNat
    let h := a % 4096
    let x := s.sig h
    let v := s.reg f.b.toNat
    (s.svReady d p f 1 →
        (x.used = true → s.comes (.csigAlc p f) f s 3)
          ∧ (x.used = false → s.comes (.csigAlc p f) f (({ s with hub := { s.hub with sigAlloc := s.hub.sigAlloc + 1 } } : State).setSig h
                ⟨a / 2 ^ 24 % 256, true, BitVec.ofNat 64 v, s.hub.sigAlloc + 1⟩) 0
              ∧ s.comes (.csigAdd p f) f s 2 ∧ s.comes (.csigSet p f) f s 2)
          ∧ (x.used = true → s.hub.waiters = [] → s.hub.waitq = [] → (∀ c ∈ s.ctxs, (s.ctx c.1).guilt ≤ (s.fn (s.ctx c.1).vf).glim) →
            (x.value.toNat + v < 2 ^ 64 → s.comes (.csigAdd p f) f (s.setSig h { x with value := x.value + BitVec.ofNat 64 v }) 0)
            ∧ (x.value.toNat ≤ v → v < 2 ^ 64 → s.comes (.csigSet p f) f (s.setSig h { x with value := BitVec.ofNat 64 v }) 0))
          ∧ (x.used = true → s.hub.waitq = [] → (∀ c ∈ s.ctxs, (s.ctx c.1).guilt ≤ (s.fn (s.ctx c.1).vf).glim) →
            let o := x.value.toNat
            let leaves := fun (u : State) (n : Nat) => u.sig h = { x with value := BitVec.ofNat 64 n }
            let woken := fun (u : State) (w : Waiter) (code : Nat) => (w.isQueue = true → (u.queue w.ctx w.q).woke = some code)
              ∧ (w.isQueue = false → (⟨"msix", [w.fn, w.vec]⟩ : Msg) ∈ u.outbox)
            let moves := fun (i : Instr) (n : Nat) => ∃ u, s.comes i f u 0 ∧ leaves u n
              ∧ (∀ w, w ∈ u.hub.waiters ↔ w ∈ s.hub.waiters ∧ (w.handle = h → n < w.target.toNat))
              ∧ ∀ w ∈ s.hub.waiters, w.handle = h → w.target.toNat ≤ n → woken u w 0
            let fails := fun (i : Instr) (n : Nat) => ∃ u, s.comes i f u 3 ∧ leaves u n
              ∧ (u.ctx x.owner).guilt = min ((s.ctx x.owner).guilt + 1) 0xFFFF
              ∧ (∀ w, w ∈ u.hub.waiters ↔ w ∈ s.hub.waiters ∧ w.handle ≠ h)
              ∧ ∀ w ∈ s.hub.waiters, w.handle = h → woken u w 8
            let mild := (s.ctx x.owner).guilt + 1 ≤ (s.fn (s.ctx x.owner).vf).glim
            (o + v < 2 ^ 64 → moves (.csigAdd p f) (o + v)) ∧ (o ≤ v → v < 2 ^ 64 → moves (.csigSet p f) v)
              ∧ (2 ^ 64 ≤ o + v → mild → fails (.csigAdd p f) (2 ^ 64 - 1)) ∧ (v < o → mild → fails (.csigSet p f) o)))
      ∧ (s.svReady d p f 0 →
        (x.used = false → s.comes (.csigFre p f) f s 2) ∧ (x.used = true → s.comes (.csigFre p f) f (s.freeSig h) 0)
          ∧ s.comes (.csigRd p f) f (s.putRegs f.b.toNat [x.value.toNat,
              x.owner % 256 + (if x.used then 256 else 0) + (s.hub.waiters.filter fun w => w.handle == h).length % 2 ^ 11 * 2 ^ 16]) 0)
      ∧ (s.svReady d p f 1 →
        let c := a / 2 ^ 24 % 256
        let o := v % 2 ^ 18
        let b := mread (s.die d).sram o 512
        ((o % 8 ≠ 0 ∨ 2 ^ 18 - 512 < o ∨ bodyBad b c = true) → s.comes (.rcpt p f) f s 1)
          ∧ (o % 8 = 0 → o + 512 ≤ 2 ^ 18 → bodyBad b c = false →
            ((s.hub.lease ≠ some d ∨ (s.ctx c).rclen = 0) → s.comes (.rcpt p f) f s 3)
            ∧ (s.hub.lease = some d → (s.ctx c).rclen ≠ 0 → s.comes (.rcpt p f) f (s.signReceipt c (bitN a 32) b) 0
                ∧ ((s.signReceipt c (bitN a 32) b).ctx c).rcnt = ((s.ctx c).rcnt + 1) % 2 ^ 32)))

/-- R378, R379: `lnkc` moves a link or a die as Table 158 allows, and gives status 1 for one that does not exist, 2 for one the
operation does not act on and 3 for another state; `lnkq` reads a link, a die and the domain. Status 2 for links 12 to 16, status 3 of `lnkc.down` of a Down
link and of `lnkc.drst` of an Off die are the model's (assumption 17), and so is the direction of a rollover (assumption 33). -/
def Obligations.LinkWords : Prop :=
  ∀ (p : BitVec 4) (f : FmtZ) (s : State) (d : Nat), s.svReady d p f 0 →
    let i := s.reg f.a.toNat % 32
    let L := s.link i
    let D := s.die i
    (16 < i → ∀ j ∈ [Instr.lnkcUp p f, .lnkcDown p f, .lnkcRkey p f, .lnkcAlgn p f, .lnkcRun p f, .lnkcQrl p f, .lnkqLnk p f], s.comes j f s 1)
      ∧ (12 ≤ i → i ≤ 16 → ∀ j ∈ [Instr.lnkcUp p f, .lnkcDown p f, .lnkcAlgn p f, .lnkcRun p f], s.comes j f s 2)
      ∧ (i < 12 →
        (L.state = 0 → s.comes (.lnkcUp p f) f (s.linkTo i 1) 0 ∧ s.comes (.lnkcDown p f) f s 3)
          ∧ (L.state ≠ 0 → s.comes (.lnkcUp p f) f s 3 ∧ s.comes (.lnkcDown p f) f (s.linkDown i) 0)
          ∧ (L.state = 3 → (joined s L).length ≤ 63 → max s.dom.diameter L.pdia ≤ 8 → s.comes (.lnkcAlgn p f) f (s.align i) 0)
          ∧ ((L.state ≠ 3 ∨ 63 < (joined s L).length ∨ 8 < max s.dom.diameter L.pdia) → s.comes (.lnkcAlgn p f) f s 3)
          ∧ (L.state = 4 → L.d0.wait = false → L.d1.wait = false → s.comes (.lnkcRun p f) f (s.linkTo i 5) 0)
          ∧ (L.state ≠ 4 → s.comes (.lnkcRun p f) f s 3))
      ∧ (i ≤ 16 →
        (L.state = 5 → s.comes (.lnkcRkey p f) f ((s.putLink i { L with d0 := L.d0.start, d1 := L.d1.start }).linkTo i 6) 0)
          ∧ (L.state ≠ 5 → s.comes (.lnkcRkey p f) f s 3)
          ∧ ((L.state = 7 ∨ L.state = 8) → s.comes (.lnkcQrl p f) f ((s.linkDown i).settleLinks) 0)
          ∧ (L.state ≠ 7 → L.state ≠ 8 → s.comes (.lnkcQrl p f) f s 3)
          ∧ s.comes (.lnkqLnk p f) f (s.putRegs f.b.toNat
              [L.state % 16 + (if L.d0.two || L.d1.two then 16 else 0) + L.qcode % 256 * 2 ^ 8 + (L.dir (sendDir i L)).gen % 2 ^ 32 * 2 ^ 16,
               if i < 12 then pkgOf L.peer else 0]) 0)
      ∧ (2 < i → ∀ j ∈ [Instr.lnkcDrst p f, .lnkcDqrl p f, .lnkqDie p f], s.comes j f s 1)
      ∧ (i ≤ 2 →
        ((i = d ∨ D.state = 0) → s.comes (.lnkcDrst p f) f s 3) ∧ (i ≠ d → D.state ≠ 0 → s.comes (.lnkcDrst p f) f (s.resetDie i) 0)
          ∧ (D.state ≠ 3 → s.comes (.lnkcDqrl p f) f s 3)
          ∧ (D.state = 3 → s.comes (.lnkcDqrl p f) f ((s.setDie i { D with qcode := 0, checked := false, fwDigest := none }).dieTo i 1) 0)
          ∧ s.comes (.lnkqDie p f) f (s.putRegs f.b.toNat [D.state % 8 + D.qcode % 256 * 2 ^ 8 + D.resets % 2 ^ 16 * 2 ^ 16]) 0)
      ∧ s.comes (.lnkqDom p f) f (s.putRegs f.b.toNat
          [s.dom.ident, (s.dom.members.length + 1) % 128 + s.dom.diameter % 16 * 2 ^ 8 + s.dom.lead % 16 * 2 ^ 12 + (if s.dom.wire then 2 ^ 16 else 0),
           s.dom.step]) 0

/-! ### Events of the device and of its host -/

/-- R209, R210, R211, R215, R217, R207: a walk that ends under its die's epoch fills the cache and lowers the wire, or leaves a fault record that
keeps it raised, held where the buffer is full; under another epoch it starts again; an invalidation completes once the older walks have retired; the
wire drops when nothing raises it; an uncorrectable error marks its granule and counts against its frame; budget registers take values in range. That
an error in a frame of 393,216 or more is a refusal is the model's choice (assumption 16), and so is a stage-2 command whose count lies outside 1 to
393,216, which selects the frames it spans (assumption 53). That an invalidation does not wait for arrivals of a region that a fault holds, and that
these lose their translation, is read from R217 (assumption 18). -/
def Obligations.PageEvents : Prop :=
  ∀ (s : State) (d k rg v x addr : Nat),
    let D := s.die d
    let R := s.region rg
    let F := s.fn v
    let h := addr / 2097152
    (∀ w, D.walks.find? (·.id == k) = some w →
      let g := (s.tile w.tile).rgn
      let rest : State := (s.setDie d { D with walks := D.walks.filter (·.id != k) }).stallMod g fun y => { y with walk := y.walk - 1 }
      (w.epoch ≠ D.epoch → ∃ u, exec (.translationWalkEnd d k) s = .next u ∧ (u.die d).walks.length = D.walks.length ∧ (u.die d).etc = D.etc
          ∧ u.regions = s.regions)
        ∧ (w.epoch = D.epoch → ∀ y, rest.walk w.ctx w.oid w.frame = .ok y → y.2.2.2 < 393216 → ∃ u, exec (.translationWalkEnd d k) s = .next u
            ∧ rest.runFrom w.ctx w.oid w.frame y ∈ (u.die d).etc ∧ (u.region g).stall.walk = (s.region g).stall.walk - 1 ∧ u.dram = s.dram)
        ∧ (w.epoch = D.epoch → ∀ kind, rest.walk w.ctx w.oid w.frame = .error kind → D.fbuf.length < 1024 →
            ∃ u r, exec (.translationWalkEnd d k) s = .next u ∧ (u.die d).fbuf = D.fbuf ++ [r] ∧ r.kind = kind ∧ r.ctx = w.ctx ∧ r.oid = w.oid
              ∧ r.off = w.off ∧ r.seq = D.fseq ∧ r.srcu = w.srcu ∧ r.wr = w.wr ∧ (u.region g).stall.fault = (s.region g).stall.fault + 1)
        ∧ (w.epoch = D.epoch → ∀ kind, rest.walk w.ctx w.oid w.frame = .error kind → 1024 ≤ D.fbuf.length →
            ∃ u r, exec (.translationWalkEnd d k) s = .next u ∧ (u.die d).fbuf = D.fbuf ∧ (u.die d).fheld = D.fheld ++ [r] ∧ r.held = true
              ∧ r.kind = kind ∧ r.ctx = w.ctx ∧ r.oid = w.oid ∧ r.off = w.off ∧ (u.die d).fover = min (D.fover + 1) (2 ^ 32 - 1)
              ∧ (u.region g).stall.fault = (s.region g).stall.fault + 1))
      ∧ (R.stall.up = true → exec (.stallWireDrop rg) s = .next s)
      ∧ (R.stall.up = false → exec (.stallWireDrop rg) s = .next (s.setRegion rg { R with frozen := false }))
      ∧ (∀ y, s.invals.find? (·.id == k) = some y →
        let rest := ({ s with invals := s.invals.filter (·.id != k) } : State).retranslate y
        (invReady s y = false → exec (.invalidationComplete k) s = .next s)
          ∧ (invReady s y = true → y.s2 = false → exec (.invalidationComplete k) s = .next (rest.unhold 1 k))
          ∧ (invReady s y = true → y.s2 = true → exec (.invalidationComplete k) s =
              .next (rest.setFn y.who { s.fn y.who with s2busy := false, s2done := true }))
          ∧ ((∀ a ∈ s.arrivals, y.through.contains a.cmd = false) → rest = { s with invals := s.invals.filter (·.id != k) })
          ∧ ∀ a ∈ rest.arrivals, a ∈ s.arrivals ∧ y.through.contains a.cmd = false)
      ∧ ((v = 0 ∨ 31 < v ∨ s.locked v = true ∨ F.s2busy = true) → exec (.s2go v) s = .next s)
      ∧ (v ≠ 0 → v ≤ 31 → s.locked v = false → F.s2busy = false → ∃ u, exec (.s2go v) s = .next u ∧ (u.fn v).s2busy = true
          ∧ ∀ e, e < 3 → ∀ y ∈ (u.die e).etc, y.mapsG v F.s2first F.s2count = false)
      ∧ (v ≤ 31 → s.locked v = false → x < 2 ^ 20 →
        (F.burst < x → exec (.guarWrite v x) s = .next s)
          ∧ (x ≤ F.burst → ((List.range 32).map fun i => if i = v then x else (s.fn i).guar).foldl (· + ·) 0 ≤ s.budgetFrames →
              exec (.guarWrite v x) s = .next (s.setFn v { F with guar := x }))
          ∧ (x < F.guar → exec (.burstWrite v x) s = .next s)
          ∧ (F.guar ≤ x → exec (.burstWrite v x) s = .next (s.setFn v { F with burst := x })))
      ∧ (393216 ≤ h → exec (.dramUe addr) s = .fault .noSuchFrame)
      ∧ (h < 393216 → ftState (s.ft h) = 0 → exec (.dramUe addr) s = .next (s.markUE .dram (addr / 32)))
      ∧ (h < 393216 → ftState (s.ft h) ≠ 0 → ∃ u, exec (.dramUe addr) s = .next u ∧ addr / 32 ∈ u.dramUE
          ∧ ftUe (u.ft h) = min (ftUe (s.ft h) + 1) 0xFFFF ∧ ftState (u.ft h) = ftState (s.ft h) ∧ (u.die (h / 131072)).firq = true)

/-- R120, R121, R192, R69, R187, R345: a `stepw` is released when its step has come; a tile whose stream has ended and drained ends its part, and the
last one retires the region, while increments that its commands sent may still travel (assumption 60); a release request is noted and its last
acknowledgement completes the fence; a result is written in its cycle; an access takes effect at its port, or starts a walk; a handler that runs 2^20
cycles ends the grid. -/
def Obligations.TileEvents : Prop :=
  ∀ (s : State) (k j : Nat),
    let t := s.tile k
    let R := s.region t.rgn
    (∀ n, t.core.stepw = some n →
        (n ≤ t.step → exec (.stepwRelease k) s = .next (s.setTile k { t with core := { t.core with stepw := none } }))
          ∧ (t.step < n → exec (.stepwRelease k) s = .next s))
      ∧ (t.core.halted = false → exec (.tilePartEnd k) s = .next s)
      ∧ (t.ended = false → t.live = true → t.core.halted = true → t.trapped = false → t.catchup = false → t.drained = true → t.meq = [] →
          t.xeq = [] → t.xrun = [] → k ∈ s.tilesOf t.rgn → ∃ u, exec (.tilePartEnd k) s = .next u ∧ (u.tile k).ended = true
            ∧ (u.tile k).live = false
            ∧ ((∃ i ∈ s.tilesOf t.rgn, i ≠ k ∧ (s.tile i).ended = false) → u.region t.rgn = R)
            ∧ (R.state = 6 → u.region t.rgn = R)
            ∧ ((R.state = 2 ∨ R.state = 3 ∨ R.state = 5) → (∀ i ∈ s.tilesOf t.rgn, i ≠ k → (s.tile i).ended = true) → (u.region t.rgn).state = 9
                ∧ (u.region t.rgn).stall = {} ∧ ∀ d, d < 3 → ∀ r ∈ (u.die d).fbuf ++ (u.die d).fheld ++ (u.die d).fpop, r.rgn ≠ t.rgn))
      ∧ exec (.fenrRequest k j) s = .next (s.setTile k { t with fenrIn := t.fenrIn.filter (·.1 != j) ++ [(j, t.dord)] })
      ∧ (∀ f, t.fence = some f → f.rel = true → f.asked = true → j ∈ f.owners →
          (fenrReady s j k = false → exec (.fenrAck k j) s = .next s)
          ∧ (fenrReady s j k = true → ∃ u, exec (.fenrAck k j) s = .next u
              ∧ ∃ g, (u.tile k).fence = some g ∧ g.owners = f.owners.filter (· != j) ∧ g.rel = true ∧ g.asked = true))
      ∧ (∀ f, t.fence = some f → f.rel = true → f.asked = true →
          (f.owners = [] → ((s.fenceCheck k).tile k).fence = none) ∧ (f.owners ≠ [] → s.fenceCheck k = s))
      ∧ (∀ x, t.due = [x] → (t.now < x.at_ → exec (.resultWriteback k) s = .next s)
          ∧ (x.at_ ≤ t.now → x.acc = none → exec (.resultWriteback k) s = .next (s.setTile k (Tile.land { t with due := [] } x x.dst))))
      ∧ (∀ a off n addr data, t.dacc = [a] → a.st = 0 → a.ues = none → a.ctag = none → a.id = j → data.length = n → a.parts = [⟨0, off, n, data⟩] →
          s.phys (dieOfTile k) (s.ctxNo k) a.oid off n = .ok [(off, addr, n)] → s.pathDown (dieOfTile k) [(off, addr, n)] = none →
            (a.write = true → Memory.wf s.dram = true → ∃ u, exec (.dramAccessAtPort k j) s = .next u ∧ mread u.dram addr n = data ∧ (u.tile k).dacc = []
                ∧ ∀ b, b < addr ∨ addr + n ≤ b → mget u.dram b = mget s.dram b)
            ∧ (a.write = false → s.dramUE = [] → ∃ u y, exec (.dramAccessAtPort k j) s = .next u ∧ u.dram = s.dram ∧ (u.tile k).dacc = [y]
                ∧ y.st = 3 ∧ y.id = j))
      ∧ (∀ a off n x data, t.dacc = [a] → a.st = 0 → a.ues = none → a.id = j → a.parts = [⟨0, off, n, data⟩] →
          s.phys (dieOfTile k) (s.ctxNo k) a.oid off n = .error x → ∃ u y, exec (.dramAccessAtPort k j) s = .next u ∧ u.dram = s.dram
            ∧ (u.tile k).dacc = [y] ∧ y.st = 1 ∧ (u.region t.rgn).stall.walk = R.stall.walk + 1)
      ∧ ((t.trapped = false ∨ t.core.trap.hnd = false ∨ t.hcyc < 2 ^ 20) → exec (.handlerTimeout k) s = .next s)
      ∧ (t.trapped = true → t.core.trap.hnd = true → 2 ^ 20 ≤ t.hcyc → R.report = none → ∃ u r, exec (.handlerTimeout k) s = .next u
          ∧ (u.region t.rgn).report = some r ∧ r.cause = t.core.trap.tcause.toNat ∧ r.nest = true ∧ (u.tile k).live = false)

/-- R235: when a blocked-step count is due, one probe is sent to every satisfier, in the order of Table 94, and an agent whose wait on a
semaphore or a barrier has no satisfier raises WAITCYC at once; a probe that comes to an agent that is not blocked, or that its path
holds already, ends; and one that comes back to the agent that sent it, the least of the cycle, raises WAITCYC. -/
def Obligations.ProbeEvents : Prop :=
  ∀ (s : State) (k a n : Nat),
    let t := s.tile k
    (∀ i b w, t.blk.find? (·.1 == a) = some (i, b) → s.blockedOn k a = some w →
        (b.due = false → exec (.probeSend k a) s = .next s)
          ∧ (b.due = true → w.ident a t.tix = b.ident → w.key = b.key →
            let sent := s.setTile k { t with blk := tset t.blk a { b with due := false } }
            let sats := sent.satisfiers k a w.kind w.obj
            (w.kind = 2 ∨ w.kind = 4 → sats = [] → exec (.probeSend k a) s = .next (sent.waitCyc k a w true [b.ident]))
              ∧ (sats ≠ [] ∨ (w.kind ≠ 2 ∧ w.kind ≠ 4) → ∃ u l, exec (.probeSend k a) s = .next u ∧ u.probes = s.probes ++ l
                ∧ (l.map fun p => (p.tile, p.agent)) = sats ∧ (∀ p ∈ l, p.path = [b.ident] ∧ p.sender = k) ∧ u.tiles = sent.tiles)))
      ∧ (s.blockedOn k a = none → exec (.probeSend k a) s = .next s)
      ∧ (∀ p, s.probes.find? (·.id == n) = some p →
        let rest : State := { s with probes := s.probes.filter (·.id != n) }
        (rest.blockedOn p.tile p.agent = none → exec (.probeReceive n) s = .next rest)
          ∧ (∀ w, rest.blockedOn p.tile p.agent = some w →
            let i := w.ident p.agent (s.tile p.tile).tix
            (p.tile = p.sender → p.path.head? = some i → (∀ y ∈ p.path, agentKey i ≤ agentKey y) →
                exec (.probeReceive n) s = .next (rest.waitCyc p.tile p.agent w false p.path))
            ∧ (p.path.head? ≠ some i → (∃ y ∈ p.path, agentKey y = agentKey i) → exec (.probeReceive n) s = .next rest)
            ∧ (p.path.head? ≠ some i → (∀ y ∈ p.path, agentKey y ≠ agentKey i) → ∃ u l, exec (.probeReceive n) s = .next u
                ∧ u.probes = rest.probes ++ l ∧ (l.map fun q => (q.tile, q.agent)) = rest.satisfiers p.tile p.agent w.kind w.obj
                ∧ (∀ q ∈ l, q.path = p.path ++ [i] ∧ q.sender = p.sender) ∧ u.tiles = s.tiles)))

/-- R72, R310, R312, R315, R317, R318: a region's columns start in order with fresh front ends and it runs after the last; a step closes only when
every tile has run it, and then every running tile begins the next one; a held region freezes, a Draining one whose tiles are quiet freezes and is
saved; a Saved one resumes; a move completes, and carries each tile's scratchpad to the tile of the same index. -/
def Obligations.RegionEvents : Prop :=
  ∀ (s : State) (rg col : Nat),
    let R := s.region rg
    let ks := s.tilesOf rg
    ((R.state ≠ 2 ∨ R.resume = true ∨ R.startIn ≠ 0 ∨ R.rstep ≠ col ∨ R.w ≤ col) → exec (.regionColumnStart rg col) s = .next s)
      ∧ (R.state = 2 → R.resume = false → R.startIn = 0 → R.rstep = col → col < R.w → (∀ k, k ∈ ks ↔ k ∈ R.tiles ∧ (s.tile k).rgn = rg) → ∃ u, exec (.regionColumnStart rg col) s = .next u
          ∧ (u.region rg).state = (if col + 1 = R.w then 3 else 2)
          ∧ (∀ k ∈ ks, (s.tile k).tix % R.w = col → (u.tile k).live = true ∧ (u.tile k).core.pc = 0 ∧ (u.tile k).core.sreg = []
              ∧ (u.tile k).core.halted = false ∧ (u.tile k).step = 0 ∧ (u.tile k).cyc = 0)
          ∧ ∀ k, (k ∉ ks ∨ (s.tile k).tix % R.w ≠ col) → u.tile k = s.tile k)
      ∧ ((R.mid = false ∨ (∃ k ∈ ks, (s.tile k).atClose = false) ∨ s.lateAw rg R.rstep = true) → exec (.regionStepClose rg) s = .next s)
      ∧ (R.mid = true → ks.Nodup → (∀ k ∈ ks, (s.tile k).atClose = true) → s.lateAw rg R.rstep = false → s.arrivals = [] → ∃ u,
          exec (.regionStepClose rg) s = .next u ∧ (u.region rg).rstep = R.rstep + 1 ∧ (u.region rg).xsteps = R.xsteps + 1
            ∧ (u.region rg).mid = false ∧ ∀ k ∈ ks, (s.tile k).live = true → (u.tile k).step = (s.tile k).step + 1 ∧ (u.tile k).cyc = 0)
      ∧ (R.mid = true → exec (.regionFreeze rg) s = .next s)
      ∧ (R.mid = false → R.holdReq = true → s.shownState R ≠ 3 → exec (.regionFreeze rg) s = .next s)
      ∧ (R.mid = false → R.holdReq = true → s.shownState R = 3 → exec (.regionFreeze rg) s =
          .next ((s.setRegion rg { R with state := 6, hold := true, holdReq := false, frozen := true }).finish 3 rg (statusIn 0)))
      ∧ (R.mid = false → R.holdReq = false → s.shownState R = 5 → s.drainedRegion rg = true → (∀ k ∈ ks, (s.tile k).dacc = []) →
          R.stall.up = false → ∃ u, exec (.regionFreeze rg) s = .next u
          ∧ (u.region rg).state = 6 ∧ (u.region rg).frozen = true ∧ ∀ k ∈ ks, (u.tile k).live = false)
      ∧ (R.mid = false → R.holdReq = false → (s.shownState R ≠ 5 ∨ s.drainedRegion rg = false) → exec (.regionFreeze rg) s = .next s)
      ∧ (R.state = 6 → R.hold = false → exec (.regionSaveComplete rg) s = .next (s.setRegion rg { R with state := 7, preq := false }))
      ∧ ((R.state ≠ 6 ∨ R.hold = true) → exec (.regionSaveComplete rg) s = .next s)
      ∧ ((R.state ≠ 2 ∨ R.resume = false ∨ R.startIn ≠ 0) → exec (.regionResumeStart rg) s = .next s)
      ∧ (R.state = 2 → R.resume = true → R.startIn = 0 → (∀ k ∈ ks, (s.tile k).live = true) → exec (.regionResumeStart rg) s =
          .next (s.setRegion rg { R with state := 3, resume := false }))
      ∧ (∀ x, R.state = 8 → R.move = some x → ∃ u, exec (.regionMoveComplete rg) s = .next u ∧ (u.region rg).state = 7
          ∧ (u.region rg).out = false ∧ (u.region rg).move = none ∧ (u.region rg).rot = x.1 ∧ (u.region rg).ox = x.2.1
          ∧ (u.region rg).oy = x.2.2.1 ∧ (∀ d, d < 3 → (s.die d).sorrel.hold = some (4, rg) → (u.die d).sorrel.hold = none)
          ∧ (let ks2 := placeTiles x.1 R.w R.h x.2.1 x.2.2.1
            R.out = false → ¬ (x.1 = R.rot ∧ x.2.1 = R.ox ∧ x.2.2.1 = R.oy) → ks2.Nodup →
              ∀ z ∈ R.tiles.zip ks2, (u.tile z.2).scr = (s.tile z.1).scr ∧ (u.tile z.2).scrTag = (s.tile z.1).scrTag ∧ (u.tile z.2).rgn = rg))
      ∧ ((R.state ≠ 8 ∨ R.move = none) → exec (.regionMoveComplete rg) s = .next s)

/-- R339 to R342, R353, R375 (Table 143): a Free context with an interface of its own is bound and a Bound one is unbound, enabled once its bases lie
in frames Pinned to its function, and disabled from Ready with every queue Disabled; a scrub leaves it Scrubbing with no launch, no region and its
registers zero; its completion leads to the state it was for; while one is Scrubbing an event waits; a function-level reset and TDISP's ERROR leave
every bound context of the function Scrubbing, and the function unlocked with no holder, or in ERROR with no key slot loaded. That `CTXEN` is ignored
while a base lies in a bound frame is assumption 17, that a function-level reset clears the function's `SWT`, `SWMIR` and `SWSTS` is assumption 31,
and that one of a Barred context leaves it Free with its guilt kept is assumption 47. -/
def Obligations.ContextEvents : Prop :=
  ∀ (s : State) (c v : Nat),
    let x := s.ctx c
    let taken := s.ctxs.any fun y => y.1 != c && y.2.state != 0 && y.2.vf == x.vf && y.2.iface == x.iface
    (x.state = 8 → ∀ i e, (i, e) ∈ [(Instr.contextUnbind c, CtxEv.contextUnbind c), (.scrub c, .scrub c), (.ctxenSet c, .ctxenSet c),
        (.ctxenClear c, .ctxenClear c), (.plheadWrite c v, .plheadWrite c v), (.unbar c, .unbar c), (.doorbell c v c, .doorbell c v c),
        (.queueEnable c v, .queueEnable c v), (.queueDisable c v, .queueDisable c v), (.contextBind c, .contextBind c)] →
        exec i s = .next (s.setCtx c { x with deferred := x.deferred ++ [e] }))
      ∧ (x.state ≠ 8 → (c = 0 ∨ 255 < c ∨ x.state ≠ 0 ∨ taken = true ∨ s.locked x.vf = true) → exec (.contextBind c) s = .next s)
      ∧ (c ≠ 0 → c ≤ 255 → x.state = 0 → taken = false → s.locked x.vf = false → ∃ u, exec (.contextBind c) s = .next u ∧ (u.ctx c).state = 1
          ∧ (u.ctx c).vf = x.vf ∧ (u.ctx c).iface = x.iface ∧ (u.ctx c).bindc = (x.bindc + 1) % 2 ^ 64 ∧ (u.ctx c).chain = 0 ∧ (u.ctx c).otbase = 0
          ∧ u.dram = s.dram ∧ ∀ e, e ≠ c → u.ctx e = s.ctx e)
      ∧ (x.state = 1 → s.locked x.vf = false → exec (.contextUnbind c) s = .next (s.setCtx c { x with state := 0 }))
      ∧ (x.state ≠ 1 → x.state ≠ 8 → exec (.contextUnbind c) s = .next s ∧ exec (.ctxenSet c) s = .next s)
      ∧ (x.state = 1 → (∀ a ∈ [x.otbase, x.magtab, x.plbase, x.rcbase], s.pinnedTo x.vf a = true) →
          (s.ctxBound c = false → exec (.ctxenSet c) s = .next (s.setCtx c { x with state := 2, ctxen := true }))
            ∧ (s.ctxBound c = true → exec (.ctxenSet c) s = .next s))
      ∧ (x.state = 2 → s.cstate c = 2 → (∀ q ∈ x.queues, q.2.half.qstate = 0) →
          exec (.ctxenClear c) s = .next (s.setCtx c { x with state := 1, ctxen := false }))
      ∧ (x.state = 2 → (s.cstate c ≠ 2 ∨ ∃ q ∈ x.queues, q.2.half.qstate ≠ 0) → exec (.ctxenClear c) s = .next s)
      ∧ (x.state ≠ 0 → x.state ≠ 8 → (∀ q ∈ x.queues, q.2.launch = none) → exec (.plheadWrite c v) s = .next (s.setCtx c { x with plhead := v % 2 ^ 32 }))
      ∧ (x.state ≠ 8 → (∃ q ∈ x.queues, q.2.launch ≠ none) → exec (.plheadWrite c v) s = .next s)
      ∧ (x.state ≠ 0 → x.state ≠ 8 → s.locked x.vf = false → ∃ u, exec (.scrub c) s = .next u ∧ (u.ctx c).state = 8 ∧ (u.ctx c).chain = 0
          ∧ (u.ctx c).chainn = 0 ∧ (u.ctx c).otbase = 0 ∧ (u.ctx c).seed = 0 ∧ (u.ctx c).magtab = 0 ∧ (u.ctx c).plbase = 0 ∧ (u.ctx c).pllen = 0
          ∧ (u.ctx c).plhead = 0 ∧ (u.ctx c).pldrop = 0 ∧ (u.ctx c).rcbase = 0 ∧ (u.ctx c).rclen = 0 ∧ (u.ctx c).rcnt = 0
          ∧ (u.ctx c).slots = [] ∧ (u.ctx c).ctxen = false ∧ (u.ctx c).scrub = (if x.state = 7 then 2 else 1)
          ∧ (∀ q, (u.queue c q).launch = none) ∧ ∀ r, (s.region r).ctx = c → (u.region r).state = 0)
      ∧ (x.state ≠ 8 → exec (.scrubComplete c) s = .next s)
      ∧ (x.state = 8 → ∃ u, exec (.scrubComplete c) s = .next u ∧ u.agenda = x.deferred.map Task.host ++ s.agenda ∧ (u.ctx c).deferred = []
          ∧ (u.ctx c).guilt = x.guilt ∧ (x.scrub = 3 → (u.ctx c).state = 0 ∧ (u.ctx c).barred = false ∧ (u.ctx c).scrubbed = false)
          ∧ (x.scrub = 2 → (u.ctx c).state = 7 ∧ (u.ctx c).scrubbed = true)
          ∧ (x.scrub ≠ 2 → x.scrub ≠ 3 → x.guilt ≤ (s.fn x.vf).glim → (u.ctx c).state = 1)
          ∧ (x.scrub ≠ 2 → x.scrub ≠ 3 → (s.fn x.vf).glim < x.guilt → (u.ctx c).state = 7 ∧ (u.ctx c).barred = true ∧ (u.ctx c).scrubbed = false))
      ∧ (31 < v → exec (.flr v) s = .fault (.noSuchAgent "function"))
      ∧ (v ≤ 31 → ∃ u, exec (.flr v) s = .next u ∧ (u.fn v).tdisp = 0 ∧ (u.fn v).swt = [] ∧ (u.fn v).swmir = [] ∧ (u.fn v).swsts = []
          ∧ (u.fn v).holder = none
          ∧ (∀ y ∈ s.ctxs, y.2.vf = v → (s.ctx y.1).state ≠ 0 → (u.ctx y.1).state = 8 ∧ (u.ctx y.1).scrub = 3)
          ∧ (s.ctxs.filter (fun y => y.2.vf == v) = [(c, x)] → x.state ≠ 0 →
              (u.ctx c).state = 8 ∧ (u.ctx c).scrub = 3 ∧ (u.ctx c).queues = [] ∧ (u.ctx c).chain = 0 ∧ (u.ctx c).otbase = 0
                ∧ (u.ctx c).slots = []))
      ∧ ((v = 0 ∨ 31 < v) → exec (.tdispError v) s = .fault (.noSuchAgent "function"))
      ∧ (v ≠ 0 → v ≤ 31 → ∃ u, exec (.tdispError v) s = .next u ∧ (u.fn v).tdisp = 3
          ∧ (∀ n, u.slotFn n = some v → ∀ y ∈ u.hub.keys, y.1 ≠ n)
          ∧ (∀ y ∈ s.ctxs, y.2.vf = v → (s.ctx y.1).state ≠ 0 → (u.ctx y.1).state = 8)
          ∧ (s.ctxs.filter (fun y => y.2.vf == v) = [(c, x)] → x.state ≠ 0 → x.state ≠ 8 →
              (u.ctx c).state = 8 ∧ (u.ctx c).scrub = (if x.state = 7 then 2 else 1) ∧ (u.ctx c).chain = 0 ∧ (u.ctx c).otbase = 0
                ∧ (u.ctx c).slots = []))

/-- R326, R330, R331, R332, R335 (Table 134): a doorbell moves the write index of a queue that is not Disabled and wakes the leader, and is a queue
error when more packets would be pending than the ring holds; a Disabled queue is enabled with fresh indices; one that is Idle or in Error is
disabled, one with a packet drains, and one that is disabled while no launch runs forgets its packet and its outcome; while a Sorrel leads, the
holder's next queue reads its packet once, a time slice passes to the next context that has work, and a wait ends when its reason has gone; a guilt
limit is written and bars what exceeds it; a barred, scrubbed context is released with its queues Disabled; an error completion of the host puts its
queue in Error with guilt 1, or bars the context. The end of a slice without a request of its own, the next holder and the error completion are the
model's reading (assumption 31). -/
def Obligations.QueueEvents : Prop :=
  ∀ (s : State) (c q v : Nat),
    let x := s.ctx c
    let Q := s.queue c q
    let K := Q.commit
    let F := s.fn v
    let st := Q.half.qstate
    let fault := fun (i : Instr) => ∃ u, exec i s = .next u
      ∧ (x.guilt + 1 ≤ (s.fn x.vf).glim → (u.queue c q).half.qstate = 5 ∧ (u.queue c q).launch = none)
      ∧ ((s.fn x.vf).glim < x.guilt + 1 → x.state ≠ 0 → x.state ≠ 7 → (u.ctx c).state = 7 ∧ (u.ctx c).barred = true
          ∧ ∀ n, n < 16 → (u.queue c n).half.qstate = 6)
      ∧ (u.ctx c).guilt = x.guilt + 1
    (x.state ≠ 8 →
      (st = 0 → exec (.doorbell c q v) s = .next s)
      ∧ (st ≠ 0 → v < 2 ^ 32 → v ≠ Q.qwr → ({ Q with qwr := v } : Queue).pending ≤ Q.ents →
          exec (.doorbell c q v) s = .next ((s.setQueue c q { Q with qwr := v }).leadSem 1))
      ∧ ((st = 1 ∨ st = 2 ∨ st = 3) → v < 2 ^ 32 → v ≠ Q.qwr → Q.ents < ({ Q with qwr := v } : Queue).pending → Q.inFlight = false → Q.done = none →
          Q.seq % 2 = 0 → x.guilt < 0xFFFF → fault (.doorbell c q v))
      ∧ (x.state ≠ 0 → x.state ≠ 1 → x.state ≠ 7 → q ≤ 15 → st = 0 → ∃ u, exec (.queueEnable c q) s = .next u
          ∧ (u.queue c q).en = true ∧ (u.queue c q).qwr = 0 ∧ (u.queue c q).half.qstate = 1 ∧ (u.queue c q).half.qrd = 0)
      ∧ ((x.state = 0 ∨ x.state = 1 ∨ x.state = 7 ∨ 15 < q ∨ st ≠ 0) → exec (.queueEnable c q) s = .next s)
      ∧ ((K.half.qstate = 1 ∨ K.half.qstate = 5) → ∃ u, exec (.queueDisable c q) s = .next u ∧ (u.queue c q).en = false
          ∧ (u.queue c q).half.qstate = 0
          ∧ ((∀ L, K.launch = some L → L.rgn = 0 ∧ L.stage ≠ 4) → (u.queue c q).launch = none ∧ (u.queue c q).done = none ∧ (u.queue c q).pkt = []))
      ∧ ((K.half.qstate = 2 ∨ K.half.qstate = 3) → ∃ u, exec (.queueDisable c q) s = .next u ∧ (u.queue c q).en = false
          ∧ (u.queue c q).half.qstate = 4)
      ∧ ((K.half.qstate = 0 ∨ K.half.qstate = 6 ∨ (K.half.qstate = 4 ∧ ∃ L, K.launch = some L ∧ L.rgn ≠ 0)) →
          exec (.queueDisable c q) s = .next (s.setQueue c q { K with en := false }))
      ∧ (K.half.qstate = 4 → (∀ L, K.launch = some L → L.rgn = 0 ∧ L.stage ≠ 4) → ∃ u, exec (.queueDisable c q) s = .next u
          ∧ (u.queue c q).en = false ∧ (u.queue c q).half.qstate = 0 ∧ (u.queue c q).launch = none ∧ (u.queue c q).done = none)
      ∧ ((x.state ≠ 7 ∨ x.scrubbed = false) → exec (.unbar c) s = .next s)
      ∧ (x.state = 7 → x.scrubbed = true → ∃ u, exec (.unbar c) s = .next u ∧ (u.ctx c).state = 1 ∧ (u.ctx c).barred = false
          ∧ (u.ctx c).scrubbed = false ∧ (u.ctx c).guilt = 0 ∧ ∀ n, (s.queue c n).half.qstate = 6 →
            (u.queue c n).half.qstate = 0 ∧ (u.queue c n).en = false)
      ∧ ((st ≠ 1 ∧ st ≠ 2 ∧ st ≠ 3) → exec (.hostErrorCompletion c q none) s = .next s)
      ∧ ((st = 1 ∨ st = 2 ∨ st = 3) → Q.inFlight = false → Q.done = none → Q.seq % 2 = 0 → x.guilt < 0xFFFF →
          fault (.hostErrorCompletion c q none)))
      ∧ (∀ k id m, (s.tile k).xrun.find? (·.seq == id) = some m → m.opc = 0x18 → m.park = 4 →
          exec (.hostErrorCompletion c q (some (k, id))) s = .next (s.setXe k { m with park := 0, finished := true, res := (0, 1) }))
      ∧ (s.leader = none → exec (.queueSelect v) s = .next s ∧ exec (.timeSliceEnd v) s = .next s)
      ∧ (s.leader ≠ none → F.holder = some c → c ∈ s.workers v → s.pickQueue c = some q → Q.half.selr = 0 → ∃ u,
          exec (.queueSelect v) s = .next u ∧ (u.queue c q).half.qstate = 2
            ∧ (u.queue c q).pkt = mread s.hostMem (s.entryAt c Q Q.half.qrd) 1024
            ∧ (u.queue c q).done = none ∧ (u.fn v).holder = some c ∧ tget 15 (u.ctx c).rr Q.prio = q)
      ∧ (F.holder = none → exec (.timeSliceEnd v) s = .next s)
      ∧ (s.leader ≠ none → F.holder = some c →
          exec (.timeSliceEnd v) s = .next (s.setFn v { F with holder := s.nextHolder v x.iface, sliceLeft := (F.slice % 64 + 1) * 1000000 }))
      ∧ ((st ≠ 3 ∨ s.leader = none) → exec (.queueWaitEnd c q) s = .next s)
      ∧ (st = 3 → s.leader ≠ none →
        let go := s.ctl c q fun h => { h with qstate := 2, waitk := 0 }
        (Q.half.waitk = 3 → pktF Q.pkt 2 1 < Q.pending → exec (.queueWaitEnd c q) s = .next go)
        ∧ (Q.half.waitk = 3 → Q.pending ≤ pktF Q.pkt 2 1 → exec (.queueWaitEnd c q) s = .next s)
        ∧ (Q.half.waitk = 2 → Q.woke = none → exec (.queueWaitEnd c q) s = .next s)
        ∧ (Q.half.waitk = 2 → ∀ code, Q.woke = some code → exec (.queueWaitEnd c q) s =
            .next (go.setQueue c q { go.queue c q with done := some (code, 0, 0) }))
        ∧ (Q.half.waitk = 1 → ((s.fn x.vf).freed = Q.freed ∨ s.blockedAt x.vf Q.prio = true) → exec (.queueWaitEnd c q) s = .next s)
        ∧ (Q.half.waitk = 1 → (s.fn x.vf).freed ≠ Q.freed → s.blockedAt x.vf Q.prio = false → ∀ L, Q.launch = some L →
            exec (.queueWaitEnd c q) s = .next (if L.rgn = 0 then go.launchPlace c q L else go)))
      ∧ ((31 < v ∨ s.locked v = true) → exec (.glimWrite v q) s = .next s)
      ∧ (v ≤ 31 → s.locked v = false →
          let w := s.setFn v { F with glim := q % 256 }
          ((∀ e ∈ s.ctxs, (s.ctx e.1).guilt ≤ (w.fn (s.ctx e.1).vf).glim) → exec (.glimWrite v q) s = .next w)
            ∧ ∃ u, exec (.glimWrite v q) s = .next u ∧ (u.fn v).glim = q % 256
              ∧ ∀ e ∈ s.ctxs, (s.ctx e.1).vf = v → q % 256 < (s.ctx e.1).guilt → (s.ctx e.1).state ≠ 0 → (s.ctx e.1).state ≠ 8 →
                (u.ctx e.1).state = 7)

/-- R327 to R330, R333, R336, R337: a packet at stage 2 while a Sorrel leads completes with code 1 when it is malformed and with code 2 when it names a
handle its context does not own; else a signal packet adds, sets or waits, a select waits for its followers and chooses one, or is malformed when
one of them is a select, and a launch takes the next sequence number. A packet with an outcome lands its two words and hands over its signal
operation; once that is applied its control block begins with the next `QRD`, and it is committed. The signal operations of one queue are
applied in order. Which codes send a signal operation, and that a full waiter store is seen before the comparison, are the model's reading
(assumption 31). -/
def Obligations.PacketEvents : Prop :=
  ∀ (s : State) (c q : Nat),
    let Q := s.queue c q
    let p := Q.pkt
    let ty := pktF p 0 1
    let op := pktF p 10 1
    let h := pktF p 8 2
    let v := pktF p 16 8
    let y := s.sig h
    let fits := fun (i : Instr) => match i with
      | .launchPacket _ _ => ty ≠ 2 ∧ ty ≠ 3
      | .selectPacket _ _ => ty = 2
      | .signalPacketAdd _ _ => ty = 3 ∧ op = 1
      | .signalPacketSet _ _ => ty = 3 ∧ op = 2
      | _ => ty = 3 ∧ op ≠ 1 ∧ op ≠ 2
    let all := [Instr.launchPacket c q, .selectPacket c q, .signalPacketAdd c q, .signalPacketSet c q, .signalPacketWait c q]
    let guilty := fun (n code : Nat) => ((s.addGuilt c n).outcome c q code 0 0).barCheck c
    let calm := s.hub.waiters = [] ∧ s.hub.waitq = [] ∧ ∀ e ∈ s.ctxs, (s.ctx e.1).guilt ≤ (s.fn (s.ctx e.1).vf).glim
    let n := (Q.launch.map Launch.n).getD Q.half.qrd
    (Q.launch = none → s.atStage2 c q = false → ∀ i ∈ all, exec i s = .next s)
      ∧ (s.atStage2 c q = true → ∀ i ∈ all, fits i →
        (pktBad p = true → exec i s = .next (guilty 4 1))
          ∧ (pktBad p = false → ty ≠ 2 → h ≠ 0xFFFF → s.owns c h = false → exec i s = .next (guilty 16 2)))
      ∧ (s.atStage2 c q = true → pktBad p = false → ty = 2 →
        (Q.pending ≤ pktF p 2 1 → exec (.selectPacket c q) s = .next (s.ctl c q fun h => { h with qstate := 3, waitk := 3 }))
          ∧ (pktF p 2 1 < Q.pending → (∀ i, i < pktF p 2 1 → mget s.hostMem (s.entryAt c Q (Q.half.qrd + 1 + i)) ≠ 2) →
              exec (.selectPacket c q) s = .next (s.outcome c q 0 0
                (if Q.half.lstat % 256 ≠ 0 then pktF p 2 1 - 1 else min Q.half.lrw (pktF p 2 1 - 1))))
          ∧ (pktF p 2 1 < Q.pending → (∃ i, i < pktF p 2 1 ∧ mget s.hostMem (s.entryAt c Q (Q.half.qrd + 1 + i)) = 2) →
              exec (.selectPacket c q) s = .next (guilty 4 1)))
      ∧ (s.atStage2 c q = true → pktBad p = false → ty = 3 → s.owns c h = true →
        (op = 1 → calm → y.value.toNat + v < 2 ^ 64 → ∃ u, exec (.signalPacketAdd c q) s = .next u
            ∧ (u.sig h).value = y.value + BitVec.ofNat 64 v ∧ (u.queue c q).done = some (0, 0, 0))
          ∧ (op = 2 → calm → y.value.toNat ≤ v → v < 2 ^ 64 → ∃ u, exec (.signalPacketSet c q) s = .next u
              ∧ (u.sig h).value = BitVec.ofNat 64 v ∧ (u.queue c q).done = some (0, 0, 0))
          ∧ (op = 0 → s.hub.waiters.length < 1024 → v ≤ y.value.toNat → ∃ u, exec (.signalPacketWait c q) s = .next u
              ∧ (u.queue c q).done = some (0, 0, 0) ∧ u.hub.waiters = s.hub.waiters)
          ∧ (op = 0 → s.hub.waiters.length < 1024 → y.value.toNat < v → Q.woke = none → ∃ u w, exec (.signalPacketWait c q) s = .next u
              ∧ u.hub.waiters = s.hub.waiters ++ [w] ∧ w.handle = h ∧ w.target = BitVec.ofNat 64 v ∧ w.isQueue = true
              ∧ (u.queue c q).half.qstate = 3 ∧ (u.queue c q).half.waitk = 2))
      ∧ (s.atStage2 c q = true → pktBad p = false → ty = 1 → (h = 0xFFFF ∨ s.owns c h = true) → ∃ u L, exec (.launchPacket c q) s = .next u
          ∧ (u.queue c q).launch = some L ∧ L.stage = 3 ∧ L.lseq = (s.hub.lseq + 1) % 2 ^ 64 ∧ L.slot = pktF p 2 1 ∧ L.sigop = op ∧ L.sigh = h
          ∧ L.sinst = y.inst ∧ L.n = Q.half.qrd ∧ u.hub.lseq = L.lseq)
      ∧ (s.leader = none → exec (.packetComplete c q) s = .next s)
      ∧ (s.leader ≠ none → Q.seq % 2 = 0 → ∀ code cause rw, Q.done = some (code, cause, rw) →
        let words := ((s.hostWr (s.entryAt c Q n + 0x3C) (leBytes 4 rw)).hostWr (s.entryAt c Q n + 0x38)
          (leBytes 4 (statWord code cause))).modQueue c q fun Q => { Q with landed := true }
        (Q.landed = false → Q.launch = none → exec (.packetComplete c q) s = .next words)
          ∧ (Q.landed = false → ∀ L, Q.launch = some L → L.stage = 3 →
            ((L.sigop = 0 ∨ code = 2) → exec (.packetComplete c q) s = .next words)
            ∧ (L.sigop ≠ 0 → code ≠ 2 → ∃ u z, exec (.packetComplete c q) s = .next u ∧ u.hub.sigops = s.hub.sigops ++ [z] ∧ z.handle = L.sigh
              ∧ z.op = L.sigop ∧ z.value = BitVec.ofNat 64 L.sigval ∧ z.ctx = c ∧ z.q = q ∧ z.inst = L.sinst ∧ u.hostMem = words.hostMem ∧ (u.queue c q).landed = true))
          ∧ (Q.landed = true → (∃ z ∈ s.hub.sigops, z.ctx = c ∧ z.q = q) → exec (.packetComplete c q) s = .next s)
          ∧ (Q.landed = true → (∀ z ∈ s.hub.sigops, ¬ (z.ctx = c ∧ z.q = q)) → ∃ u, exec (.packetComplete c q) s = .next u
              ∧ (u.queue c q).seq = (Q.seq + 1) % 2 ^ 64 ∧ (u.queue c q).commit.half.qrd = (n + 1) % 2 ^ 32
              ∧ (u.queue c q).commit.half.qstate = afterPacket Q.half.qstate
              ∧ (ty = 1 → (u.queue c q).commit.half.lrw = rw ∧ (u.queue c q).commit.half.lstat = statWord code cause)))
      ∧ (s.leader ≠ none → Q.seq % 2 = 1 → exec (.packetComplete c q) s = .next (s.setQueue c q Q.commit))
      ∧ (∀ k z, s.hub.sigops.find? (·.id == k) = some z →
        ((∃ b ∈ s.hub.sigops, b.ctx = z.ctx ∧ b.q = z.q ∧ b.id < z.id) → exec (.signalOperation k) s = .next s)
        ∧ ((∀ b ∈ s.hub.sigops, b.ctx = z.ctx → b.q = z.q → z.id ≤ b.id) → exec (.signalOperation k) s =
            .next (({ s with hub := { s.hub with sigops := s.hub.sigops.filter (·.id != k) } } : State).hubSignal z))
        ∧ ((s.owns z.ctx z.handle = false ∨ (s.sig z.handle).inst ≠ z.inst) → s.hubSignal z = s))

/-- R362, R363, R364 (Table 153): a die leaves Off when its supply is in regulation and goes to Off when it is lost, with the lease if it held it; it
is measured after the release, and is Admitted or keeps the code of the first check that failed; the watchdog resets a die that is not
Off: its tiles are as after reset and its reset count is one more, stopping at 65,535. A change is counted in `e4` of each Running Sorrel. That a session
which cannot be had stands as `QCODE` 4 is the model's choice (assumption 33), and so is the lease given up at a lost supply (assumption 32). -/
def Obligations.DieEvents : Prop :=
  ∀ (s : State) (d q : Nat) (pass : Bool) (g : BitVec 384),
    let D := s.die d
    (2 < d → ∀ i ∈ [Instr.supplyInRegulation d, .supplyLost d, .dieResetRelease d, .dieMeasurementDone d pass g, .dieAdmissionCheckEnd d q,
        .dieWatchdog d], exec i s = .fault (.noSuchAgent "die"))
      ∧ (d ≤ 2 →
        (D.state ≠ 0 → exec (.supplyInRegulation d) s = .next s)
        ∧ (D.state = 0 → ∃ u, exec (.supplyInRegulation d) s = .next u ∧ (u.die d).state = 1 ∧ u.tiles = s.tiles ∧ u.links = s.links
            ∧ ∀ e, e < 3 → e ≠ d → (u.die e).state = (s.die e).state
              ∧ ((s.die e).state = 5 → tget 0 (u.die e).sem 4 = BitVec.ofNat 16 (min ((tget 0 (s.die e).sem 4).toNat + 1) 65535)))
        ∧ (∃ u, exec (.supplyLost d) s = .next u ∧ (u.die d).state = 0 ∧ (s.hub.lease = some d → u.hub.lease = none)
            ∧ (s.hub.lease ≠ some d → u.hub.lease = s.hub.lease) ∧ u.tiles = s.tiles)
        ∧ (D.state ≠ 1 → exec (.dieResetRelease d) s = .next s)
        ∧ (D.state = 1 → ∃ u, exec (.dieResetRelease d) s = .next u ∧ (u.die d).state = 2 ∧ (u.die d).qcode = 0 ∧ (u.die d).checked = false ∧ u.tiles = s.tiles)
        ∧ (D.state ≠ 2 → exec (.dieMeasurementDone d pass g) s = .next s)
        ∧ (D.state = 2 → ∃ u, exec (.dieMeasurementDone d pass g) s = .next u ∧ (u.die d).state = 3
            ∧ (pass = true → (u.die d).fwDigest = some g ∧ (u.die d).qcode = D.qcode
                ∧ ((s.link (14 + d)).state = 0 → D.qcode ≠ 6 → (u.link (14 + d)).state = 1))
            ∧ (pass = false → (u.die d).qcode = 6 ∧ ((s.link (14 + d)).state = 0 → (u.link (14 + d)).state = 0)))
        ∧ ((D.state ≠ 3 ∨ D.checked = true ∨ D.qcode = 6 ∨ (s.link (14 + d)).state < 2) → exec (.dieAdmissionCheckEnd d q) s = .next s)
        ∧ (D.state = 3 → D.checked = false → D.qcode ≠ 6 → 2 ≤ (s.link (14 + d)).state →
          let code := D.admitCode d q
          (code ≠ 0 → exec (.dieAdmissionCheckEnd d q) s = .next (s.setDie d { D with checked := true, qcode := code }))
          ∧ (q % 256 ≠ 0 → q ≠ noSession → code = q % 256) ∧ (q % 256 = 0 ∨ q = noSession → D.leaf ≠ Config.fusedIdentity d → code = 3)
          ∧ (q % 256 = 0 ∨ q = noSession → D.leaf = Config.fusedIdentity d → D.fwDigest ≠ some Config.fwManifest → code = 2)
          ∧ (D.leaf = Config.fusedIdentity d → D.fwDigest = some Config.fwManifest → (q % 256 = 0 → code = 0) ∧ (q = noSession → code = 4))
          ∧ (code = 0 → ∃ u, exec (.dieAdmissionCheckEnd d q) s = .next u ∧ (u.die d).checked = true ∧ (u.die d).qcode = 0
              ∧ ((s.link (14 + d)).carries = false → (u.die d).state = 4)))
        ∧ (D.state = 0 → exec (.dieWatchdog d) s = .next s)
        ∧ (D.state ≠ 0 → ∃ u, exec (.dieWatchdog d) s = .next u ∧ (u.die d).state = 1 ∧ (u.die d).qcode = 0 ∧ (u.die d).walks = []
            ∧ (u.die d).fwDigest = none ∧ (∀ k, dieOfTile k = d → u.tile k = {})
            ∧ (s.regions = [] → (∀ k, (s.tile k).rgn = 0) → (u.die d).resets = min (D.resets + 1) 0xFFFF
                ∧ ∀ i ∈ dieLinks d, (u.link i).state = 0)))

/-- R365, R377, R378 (Table 154): training ends in Attesting, or in Failed; a retrain keeps its keys and passes on to Running; attestation ends in
Keyed for a Glimet link whose identity is the one set for the port, in Running between Admitted dies, or in Quarantined with its code; an error burst
on a link that carries data starts a retrain and leaves nothing cached for the port. R370, R371: a port that raises the domain stall wire makes the
members freeze at the close of step u + L − 1, unless a freeze is already set; the wire is raised while some port raises it. When the wire is raised
comes from outside (assumption 38), and it drops once no flit of the link waits to be sent, acknowledged or delivered (assumption 33). -/
def Obligations.LinkAndDomainEvents : Prop :=
  (∀ (s : State) (i q : Nat) (ok : Bool) (peer : BitVec 384),
       let L := s.link i
       (16 < i → ∀ e ∈ [Instr.linkTrainingEnd i ok, .linkAttestEnd i q peer, .linkErrorBurst i], exec e s = .fault (.noSuchAgent "link"))
         ∧ (i ≤ 16 →
           (L.state ≠ 1 → exec (.linkTrainingEnd i ok) s = .next s)
           ∧ (L.state = 1 → ok = false → ∃ u, exec (.linkTrainingEnd i ok) s = .next u ∧ u.link i = { L with state := 8 } ∧ u.tiles = s.tiles)
           ∧ (L.state = 1 → ok = true → L.retrain = false → ∃ u, exec (.linkTrainingEnd i ok) s = .next u ∧ u.link i = { L with state := 2 }
               ∧ u.tiles = s.tiles)
           ∧ (L.state = 1 → ok = true → L.retrain = true → L.d0.wait = false → L.d1.wait = false → ∃ u, exec (.linkTrainingEnd i ok) s = .next u
               ∧ u.link i = { L with state := 5, retrain := false })
           ∧ (L.state ≠ 2 → exec (.linkAttestEnd i q peer) s = .next s)
           ∧ (L.state = 2 → q ≠ 0 → ∃ u, exec (.linkAttestEnd i q peer) s = .next u ∧ u.link i = { L with state := 7, qcode := q % 256 })
           ∧ (L.state = 2 → q = 0 → i < 12 → peer ≠ tget 0 s.hub.peerid i → ∃ u, exec (.linkAttestEnd i q peer) s = .next u
               ∧ u.link i = { L with state := 7, qcode := 3 })
           ∧ (L.state = 2 → q = 0 → i < 12 → peer = tget 0 s.hub.peerid i → ∃ u, exec (.linkAttestEnd i q peer) s = .next u
               ∧ u.link i = { L with state := 3, qcode := 0, d0 := {}, d1 := {}, peer := peer, sess := L.sess + 1 })
           ∧ (L.state = 2 → q = 0 → 12 ≤ i → (∀ d ∈ linkDies i, 4 ≤ (s.die d).state) → ∃ u, exec (.linkAttestEnd i q peer) s = .next u
               ∧ u.link i = { L with state := 5, qcode := 0, d0 := {}, d1 := {}, sess := L.sess + 1 })
           ∧ (L.state = 2 → q = 0 → 12 ≤ i → (∃ d ∈ linkDies i, (s.die d).state < 4) → ∃ u, exec (.linkAttestEnd i q peer) s = .next u
               ∧ (u.link i).state = 7 ∧ (u.link i).qcode < 256)
           ∧ (L.carries = false → exec (.linkErrorBurst i) s = .next s)
           ∧ (L.carries = true → (∀ k, (s.tile k).rgn = 0) → ∃ u, exec (.linkErrorBurst i) s = .next u ∧ (u.link i).state = 1 ∧ (u.link i).retrain = true
               ∧ (u.link i).cache = [] ∧ (u.link i).stall = false ∧ (u.link i).d0 = L.d0.retrain ∧ (u.link i).d1 = L.d1.retrain)))
    ∧ (∀ (s : State) (i : Nat),
       (16 < i → exec (.domainStallRaise i) s = .fault (.noSuchAgent "link") ∧ exec (.domainStallDrop i) s = .fault (.noSuchAgent "link"))
         ∧ (i ≤ 16 →
           ((s.link i).carries = false → exec (.domainStallRaise i) s = .next s)
           ∧ ((s.link i).carries = true → ∃ u, exec (.domainStallRaise i) s = .next u ∧ (u.link i).stall = true ∧ u.dom.wire = true ∧ u.dom.step = s.dom.step
             ∧ (s.dom.freezeAt = none → s.dom.frozen = false →
                 u.dom.freezeAt = some (s.dom.step + (1 + (160 * s.dom.diameter + 127) / 128) - 1))
             ∧ (∀ n, s.dom.freezeAt = some n → u.dom.freezeAt = some n) ∧ (s.dom.frozen = true → u.dom.freezeAt = s.dom.freezeAt)
             ∧ u.tiles = s.tiles)
           ∧ ((s.link i).clear = false → exec (.domainStallDrop i) s = .next s)
           ∧ ((s.link i).clear = true ↔ ∀ x ∈ [(s.link i).d0, (s.link i).d1], x.stop = [] ∧ x.sent = [] ∧ x.held = [])
           ∧ ((s.link i).clear = true → ∃ u, exec (.domainStallDrop i) s = .next u ∧ (u.link i).stall = false ∧ (∀ j, j ≠ i → u.link j = s.link j)
             ∧ u.dom = { s.dom with wire := u.links.any fun l => l.2.stall })))

/-- R367, R368, R369: a flit that fails a check is the one replayed, bit for bit from what its sender keeps until it is acknowledged; the next one of the
receiver's generation is delivered, an older one is dropped and a later one waits; the fourth tag failure in a row quarantines the link with code 5; a
rollover gives the receiver a second generation, the acknowledgement switches the sender, and its end, which waits until every flit of the old generation
has been delivered, drops that generation and returns the link to Running. How the far sender's count comes to the receiver and how a replay is asked for
are the model's (assumption 33). -/
def Obligations.FlitAndRolloverEvents : Prop :=
  ∀ (s : State) (i dir g cnt : Nat) (crcOk tagOk : Bool),
    let L := s.link i
    let x := L.dir dir
    let o := L.dir (if dir = 0 then 1 else 0)
    let mine := if L.sends i dir then some x.scnt else none
    (16 < i → ∀ e ∈ [Instr.flitReceive i dir crcOk tagOk g cnt, .rolloverStart i dir, .rolloverAck i dir, .rolloverEnd i dir],
        exec e s = .fault (.noSuchAgent "link"))
      ∧ (i ≤ 16 →
        let refused := 14 ≤ i ∧ (s.die (i - 14)).state = 3
        ((L.state = 0 ∨ refused) → exec (.flitReceive i dir crcOk tagOk g cnt) s = .next s)
        ∧ (L.state ≠ 0 → crcOk = false → ¬ refused → exec (.flitReceive i dir crcOk tagOk g cnt) s = .next (s.askReplay i dir g cnt))
        ∧ (let n := if x.rgen % 2 = g % 2 then x.rgen else x.rgen + 1
          (i < 12 → s.askReplay i dir g cnt = s.send "replay" [i, dir, n, cnt]) ∧ (12 ≤ i → s.askReplay i dir g cnt = s.flitAck i dir n cnt true))
        ∧ (L.carries = true → (∀ y, x.sent.find? (fun y => y.1 == g && y.2.1 == cnt) = some y → s.flitAck i dir g cnt true = s.putFlit i dir g cnt y.2.2)
          ∧ s.flitAck i dir g cnt false = s.putLink i (L.setDir dir { x with sent := x.sent.filter fun y => !(y.1 == g && y.2.1 ≤ cnt) }))
        ∧ (L.carries = true → x.scnt + 2 < 2 ^ 32 - 2 ^ 24 → ∀ b, s.flitSend i dir b = (s.putLink i (L.setDir dir
            { x with scnt := x.scnt + 1, sent := x.sent ++ [(x.gen, x.scnt, b)] })).putFlit i dir x.gen x.scnt b)
        ∧ (L.state ≠ 0 → crcOk = true → ¬ refused → tagOk = true → x.rgen % 2 = g % 2 → x.held = [] →
          (cnt = x.rcnt → exec (.flitReceive i dir crcOk tagOk g cnt) s =
              .next (s.putLink i (L.setDir dir { x with fails := 0, rcnt := x.rcnt + 1 })))
          ∧ (cnt < x.rcnt → exec (.flitReceive i dir crcOk tagOk g cnt) s = .next (s.putLink i (L.setDir dir { x with fails := 0 })))
          ∧ (x.rcnt < cnt → exec (.flitReceive i dir crcOk tagOk g cnt) s =
              .next (s.putLink i (L.setDir dir { x with fails := 0, held := [(x.rgen, cnt)] }))))
        ∧ (L.state ≠ 0 → crcOk = true → ¬ refused → tagOk = true → x.rgen % 2 ≠ g % 2 → x.two = true → x.held = [] →
            exec (.flitReceive i dir crcOk tagOk g cnt) s = .next (s.putLink i (L.setDir dir { x with fails := 0, held := [(x.rgen + 1, cnt)] })))
        ∧ (L.state ≠ 0 → crcOk = true → ¬ refused → (tagOk = false ∨ x.rgen % 2 ≠ g % 2 ∧ x.two = false) →
          (x.fails < 3 → exec (.flitReceive i dir crcOk tagOk g cnt) s =
              .next ((s.putLink i (L.setDir dir { x with fails := x.fails + 1 })).askReplay i dir g cnt))
          ∧ (3 ≤ x.fails → (∀ k, (s.tile k).rgn = 0) → ∃ u, exec (.flitReceive i dir crcOk tagOk g cnt) s = .next u ∧ (u.link i).state = 7 ∧ (u.link i).qcode = 5))
        ∧ (L.state = 5 → ∃ u, exec (.rolloverStart i dir) s = .next u ∧ (u.link i).state = 6
            ∧ (u.link i).dir dir = { x with roll := true, two := true, wait := false, slast := none } ∧ (u.link i).dir (if dir = 0 then 1 else 0) = o)
        ∧ (L.state = 6 → exec (.rolloverStart i dir) s = .next (s.putLink i (L.setDir dir { x with wait := true })))
        ∧ (L.state ≠ 5 → L.state ≠ 6 → exec (.rolloverStart i dir) s = .next s)
        ∧ ((L.state ≠ 6 ∨ x.roll = false ∨ x.sw = true) → exec (.rolloverAck i dir) s = .next s)
        ∧ (L.state = 6 → x.roll = true → x.sw = false → x.stop = [] → exec (.rolloverAck i dir) s =
            .next (s.putLink i (L.setDir dir { x with sw := true, gen := (x.gen + 1) % 2 ^ 32, slast := mine, scnt := 0 })))
        ∧ (L.state = 6 → x.roll = true → x.sw = false → ∃ u, exec (.rolloverAck i dir) s = .next u ∧ ((u.link i).dir dir).sw = true
            ∧ ((u.link i).dir dir).gen = (x.gen + 1) % 2 ^ 32 ∧ ((u.link i).dir dir).slast = mine)
        ∧ (i < 12 → L.carries = true → x.sw = true → dir ≠ sendDir i L → s.flitLast i dir cnt = s.putLink i (L.setDir dir { x with slast := some cnt }))
        ∧ ((L.state ≠ 6 ∨ x.sw = false ∨ (L.receives i dir = true ∧ ∀ n, x.slast = some n → x.rcnt < n)
            ∨ (L.sends i dir = true ∧ ∃ y ∈ x.sent, y.1 ≠ x.gen)) → exec (.rolloverEnd i dir) s = .next s)
        ∧ (L.state = 6 → x.sw = true → (L.receives i dir = true → ∃ n, x.slast = some n ∧ n ≤ x.rcnt) →
            (L.sends i dir = true → ∀ y ∈ x.sent, y.1 = x.gen) → x.held = [] → x.wait = false → o.wait = false → ∃ u, exec (.rolloverEnd i dir) s = .next u
            ∧ (u.link i).dir dir = { x with roll := false, two := false, sw := false, rgen := x.rgen + 1, rcnt := 0 }
            ∧ (u.link i).state = (if o.roll then 6 else 5)))

/-- R25 to R30, R206, R215: power-on loads the newer valid flash bank, or starts fresh with the power-on count 1; a flash write goes to the two banks
in turn; samples count in their bins; a snapshot is taken of the records at the request, which is ignored while one is being taken; an access that R29
does not allow is an Unsupported Request; a management read answers the bytes of its window. A management read that is not answered is the model's
choice (assumption 41), and so is which flash bank is written and read (assumption 52); that every memory but the frame table reads as zero again
after power-on is assumption 2. -/
def Obligations.TelemetryEvents : Prop :=
  ∀ (s : State) (t : Int) (m off len : Nat) (v : BitVec 32),
    let H := s.hub
    let seq := min (tget 0 H.tel 0x60 + 1) (2 ^ 64 - 1)
    let rec1 := tset H.tel 0x60 seq
    (∃ u, exec .powerOn s = .next u ∧ u.powered = true ∧ u.tiles = [] ∧ u.regions = [] ∧ u.ctxs = [] ∧ u.links = [] ∧ u.hub.lease = none
        ∧ u.hostMem = s.hostMem ∧ u.hub.flash0 = H.flash0 ∧ u.hub.flash1 = H.flash1
        ∧ (∀ d, d < 3 → (u.die d).state = 0 ∧ (u.die d).defect = (s.die d).defect ∧ ftState (u.ft (d * 131072)) = 3)
        ∧ (H.flash0 = none → H.flash1 = none → u.hub.fresh = true ∧ u.hub.tel = [(0x48, 1)] ∧ u.hub.retired = [])
        ∧ (∀ b, H.flash0 = some b → H.flash1 = none → u.hub.fresh = false ∧ u.hub.retired = b.2
            ∧ tget 0 u.hub.tel 0x48 = min (tget 0 b.1 0x48 + 1) (2 ^ 64 - 1))
        ∧ (∀ b c, H.flash0 = some b → H.flash1 = some c →
            u.hub.fresh = false ∧ u.hub.retired = (if tget 0 c.1 0x60 < tget 0 b.1 0x60 then b.2 else c.2)))
      ∧ (∃ u, exec .telemetryFlashWrite s = .next u ∧ u.hub.tel = rec1
        ∧ (seq % 2 = 0 → u.hub.flash0 = some (rec1, H.retired) ∧ u.hub.flash1 = H.flash1)
        ∧ (seq % 2 = 1 → u.hub.flash1 = some (rec1, H.retired) ∧ u.hub.flash0 = H.flash0))
      ∧ (∃ u, exec (.telemetrySample [t] [m]) s = .next u ∧ { u with hub := s.hub } = s
        ∧ (∀ b, b < 32 → tget 0 u.hub.tel (0xB00 + b * 8) =
            if (b = 0 ∧ t < 20) ∨ (0 < b ∧ b < 31 ∧ 20 + 3 * ((b : Int) - 1) ≤ t ∧ t < 20 + 3 * b) ∨ (b = 31 ∧ 110 ≤ t)
            then min (tget 0 H.tel (0xB00 + b * 8) + 1) (2 ^ 64 - 1) else tget 0 H.tel (0xB00 + b * 8))
        ∧ ∀ b, b < 16 → tget 0 u.hub.tel (0xF00 + b * 8) =
            if (b < 15 ∧ 5 * b ≤ m ∧ m < 5 * b + 5) ∨ (b = 15 ∧ 75 ≤ m)
            then min (tget 0 H.tel (0xF00 + b * 8) + 1) (2 ^ 64 - 1) else tget 0 H.tel (0xF00 + b * 8))
      ∧ exec .pwrMinTick s = .next (s.tel 0x40) ∧ exec .hostLinkRetrain s = .next (s.tel (0x900 + 16 * 17))
      ∧ exec .ideKeyRefresh s = .next (s.tel (0x908 + 16 * 17))
      ∧ (v.getLsbD 0 = false → exec (.snap v) s = .next s)
      ∧ (v.getLsbD 0 = true → ∃ u, exec (.snap v) s = .next u ∧ { u with hub := s.hub, freeCtr := s.freeCtr } = s
          ∧ (H.host.busy = true → u.hub = H)
          ∧ (H.host.busy = false → ∃ n, n ≤ 155 ∧ u.hub = { H with host := { H.host with busy := true, next := H.tel, left := n } }))
      ∧ (∃ u, exec .mctpSnapshotRequest s = .next u ∧ { u with hub := s.hub, freeCtr := s.freeCtr } = s ∧ (H.mgmt.busy = true → u.hub = H)
          ∧ (H.mgmt.busy = false → ∃ n, n ≤ 155 ∧ u.hub = { H with mgmt := { H.mgmt with busy := true, next := H.tel, left := n } }))
      ∧ (H.host.busy = false → exec (.snapshotComplete false) s = .next s) ∧ (H.mgmt.busy = false → exec (.snapshotComplete true) s = .next s)
      ∧ (H.host.busy = true → exec (.snapshotComplete false) s =
          .next { s with hub := { H with host := { H.host with busy := false, valid := true, seq := (H.host.seq + 1) % 2 ^ 32, recs := H.host.next, next := [] } } })
      ∧ (H.mgmt.busy = true → exec (.snapshotComplete true) s =
          .next { s with hub := { H with mgmt := { H.mgmt with busy := false, valid := true, seq := (H.mgmt.seq + 1) % 2 ^ 32, recs := H.mgmt.next, next := [] } } })
      ∧ (off ≠ 0 → exec (.telemetryUnsupportedAccess true off len) s = .next (s.send "unsupported-request" [off, len]))
      ∧ (len ≠ 4 → len ≠ 8 → exec (.telemetryUnsupportedAccess false off len) s = .next (s.send "unsupported-request" [off, len]))
      ∧ ((len = 4 ∨ len = 8) → off % len = 0 → off + len ≤ 65536 → exec (.telemetryUnsupportedAccess false off len) s = .next s)
      ∧ (off = 0 → exec (.telemetryUnsupportedAccess true off len) s = .next s)
      ∧ ((len < 4 ∨ 64 < len ∨ off % 4 ≠ 0 ∨ 65536 < off + len) → exec (.mctpTelemetryRead off len) s = .next s)
      ∧ (4 ≤ len → len ≤ 64 → off % 4 = 0 → off + len ≤ 65536 → exec (.mctpTelemetryRead off len) s =
          .next (s.send "mctp" ((List.range len).map fun i => winByte H.mgmt H.fresh (off + i))))

/-- R23, R319, R320: the holder renews its lease for 1 ms while its Sorrel has not halted (assumption 9); a lease that has lapsed goes to the Sorrel
of the lowest-numbered Running die other than the one that held it; a power cap is written; the step period of a domain is the smallest value a member
requests. -/
def Obligations.LeaseAndPowerEvents : Prop :=
  ∀ (s : State) (d v : Nat) (ms : List Nat),
    let may := fun (e : Nat) => (s.die e).state = 5
    ((s.hub.lease ≠ some d ∨ (s.die d).sorrel.halted = true) → exec (.leaseRenew d) s = .next s)
      ∧ (s.hub.lease = some d → (s.die d).sorrel.halted = false → exec (.leaseRenew d) s = .next { s with hub := { s.hub with leaseLeft := 1000000 } })
      ∧ (s.hub.lease = some d → s.hub.leaseLeft ≠ 0 → may d → exec .leaseLapse s = .next s)
      ∧ (d < 3 → may d → (∀ e, e < d → ¬ may e ∨ s.hub.lease = some e) → s.hub.lease ≠ some d →
          (s.hub.lease = none ∨ s.hub.leaseLeft = 0 ∨ ∃ e, s.hub.lease = some e ∧ ¬ may e) →
          ∃ u, exec .leaseLapse s = .next u ∧ u.hub.lease = some d ∧ u.hub.leaseLeft = 1000000
            ∧ tget 0 (u.die d).sem 1 = 1 ∧ tget 0 (u.die d).sem 2 = 1 ∧ tget 0 (u.die d).sem 3 = 1 ∧ u.tiles = s.tiles)
      ∧ ((∀ e, e < 3 → ¬ may e ∨ s.hub.lease = some e) → (∃ e, s.hub.lease = some e ∧ (s.hub.leaseLeft = 0 ∨ ¬ may e)) →
          ∃ u, exec .leaseLapse s = .next u ∧ u.hub.lease = none ∧ u.tiles = s.tiles)
      ∧ exec (.powerCapWrite v) s = .next { s with hub := { s.hub with capw := v % 65536 } }
      ∧ ∃ u, exec (.stepPeriodChange ms) s = .next u ∧ u = { s with hub := { s.hub with stepm := u.hub.stepm } }
          ∧ (∀ m ∈ ms, 16 ≤ m → m ≤ 64 → u.hub.stepm ≤ m) ∧ (u.hub.stepm = 64 ∨ u.hub.stepm ∈ ms) ∧ 16 ≤ u.hub.stepm ∧ u.hub.stepm ≤ 64

/-- R307, R325, R326, R331, R336, R340, R341, R372, R375: a partition block is written while its function holds nothing there and no other function's mask meets it; a
register of a function is written unless its interface is locked; a queue's ring is written while the queue is Disabled; the bases of a
context are written in Bound; a staged key is written in RUN by a request with the T bit of the slot's function, whose stream is keyed; a read-only address ignores a write. -/
def Obligations.RegisterEvents : Prop :=
  ∀ (s : State) (n c q v : Nat) (F : PartField),
    let f := s.fn n
    let x := s.ctx c
    let Q := s.queue c q
    let w := fun (r : HostReg) => exec (.registerWrite r v) s
    ((31 < n ∨ s.locked n = true) → exec (.partitionWrite n F v) s = .next s ∧ w (.slice n) = .next s ∧ w (.gbase n) = .next s ∧ w (.glen n) = .next s)
      ∧ (n ≤ 31 → s.locked n = false →
        ((f.used ≠ 0 ∨ s.clash n (v % 2 ^ 384) Fn.pcg = true) → exec (.partitionWrite n .pcg v) s = .next s)
        ∧ (f.used = 0 → s.clash n (v % 2 ^ 384) Fn.pcg = false →
            exec (.partitionWrite n .pcg v) s = .next (s.setFn n { f with pcg := v % 2 ^ 384 }))
        ∧ ((s.holdsRegion n = true ∨ s.clash n (v % 2 ^ 432) Fn.clmask = true) → exec (.partitionWrite n .clmask v) s = .next s)
        ∧ (s.holdsRegion n = false → s.clash n (v % 2 ^ 432) Fn.clmask = false →
            exec (.partitionWrite n .clmask v) s = .next (s.setFn n { f with clmask := v % 2 ^ 432 }))
        ∧ (F ≠ .pcg → F ≠ .clmask → s.holdsRegion n = true → exec (.partitionWrite n F v) s = .next s)
        ∧ (F ≠ .pcg → F ≠ .clmask → s.holdsRegion n = false → ∃ u, exec (.partitionWrite n F v) s = .next u
            ∧ (u.fn n).twq.length = 4 ∧ (u.fn n).twq.getD (twqIndex F) 0 = v % 256
            ∧ (∀ j, j < 4 → j ≠ twqIndex F → (u.fn n).twq.getD j 0 = f.twq.getD j 0) ∧ (u.fn n).clmask = f.clmask ∧ (u.fn n).pcg = f.pcg)
        ∧ w (.slice n) = .next (s.setFn n { f with slice := v % 64 })
        ∧ (n = 0 → w (.gbase n) = .next s)
        ∧ (n ≠ 0 → w (.gbase n) = .next (s.setFn n { f with gbase := v % 2 ^ 48 / 4 * 4 })
            ∧ w (.glen n) = .next (s.setFn n { f with glen := v % 2 ^ 20 }) ∧ w (.s2first n) = .next (s.setFn n { f with s2first := v % 2 ^ 19 })
            ∧ w (.s2count n) = .next (s.setFn n { f with s2count := v % 2 ^ 20 })
            ∧ w (.s2done n) = .next (s.setFn n { f with s2done := if v / 2 % 2 = 1 then false else f.s2done })))
      ∧ (n ≤ 31 → q ≤ 63 → w (.swt n q) = .next (s.setFn n { f with swt := tset f.swt q (BitVec.ofNat 64 v) })
          ∧ w (.swmir n q) = .next (s.setFn n { f with swmir := tset f.swmir q (v % 2 ^ 64 / 8 * 8) })
          ∧ w (.ifpasid n q) = .next (s.setFn n { f with pasid := tset f.pasid q (v % 2 ^ 20) }))
      ∧ (x.state ≠ 8 → x.state ≠ 0 → q ≤ 15 →
        (Q.half.qstate ≠ 0 → w (.qbase c q) = .next s ∧ w (.qsize c q) = .next s)
        ∧ (Q.half.qstate = 0 → w (.qbase c q) = .next (s.setQueue c q { Q with qbase := v % 2 ^ 64 / 1024 * 1024 })
            ∧ w (.qsize c q) = .next (s.setQueue c q { Q with size := v % 8 }))
        ∧ w (.qprio c q) = .next (s.setQueue c q { Q with prio := v % 4 }))
      ∧ (x.state ≠ 8 → (c = 0 ∨ 255 < c ∨ x.state ≠ 0 ∨ s.locked x.vf = true) → w (.vf c) = .next s ∧ w (.iface c) = .next s)
      ∧ (c ≠ 0 → c ≤ 255 → x.state = 0 → s.locked x.vf = false → w (.vf c) = .next (s.setCtx c { x with vf := v % 32 })
          ∧ w (.iface c) = .next (s.setCtx c { x with iface := v % 64 }))
      ∧ (x.state ≠ 1 → x.state ≠ 8 → ∀ r ∈ [HostReg.otbase c, .seed c, .magtab c, .plbase c, .pllen c, .rcbase c, .rclen c, .pclr c], w r = .next s)
      ∧ (x.state = 8 → ∀ r ∈ [HostReg.vf c, .iface c, .otbase c, .seed c, .magtab c, .plbase c, .pllen c, .rcbase c, .rclen c, .pclr c],
          w r = .next (s.setCtx c { x with deferred := x.deferred ++ [.register r v] }))
      ∧ (x.state = 1 → w (.otbase c) = .next (s.setCtx c { x with otbase := v % 2 ^ 48 / 64 * 64 })
          ∧ w (.seed c) = .next (s.setCtx c { x with seed := BitVec.ofNat 64 v })
          ∧ w (.magtab c) = .next (s.setCtx c { x with magtab := v % 2 ^ 48 / 1024 * 1024 })
          ∧ w (.plbase c) = .next (s.setCtx c { x with plbase := v % 2 ^ 48 / 32 * 32 })
          ∧ w (.pllen c) = .next (s.setCtx c { x with pllen := v % 2 ^ 24 })
          ∧ w (.rcbase c) = .next (s.setCtx c { x with rcbase := v % 2 ^ 48 / 16 * 16 })
          ∧ w (.rclen c) = .next (s.setCtx c { x with rclen := v % 2 ^ 16 })
          ∧ w (.pclr c) = .next (s.setCtx c { x with pclr := v % 2 == 1 }))
      ∧ (∀ y t, (t = false ∨ s.slotFn n ≠ some y ∨ (s.fn y).tdisp ≠ 2 ∨ (s.fn y).idekm = false) →
          ∀ r ∈ [HostReg.slotKey n y t, .slotOwner n y t, .slotLast n y t], w r = .next s)
      ∧ (∀ y, s.slotFn n = some y → (s.fn y).tdisp = 2 → (s.fn y).idekm = true →
          w (.slotKey n y true) = .next (s.setKey n { tget {} s.hub.keys n with stKey := BitVec.ofNat 256 v })
          ∧ w (.slotLast n y true) = .next (s.setKey n { tget {} s.hub.keys n with stLast := BitVec.ofNat 64 v })
          ∧ ((s.ctx (v % 256)).state ≠ 0 → (s.ctx (v % 256)).vf = y →
              w (.slotOwner n y true) = .next (s.setKey n { tget {} s.hub.keys n with stOwner := v % 256 })))
      ∧ w .readOnly = .next s

/-- R372, R373, R375, R376, R377: the functions of key slots and peers: a slot is given to a function while both are unlocked; its staged key becomes the key, and
the staged copy of the key is zero; a clear leaves it empty; a peer entry is written while its context has no region, and must be
confirmed again; an identity is set while its link is Down; a peer's invalidation drops what meets it and is answered,
at once unless commands that used what it drops are in flight. -/
def Obligations.PeerAndKeyEvents : Prop :=
  ∀ (s : State) (n v c e i first count oid : Nat) (t : Bool) (key : BitVec 256) (id : BitVec 384),
    let k := tget {} s.hub.keys n
    let C := s.ctx c
    let p := (tget 0 C.peers e).toNat
    let L := s.link i
    (255 < n → exec (.ksvf n v) s = .next s)
      ∧ ((∃ y, s.slotFn n = some y ∧ (s.fn y).tdisp ≠ 0) → exec (.ksvf n v) s = .next s)
      ∧ (n ≤ 255 → (∀ y, s.slotFn n = some y → (s.fn y).tdisp = 0) → ((s.fn (v % 32)).tdisp = 0 ∨ bitN v 31 = false) →
          ∃ u, exec (.ksvf n v) s = .next u ∧ u.slotFn n = (if bitN v 31 then some (v % 32) else none)
            ∧ (∀ j, j ≠ n → u.slotFn j = s.slotFn j) ∧ u.hub.keys = s.hub.keys)
      ∧ ((s.slotFn n ≠ some v ∨ (s.fn v).tdisp ≠ 2 ∨ (s.fn v).idekm = false ∨ t = false) → exec (.keySlotLoad n v t) s = .next s ∧ exec (.keySlotClr n v t) s = .next s)
      ∧ (s.slotFn n = some v → (s.fn v).tdisp = 2 → (s.fn v).idekm = true →
          exec (.keySlotLoad n v true) s = .next (s.setKey n { valid := true, owner := k.stOwner, key := k.stKey, last := k.stLast, stOwner := k.stOwner, stLast := k.stLast })
          ∧ exec (.keySlotClr n v true) s = .next (s.setKey n {}))
      ∧ ((31 < v) → exec (.ideKm v key) s = .fault (.noSuchAgent "function"))
      ∧ ((v ≤ 31) → exec (.ideKm v key) s = .next (s.setFn v { s.fn v with idekm := true, idekey := key }))
      ∧ ((v = 0 ∨ 31 < v) → exec (.tdispLock v) s = .fault (.noSuchAgent "function") ∧ exec (.tdispRun v) s = .fault (.noSuchAgent "function"))
      ∧ (v ≠ 0 → v ≤ 31 →
          exec (.tdispLock v) s = .next (if (s.fn v).tdisp = 0 then s.setFn v { s.fn v with tdisp := 1 } else s)
          ∧ exec (.tdispRun v) s = .next (if (s.fn v).tdisp = 1 then s.setFn v { s.fn v with tdisp := 2 } else s))
      ∧ ((255 < c ∨ 11 < e ∨ s.locked C.vf = true ∨ ∃ r ∈ s.regions, r.2.ctx = c ∧ r.2.state ≠ 0) → exec (.peerEntryWrite c e v) s = .next s)
      ∧ (c ≤ 255 → e ≤ 11 → s.locked C.vf = false → (∀ r ∈ s.regions, r.2.ctx = c → r.2.state = 0) →
          exec (.peerEntryWrite c e v) s =
            .next ((s.setCtx c { C with peers := tset C.peers e (BitVec.ofNat 64 (v % 32 + v / 256 % 256 * 256)) }).send "pair" [v % 16, c, v / 256 % 256]))
      ∧ (bitN p 4 = true → p % 16 < 12 → (s.link (p % 16)).carries = true →
          exec (.peerPairConfirm c e) s = .next (s.setCtx c { C with peers := tset C.peers e (BitVec.ofNat 64 p ||| 32) }))
      ∧ ((bitN p 4 = false ∨ 12 ≤ p % 16 ∨ (s.link (p % 16)).carries = false) → exec (.peerPairConfirm c e) s = .next s)
      ∧ ((11 < i ∨ L.state ≠ 0) → exec (.peeridWrite i id) s = .next s)
      ∧ (i ≤ 11 → L.state = 0 → exec (.peeridWrite i id) s = .next { s with hub := { s.hub with peerid := tset s.hub.peerid i id } })
      ∧ ∃ u, exec (.remoteInvalidation i c oid first count) s = .next u
          ∧ ((s.flying i c oid = [] ∨ ∀ x ∈ L.cache, x.covered c oid first count = false) →
              u.outbox = s.outbox ++ [⟨"invalidated", [i, c, oid, first, count]⟩])
          ∧ (s.flying i c oid ≠ [] → (∃ x ∈ L.cache, x.covered c oid first count = true) → u.outbox = s.outbox
              ∧ (u.link i).rinv = L.rinv ++ [((c, oid, first, count), s.flying i c oid)])
          ∧ ∀ x, x ∈ (u.link i).cache ↔ x ∈ L.cache ∧ ¬ (x.ctx = c ∧ x.oid = oid ∧ x.frame < first + count ∧ first < x.frame + x.run)

/-- R296, R298, R300 (Table 118): a load's check that ends with an image that is well formed makes the slot Measured with its digest and extends the
context's chain; an image that is not, or that cannot be read, leaves the slot Empty; the Sorrel that waited is told. R337: a host's `SWCMD` with `GO`
set registers a waiter on a signal its context owns, unless the value has been reached or 1,024 waiters are registered; a handle it does not own is
guilt. That an image with a byte under an uncorrectable error cannot be read is assumption 24; that `SWCMD` of an interface without a context does
nothing, and that a full waiter store is reported before the comparison, is assumption 31. -/
def Obligations.LoadChecksAndHostWaits : Prop :=
  ∀ (s : State) (c sl v i x : Nat),
    let X := s.slotOf c sl
    let h := x % 4096
    let w := x / 2 ^ 16 % 2 ^ 11
    (X.state ≠ 1 → exec (.ksldCheckEnd c sl) s = .next s)
      ∧ (∀ oid n d ra rb, X.state = 1 → X.loading = [oid, n, d, ra, rb] → s.objBytes c oid 0 n = none → ∃ u,
          exec (.ksldCheckEnd c sl) s = .next u ∧ u.slotOf c sl = {} ∧ (u.ctx c).chain = (s.ctx c).chain ∧ u.tiles = s.tiles)
      ∧ (∀ oid n d ra rb bs, X.state = 1 → X.loading = [oid, n, d, ra, rb] → d < 3 → s.objBytes c oid 0 n = some bs →
          (imgOk (ofBytes 0 bs) n = false → ∃ u, exec (.ksldCheckEnd c sl) s = .next u ∧ u.slotOf c sl = {}
            ∧ (u.ctx c).chain = (s.ctx c).chain)
          ∧ (imgOk (ofBytes 0 bs) n = true → ∃ u, exec (.ksldCheckEnd c sl) s = .next u
            ∧ (u.slotOf c sl).state = 2 ∧ (u.slotOf c sl).digest = sha bs ∧ (u.slotOf c sl).len = n
            ∧ (u.ctx c).chain = sha (digBytes (s.ctx c).chain ++ [1] ++ digBytes (sha bs)) ∧ (u.ctx c).chainn = (s.ctx c).chainn + 1
            ∧ ((s.die d).sorrel.hold = some (5, c * 256 + sl) → (u.die d).sorrel.hold = none)
            ∧ u.tiles = s.tiles ∧ u.dram = s.dram))
      ∧ (s.ctxOfIface v i = none → exec (.swcmd v i x) s = .next s)
      ∧ (s.ctxOfIface v i = some c → (s.ctx c).state ≠ 8 →
        (bitN x 31 = false → exec (.swcmd v i x) s = .next s)
        ∧ (bitN x 31 = true → s.owns c h = true → 1024 ≤ s.hub.waiters.length → exec (.swcmd v i x) s =
            .next (s.setFn v { s.fn v with swsts := tset (s.fn v).swsts i 3 }))
        ∧ (bitN x 31 = true → s.owns c h = true → s.hub.waiters.length < 1024 → (tget 0 (s.fn v).swt i).toNat ≤ (s.sig h).value.toNat →
            exec (.swcmd v i x) s = .next (s.setFn v { s.fn v with swsts := tset (s.fn v).swsts i 1 }))
        ∧ (bitN x 31 = true → s.owns c h = true → s.hub.waiters.length < 1024 → (s.sig h).value.toNat < (tget 0 (s.fn v).swt i).toNat → Memory.wf s.hostMem = true → ∃ u,
            exec (.swcmd v i x) s = .next u ∧ u.hub.waiters = s.hub.waiters ++ [⟨h, tget 0 (s.fn v).swt i, v, i, w, tget 0 (s.fn v).swmir i, false, c, 0⟩]
              ∧ tget 0 (u.fn v).swsts i = 0 ∧ mread u.hostMem (hostAt (tget 0 (s.fn v).pasid i) (tget 0 (s.fn v).swmir i)) 8 = leBytes 8 (s.sig h).value.toNat)
        ∧ (bitN x 31 = true → s.owns c h = false → min ((s.ctx c).guilt + 16) 0xFFFF ≤ (s.fn (s.ctx c).vf).glim → ∃ u, exec (.swcmd v i x) s = .next u ∧ tget 0 (u.fn v).swsts i = 2
            ∧ (u.ctx c).guilt = min ((s.ctx c).guilt + 16) 0xFFFF ∧ u.hub.waiters = s.hub.waiters))
end

