-- ==== Sys2Proof/Laws/Table.lean ====
section
/-! SUPPORT. Reading a table back after writing it. -/

namespace Sys2Proof.Machine

/-- A key reads what was last written to it. -/
@[simp] theorem tget_tset_self {α : Type} (d : α) (t : Tab α) (k : Nat) (v : α) : tget d (tset t k v) k = v := by
  induction t with
  | nil => simp [tset, tget]
  | cons x t ih =>
    obtain ⟨k', v'⟩ := x
    simp only [tset]
    split
    · simp [tget]
    · split
      · simp [tget]
      · rename_i h1 h2
        have : ¬ k' = k := fun h => h2 h.symm
        simp [tget, this, ih]

/-- A write leaves every other key as it was. -/
theorem tget_tset_ne {α : Type} (d : α) (t : Tab α) (v : α) {j k : Nat} (h : j ≠ k) : tget d (tset t k v) j = tget d t j := by
  induction t with
  | nil => simp [tset, tget, Ne.symm h]
  | cons x t ih =>
    obtain ⟨k', v'⟩ := x
    simp only [tset]
    split
    · simp [tget, Ne.symm h]
    · split
      · rename_i h1 h2
        subst h2
        simp [tget, Ne.symm h]
      · by_cases hj : k' = j <;> simp [tget, hj, ih]

/-- Reading after a write, by cases. -/
theorem tget_tset {α : Type} (d : α) (t : Tab α) (j k : Nat) (v : α) :
    tget d (tset t k v) j = if j = k then v else tget d t j := by
  by_cases h : j = k
  · subst h; simp
  · simp [h, tget_tset_ne d t v h]

end Sys2Proof.Machine
end

