-- ==== Sys2Proof/Laws/Memory.lean ====
section
/-! SUPPORT. Memories: reading after writing, and the canonical form that every operation keeps. -/

namespace Sys2Proof.Machine

/-- Every address of a canonical memory is at least `n`. -/
def Memory.above (n : Nat) (m : Memory) : Prop := ∀ c ∈ m, n ≤ c.1

theorem Memory.wf_tail {c : Host.Cell} {m : Memory} (h : Memory.wf (c :: m) = true) : Memory.wf m = true := by
  cases m with
  | nil => rfl
  | cons d m => simp only [Memory.wf, Bool.and_eq_true] at h; exact h.2

theorem Memory.wf_head {c : Host.Cell} {m : Memory} (h : Memory.wf (c :: m) = true) : c.2 ≠ unlisted := by
  cases m with
  | nil => simpa [Memory.wf] using h
  | cons d m => simp only [Memory.wf, Bool.and_eq_true, bne_iff_ne] at h; exact h.1.1

/-- The rest of a canonical memory lies above its first address. -/
theorem Memory.wf_above {c : Host.Cell} {m : Memory} (h : Memory.wf (c :: m) = true) : Memory.above (c.1 + 1) m := by
  induction m generalizing c with
  | nil => intro x hx; cases hx
  | cons d m ih =>
    intro x hx
    have h1 : c.1 < d.1 := by
      simp only [Memory.wf, Bool.and_eq_true, decide_eq_true_eq] at h; exact h.1.2
    cases hx with
    | head => omega
    | tail _ hx =>
      have := ih (Memory.wf_tail h) x hx
      omega

/-- A listed byte below a canonical memory makes a canonical memory. -/
theorem Memory.wf_cons {c : Host.Cell} {m : Memory} (hc : c.2 ≠ unlisted) (hm : Memory.wf m = true)
    (ha : Memory.above (c.1 + 1) m) : Memory.wf (c :: m) = true := by
  cases m with
  | nil => simpa [Memory.wf] using hc
  | cons d m =>
    have := ha d (by simp)
    simp only [Memory.wf, Bool.and_eq_true, decide_eq_true_eq, bne_iff_ne]
    exact ⟨⟨hc, by omega⟩, hm⟩

theorem Memory.above_mono {n k : Nat} {m : Memory} (h : Memory.above n m) (hk : k ≤ n) : Memory.above k m :=
  fun c hc => Nat.le_trans hk (h c hc)

theorem Memory.mset_above {n : Nat} {m : Memory} {a : Nat} {b : Byte} (h : Memory.above n m) (ha : n ≤ a) :
    Memory.above n (mset m a b) := by
  induction m with
  | nil =>
    unfold mset; split
    · intro c hc; cases hc
    · intro c hc; simp at hc; subst hc; exact ha
  | cons x m ih =>
    obtain ⟨a', b'⟩ := x
    have hm : Memory.above n m := fun c hc => h c (by simp [hc])
    have hx : n ≤ a' := h (a', b') (by simp)
    unfold mset
    split
    · split
      · exact h
      · intro c hc
        rcases List.mem_cons.mp hc with rfl | hc
        · exact ha
        · exact h c hc
    · split
      · split
        · exact hm
        · intro c hc
          rcases List.mem_cons.mp hc with rfl | hc
          · exact ha
          · exact hm c hc
      · intro c hc
        rcases List.mem_cons.mp hc with rfl | hc
        · exact hx
        · exact ih hm c hc

/-- Writing a byte keeps the canonical form. -/
theorem Memory.wf_mset {m : Memory} (a : Nat) (b : Byte) (h : Memory.wf m = true) : Memory.wf (mset m a b) = true := by
  induction m with
  | nil => unfold mset; split <;> simp_all [Memory.wf]
  | cons x m ih =>
    obtain ⟨a', b'⟩ := x
    have hm := Memory.wf_tail h
    have ha := Memory.wf_above h
    unfold mset
    split
    · split
      · exact h
      · rename_i h1 h2
        refine Memory.wf_cons h2 h ?_
        intro c hc
        rcases List.mem_cons.mp hc with rfl | hc
        · exact h1
        · have := ha c hc; simp at this ⊢; omega
    · split
      · rename_i h1 h2
        subst h2
        split
        · exact hm
        · rename_i h3
          exact Memory.wf_cons h3 hm ha
      · rename_i h1 h2
        exact Memory.wf_cons (Memory.wf_head h) (ih hm) (Memory.mset_above ha (by simp; omega))

/-- Writing bytes keeps the canonical form. -/
theorem Memory.wf_mwrite (bs : List Byte) {m : Memory} (a : Nat) (h : Memory.wf m = true) : Memory.wf (mwrite m a bs) = true := by
  induction bs generalizing m a with
  | nil => exact h
  | cons b bs ih => exact ih (a + 1) (Memory.wf_mset a b h)

/-- An address below a memory is not listed. -/
theorem Memory.mget_below {n a : Nat} {m : Memory} (h : Memory.above n m) (ha : a < n) : mget m a = unlisted := by
  induction m with
  | nil => rfl
  | cons x m ih =>
    obtain ⟨a', b'⟩ := x
    have h1 : n ≤ a' := h (a', b') (by simp)
    have h2 : a' ≠ a := by omega
    simp only [mget, h2, if_false]
    exact ih fun c hc => h c (by simp [hc])

/-- The byte written is the byte read. -/
theorem mget_mset_self {m : Memory} (a : Nat) (b : Byte) (h : Memory.wf m = true) : mget (mset m a b) a = b := by
  induction m with
  | nil => unfold mset; split <;> simp_all [mget]
  | cons x m ih =>
    obtain ⟨a', b'⟩ := x
    have ha := Memory.wf_above h
    unfold mset
    split
    · split
      · rename_i h1 h2
        have : a' ≠ a := by omega
        simp only [mget, this, if_false]
        rw [Memory.mget_below ha (by simp; omega), h2]
      · simp [mget]
    · split
      · rename_i h1 h2
        subst h2
        split
        · rename_i h3
          rw [Memory.mget_below ha (by simp), h3]
        · simp [mget]
      · rename_i h1 h2
        have : a' ≠ a := fun e => h2 e.symm
        simp only [mget, this, if_false]
        exact ih (Memory.wf_tail h)

/-- Every other byte reads as before. -/
theorem mget_mset_ne {m : Memory} {a x : Nat} (b : Byte) (hx : x ≠ a) : mget (mset m a b) x = mget m x := by
  induction m with
  | nil => unfold mset; split <;> simp [mget, Ne.symm hx]
  | cons y m ih =>
    obtain ⟨a', b'⟩ := y
    unfold mset
    split
    · split
      · rfl
      · simp [mget, Ne.symm hx]
    · split
      · rename_i h1 h2
        subst h2
        split
        · simp [mget, Ne.symm hx]
        · simp [mget, Ne.symm hx]
      · by_cases e : a' = x
        · simp [mget, e]
        · simp [mget, e, ih]

/-- Bytes outside a write read as before. -/
theorem mget_mwrite_out (bs : List Byte) {m : Memory} {a x : Nat} (h : x < a ∨ a + bs.length ≤ x) :
    mget (mwrite m a bs) x = mget m x := by
  induction bs generalizing m a with
  | nil => rfl
  | cons b bs ih =>
    have h' : x < a ∨ a + (bs.length + 1) ≤ x := by simpa using h
    simp only [mwrite]
    rw [ih (by omega), mget_mset_ne b (by omega)]

/-- Bytes of a write read back. -/
theorem mget_mwrite_in (bs : List Byte) {m : Memory} (a i : Nat) (hm : Memory.wf m = true) (h : i < bs.length) :
    mget (mwrite m a bs) (a + i) = bs[i] := by
  induction bs generalizing m a i with
  | nil => simp at h
  | cons b bs ih =>
    simp only [mwrite]
    cases i with
    | zero =>
      show mget (mwrite (mset m a b) (a + 1) bs) a = b
      rw [mget_mwrite_out bs (Or.inl (Nat.lt_succ_self a)), mget_mset_self a b hm]
    | succ i =>
      have h' : i < bs.length := by simpa using h
      have := ih (a + 1) i (Memory.wf_mset a b hm) h'
      rw [show a + (i + 1) = a + 1 + i by omega, this]; rfl

/-- A write reads back whole. -/
theorem mread_mwrite (bs : List Byte) {m : Memory} (a : Nat) (hm : Memory.wf m = true) :
    mread (mwrite m a bs) a bs.length = bs := by
  apply List.ext_getElem
  · simp [mread]
  · intro i h1 h2
    simp only [mread, List.getElem_map, List.getElem_range]
    exact mget_mwrite_in bs a i hm h2

/-- A read beside a write is as before. -/
theorem mread_mwrite_out (bs : List Byte) {m : Memory} {a x n : Nat} (h : x + n ≤ a ∨ a + bs.length ≤ x) :
    mread (mwrite m a bs) x n = mread m x n := by
  simp only [mread]
  apply List.map_congr_left
  intro i hi
  have := List.mem_range.mp hi
  exact mget_mwrite_out bs (by omega)

end Sys2Proof.Machine
end

