-- ==== Sys2Proof/Laws/Canonical.lean ====
section
/-! SUPPORT. The canonical form of memories as an order, and that the operations on whole ranges keep it. -/

namespace Sys2Proof.Machine

/-- The canonical form: addresses rise and no entry is what an unlisted address reads as. -/
theorem Memory.wf_iff (m : Memory) :
    Memory.wf m = true ↔ m.Pairwise (fun x y => x.1 < y.1) ∧ ∀ c ∈ m, c.2 ≠ unlisted := by
  induction m with
  | nil => simp [Memory.wf]
  | cons c m ih =>
    constructor
    · intro h
      obtain ⟨hp, hn⟩ := ih.mp (Memory.wf_tail h)
      refine ⟨List.pairwise_cons.mpr ⟨fun d hd => ?_, hp⟩, ?_⟩
      · have := Memory.wf_above h d hd
        omega
      · intro d hd
        rcases List.mem_cons.mp hd with rfl | hd
        · exact Memory.wf_head h
        · exact hn d hd
    · rintro ⟨hp, hn⟩
      obtain ⟨h1, h2⟩ := List.pairwise_cons.mp hp
      refine Memory.wf_cons (hn c (by simp)) (ih.mpr ⟨h2, fun d hd => hn d (by simp [hd])⟩) fun d hd => ?_
      have := h1 d hd
      omega

theorem takeWhile_lt {m : Memory} {lo : Nat} : ∀ c ∈ m.takeWhile (fun c => decide (c.1 < lo)), c.1 < lo := by
  intro c hc
  simpa using List.mem_takeWhile_imp hc

theorem dropWhile_ge {m : Memory} {hi : Nat} (h : m.Pairwise fun x y => x.1 < y.1) :
    ∀ c ∈ m.dropWhile (fun c => decide (c.1 < hi)), hi ≤ c.1 := by
  induction m with
  | nil => simp
  | cons d m ih =>
    obtain ⟨h1, h2⟩ := List.pairwise_cons.mp h
    intro c hc
    by_cases hd : d.1 < hi
    · rw [List.dropWhile_cons_of_pos (by simpa using hd)] at hc
      exact ih h2 c hc
    · rw [List.dropWhile_cons_of_neg (by simpa using hd)] at hc
      rcases List.mem_cons.mp hc with rfl | hc
      · omega
      · have := h1 c hc
        omega

/-- Replacing a range by canonical cells of that range keeps the form. -/
theorem Memory.wf_blit {m cells : Memory} {lo n : Nat} (hm : Memory.wf m = true) (hc : Memory.wf cells = true)
    (hr : ∀ c ∈ cells, lo ≤ c.1 ∧ c.1 < lo + n) : Memory.wf (blit m lo n cells) = true := by
  obtain ⟨hp, hn⟩ := (Memory.wf_iff m).mp hm
  obtain ⟨cp, cn⟩ := (Memory.wf_iff cells).mp hc
  refine (Memory.wf_iff _).mpr ⟨?_, ?_⟩
  · unfold blit
    refine List.pairwise_append.mpr ⟨List.pairwise_append.mpr ⟨hp.sublist (List.takeWhile_sublist _), cp, ?_⟩,
      hp.sublist (List.dropWhile_sublist _), ?_⟩
    · intro a ha b hb
      have := takeWhile_lt a ha
      have := (hr b hb).1
      omega
    · intro a ha b hb
      have hb := dropWhile_ge hp b hb
      rcases List.mem_append.mp ha with ha | ha
      · have := takeWhile_lt a ha
        omega
      · have := (hr a ha).2
        omega
  · intro c h
    simp only [blit, List.mem_append] at h
    rcases h with (h | h) | h
    · exact hn c ((List.takeWhile_sublist _).subset h)
    · exact cn c h
    · exact hn c ((List.dropWhile_sublist _).subset h)

/-- The cells of a range lie in the range they are moved to. -/
theorem cut_range {m : Memory} {src n dst : Nat} : ∀ c ∈ cut m src n dst, dst ≤ c.1 ∧ c.1 < dst + n := by
  intro c hc
  simp only [cut, List.mem_map, List.mem_filter, Bool.and_eq_true, decide_eq_true_eq] at hc
  obtain ⟨d, ⟨_, h1, h2⟩, rfl⟩ := hc
  simp only
  omega

/-- Moving a range keeps the form. -/
theorem Memory.wf_cut {m : Memory} (src n dst : Nat) (hm : Memory.wf m = true) : Memory.wf (cut m src n dst) = true := by
  obtain ⟨hp, hn⟩ := (Memory.wf_iff m).mp hm
  refine (Memory.wf_iff _).mpr ⟨?_, ?_⟩
  · unfold cut
    rw [List.pairwise_map]
    have h := hp.sublist (List.filter_sublist (p := fun c => decide (src ≤ c.1) && decide (c.1 < src + n)))
    refine List.Pairwise.imp_of_mem ?_ h
    intro a b ha hb hab
    simp only [List.mem_filter, Bool.and_eq_true, decide_eq_true_eq] at ha hb
    simp only
    omega
  · intro c hc
    simp only [cut, List.mem_map, List.mem_filter] at hc
    obtain ⟨d, ⟨hd, _⟩, rfl⟩ := hc
    exact hn d hd

/-- Bytes as cells lie where they are put. -/
theorem ofBytes_range (l : List Byte) (a : Nat) : ∀ c ∈ ofBytes a l, a ≤ c.1 ∧ c.1 < a + l.length := by
  induction l generalizing a with
  | nil => simp [ofBytes]
  | cons b l ih =>
    intro c hc
    unfold ofBytes at hc
    split at hc
    · have := ih (a + 1) c hc
      simp only [List.length_cons]
      omega
    · rcases List.mem_cons.mp hc with rfl | hc
      · simp
      · have := ih (a + 1) c hc
        simp only [List.length_cons]
        omega

/-- Bytes as cells are in the form. -/
theorem Memory.wf_ofBytes (l : List Byte) (a : Nat) : Memory.wf (ofBytes a l) = true := by
  induction l generalizing a with
  | nil => rfl
  | cons b l ih =>
    unfold ofBytes
    split
    · exact ih (a + 1)
    · rename_i h
      exact Memory.wf_cons h (ih (a + 1)) fun c hc => (ofBytes_range l (a + 1) c hc).1

/-- Two canonical memories, the second above the first. -/
theorem Memory.wf_append {m n : Memory} (hm : Memory.wf m = true) (hn : Memory.wf n = true) (h : ∀ a ∈ m, ∀ b ∈ n, a.1 < b.1) :
    Memory.wf (m ++ n) = true := by
  obtain ⟨mp, mn⟩ := (Memory.wf_iff m).mp hm
  obtain ⟨np, nn⟩ := (Memory.wf_iff n).mp hn
  exact (Memory.wf_iff _).mpr ⟨List.pairwise_append.mpr ⟨mp, np, h⟩, fun c hc => (List.mem_append.mp hc).elim (mn c) (nn c)⟩

/-- Every write to DRAM by addresses keeps the form. -/
theorem State.wf_dramWr {s : State} (a : Nat) (bs : List Byte) (h : Memory.wf s.dram = true) : Memory.wf (s.dramWr a bs).dram = true :=
  Memory.wf_mwrite bs a h

end Sys2Proof.Machine
end

