-- ==== Sys2Proof/Laws/PerInstr.lean ====
section
/-! SUPPORT. Per instruction: the words it encodes to fit in 64 bits (R84, R91, R93). -/

namespace Sys2Proof.Laws

theorem bit01_lt (b : Bool) : bit01 b < 2 := by cases b <;> simp [bit01]

/-- The fields above bit 48 of a word without token bits. -/
theorem encP_lt {c o : Nat} (p : BitVec 4) {x : Nat} (hc : c < 8) (ho : o < 32) (hx : x < 2 ^ 48) : encP c o p + x < 2 ^ 64 := by
  have := p.isLt
  simp only [encP, Nat.reducePow] at *
  omega

/-- The fields above bit 48 of a queued word. -/
theorem encQ_lt {c o : Nat} (h : Hdr) {x : Nat} (hc : c < 8) (ho : o < 32) (hx : x < 2 ^ 48) : encQ c o h + x < 2 ^ 64 := by
  have := h.pred.isLt
  have := bit01_lt h.popl
  have := bit01_lt h.popr
  have := bit01_lt h.pshl
  have := bit01_lt h.pshr
  simp only [encQ, Nat.reducePow] at *
  omega

/-- Format C fills bits [47:0]. -/
theorem encC_lt (f : FmtC) : encC f < 2 ^ 48 := by
  have := f.a.isLt
  have := f.b.isLt
  have := f.k4.isLt
  have := f.imm.isLt
  simp only [encC, Nat.reducePow] at *
  omega

/-- Format S fills bits [47:0]. -/
theorem encS_lt (f : FmtS) : encS f < 2 ^ 48 := by
  have := f.d.isLt
  have := f.a.isLt
  have := f.b.isLt
  have := f.c.isLt
  have := f.k12.isLt
  have := f.rsvd.isLt
  have := f.fn.isLt
  simp only [encS, Nat.reducePow] at *
  omega

/-- Format SI fills bits [47:0]. -/
theorem encSI_lt (f : FmtSI) : encSI f < 2 ^ 48 := by
  have := f.d.isLt
  have := f.a.isLt
  have := f.k4.isLt
  have := f.imm.isLt
  simp only [encSI, Nat.reducePow] at *
  omega

/-- Format V fills bits [47:0]. -/
theorem encV_lt (f : FmtV) : encV f < 2 ^ 48 := by
  have := f.vd.isLt
  have := f.va.isLt
  have := f.vb.isLt
  have := f.vc.isLt
  have := f.ty.isLt
  have := f.rm.isLt
  have := f.mask.isLt
  have := f.of_.isLt
  have := f.fn.isLt
  simp only [encV, Nat.reducePow] at *
  omega

/-- Format VX fills bits [47:0]. -/
theorem encVX_lt (f : FmtVX) : encVX f < 2 ^ 48 := by
  have := f.vd.isLt
  have := f.va.isLt
  have := f.vb.isLt
  have := f.dty.isLt
  have := f.rsvd.isLt
  have := f.ty.isLt
  have := f.rm.isLt
  have := f.mask.isLt
  have := f.of_.isLt
  have := f.fn.isLt
  have := bit01_lt f.ovp
  simp only [encVX, Nat.reducePow] at *
  omega

/-- Format M fills bits [47:0]. -/
theorem encM_lt (f : FmtM) : encM f < 2 ^ 48 := by
  have := f.ds.isLt
  have := f.cp.isLt
  have := f.sx.isLt
  have := f.mask.isLt
  have := f.sc.isLt
  have := f.off.isLt
  have := f.sz.isLt
  simp only [encM, Nat.reducePow] at *
  omega

/-- Format MG fills bits [47:0]. -/
theorem encMG_lt (f : FmtMG) : encMG f < 2 ^ 48 := by
  have := f.ds.isLt
  have := f.cp.isLt
  have := f.vx.isLt
  have := f.mask.isLt
  have := f.off.isLt
  simp only [encMG, Nat.reducePow] at *
  omega

/-- Format F fills bits [47:0]. -/
theorem encF_lt (f : FmtF) : encF f < 2 ^ 48 := by
  have := f.mkn.isLt
  have := f.scp.isLt
  have := f.all.isLt
  have := f.tix.isLt
  have := f.rsvd.isLt
  simp only [encF, Nat.reducePow] at *
  omega

/-- Format Y fills bits [47:0]. -/
theorem encY_lt (f : FmtY) : encY f < 2 ^ 48 := by
  have := f.qn.isLt
  have := f.bh.isLt
  have := f.sem.isLt
  have := f.k8.isLt
  have := f.sd.isLt
  have := f.rsvd.isLt
  simp only [encY, Nat.reducePow] at *
  omega

/-- Format Z fills bits [47:0]. -/
theorem encZ_lt (f : FmtZ) : encZ f < 2 ^ 48 := by
  have := f.a.isLt
  have := f.b.isLt
  have := f.ca.isLt
  have := f.imm.isLt
  simp only [encZ, Nat.reducePow] at *
  omega

/-- Format E fills bits [47:0]. -/
theorem encE_lt (f : FmtE) : encE f < 2 ^ 48 := by
  have := f.ws.isLt
  have := f.wt.isLt
  have := f.ss.isLt
  have := f.si.isLt
  have := f.es.isLt
  simp only [encE, Nat.reducePow] at *
  omega

namespace EncodingFits

/-- The words of an instruction fit in 64 bits. An event has none. -/
def Statement (i : Instr) : Prop := ∀ w ∈ words i, w.1 < 2 ^ 64 ∧ w.2 < 2 ^ 64

/-- A front-end word. -/
theorem front {i : Instr} {c o x : Nat} {p : BitVec 4} (h : words i = some (encP c o p + x, 0)) (hc : c < 8) (ho : o < 32) (hx : x < 2 ^ 48) :
    Statement i := by
  intro w hw
  rw [h] at hw
  obtain rfl := Option.some.inj hw
  exact ⟨encP_lt p hc ho hx, by simp⟩

/-- A queued word. -/
theorem queued {i : Instr} {c o x : Nat} {h : Hdr} (e : words i = some (encQ c o h + x, 0)) (hc : c < 8) (ho : o < 32) (hx : x < 2 ^ 48) :
    Statement i := by
  intro w hw
  rw [e] at hw
  obtain rfl := Option.some.inj hw
  exact ⟨encQ_lt h hc ho hx, by simp⟩

/-- An engine command with its operand. -/
theorem engine {i : Instr} {c o : Nat} {h : Hdr} {f : FmtE} (e : words i = some (encQ c o h + encE f, f.w1.toNat)) (hc : c < 8) (ho : o < 32) :
    Statement i := by
  intro w hw
  rw [e] at hw
  obtain rfl := Option.some.inj hw
  exact ⟨encQ_lt h hc ho (encE_lt f), f.w1.isLt⟩

/-- An event. -/
theorem event {i : Instr} (e : words i = none) : Statement i := by
  intro w hw
  rw [e] at hw
  cases hw

theorem nop (p : BitVec 4) (f : FmtC) : Statement (.nop p f) := front (Eq.refl _) (by decide) (by decide) (encC_lt f)
theorem bra (p : BitVec 4) (f : FmtC) : Statement (.bra p f) := front (Eq.refl _) (by decide) (by decide) (encC_lt f)
theorem brp (p : BitVec 4) (f : FmtC) : Statement (.brp p f) := front (Eq.refl _) (by decide) (by decide) (encC_lt f)
theorem jmpc (p : BitVec 4) (f : FmtC) : Statement (.jmpc p f) := front (Eq.refl _) (by decide) (by decide) (encC_lt f)
theorem call (p : BitVec 4) (f : FmtC) : Statement (.call p f) := front (Eq.refl _) (by decide) (by decide) (encC_lt f)
theorem ret (p : BitVec 4) (f : FmtC) : Statement (.ret p f) := front (Eq.refl _) (by decide) (by decide) (encC_lt f)
theorem loop (p : BitVec 4) (f : FmtC) : Statement (.loop p f) := front (Eq.refl _) (by decide) (by decide) (encC_lt f)
theorem lend (p : BitVec 4) (f : FmtC) : Statement (.lend p f) := front (Eq.refl _) (by decide) (by decide) (encC_lt f)
theorem lstg (p : BitVec 4) (f : FmtC) : Statement (.lstg p f) := front (Eq.refl _) (by decide) (by decide) (encC_lt f)
theorem lbrk (p : BitVec 4) (f : FmtC) : Statement (.lbrk p f) := front (Eq.refl _) (by decide) (by decide) (encC_lt f)
theorem stepw (p : BitVec 4) (f : FmtC) : Statement (.stepw p f) := front (Eq.refl _) (by decide) (by decide) (encC_lt f)
theorem halt (p : BitVec 4) (f : FmtC) : Statement (.halt p f) := front (Eq.refl _) (by decide) (by decide) (encC_lt f)
theorem add (p : BitVec 4) (f : FmtS) : Statement (.add p f) := front (Eq.refl _) (by decide) (by decide) (encS_lt f)
theorem sub (p : BitVec 4) (f : FmtS) : Statement (.sub p f) := front (Eq.refl _) (by decide) (by decide) (encS_lt f)
theorem mul (p : BitVec 4) (f : FmtS) : Statement (.mul p f) := front (Eq.refl _) (by decide) (by decide) (encS_lt f)
theorem mulhs (p : BitVec 4) (f : FmtS) : Statement (.mulhs p f) := front (Eq.refl _) (by decide) (by decide) (encS_lt f)
theorem mulhu (p : BitVec 4) (f : FmtS) : Statement (.mulhu p f) := front (Eq.refl _) (by decide) (by decide) (encS_lt f)
theorem divs (p : BitVec 4) (f : FmtS) : Statement (.divs p f) := front (Eq.refl _) (by decide) (by decide) (encS_lt f)
theorem divu (p : BitVec 4) (f : FmtS) : Statement (.divu p f) := front (Eq.refl _) (by decide) (by decide) (encS_lt f)
theorem rems (p : BitVec 4) (f : FmtS) : Statement (.rems p f) := front (Eq.refl _) (by decide) (by decide) (encS_lt f)
theorem remu (p : BitVec 4) (f : FmtS) : Statement (.remu p f) := front (Eq.refl _) (by decide) (by decide) (encS_lt f)
theorem and (p : BitVec 4) (f : FmtS) : Statement (.and p f) := front (Eq.refl _) (by decide) (by decide) (encS_lt f)
theorem or (p : BitVec 4) (f : FmtS) : Statement (.or p f) := front (Eq.refl _) (by decide) (by decide) (encS_lt f)
theorem xor (p : BitVec 4) (f : FmtS) : Statement (.xor p f) := front (Eq.refl _) (by decide) (by decide) (encS_lt f)
theorem andn (p : BitVec 4) (f : FmtS) : Statement (.andn p f) := front (Eq.refl _) (by decide) (by decide) (encS_lt f)
theorem shl (p : BitVec 4) (f : FmtS) : Statement (.shl p f) := front (Eq.refl _) (by decide) (by decide) (encS_lt f)
theorem shr (p : BitVec 4) (f : FmtS) : Statement (.shr p f) := front (Eq.refl _) (by decide) (by decide) (encS_lt f)
theorem sar (p : BitVec 4) (f : FmtS) : Statement (.sar p f) := front (Eq.refl _) (by decide) (by decide) (encS_lt f)
theorem rotr (p : BitVec 4) (f : FmtS) : Statement (.rotr p f) := front (Eq.refl _) (by decide) (by decide) (encS_lt f)
theorem min (p : BitVec 4) (f : FmtS) : Statement (.min p f) := front (Eq.refl _) (by decide) (by decide) (encS_lt f)
theorem max (p : BitVec 4) (f : FmtS) : Statement (.max p f) := front (Eq.refl _) (by decide) (by decide) (encS_lt f)
theorem minu (p : BitVec 4) (f : FmtS) : Statement (.minu p f) := front (Eq.refl _) (by decide) (by decide) (encS_lt f)
theorem maxu (p : BitVec 4) (f : FmtS) : Statement (.maxu p f) := front (Eq.refl _) (by decide) (by decide) (encS_lt f)
theorem popc (p : BitVec 4) (f : FmtS) : Statement (.popc p f) := front (Eq.refl _) (by decide) (by decide) (encS_lt f)
theorem clz (p : BitVec 4) (f : FmtS) : Statement (.clz p f) := front (Eq.refl _) (by decide) (by decide) (encS_lt f)
theorem ctz (p : BitVec 4) (f : FmtS) : Statement (.ctz p f) := front (Eq.refl _) (by decide) (by decide) (encS_lt f)
theorem bswp (p : BitVec 4) (f : FmtS) : Statement (.bswp p f) := front (Eq.refl _) (by decide) (by decide) (encS_lt f)
theorem addi (p : BitVec 4) (f : FmtSI) : Statement (.addi p f) := front (Eq.refl _) (by decide) (by decide) (encSI_lt f)
theorem li (p : BitVec 4) (f : FmtSI) : Statement (.li p f) := front (Eq.refl _) (by decide) (by decide) (encSI_lt f)
theorem lih (p : BitVec 4) (f : FmtSI) : Statement (.lih p f) := front (Eq.refl _) (by decide) (by decide) (encSI_lt f)
theorem sel (p : BitVec 4) (f : FmtS) : Statement (.sel p f) := front (Eq.refl _) (by decide) (by decide) (encS_lt f)
theorem cmp (p : BitVec 4) (f : FmtS) : Statement (.cmp p f) := front (Eq.refl _) (by decide) (by decide) (encS_lt f)
theorem cmpi (p : BitVec 4) (f : FmtSI) : Statement (.cmpi p f) := front (Eq.refl _) (by decide) (by decide) (encSI_lt f)
theorem pand (p : BitVec 4) (f : FmtS) : Statement (.pand p f) := front (Eq.refl _) (by decide) (by decide) (encS_lt f)
theorem por (p : BitVec 4) (f : FmtS) : Statement (.por p f) := front (Eq.refl _) (by decide) (by decide) (encS_lt f)
theorem pxor (p : BitVec 4) (f : FmtS) : Statement (.pxor p f) := front (Eq.refl _) (by decide) (by decide) (encS_lt f)
theorem pnot (p : BitVec 4) (f : FmtS) : Statement (.pnot p f) := front (Eq.refl _) (by decide) (by decide) (encS_lt f)
theorem extb (p : BitVec 4) (f : FmtS) : Statement (.extb p f) := front (Eq.refl _) (by decide) (by decide) (encS_lt f)
theorem insb (p : BitVec 4) (f : FmtS) : Statement (.insb p f) := front (Eq.refl _) (by decide) (by decide) (encS_lt f)
theorem mfsr (p : BitVec 4) (f : FmtS) : Statement (.mfsr p f) := front (Eq.refl _) (by decide) (by decide) (encS_lt f)
theorem mtsr (p : BitVec 4) (f : FmtS) : Statement (.mtsr p f) := front (Eq.refl _) (by decide) (by decide) (encS_lt f)
theorem rlr (p : BitVec 4) (f : FmtS) : Statement (.rlr p f) := front (Eq.refl _) (by decide) (by decide) (encS_lt f)
theorem cmov (p : BitVec 4) (f : FmtS) : Statement (.cmov p f) := front (Eq.refl _) (by decide) (by decide) (encS_lt f)
theorem cder (p : BitVec 4) (f : FmtS) : Statement (.cder p f) := front (Eq.refl _) (by decide) (by decide) (encS_lt f)
theorem cseto (p : BitVec 4) (f : FmtS) : Statement (.cseto p f) := front (Eq.refl _) (by decide) (by decide) (encS_lt f)
theorem cinc (p : BitVec 4) (f : FmtS) : Statement (.cinc p f) := front (Eq.refl _) (by decide) (by decide) (encS_lt f)
theorem crgt (p : BitVec 4) (f : FmtS) : Statement (.crgt p f) := front (Eq.refl _) (by decide) (by decide) (encS_lt f)
theorem cget (p : BitVec 4) (f : FmtS) : Statement (.cget p f) := front (Eq.refl _) (by decide) (by decide) (encS_lt f)
theorem cchk (p : BitVec 4) (f : FmtS) : Statement (.cchk p f) := front (Eq.refl _) (by decide) (by decide) (encS_lt f)
theorem cnul (p : BitVec 4) (f : FmtS) : Statement (.cnul p f) := front (Eq.refl _) (by decide) (by decide) (encS_lt f)
theorem vadd (h : Hdr) (f : FmtV) : Statement (.vadd h f) := queued (Eq.refl _) (by decide) (by decide) (encV_lt f)
theorem vsub (h : Hdr) (f : FmtV) : Statement (.vsub h f) := queued (Eq.refl _) (by decide) (by decide) (encV_lt f)
theorem vmul (h : Hdr) (f : FmtV) : Statement (.vmul h f) := queued (Eq.refl _) (by decide) (by decide) (encV_lt f)
theorem vfma (h : Hdr) (f : FmtV) : Statement (.vfma h f) := queued (Eq.refl _) (by decide) (by decide) (encV_lt f)
theorem vfms (h : Hdr) (f : FmtV) : Statement (.vfms h f) := queued (Eq.refl _) (by decide) (by decide) (encV_lt f)
theorem vfnma (h : Hdr) (f : FmtV) : Statement (.vfnma h f) := queued (Eq.refl _) (by decide) (by decide) (encV_lt f)
theorem vmin (h : Hdr) (f : FmtV) : Statement (.vmin h f) := queued (Eq.refl _) (by decide) (by decide) (encV_lt f)
theorem vmax (h : Hdr) (f : FmtV) : Statement (.vmax h f) := queued (Eq.refl _) (by decide) (by decide) (encV_lt f)
theorem vabs (h : Hdr) (f : FmtV) : Statement (.vabs h f) := queued (Eq.refl _) (by decide) (by decide) (encV_lt f)
theorem vneg (h : Hdr) (f : FmtV) : Statement (.vneg h f) := queued (Eq.refl _) (by decide) (by decide) (encV_lt f)
theorem vcps (h : Hdr) (f : FmtV) : Statement (.vcps h f) := queued (Eq.refl _) (by decide) (by decide) (encV_lt f)
theorem vdp2 (h : Hdr) (f : FmtV) : Statement (.vdp2 h f) := queued (Eq.refl _) (by decide) (by decide) (encV_lt f)
theorem vrcp (h : Hdr) (f : FmtV) : Statement (.vrcp h f) := queued (Eq.refl _) (by decide) (by decide) (encV_lt f)
theorem vrsq (h : Hdr) (f : FmtV) : Statement (.vrsq h f) := queued (Eq.refl _) (by decide) (by decide) (encV_lt f)
theorem vsqr (h : Hdr) (f : FmtV) : Statement (.vsqr h f) := queued (Eq.refl _) (by decide) (by decide) (encV_lt f)
theorem vdiv (h : Hdr) (f : FmtV) : Statement (.vdiv h f) := queued (Eq.refl _) (by decide) (by decide) (encV_lt f)
theorem vex2 (h : Hdr) (f : FmtV) : Statement (.vex2 h f) := queued (Eq.refl _) (by decide) (by decide) (encV_lt f)
theorem vlg2 (h : Hdr) (f : FmtV) : Statement (.vlg2 h f) := queued (Eq.refl _) (by decide) (by decide) (encV_lt f)
theorem viadd (h : Hdr) (f : FmtV) : Statement (.viadd h f) := queued (Eq.refl _) (by decide) (by decide) (encV_lt f)
theorem visub (h : Hdr) (f : FmtV) : Statement (.visub h f) := queued (Eq.refl _) (by decide) (by decide) (encV_lt f)
theorem vimul (h : Hdr) (f : FmtV) : Statement (.vimul h f) := queued (Eq.refl _) (by decide) (by decide) (encV_lt f)
theorem vimad (h : Hdr) (f : FmtV) : Statement (.vimad h f) := queued (Eq.refl _) (by decide) (by decide) (encV_lt f)
theorem vimulh (h : Hdr) (f : FmtV) : Statement (.vimulh h f) := queued (Eq.refl _) (by decide) (by decide) (encV_lt f)
theorem vimin (h : Hdr) (f : FmtV) : Statement (.vimin h f) := queued (Eq.refl _) (by decide) (by decide) (encV_lt f)
theorem vimax (h : Hdr) (f : FmtV) : Statement (.vimax h f) := queued (Eq.refl _) (by decide) (by decide) (encV_lt f)
theorem vdp4 (h : Hdr) (f : FmtV) : Statement (.vdp4 h f) := queued (Eq.refl _) (by decide) (by decide) (encV_lt f)
theorem vadds (h : Hdr) (f : FmtV) : Statement (.vadds h f) := queued (Eq.refl _) (by decide) (by decide) (encV_lt f)
theorem vsubs (h : Hdr) (f : FmtV) : Statement (.vsubs h f) := queued (Eq.refl _) (by decide) (by decide) (encV_lt f)
theorem vand (h : Hdr) (f : FmtV) : Statement (.vand h f) := queued (Eq.refl _) (by decide) (by decide) (encV_lt f)
theorem vor (h : Hdr) (f : FmtV) : Statement (.vor h f) := queued (Eq.refl _) (by decide) (by decide) (encV_lt f)
theorem vxor (h : Hdr) (f : FmtV) : Statement (.vxor h f) := queued (Eq.refl _) (by decide) (by decide) (encV_lt f)
theorem vandn (h : Hdr) (f : FmtV) : Statement (.vandn h f) := queued (Eq.refl _) (by decide) (by decide) (encV_lt f)
theorem vpopc (h : Hdr) (f : FmtV) : Statement (.vpopc h f) := queued (Eq.refl _) (by decide) (by decide) (encV_lt f)
theorem vclz (h : Hdr) (f : FmtV) : Statement (.vclz h f) := queued (Eq.refl _) (by decide) (by decide) (encV_lt f)
theorem vshl (h : Hdr) (f : FmtV) : Statement (.vshl h f) := queued (Eq.refl _) (by decide) (by decide) (encV_lt f)
theorem vshr (h : Hdr) (f : FmtV) : Statement (.vshr h f) := queued (Eq.refl _) (by decide) (by decide) (encV_lt f)
theorem vsar (h : Hdr) (f : FmtV) : Statement (.vsar h f) := queued (Eq.refl _) (by decide) (by decide) (encV_lt f)
theorem vcmp (h : Hdr) (f : FmtV) : Statement (.vcmp h f) := queued (Eq.refl _) (by decide) (by decide) (encV_lt f)
theorem vcls (h : Hdr) (f : FmtV) : Statement (.vcls h f) := queued (Eq.refl _) (by decide) (by decide) (encV_lt f)
theorem vsel (h : Hdr) (f : FmtV) : Statement (.vsel h f) := queued (Eq.refl _) (by decide) (by decide) (encV_lt f)
theorem vcvt (h : Hdr) (f : FmtVX) : Statement (.vcvt h f) := queued (Eq.refl _) (by decide) (by decide) (encVX_lt f)
theorem vrnd (h : Hdr) (f : FmtV) : Statement (.vrnd h f) := queued (Eq.refl _) (by decide) (by decide) (encV_lt f)
theorem vmov (h : Hdr) (f : FmtV) : Statement (.vmov h f) := queued (Eq.refl _) (by decide) (by decide) (encV_lt f)
theorem vsplat (h : Hdr) (f : FmtV) : Statement (.vsplat h f) := queued (Eq.refl _) (by decide) (by decide) (encV_lt f)
theorem viota (h : Hdr) (f : FmtV) : Statement (.viota h f) := queued (Eq.refl _) (by decide) (by decide) (encV_lt f)
theorem vext (h : Hdr) (f : FmtV) : Statement (.vext h f) := queued (Eq.refl _) (by decide) (by decide) (encV_lt f)
theorem vins (h : Hdr) (f : FmtV) : Statement (.vins h f) := queued (Eq.refl _) (by decide) (by decide) (encV_lt f)
theorem vperm (h : Hdr) (f : FmtV) : Statement (.vperm h f) := queued (Eq.refl _) (by decide) (by decide) (encV_lt f)
theorem vshuf (h : Hdr) (f : FmtV) : Statement (.vshuf h f) := queued (Eq.refl _) (by decide) (by decide) (encV_lt f)
theorem vrot (h : Hdr) (f : FmtV) : Statement (.vrot h f) := queued (Eq.refl _) (by decide) (by decide) (encV_lt f)
theorem vcmprs (h : Hdr) (f : FmtV) : Statement (.vcmprs h f) := queued (Eq.refl _) (by decide) (by decide) (encV_lt f)
theorem vexpd (h : Hdr) (f : FmtV) : Statement (.vexpd h f) := queued (Eq.refl _) (by decide) (by decide) (encV_lt f)
theorem vred (h : Hdr) (f : FmtV) : Statement (.vred h f) := queued (Eq.refl _) (by decide) (by decide) (encV_lt f)
theorem vredx (h : Hdr) (f : FmtV) : Statement (.vredx h f) := queued (Eq.refl _) (by decide) (by decide) (encV_lt f)
theorem vscan (h : Hdr) (f : FmtV) : Statement (.vscan h f) := queued (Eq.refl _) (by decide) (by decide) (encV_lt f)
theorem vmqnt (h : Hdr) (f : FmtVX) : Statement (.vmqnt h f) := queued (Eq.refl _) (by decide) (by decide) (encVX_lt f)
theorem vmdq (h : Hdr) (f : FmtVX) : Statement (.vmdq h f) := queued (Eq.refl _) (by decide) (by decide) (encVX_lt f)
theorem vscl (h : Hdr) (f : FmtVX) : Statement (.vscl h f) := queued (Eq.refl _) (by decide) (by decide) (encVX_lt f)
theorem vlqd (h : Hdr) (f : FmtVX) : Statement (.vlqd h f) := queued (Eq.refl _) (by decide) (by decide) (encVX_lt f)
theorem vpsn (h : Hdr) (f : FmtV) : Statement (.vpsn h f) := queued (Eq.refl _) (by decide) (by decide) (encV_lt f)
theorem vpid (h : Hdr) (f : FmtV) : Statement (.vpid h f) := queued (Eq.refl _) (by decide) (by decide) (encV_lt f)
theorem vprep (h : Hdr) (f : FmtV) : Statement (.vprep h f) := queued (Eq.refl _) (by decide) (by decide) (encV_lt f)
theorem jand (h : Hdr) (f : FmtV) : Statement (.jand h f) := queued (Eq.refl _) (by decide) (by decide) (encV_lt f)
theorem jor (h : Hdr) (f : FmtV) : Statement (.jor h f) := queued (Eq.refl _) (by decide) (by decide) (encV_lt f)
theorem jxor (h : Hdr) (f : FmtV) : Statement (.jxor h f) := queued (Eq.refl _) (by decide) (by decide) (encV_lt f)
theorem jnot (h : Hdr) (f : FmtV) : Statement (.jnot h f) := queued (Eq.refl _) (by decide) (by decide) (encV_lt f)
theorem jpopc (h : Hdr) (f : FmtV) : Statement (.jpopc h f) := queued (Eq.refl _) (by decide) (by decide) (encV_lt f)
theorem jffs (h : Hdr) (f : FmtV) : Statement (.jffs h f) := queued (Eq.refl _) (by decide) (by decide) (encV_lt f)
theorem lds (h : Hdr) (f : FmtM) : Statement (.lds h f) := queued (Eq.refl _) (by decide) (by decide) (encM_lt f)
theorem ldv (h : Hdr) (f : FmtM) : Statement (.ldv h f) := queued (Eq.refl _) (by decide) (by decide) (encM_lt f)
theorem ldvs (h : Hdr) (f : FmtM) : Statement (.ldvs h f) := queued (Eq.refl _) (by decide) (by decide) (encM_lt f)
theorem ldvg (h : Hdr) (f : FmtMG) : Statement (.ldvg h f) := queued (Eq.refl _) (by decide) (by decide) (encMG_lt f)
theorem ldvb (h : Hdr) (f : FmtM) : Statement (.ldvb h f) := queued (Eq.refl _) (by decide) (by decide) (encM_lt f)
theorem ldo (h : Hdr) (f : FmtM) : Statement (.ldo h f) := queued (Eq.refl _) (by decide) (by decide) (encM_lt f)
theorem ldc (h : Hdr) (f : FmtM) : Statement (.ldc h f) := queued (Eq.refl _) (by decide) (by decide) (encM_lt f)
theorem rfl (h : Hdr) (f : FmtM) : Statement (.rfl h f) := queued (Eq.refl _) (by decide) (by decide) (encM_lt f)
theorem markL (h : Hdr) (f : FmtF) : Statement (.markL h f) := queued (Eq.refl _) (by decide) (by decide) (encF_lt f)
theorem sts (h : Hdr) (f : FmtM) : Statement (.sts h f) := queued (Eq.refl _) (by decide) (by decide) (encM_lt f)
theorem stv (h : Hdr) (f : FmtM) : Statement (.stv h f) := queued (Eq.refl _) (by decide) (by decide) (encM_lt f)
theorem stvs (h : Hdr) (f : FmtM) : Statement (.stvs h f) := queued (Eq.refl _) (by decide) (by decide) (encM_lt f)
theorem stvx (h : Hdr) (f : FmtMG) : Statement (.stvx h f) := queued (Eq.refl _) (by decide) (by decide) (encMG_lt f)
theorem stc (h : Hdr) (f : FmtM) : Statement (.stc h f) := queued (Eq.refl _) (by decide) (by decide) (encM_lt f)
theorem spl (h : Hdr) (f : FmtM) : Statement (.spl h f) := queued (Eq.refl _) (by decide) (by decide) (encM_lt f)
theorem markS (h : Hdr) (f : FmtF) : Statement (.markS h f) := queued (Eq.refl _) (by decide) (by decide) (encF_lt f)
theorem feno (h : Hdr) (f : FmtF) : Statement (.feno h f) := queued (Eq.refl _) (by decide) (by decide) (encF_lt f)
theorem fenr (h : Hdr) (f : FmtF) : Statement (.fenr h f) := queued (Eq.refl _) (by decide) (by decide) (encF_lt f)
theorem fenq (h : Hdr) (f : FmtF) : Statement (.fenq h f) := queued (Eq.refl _) (by decide) (by decide) (encF_lt f)
theorem hset (h : Hdr) (f : FmtV) : Statement (.hset h f) := queued (Eq.refl _) (by decide) (by decide) (encV_lt f)
theorem hswp (h : Hdr) (f : FmtV) : Statement (.hswp h f) := queued (Eq.refl _) (by decide) (by decide) (encV_lt f)
theorem hrd (h : Hdr) (f : FmtV) : Statement (.hrd h f) := queued (Eq.refl _) (by decide) (by decide) (encV_lt f)
theorem mxrv (h : Hdr) (f : FmtV) : Statement (.mxrv h f) := queued (Eq.refl _) (by decide) (by decide) (encV_lt f)
theorem mxwv (h : Hdr) (f : FmtV) : Statement (.mxwv h f) := queued (Eq.refl _) (by decide) (by decide) (encV_lt f)
theorem mxla (h : Hdr) (f : FmtE) : Statement (.mxla h f) := engine (Eq.refl _) (by decide) (by decide)
theorem mxlb (h : Hdr) (f : FmtE) : Statement (.mxlb h f) := engine (Eq.refl _) (by decide) (by decide)
theorem mxmma (h : Hdr) (f : FmtE) : Statement (.mxmma h f) := engine (Eq.refl _) (by decide) (by decide)
theorem mxz (h : Hdr) (f : FmtE) : Statement (.mxz h f) := engine (Eq.refl _) (by decide) (by decide)
theorem mxprm (h : Hdr) (f : FmtE) : Statement (.mxprm h f) := engine (Eq.refl _) (by decide) (by decide)
theorem mxst (h : Hdr) (f : FmtE) : Statement (.mxst h f) := engine (Eq.refl _) (by decide) (by decide)
theorem mxspl (h : Hdr) (f : FmtE) : Statement (.mxspl h f) := engine (Eq.refl _) (by decide) (by decide)
theorem mxfil (h : Hdr) (f : FmtE) : Statement (.mxfil h f) := engine (Eq.refl _) (by decide) (by decide)
theorem mxgng (h : Hdr) (f : FmtE) : Statement (.mxgng h f) := engine (Eq.refl _) (by decide) (by decide)
theorem mxrp (h : Hdr) (f : FmtE) : Statement (.mxrp h f) := engine (Eq.refl _) (by decide) (by decide)
theorem xpop (h : Hdr) (f : FmtY) : Statement (.xpop h f) := queued (Eq.refl _) (by decide) (by decide) (encY_lt f)
theorem semw (h : Hdr) (f : FmtY) : Statement (.semw h f) := queued (Eq.refl _) (by decide) (by decide) (encY_lt f)
theorem sems (h : Hdr) (f : FmtY) : Statement (.sems h f) := queued (Eq.refl _) (by decide) (by decide) (encY_lt f)
theorem semr (h : Hdr) (f : FmtY) : Statement (.semr h f) := queued (Eq.refl _) (by decide) (by decide) (encY_lt f)
theorem semi (h : Hdr) (f : FmtY) : Statement (.semi h f) := queued (Eq.refl _) (by decide) (by decide) (encY_lt f)
theorem bara (h : Hdr) (f : FmtY) : Statement (.bara h f) := queued (Eq.refl _) (by decide) (by decide) (encY_lt f)
theorem barb (h : Hdr) (f : FmtY) : Statement (.barb h f) := queued (Eq.refl _) (by decide) (by decide) (encY_lt f)
theorem barw (h : Hdr) (f : FmtY) : Statement (.barw h f) := queued (Eq.refl _) (by decide) (by decide) (encY_lt f)
theorem barq (h : Hdr) (f : FmtY) : Statement (.barq h f) := queued (Eq.refl _) (by decide) (by decide) (encY_lt f)
theorem xcp (h : Hdr) (f : FmtE) : Statement (.xcp h f) := engine (Eq.refl _) (by decide) (by decide)
theorem xc2 (h : Hdr) (f : FmtE) : Statement (.xc2 h f) := engine (Eq.refl _) (by decide) (by decide)
theorem xcg (h : Hdr) (f : FmtE) : Statement (.xcg h f) := engine (Eq.refl _) (by decide) (by decide)
theorem xaw (h : Hdr) (f : FmtE) : Statement (.xaw h f) := engine (Eq.refl _) (by decide) (by decide)
theorem xawr (h : Hdr) (f : FmtE) : Statement (.xawr h f) := engine (Eq.refl _) (by decide) (by decide)
theorem xcas (h : Hdr) (f : FmtE) : Statement (.xcas h f) := engine (Eq.refl _) (by decide) (by decide)
theorem xsig (h : Hdr) (f : FmtE) : Statement (.xsig h f) := engine (Eq.refl _) (by decide) (by decide)
theorem xhsh (h : Hdr) (f : FmtE) : Statement (.xhsh h f) := engine (Eq.refl _) (by decide) (by decide)
theorem xopn (h : Hdr) (f : FmtE) : Statement (.xopn h f) := engine (Eq.refl _) (by decide) (by decide)
theorem xsel (h : Hdr) (f : FmtE) : Statement (.xsel h f) := engine (Eq.refl _) (by decide) (by decide)
theorem xfil (h : Hdr) (f : FmtE) : Statement (.xfil h f) := engine (Eq.refl _) (by decide) (by decide)
theorem trap (p : BitVec 4) (f : FmtZ) : Statement (.trap p f) := front (Eq.refl _) (by decide) (by decide) (encZ_lt f)
theorem tret (p : BitVec 4) (f : FmtZ) : Statement (.tret p f) := front (Eq.refl _) (by decide) (by decide) (encZ_lt f)
theorem savc (p : BitVec 4) (f : FmtZ) : Statement (.savc p f) := front (Eq.refl _) (by decide) (by decide) (encZ_lt f)
theorem rstc (p : BitVec 4) (f : FmtZ) : Statement (.rstc p f) := front (Eq.refl _) (by decide) (by decide) (encZ_lt f)
theorem rgstaPlc (p : BitVec 4) (f : FmtZ) : Statement (.rgstaPlc p f) := front (Eq.refl _) (by decide) (by decide) (encZ_lt f)
theorem rgstaGo (p : BitVec 4) (f : FmtZ) : Statement (.rgstaGo p f) := front (Eq.refl _) (by decide) (by decide) (encZ_lt f)
theorem rgstaRes (p : BitVec 4) (f : FmtZ) : Statement (.rgstaRes p f) := front (Eq.refl _) (by decide) (by decide) (encZ_lt f)
theorem rgpre (p : BitVec 4) (f : FmtZ) : Statement (.rgpre p f) := front (Eq.refl _) (by decide) (by decide) (encZ_lt f)
theorem rgfrzHold (p : BitVec 4) (f : FmtZ) : Statement (.rgfrzHold p f) := front (Eq.refl _) (by decide) (by decide) (encZ_lt f)
theorem rgfrzRel (p : BitVec 4) (f : FmtZ) : Statement (.rgfrzRel p f) := front (Eq.refl _) (by decide) (by decide) (encZ_lt f)
theorem rgmovMov (p : BitVec 4) (f : FmtZ) : Statement (.rgmovMov p f) := front (Eq.refl _) (by decide) (by decide) (encZ_lt f)
theorem rgmovOut (p : BitVec 4) (f : FmtZ) : Statement (.rgmovOut p f) := front (Eq.refl _) (by decide) (by decide) (encZ_lt f)
theorem rgretRel (p : BitVec 4) (f : FmtZ) : Statement (.rgretRel p f) := front (Eq.refl _) (by decide) (by decide) (encZ_lt f)
theorem rgretAbt (p : BitVec 4) (f : FmtZ) : Statement (.rgretAbt p f) := front (Eq.refl _) (by decide) (by decide) (encZ_lt f)
theorem rgretRd (p : BitVec 4) (f : FmtZ) : Statement (.rgretRd p f) := front (Eq.refl _) (by decide) (by decide) (encZ_lt f)
theorem xinvAll (p : BitVec 4) (f : FmtZ) : Statement (.xinvAll p f) := front (Eq.refl _) (by decide) (by decide) (encZ_lt f)
theorem xinvCtx (p : BitVec 4) (f : FmtZ) : Statement (.xinvCtx p f) := front (Eq.refl _) (by decide) (by decide) (encZ_lt f)
theorem xinvObj (p : BitVec 4) (f : FmtZ) : Statement (.xinvObj p f) := front (Eq.refl _) (by decide) (by decide) (encZ_lt f)
theorem xinvGfr (p : BitVec 4) (f : FmtZ) : Statement (.xinvGfr p f) := front (Eq.refl _) (by decide) (by decide) (encZ_lt f)
theorem otwrWr (p : BitVec 4) (f : FmtZ) : Statement (.otwrWr p f) := front (Eq.refl _) (by decide) (by decide) (encZ_lt f)
theorem otwrRd (p : BitVec 4) (f : FmtZ) : Statement (.otwrRd p f) := front (Eq.refl _) (by decide) (by decide) (encZ_lt f)
theorem otwrFpop (p : BitVec 4) (f : FmtZ) : Statement (.otwrFpop p f) := front (Eq.refl _) (by decide) (by decide) (encZ_lt f)
theorem otwrFret (p : BitVec 4) (f : FmtZ) : Statement (.otwrFret p f) := front (Eq.refl _) (by decide) (by decide) (encZ_lt f)
theorem otwrFflt (p : BitVec 4) (f : FmtZ) : Statement (.otwrFflt p f) := front (Eq.refl _) (by decide) (by decide) (encZ_lt f)
theorem otwrFrm (p : BitVec 4) (f : FmtZ) : Statement (.otwrFrm p f) := front (Eq.refl _) (by decide) (by decide) (encZ_lt f)
theorem otwrGwr (p : BitVec 4) (f : FmtZ) : Statement (.otwrGwr p f) := front (Eq.refl _) (by decide) (by decide) (encZ_lt f)
theorem otwrFcp (p : BitVec 4) (f : FmtZ) : Statement (.otwrFcp p f) := front (Eq.refl _) (by decide) (by decide) (encZ_lt f)
theorem otwrQrd (p : BitVec 4) (f : FmtZ) : Statement (.otwrQrd p f) := front (Eq.refl _) (by decide) (by decide) (encZ_lt f)
theorem smapWr (p : BitVec 4) (f : FmtZ) : Statement (.smapWr p f) := front (Eq.refl _) (by decide) (by decide) (encZ_lt f)
theorem smapRd (p : BitVec 4) (f : FmtZ) : Statement (.smapRd p f) := front (Eq.refl _) (by decide) (by decide) (encZ_lt f)
theorem smapAdj (p : BitVec 4) (f : FmtZ) : Statement (.smapAdj p f) := front (Eq.refl _) (by decide) (by decide) (encZ_lt f)
theorem bmapBind (p : BitVec 4) (f : FmtZ) : Statement (.bmapBind p f) := front (Eq.refl _) (by decide) (by decide) (encZ_lt f)
theorem bmapUnbind (p : BitVec 4) (f : FmtZ) : Statement (.bmapUnbind p f) := front (Eq.refl _) (by decide) (by decide) (encZ_lt f)
theorem bmapRd (p : BitVec 4) (f : FmtZ) : Statement (.bmapRd p f) := front (Eq.refl _) (by decide) (by decide) (encZ_lt f)
theorem bmapRst (p : BitVec 4) (f : FmtZ) : Statement (.bmapRst p f) := front (Eq.refl _) (by decide) (by decide) (encZ_lt f)
theorem lnkcUp (p : BitVec 4) (f : FmtZ) : Statement (.lnkcUp p f) := front (Eq.refl _) (by decide) (by decide) (encZ_lt f)
theorem lnkcDown (p : BitVec 4) (f : FmtZ) : Statement (.lnkcDown p f) := front (Eq.refl _) (by decide) (by decide) (encZ_lt f)
theorem lnkcRkey (p : BitVec 4) (f : FmtZ) : Statement (.lnkcRkey p f) := front (Eq.refl _) (by decide) (by decide) (encZ_lt f)
theorem lnkcAlgn (p : BitVec 4) (f : FmtZ) : Statement (.lnkcAlgn p f) := front (Eq.refl _) (by decide) (by decide) (encZ_lt f)
theorem lnkcRun (p : BitVec 4) (f : FmtZ) : Statement (.lnkcRun p f) := front (Eq.refl _) (by decide) (by decide) (encZ_lt f)
theorem lnkcQrl (p : BitVec 4) (f : FmtZ) : Statement (.lnkcQrl p f) := front (Eq.refl _) (by decide) (by decide) (encZ_lt f)
theorem lnkcDrst (p : BitVec 4) (f : FmtZ) : Statement (.lnkcDrst p f) := front (Eq.refl _) (by decide) (by decide) (encZ_lt f)
theorem lnkcDqrl (p : BitVec 4) (f : FmtZ) : Statement (.lnkcDqrl p f) := front (Eq.refl _) (by decide) (by decide) (encZ_lt f)
theorem lnkqLnk (p : BitVec 4) (f : FmtZ) : Statement (.lnkqLnk p f) := front (Eq.refl _) (by decide) (by decide) (encZ_lt f)
theorem lnkqDie (p : BitVec 4) (f : FmtZ) : Statement (.lnkqDie p f) := front (Eq.refl _) (by decide) (by decide) (encZ_lt f)
theorem lnkqDom (p : BitVec 4) (f : FmtZ) : Statement (.lnkqDom p f) := front (Eq.refl _) (by decide) (by decide) (encZ_lt f)
theorem measExt (p : BitVec 4) (f : FmtZ) : Statement (.measExt p f) := front (Eq.refl _) (by decide) (by decide) (encZ_lt f)
theorem measRd (p : BitVec 4) (f : FmtZ) : Statement (.measRd p f) := front (Eq.refl _) (by decide) (by decide) (encZ_lt f)
theorem measSha (p : BitVec 4) (f : FmtZ) : Statement (.measSha p f) := front (Eq.refl _) (by decide) (by decide) (encZ_lt f)
theorem measNode (p : BitVec 4) (f : FmtZ) : Statement (.measNode p f) := front (Eq.refl _) (by decide) (by decide) (encZ_lt f)
theorem rcpt (p : BitVec 4) (f : FmtZ) : Statement (.rcpt p f) := front (Eq.refl _) (by decide) (by decide) (encZ_lt f)
theorem ksldLd (p : BitVec 4) (f : FmtZ) : Statement (.ksldLd p f) := front (Eq.refl _) (by decide) (by decide) (encZ_lt f)
theorem ksldRes (p : BitVec 4) (f : FmtZ) : Statement (.ksldRes p f) := front (Eq.refl _) (by decide) (by decide) (encZ_lt f)
theorem ksldEvc (p : BitVec 4) (f : FmtZ) : Statement (.ksldEvc p f) := front (Eq.refl _) (by decide) (by decide) (encZ_lt f)
theorem ksldRd (p : BitVec 4) (f : FmtZ) : Statement (.ksldRd p f) := front (Eq.refl _) (by decide) (by decide) (encZ_lt f)
theorem csigAlc (p : BitVec 4) (f : FmtZ) : Statement (.csigAlc p f) := front (Eq.refl _) (by decide) (by decide) (encZ_lt f)
theorem csigFre (p : BitVec 4) (f : FmtZ) : Statement (.csigFre p f) := front (Eq.refl _) (by decide) (by decide) (encZ_lt f)
theorem csigAdd (p : BitVec 4) (f : FmtZ) : Statement (.csigAdd p f) := front (Eq.refl _) (by decide) (by decide) (encZ_lt f)
theorem csigSet (p : BitVec 4) (f : FmtZ) : Statement (.csigSet p f) := front (Eq.refl _) (by decide) (by decide) (encZ_lt f)
theorem csigRd (p : BitVec 4) (f : FmtZ) : Statement (.csigRd p f) := front (Eq.refl _) (by decide) (by decide) (encZ_lt f)
theorem powerOn : Statement (.powerOn) := event (Eq.refl _)
theorem supplyInRegulation (d : Nat) : Statement (.supplyInRegulation d) := event (Eq.refl _)
theorem supplyLost (d : Nat) : Statement (.supplyLost d) := event (Eq.refl _)
theorem dieResetRelease (d : Nat) : Statement (.dieResetRelease d) := event (Eq.refl _)
theorem dieMeasurementDone (d : Nat) (pass : Bool) (digest : BitVec 384) : Statement (.dieMeasurementDone d pass digest) := event (Eq.refl _)
theorem dieAdmissionCheckEnd (d : Nat) (qcode : Nat) : Statement (.dieAdmissionCheckEnd d qcode) := event (Eq.refl _)
theorem dieWatchdog (d : Nat) : Statement (.dieWatchdog d) := event (Eq.refl _)
theorem telemetrySample (temps : List Int) (droops : List Nat) : Statement (.telemetrySample temps droops) := event (Eq.refl _)
theorem pwrMinTick : Statement (.pwrMinTick) := event (Eq.refl _)
theorem telemetryFlashWrite : Statement (.telemetryFlashWrite) := event (Eq.refl _)
theorem snap (v : BitVec 32) : Statement (.snap v) := event (Eq.refl _)
theorem snapshotComplete (mgmt : Bool) : Statement (.snapshotComplete mgmt) := event (Eq.refl _)
theorem telemetryUnsupportedAccess (wr : Bool) (off : Nat) (width : Nat) : Statement (.telemetryUnsupportedAccess wr off width) := event (Eq.refl _)
theorem mctpSnapshotRequest : Statement (.mctpSnapshotRequest) := event (Eq.refl _)
theorem mctpTelemetryRead (off : Nat) (len : Nat) : Statement (.mctpTelemetryRead off len) := event (Eq.refl _)
theorem leaseRenew (d : Nat) : Statement (.leaseRenew d) := event (Eq.refl _)
theorem leaseLapse : Statement (.leaseLapse) := event (Eq.refl _)
theorem stepwRelease (t : Nat) : Statement (.stepwRelease t) := event (Eq.refl _)
theorem tilePartEnd (t : Nat) : Statement (.tilePartEnd t) := event (Eq.refl _)
theorem fenrRequest (t : Nat) (src : Nat) : Statement (.fenrRequest t src) := event (Eq.refl _)
theorem fenrAck (t : Nat) (owner : Nat) : Statement (.fenrAck t owner) := event (Eq.refl _)
theorem dramAccessAtPort (t : Nat) (k : Nat) : Statement (.dramAccessAtPort t k) := event (Eq.refl _)
theorem resultWriteback (t : Nat) : Statement (.resultWriteback t) := event (Eq.refl _)
theorem tokenPushWaitEnd (t : Nat) : Statement (.tokenPushWaitEnd t) := event (Eq.refl _)
theorem meCommandStart (t : Nat) : Statement (.meCommandStart t) := event (Eq.refl _)
theorem meCommandComplete (t : Nat) (id : Nat) : Statement (.meCommandComplete t id) := event (Eq.refl _)
theorem gangImageArrival (t : Nat) : Statement (.gangImageArrival t) := event (Eq.refl _)
theorem xeCommandStart (t : Nat) : Statement (.xeCommandStart t) := event (Eq.refl _)
theorem xeCommandComplete (t : Nat) (id : Nat) : Statement (.xeCommandComplete t id) := event (Eq.refl _)
theorem xopnHeaderAtHub (t : Nat) (id : Nat) : Statement (.xopnHeaderAtHub t id) := event (Eq.refl _)
theorem accumulateArrival (t : Nat) (id : Nat) : Statement (.accumulateArrival t id) := event (Eq.refl _)
theorem remoteIncrement (k : Nat) : Statement (.remoteIncrement k) := event (Eq.refl _)
theorem peerCommandArrival (t : Nat) (id : Nat) (running : Bool) (ntiles : Nat) : Statement (.peerCommandArrival t id running ntiles) := event (Eq.refl _)
theorem regionStepClose (rg : Nat) : Statement (.regionStepClose rg) := event (Eq.refl _)
theorem probeSend (t : Nat) (agent : Nat) : Statement (.probeSend t agent) := event (Eq.refl _)
theorem probeReceive (k : Nat) : Statement (.probeReceive k) := event (Eq.refl _)
theorem accumulateCloseTimeout (rg : Nat) : Statement (.accumulateCloseTimeout rg) := event (Eq.refl _)
theorem handlerTimeout (t : Nat) : Statement (.handlerTimeout t) := event (Eq.refl _)
theorem regionColumnStart (rg : Nat) (col : Nat) : Statement (.regionColumnStart rg col) := event (Eq.refl _)
theorem regionFreeze (rg : Nat) : Statement (.regionFreeze rg) := event (Eq.refl _)
theorem regionSaveComplete (rg : Nat) : Statement (.regionSaveComplete rg) := event (Eq.refl _)
theorem regionResumeStart (rg : Nat) : Statement (.regionResumeStart rg) := event (Eq.refl _)
theorem regionMoveComplete (rg : Nat) : Statement (.regionMoveComplete rg) := event (Eq.refl _)
theorem stepPeriodChange (ms : List Nat) : Statement (.stepPeriodChange ms) := event (Eq.refl _)
theorem invalidationComplete (k : Nat) : Statement (.invalidationComplete k) := event (Eq.refl _)
theorem translationWalkEnd (d : Nat) (k : Nat) : Statement (.translationWalkEnd d k) := event (Eq.refl _)
theorem stallWireDrop (rg : Nat) : Statement (.stallWireDrop rg) := event (Eq.refl _)
theorem dramUe (addr : Nat) : Statement (.dramUe addr) := event (Eq.refl _)
theorem linkTrainingEnd (i : Nat) (ok : Bool) : Statement (.linkTrainingEnd i ok) := event (Eq.refl _)
theorem linkAttestEnd (i : Nat) (qcode : Nat) (peer : BitVec 384) : Statement (.linkAttestEnd i qcode peer) := event (Eq.refl _)
theorem linkErrorBurst (i : Nat) : Statement (.linkErrorBurst i) := event (Eq.refl _)
theorem flitReceive (i : Nat) (dir : Nat) (crcOk : Bool) (tagOk : Bool) (g : Nat) (cnt : Nat) : Statement (.flitReceive i dir crcOk tagOk g cnt) := event (Eq.refl _)
theorem rolloverStart (i : Nat) (dir : Nat) : Statement (.rolloverStart i dir) := event (Eq.refl _)
theorem rolloverAck (i : Nat) (dir : Nat) : Statement (.rolloverAck i dir) := event (Eq.refl _)
theorem rolloverEnd (i : Nat) (dir : Nat) : Statement (.rolloverEnd i dir) := event (Eq.refl _)
theorem domainStallRaise (i : Nat) : Statement (.domainStallRaise i) := event (Eq.refl _)
theorem domainStallDrop (i : Nat) : Statement (.domainStallDrop i) := event (Eq.refl _)
theorem hostLinkRetrain : Statement (.hostLinkRetrain) := event (Eq.refl _)
theorem ideKeyRefresh : Statement (.ideKeyRefresh) := event (Eq.refl _)
theorem hostErrorCompletion (c : Nat) (q : Nat) (xopn : Option (Nat × Nat)) : Statement (.hostErrorCompletion c q xopn) := event (Eq.refl _)
theorem ideKm (fn : Nat) (key : BitVec 256) : Statement (.ideKm fn key) := event (Eq.refl _)
theorem tdispLock (fn : Nat) : Statement (.tdispLock fn) := event (Eq.refl _)
theorem tdispRun (fn : Nat) : Statement (.tdispRun fn) := event (Eq.refl _)
theorem tdispError (fn : Nat) : Statement (.tdispError fn) := event (Eq.refl _)
theorem flr (fn : Nat) : Statement (.flr fn) := event (Eq.refl _)
theorem ksldCheckEnd (c : Nat) (slot : Nat) : Statement (.ksldCheckEnd c slot) := event (Eq.refl _)
theorem doorbell (c : Nat) (q : Nat) (v : Nat) : Statement (.doorbell c q v) := event (Eq.refl _)
theorem queueEnable (c : Nat) (q : Nat) : Statement (.queueEnable c q) := event (Eq.refl _)
theorem queueDisable (c : Nat) (q : Nat) : Statement (.queueDisable c q) := event (Eq.refl _)
theorem queueSelect (fn : Nat) : Statement (.queueSelect fn) := event (Eq.refl _)
theorem timeSliceEnd (fn : Nat) : Statement (.timeSliceEnd fn) := event (Eq.refl _)
theorem launchPacket (c : Nat) (q : Nat) : Statement (.launchPacket c q) := event (Eq.refl _)
theorem selectPacket (c : Nat) (q : Nat) : Statement (.selectPacket c q) := event (Eq.refl _)
theorem signalPacketWait (c : Nat) (q : Nat) : Statement (.signalPacketWait c q) := event (Eq.refl _)
theorem signalPacketAdd (c : Nat) (q : Nat) : Statement (.signalPacketAdd c q) := event (Eq.refl _)
theorem signalPacketSet (c : Nat) (q : Nat) : Statement (.signalPacketSet c q) := event (Eq.refl _)
theorem queueWaitEnd (c : Nat) (q : Nat) : Statement (.queueWaitEnd c q) := event (Eq.refl _)
theorem packetComplete (c : Nat) (q : Nat) : Statement (.packetComplete c q) := event (Eq.refl _)
theorem signalOperation (k : Nat) : Statement (.signalOperation k) := event (Eq.refl _)
theorem swcmd (fn : Nat) (iface : Nat) (v : Nat) : Statement (.swcmd fn iface v) := event (Eq.refl _)
theorem unbar (c : Nat) : Statement (.unbar c) := event (Eq.refl _)
theorem glimWrite (fn : Nat) (v : Nat) : Statement (.glimWrite fn v) := event (Eq.refl _)
theorem contextBind (c : Nat) : Statement (.contextBind c) := event (Eq.refl _)
theorem contextUnbind (c : Nat) : Statement (.contextUnbind c) := event (Eq.refl _)
theorem scrub (c : Nat) : Statement (.scrub c) := event (Eq.refl _)
theorem scrubComplete (c : Nat) : Statement (.scrubComplete c) := event (Eq.refl _)
theorem ctxenSet (c : Nat) : Statement (.ctxenSet c) := event (Eq.refl _)
theorem ctxenClear (c : Nat) : Statement (.ctxenClear c) := event (Eq.refl _)
theorem plheadWrite (c : Nat) (v : Nat) : Statement (.plheadWrite c v) := event (Eq.refl _)
theorem s2go (fn : Nat) : Statement (.s2go fn) := event (Eq.refl _)
theorem guarWrite (fn : Nat) (v : Nat) : Statement (.guarWrite fn v) := event (Eq.refl _)
theorem burstWrite (fn : Nat) (v : Nat) : Statement (.burstWrite fn v) := event (Eq.refl _)
theorem partitionWrite (fn : Nat) (field : PartField) (v : Nat) : Statement (.partitionWrite fn field v) := event (Eq.refl _)
theorem powerCapWrite (v : Nat) : Statement (.powerCapWrite v) := event (Eq.refl _)
theorem peerEntryWrite (c : Nat) (e : Nat) (v : Nat) : Statement (.peerEntryWrite c e v) := event (Eq.refl _)
theorem peeridWrite (port : Nat) (v : BitVec 384) : Statement (.peeridWrite port v) := event (Eq.refl _)
theorem ksvf (slot : Nat) (v : Nat) : Statement (.ksvf slot v) := event (Eq.refl _)
theorem keySlotLoad (slot : Nat) (fn : Nat) (tbit : Bool) : Statement (.keySlotLoad slot fn tbit) := event (Eq.refl _)
theorem keySlotClr (slot : Nat) (fn : Nat) (tbit : Bool) : Statement (.keySlotClr slot fn tbit) := event (Eq.refl _)
theorem registerWrite (reg : HostReg) (v : Nat) : Statement (.registerWrite reg v) := event (Eq.refl _)
theorem remoteInvalidation (port : Nat) (c : Nat) (oid : Nat) (first : Nat) (count : Nat) : Statement (.remoteInvalidation port c oid first count) := event (Eq.refl _)
theorem peerFaultAnswer (t : Nat) (id : Nat) (retry : Bool) (rec : List (BitVec 64)) : Statement (.peerFaultAnswer t id retry rec) := event (Eq.refl _)
theorem peerPairConfirm (c : Nat) (e : Nat) : Statement (.peerPairConfirm c e) := event (Eq.refl _)

end EncodingFits

end Sys2Proof.Laws
end

