-- ==== Sys2Proof/Laws/State.lean ====
section
/-! SUPPORT. What each update of State leaves in each field, and reading a part back after writing one. -/

namespace Sys2Proof.Machine

/-! ### setTile -/

@[simp] theorem State.setTile_tiles (s : State) (k : Nat) (x : Tile) : (s.setTile k x).tiles = tset s.tiles k x := rfl
@[simp] theorem State.setTile_pools (s : State) (k : Nat) (x : Tile) : (s.setTile k x).pools = s.pools := rfl
@[simp] theorem State.setTile_dram (s : State) (k : Nat) (x : Tile) : (s.setTile k x).dram = s.dram := rfl
@[simp] theorem State.setTile_dramTag (s : State) (k : Nat) (x : Tile) : (s.setTile k x).dramTag = s.dramTag := rfl
@[simp] theorem State.setTile_dramUE (s : State) (k : Nat) (x : Tile) : (s.setTile k x).dramUE = s.dramUE := rfl
@[simp] theorem State.setTile_dies (s : State) (k : Nat) (x : Tile) : (s.setTile k x).dies = s.dies := rfl
@[simp] theorem State.setTile_regions (s : State) (k : Nat) (x : Tile) : (s.setTile k x).regions = s.regions := rfl
@[simp] theorem State.setTile_ctxs (s : State) (k : Nat) (x : Tile) : (s.setTile k x).ctxs = s.ctxs := rfl
@[simp] theorem State.setTile_fns (s : State) (k : Nat) (x : Tile) : (s.setTile k x).fns = s.fns := rfl
@[simp] theorem State.setTile_hub (s : State) (k : Nat) (x : Tile) : (s.setTile k x).hub = s.hub := rfl
@[simp] theorem State.setTile_links (s : State) (k : Nat) (x : Tile) : (s.setTile k x).links = s.links := rfl
@[simp] theorem State.setTile_dom (s : State) (k : Nat) (x : Tile) : (s.setTile k x).dom = s.dom := rfl
@[simp] theorem State.setTile_arrivals (s : State) (k : Nat) (x : Tile) : (s.setTile k x).arrivals = s.arrivals := rfl
@[simp] theorem State.setTile_pstores (s : State) (k : Nat) (x : Tile) : (s.setTile k x).pstores = s.pstores := rfl
@[simp] theorem State.setTile_pstoreid (s : State) (k : Nat) (x : Tile) : (s.setTile k x).pstoreid = s.pstoreid := rfl
@[simp] theorem State.setTile_psigs (s : State) (k : Nat) (x : Tile) : (s.setTile k x).psigs = s.psigs := rfl
@[simp] theorem State.setTile_incs (s : State) (k : Nat) (x : Tile) : (s.setTile k x).incs = s.incs := rfl
@[simp] theorem State.setTile_incid (s : State) (k : Nat) (x : Tile) : (s.setTile k x).incid = s.incid := rfl
@[simp] theorem State.setTile_probes (s : State) (k : Nat) (x : Tile) : (s.setTile k x).probes = s.probes := rfl
@[simp] theorem State.setTile_probeid (s : State) (k : Nat) (x : Tile) : (s.setTile k x).probeid = s.probeid := rfl
@[simp] theorem State.setTile_invals (s : State) (k : Nat) (x : Tile) : (s.setTile k x).invals = s.invals := rfl
@[simp] theorem State.setTile_invalid (s : State) (k : Nat) (x : Tile) : (s.setTile k x).invalid = s.invalid := rfl
@[simp] theorem State.setTile_hostMem (s : State) (k : Nat) (x : Tile) : (s.setTile k x).hostMem = s.hostMem := rfl
@[simp] theorem State.setTile_powered (s : State) (k : Nat) (x : Tile) : (s.setTile k x).powered = s.powered := rfl
@[simp] theorem State.setTile_inputs (s : State) (k : Nat) (x : Tile) : (s.setTile k x).inputs = s.inputs := rfl
@[simp] theorem State.setTile_agenda (s : State) (k : Nat) (x : Tile) : (s.setTile k x).agenda = s.agenda := rfl
@[simp] theorem State.setTile_cur (s : State) (k : Nat) (x : Tile) : (s.setTile k x).cur = s.cur := rfl
@[simp] theorem State.setTile_freeCtr (s : State) (k : Nat) (x : Tile) : (s.setTile k x).freeCtr = s.freeCtr := rfl
@[simp] theorem State.setTile_outbox (s : State) (k : Nat) (x : Tile) : (s.setTile k x).outbox = s.outbox := rfl

@[simp] theorem State.tile_setTile_self (s : State) (k : Nat) (x : Tile) : (s.setTile k x).tile k = x := tget_tset_self ..
theorem State.tile_setTile_ne (s : State) {j k : Nat} (x : Tile) (h : j ≠ k) : (s.setTile k x).tile j = s.tile j := tget_tset_ne _ _ _ h
@[simp] theorem State.die_setTile (s : State) (k : Nat) (x : Tile) (j : Nat) : (s.setTile k x).die j = s.die j := rfl
@[simp] theorem State.region_setTile (s : State) (k : Nat) (x : Tile) (j : Nat) : (s.setTile k x).region j = s.region j := rfl
@[simp] theorem State.ctx_setTile (s : State) (k : Nat) (x : Tile) (j : Nat) : (s.setTile k x).ctx j = s.ctx j := rfl
@[simp] theorem State.fn_setTile (s : State) (k : Nat) (x : Tile) (j : Nat) : (s.setTile k x).fn j = s.fn j := rfl
@[simp] theorem State.pool_setTile (s : State) (k : Nat) (x : Tile) (j : Nat) : (s.setTile k x).pool j = s.pool j := rfl

/-! ### setDie -/

@[simp] theorem State.setDie_tiles (s : State) (k : Nat) (x : Die) : (s.setDie k x).tiles = s.tiles := rfl
@[simp] theorem State.setDie_pools (s : State) (k : Nat) (x : Die) : (s.setDie k x).pools = s.pools := rfl
@[simp] theorem State.setDie_dram (s : State) (k : Nat) (x : Die) : (s.setDie k x).dram = s.dram := rfl
@[simp] theorem State.setDie_dramTag (s : State) (k : Nat) (x : Die) : (s.setDie k x).dramTag = s.dramTag := rfl
@[simp] theorem State.setDie_dramUE (s : State) (k : Nat) (x : Die) : (s.setDie k x).dramUE = s.dramUE := rfl
@[simp] theorem State.setDie_dies (s : State) (k : Nat) (x : Die) : (s.setDie k x).dies = tset s.dies k x := rfl
@[simp] theorem State.setDie_regions (s : State) (k : Nat) (x : Die) : (s.setDie k x).regions = s.regions := rfl
@[simp] theorem State.setDie_ctxs (s : State) (k : Nat) (x : Die) : (s.setDie k x).ctxs = s.ctxs := rfl
@[simp] theorem State.setDie_fns (s : State) (k : Nat) (x : Die) : (s.setDie k x).fns = s.fns := rfl
@[simp] theorem State.setDie_hub (s : State) (k : Nat) (x : Die) : (s.setDie k x).hub = s.hub := rfl
@[simp] theorem State.setDie_links (s : State) (k : Nat) (x : Die) : (s.setDie k x).links = s.links := rfl
@[simp] theorem State.setDie_dom (s : State) (k : Nat) (x : Die) : (s.setDie k x).dom = s.dom := rfl
@[simp] theorem State.setDie_arrivals (s : State) (k : Nat) (x : Die) : (s.setDie k x).arrivals = s.arrivals := rfl
@[simp] theorem State.setDie_pstores (s : State) (k : Nat) (x : Die) : (s.setDie k x).pstores = s.pstores := rfl
@[simp] theorem State.setDie_pstoreid (s : State) (k : Nat) (x : Die) : (s.setDie k x).pstoreid = s.pstoreid := rfl
@[simp] theorem State.setDie_psigs (s : State) (k : Nat) (x : Die) : (s.setDie k x).psigs = s.psigs := rfl
@[simp] theorem State.setDie_incs (s : State) (k : Nat) (x : Die) : (s.setDie k x).incs = s.incs := rfl
@[simp] theorem State.setDie_incid (s : State) (k : Nat) (x : Die) : (s.setDie k x).incid = s.incid := rfl
@[simp] theorem State.setDie_probes (s : State) (k : Nat) (x : Die) : (s.setDie k x).probes = s.probes := rfl
@[simp] theorem State.setDie_probeid (s : State) (k : Nat) (x : Die) : (s.setDie k x).probeid = s.probeid := rfl
@[simp] theorem State.setDie_invals (s : State) (k : Nat) (x : Die) : (s.setDie k x).invals = s.invals := rfl
@[simp] theorem State.setDie_invalid (s : State) (k : Nat) (x : Die) : (s.setDie k x).invalid = s.invalid := rfl
@[simp] theorem State.setDie_hostMem (s : State) (k : Nat) (x : Die) : (s.setDie k x).hostMem = s.hostMem := rfl
@[simp] theorem State.setDie_powered (s : State) (k : Nat) (x : Die) : (s.setDie k x).powered = s.powered := rfl
@[simp] theorem State.setDie_inputs (s : State) (k : Nat) (x : Die) : (s.setDie k x).inputs = s.inputs := rfl
@[simp] theorem State.setDie_agenda (s : State) (k : Nat) (x : Die) : (s.setDie k x).agenda = s.agenda := rfl
@[simp] theorem State.setDie_cur (s : State) (k : Nat) (x : Die) : (s.setDie k x).cur = s.cur := rfl
@[simp] theorem State.setDie_freeCtr (s : State) (k : Nat) (x : Die) : (s.setDie k x).freeCtr = s.freeCtr := rfl
@[simp] theorem State.setDie_outbox (s : State) (k : Nat) (x : Die) : (s.setDie k x).outbox = s.outbox := rfl

@[simp] theorem State.tile_setDie (s : State) (k : Nat) (x : Die) (j : Nat) : (s.setDie k x).tile j = s.tile j := rfl
@[simp] theorem State.die_setDie_self (s : State) (k : Nat) (x : Die) : (s.setDie k x).die k = x := tget_tset_self ..
theorem State.die_setDie_ne (s : State) {j k : Nat} (x : Die) (h : j ≠ k) : (s.setDie k x).die j = s.die j := tget_tset_ne _ _ _ h
@[simp] theorem State.region_setDie (s : State) (k : Nat) (x : Die) (j : Nat) : (s.setDie k x).region j = s.region j := rfl
@[simp] theorem State.ctx_setDie (s : State) (k : Nat) (x : Die) (j : Nat) : (s.setDie k x).ctx j = s.ctx j := rfl
@[simp] theorem State.fn_setDie (s : State) (k : Nat) (x : Die) (j : Nat) : (s.setDie k x).fn j = s.fn j := rfl
@[simp] theorem State.pool_setDie (s : State) (k : Nat) (x : Die) (j : Nat) : (s.setDie k x).pool j = s.pool j := rfl

/-! ### setRegion -/

@[simp] theorem State.setRegion_tiles (s : State) (k : Nat) (x : Region) : (s.setRegion k x).tiles = s.tiles := rfl
@[simp] theorem State.setRegion_pools (s : State) (k : Nat) (x : Region) : (s.setRegion k x).pools = s.pools := rfl
@[simp] theorem State.setRegion_dram (s : State) (k : Nat) (x : Region) : (s.setRegion k x).dram = s.dram := rfl
@[simp] theorem State.setRegion_dramTag (s : State) (k : Nat) (x : Region) : (s.setRegion k x).dramTag = s.dramTag := rfl
@[simp] theorem State.setRegion_dramUE (s : State) (k : Nat) (x : Region) : (s.setRegion k x).dramUE = s.dramUE := rfl
@[simp] theorem State.setRegion_dies (s : State) (k : Nat) (x : Region) : (s.setRegion k x).dies = s.dies := rfl
@[simp] theorem State.setRegion_regions (s : State) (k : Nat) (x : Region) : (s.setRegion k x).regions = tset s.regions k x := rfl
@[simp] theorem State.setRegion_ctxs (s : State) (k : Nat) (x : Region) : (s.setRegion k x).ctxs = s.ctxs := rfl
@[simp] theorem State.setRegion_fns (s : State) (k : Nat) (x : Region) : (s.setRegion k x).fns = s.fns := rfl
@[simp] theorem State.setRegion_hub (s : State) (k : Nat) (x : Region) : (s.setRegion k x).hub = s.hub := rfl
@[simp] theorem State.setRegion_links (s : State) (k : Nat) (x : Region) : (s.setRegion k x).links = s.links := rfl
@[simp] theorem State.setRegion_dom (s : State) (k : Nat) (x : Region) : (s.setRegion k x).dom = s.dom := rfl
@[simp] theorem State.setRegion_arrivals (s : State) (k : Nat) (x : Region) : (s.setRegion k x).arrivals = s.arrivals := rfl
@[simp] theorem State.setRegion_pstores (s : State) (k : Nat) (x : Region) : (s.setRegion k x).pstores = s.pstores := rfl
@[simp] theorem State.setRegion_pstoreid (s : State) (k : Nat) (x : Region) : (s.setRegion k x).pstoreid = s.pstoreid := rfl
@[simp] theorem State.setRegion_psigs (s : State) (k : Nat) (x : Region) : (s.setRegion k x).psigs = s.psigs := rfl
@[simp] theorem State.setRegion_incs (s : State) (k : Nat) (x : Region) : (s.setRegion k x).incs = s.incs := rfl
@[simp] theorem State.setRegion_incid (s : State) (k : Nat) (x : Region) : (s.setRegion k x).incid = s.incid := rfl
@[simp] theorem State.setRegion_probes (s : State) (k : Nat) (x : Region) : (s.setRegion k x).probes = s.probes := rfl
@[simp] theorem State.setRegion_probeid (s : State) (k : Nat) (x : Region) : (s.setRegion k x).probeid = s.probeid := rfl
@[simp] theorem State.setRegion_invals (s : State) (k : Nat) (x : Region) : (s.setRegion k x).invals = s.invals := rfl
@[simp] theorem State.setRegion_invalid (s : State) (k : Nat) (x : Region) : (s.setRegion k x).invalid = s.invalid := rfl
@[simp] theorem State.setRegion_hostMem (s : State) (k : Nat) (x : Region) : (s.setRegion k x).hostMem = s.hostMem := rfl
@[simp] theorem State.setRegion_powered (s : State) (k : Nat) (x : Region) : (s.setRegion k x).powered = s.powered := rfl
@[simp] theorem State.setRegion_inputs (s : State) (k : Nat) (x : Region) : (s.setRegion k x).inputs = s.inputs := rfl
@[simp] theorem State.setRegion_agenda (s : State) (k : Nat) (x : Region) : (s.setRegion k x).agenda = s.agenda := rfl
@[simp] theorem State.setRegion_cur (s : State) (k : Nat) (x : Region) : (s.setRegion k x).cur = s.cur := rfl
@[simp] theorem State.setRegion_freeCtr (s : State) (k : Nat) (x : Region) : (s.setRegion k x).freeCtr = s.freeCtr := rfl
@[simp] theorem State.setRegion_outbox (s : State) (k : Nat) (x : Region) : (s.setRegion k x).outbox = s.outbox := rfl

@[simp] theorem State.tile_setRegion (s : State) (k : Nat) (x : Region) (j : Nat) : (s.setRegion k x).tile j = s.tile j := rfl
@[simp] theorem State.die_setRegion (s : State) (k : Nat) (x : Region) (j : Nat) : (s.setRegion k x).die j = s.die j := rfl
@[simp] theorem State.region_setRegion_self (s : State) (k : Nat) (x : Region) : (s.setRegion k x).region k = x := tget_tset_self ..
theorem State.region_setRegion_ne (s : State) {j k : Nat} (x : Region) (h : j ≠ k) : (s.setRegion k x).region j = s.region j := tget_tset_ne _ _ _ h
@[simp] theorem State.ctx_setRegion (s : State) (k : Nat) (x : Region) (j : Nat) : (s.setRegion k x).ctx j = s.ctx j := rfl
@[simp] theorem State.fn_setRegion (s : State) (k : Nat) (x : Region) (j : Nat) : (s.setRegion k x).fn j = s.fn j := rfl
@[simp] theorem State.pool_setRegion (s : State) (k : Nat) (x : Region) (j : Nat) : (s.setRegion k x).pool j = s.pool j := rfl

/-! ### setCtx -/

@[simp] theorem State.setCtx_tiles (s : State) (k : Nat) (x : Ctx) : (s.setCtx k x).tiles = s.tiles := rfl
@[simp] theorem State.setCtx_pools (s : State) (k : Nat) (x : Ctx) : (s.setCtx k x).pools = s.pools := rfl
@[simp] theorem State.setCtx_dram (s : State) (k : Nat) (x : Ctx) : (s.setCtx k x).dram = s.dram := rfl
@[simp] theorem State.setCtx_dramTag (s : State) (k : Nat) (x : Ctx) : (s.setCtx k x).dramTag = s.dramTag := rfl
@[simp] theorem State.setCtx_dramUE (s : State) (k : Nat) (x : Ctx) : (s.setCtx k x).dramUE = s.dramUE := rfl
@[simp] theorem State.setCtx_dies (s : State) (k : Nat) (x : Ctx) : (s.setCtx k x).dies = s.dies := rfl
@[simp] theorem State.setCtx_regions (s : State) (k : Nat) (x : Ctx) : (s.setCtx k x).regions = s.regions := rfl
@[simp] theorem State.setCtx_ctxs (s : State) (k : Nat) (x : Ctx) : (s.setCtx k x).ctxs = tset s.ctxs k x := rfl
@[simp] theorem State.setCtx_fns (s : State) (k : Nat) (x : Ctx) : (s.setCtx k x).fns = s.fns := rfl
@[simp] theorem State.setCtx_hub (s : State) (k : Nat) (x : Ctx) : (s.setCtx k x).hub = s.hub := rfl
@[simp] theorem State.setCtx_links (s : State) (k : Nat) (x : Ctx) : (s.setCtx k x).links = s.links := rfl
@[simp] theorem State.setCtx_dom (s : State) (k : Nat) (x : Ctx) : (s.setCtx k x).dom = s.dom := rfl
@[simp] theorem State.setCtx_arrivals (s : State) (k : Nat) (x : Ctx) : (s.setCtx k x).arrivals = s.arrivals := rfl
@[simp] theorem State.setCtx_pstores (s : State) (k : Nat) (x : Ctx) : (s.setCtx k x).pstores = s.pstores := rfl
@[simp] theorem State.setCtx_pstoreid (s : State) (k : Nat) (x : Ctx) : (s.setCtx k x).pstoreid = s.pstoreid := rfl
@[simp] theorem State.setCtx_psigs (s : State) (k : Nat) (x : Ctx) : (s.setCtx k x).psigs = s.psigs := rfl
@[simp] theorem State.setCtx_incs (s : State) (k : Nat) (x : Ctx) : (s.setCtx k x).incs = s.incs := rfl
@[simp] theorem State.setCtx_incid (s : State) (k : Nat) (x : Ctx) : (s.setCtx k x).incid = s.incid := rfl
@[simp] theorem State.setCtx_probes (s : State) (k : Nat) (x : Ctx) : (s.setCtx k x).probes = s.probes := rfl
@[simp] theorem State.setCtx_probeid (s : State) (k : Nat) (x : Ctx) : (s.setCtx k x).probeid = s.probeid := rfl
@[simp] theorem State.setCtx_invals (s : State) (k : Nat) (x : Ctx) : (s.setCtx k x).invals = s.invals := rfl
@[simp] theorem State.setCtx_invalid (s : State) (k : Nat) (x : Ctx) : (s.setCtx k x).invalid = s.invalid := rfl
@[simp] theorem State.setCtx_hostMem (s : State) (k : Nat) (x : Ctx) : (s.setCtx k x).hostMem = s.hostMem := rfl
@[simp] theorem State.setCtx_powered (s : State) (k : Nat) (x : Ctx) : (s.setCtx k x).powered = s.powered := rfl
@[simp] theorem State.setCtx_inputs (s : State) (k : Nat) (x : Ctx) : (s.setCtx k x).inputs = s.inputs := rfl
@[simp] theorem State.setCtx_agenda (s : State) (k : Nat) (x : Ctx) : (s.setCtx k x).agenda = s.agenda := rfl
@[simp] theorem State.setCtx_cur (s : State) (k : Nat) (x : Ctx) : (s.setCtx k x).cur = s.cur := rfl
@[simp] theorem State.setCtx_freeCtr (s : State) (k : Nat) (x : Ctx) : (s.setCtx k x).freeCtr = s.freeCtr := rfl
@[simp] theorem State.setCtx_outbox (s : State) (k : Nat) (x : Ctx) : (s.setCtx k x).outbox = s.outbox := rfl

@[simp] theorem State.tile_setCtx (s : State) (k : Nat) (x : Ctx) (j : Nat) : (s.setCtx k x).tile j = s.tile j := rfl
@[simp] theorem State.die_setCtx (s : State) (k : Nat) (x : Ctx) (j : Nat) : (s.setCtx k x).die j = s.die j := rfl
@[simp] theorem State.region_setCtx (s : State) (k : Nat) (x : Ctx) (j : Nat) : (s.setCtx k x).region j = s.region j := rfl
@[simp] theorem State.ctx_setCtx_self (s : State) (k : Nat) (x : Ctx) : (s.setCtx k x).ctx k = x := tget_tset_self ..
theorem State.ctx_setCtx_ne (s : State) {j k : Nat} (x : Ctx) (h : j ≠ k) : (s.setCtx k x).ctx j = s.ctx j := tget_tset_ne _ _ _ h
@[simp] theorem State.fn_setCtx (s : State) (k : Nat) (x : Ctx) (j : Nat) : (s.setCtx k x).fn j = s.fn j := rfl
@[simp] theorem State.pool_setCtx (s : State) (k : Nat) (x : Ctx) (j : Nat) : (s.setCtx k x).pool j = s.pool j := rfl

/-! ### setFn -/

@[simp] theorem State.setFn_tiles (s : State) (k : Nat) (x : Fn) : (s.setFn k x).tiles = s.tiles := rfl
@[simp] theorem State.setFn_pools (s : State) (k : Nat) (x : Fn) : (s.setFn k x).pools = s.pools := rfl
@[simp] theorem State.setFn_dram (s : State) (k : Nat) (x : Fn) : (s.setFn k x).dram = s.dram := rfl
@[simp] theorem State.setFn_dramTag (s : State) (k : Nat) (x : Fn) : (s.setFn k x).dramTag = s.dramTag := rfl
@[simp] theorem State.setFn_dramUE (s : State) (k : Nat) (x : Fn) : (s.setFn k x).dramUE = s.dramUE := rfl
@[simp] theorem State.setFn_dies (s : State) (k : Nat) (x : Fn) : (s.setFn k x).dies = s.dies := rfl
@[simp] theorem State.setFn_regions (s : State) (k : Nat) (x : Fn) : (s.setFn k x).regions = s.regions := rfl
@[simp] theorem State.setFn_ctxs (s : State) (k : Nat) (x : Fn) : (s.setFn k x).ctxs = s.ctxs := rfl
@[simp] theorem State.setFn_fns (s : State) (k : Nat) (x : Fn) : (s.setFn k x).fns = tset s.fns k x := rfl
@[simp] theorem State.setFn_hub (s : State) (k : Nat) (x : Fn) : (s.setFn k x).hub = s.hub := rfl
@[simp] theorem State.setFn_links (s : State) (k : Nat) (x : Fn) : (s.setFn k x).links = s.links := rfl
@[simp] theorem State.setFn_dom (s : State) (k : Nat) (x : Fn) : (s.setFn k x).dom = s.dom := rfl
@[simp] theorem State.setFn_arrivals (s : State) (k : Nat) (x : Fn) : (s.setFn k x).arrivals = s.arrivals := rfl
@[simp] theorem State.setFn_pstores (s : State) (k : Nat) (x : Fn) : (s.setFn k x).pstores = s.pstores := rfl
@[simp] theorem State.setFn_pstoreid (s : State) (k : Nat) (x : Fn) : (s.setFn k x).pstoreid = s.pstoreid := rfl
@[simp] theorem State.setFn_psigs (s : State) (k : Nat) (x : Fn) : (s.setFn k x).psigs = s.psigs := rfl
@[simp] theorem State.setFn_incs (s : State) (k : Nat) (x : Fn) : (s.setFn k x).incs = s.incs := rfl
@[simp] theorem State.setFn_incid (s : State) (k : Nat) (x : Fn) : (s.setFn k x).incid = s.incid := rfl
@[simp] theorem State.setFn_probes (s : State) (k : Nat) (x : Fn) : (s.setFn k x).probes = s.probes := rfl
@[simp] theorem State.setFn_probeid (s : State) (k : Nat) (x : Fn) : (s.setFn k x).probeid = s.probeid := rfl
@[simp] theorem State.setFn_invals (s : State) (k : Nat) (x : Fn) : (s.setFn k x).invals = s.invals := rfl
@[simp] theorem State.setFn_invalid (s : State) (k : Nat) (x : Fn) : (s.setFn k x).invalid = s.invalid := rfl
@[simp] theorem State.setFn_hostMem (s : State) (k : Nat) (x : Fn) : (s.setFn k x).hostMem = s.hostMem := rfl
@[simp] theorem State.setFn_powered (s : State) (k : Nat) (x : Fn) : (s.setFn k x).powered = s.powered := rfl
@[simp] theorem State.setFn_inputs (s : State) (k : Nat) (x : Fn) : (s.setFn k x).inputs = s.inputs := rfl
@[simp] theorem State.setFn_agenda (s : State) (k : Nat) (x : Fn) : (s.setFn k x).agenda = s.agenda := rfl
@[simp] theorem State.setFn_cur (s : State) (k : Nat) (x : Fn) : (s.setFn k x).cur = s.cur := rfl
@[simp] theorem State.setFn_freeCtr (s : State) (k : Nat) (x : Fn) : (s.setFn k x).freeCtr = s.freeCtr := rfl
@[simp] theorem State.setFn_outbox (s : State) (k : Nat) (x : Fn) : (s.setFn k x).outbox = s.outbox := rfl

@[simp] theorem State.tile_setFn (s : State) (k : Nat) (x : Fn) (j : Nat) : (s.setFn k x).tile j = s.tile j := rfl
@[simp] theorem State.die_setFn (s : State) (k : Nat) (x : Fn) (j : Nat) : (s.setFn k x).die j = s.die j := rfl
@[simp] theorem State.region_setFn (s : State) (k : Nat) (x : Fn) (j : Nat) : (s.setFn k x).region j = s.region j := rfl
@[simp] theorem State.ctx_setFn (s : State) (k : Nat) (x : Fn) (j : Nat) : (s.setFn k x).ctx j = s.ctx j := rfl
@[simp] theorem State.fn_setFn_self (s : State) (k : Nat) (x : Fn) : (s.setFn k x).fn k = x := tget_tset_self ..
theorem State.fn_setFn_ne (s : State) {j k : Nat} (x : Fn) (h : j ≠ k) : (s.setFn k x).fn j = s.fn j := tget_tset_ne _ _ _ h
@[simp] theorem State.pool_setFn (s : State) (k : Nat) (x : Fn) (j : Nat) : (s.setFn k x).pool j = s.pool j := rfl

/-! ### setPool -/

@[simp] theorem State.setPool_tiles (s : State) (k : Nat) (x : Pool) : (s.setPool k x).tiles = s.tiles := rfl
@[simp] theorem State.setPool_pools (s : State) (k : Nat) (x : Pool) : (s.setPool k x).pools = tset s.pools k x := rfl
@[simp] theorem State.setPool_dram (s : State) (k : Nat) (x : Pool) : (s.setPool k x).dram = s.dram := rfl
@[simp] theorem State.setPool_dramTag (s : State) (k : Nat) (x : Pool) : (s.setPool k x).dramTag = s.dramTag := rfl
@[simp] theorem State.setPool_dramUE (s : State) (k : Nat) (x : Pool) : (s.setPool k x).dramUE = s.dramUE := rfl
@[simp] theorem State.setPool_dies (s : State) (k : Nat) (x : Pool) : (s.setPool k x).dies = s.dies := rfl
@[simp] theorem State.setPool_regions (s : State) (k : Nat) (x : Pool) : (s.setPool k x).regions = s.regions := rfl
@[simp] theorem State.setPool_ctxs (s : State) (k : Nat) (x : Pool) : (s.setPool k x).ctxs = s.ctxs := rfl
@[simp] theorem State.setPool_fns (s : State) (k : Nat) (x : Pool) : (s.setPool k x).fns = s.fns := rfl
@[simp] theorem State.setPool_hub (s : State) (k : Nat) (x : Pool) : (s.setPool k x).hub = s.hub := rfl
@[simp] theorem State.setPool_links (s : State) (k : Nat) (x : Pool) : (s.setPool k x).links = s.links := rfl
@[simp] theorem State.setPool_dom (s : State) (k : Nat) (x : Pool) : (s.setPool k x).dom = s.dom := rfl
@[simp] theorem State.setPool_arrivals (s : State) (k : Nat) (x : Pool) : (s.setPool k x).arrivals = s.arrivals := rfl
@[simp] theorem State.setPool_pstores (s : State) (k : Nat) (x : Pool) : (s.setPool k x).pstores = s.pstores := rfl
@[simp] theorem State.setPool_pstoreid (s : State) (k : Nat) (x : Pool) : (s.setPool k x).pstoreid = s.pstoreid := rfl
@[simp] theorem State.setPool_psigs (s : State) (k : Nat) (x : Pool) : (s.setPool k x).psigs = s.psigs := rfl
@[simp] theorem State.setPool_incs (s : State) (k : Nat) (x : Pool) : (s.setPool k x).incs = s.incs := rfl
@[simp] theorem State.setPool_incid (s : State) (k : Nat) (x : Pool) : (s.setPool k x).incid = s.incid := rfl
@[simp] theorem State.setPool_probes (s : State) (k : Nat) (x : Pool) : (s.setPool k x).probes = s.probes := rfl
@[simp] theorem State.setPool_probeid (s : State) (k : Nat) (x : Pool) : (s.setPool k x).probeid = s.probeid := rfl
@[simp] theorem State.setPool_invals (s : State) (k : Nat) (x : Pool) : (s.setPool k x).invals = s.invals := rfl
@[simp] theorem State.setPool_invalid (s : State) (k : Nat) (x : Pool) : (s.setPool k x).invalid = s.invalid := rfl
@[simp] theorem State.setPool_hostMem (s : State) (k : Nat) (x : Pool) : (s.setPool k x).hostMem = s.hostMem := rfl
@[simp] theorem State.setPool_powered (s : State) (k : Nat) (x : Pool) : (s.setPool k x).powered = s.powered := rfl
@[simp] theorem State.setPool_inputs (s : State) (k : Nat) (x : Pool) : (s.setPool k x).inputs = s.inputs := rfl
@[simp] theorem State.setPool_agenda (s : State) (k : Nat) (x : Pool) : (s.setPool k x).agenda = s.agenda := rfl
@[simp] theorem State.setPool_cur (s : State) (k : Nat) (x : Pool) : (s.setPool k x).cur = s.cur := rfl
@[simp] theorem State.setPool_freeCtr (s : State) (k : Nat) (x : Pool) : (s.setPool k x).freeCtr = s.freeCtr := rfl
@[simp] theorem State.setPool_outbox (s : State) (k : Nat) (x : Pool) : (s.setPool k x).outbox = s.outbox := rfl

@[simp] theorem State.tile_setPool (s : State) (k : Nat) (x : Pool) (j : Nat) : (s.setPool k x).tile j = s.tile j := rfl
@[simp] theorem State.die_setPool (s : State) (k : Nat) (x : Pool) (j : Nat) : (s.setPool k x).die j = s.die j := rfl
@[simp] theorem State.region_setPool (s : State) (k : Nat) (x : Pool) (j : Nat) : (s.setPool k x).region j = s.region j := rfl
@[simp] theorem State.ctx_setPool (s : State) (k : Nat) (x : Pool) (j : Nat) : (s.setPool k x).ctx j = s.ctx j := rfl
@[simp] theorem State.fn_setPool (s : State) (k : Nat) (x : Pool) (j : Nat) : (s.setPool k x).fn j = s.fn j := rfl
@[simp] theorem State.pool_setPool_self (s : State) (k : Nat) (x : Pool) : (s.setPool k x).pool k = x := tget_tset_self ..
theorem State.pool_setPool_ne (s : State) {j k : Nat} (x : Pool) (h : j ≠ k) : (s.setPool k x).pool j = s.pool j := tget_tset_ne _ _ _ h

@[simp] theorem State.tel_tiles (s : State) (off : Nat) : (s.tel off).tiles = s.tiles := rfl
@[simp] theorem State.tel_pools (s : State) (off : Nat) : (s.tel off).pools = s.pools := rfl
@[simp] theorem State.tel_dram (s : State) (off : Nat) : (s.tel off).dram = s.dram := rfl
@[simp] theorem State.tel_dramTag (s : State) (off : Nat) : (s.tel off).dramTag = s.dramTag := rfl
@[simp] theorem State.tel_dramUE (s : State) (off : Nat) : (s.tel off).dramUE = s.dramUE := rfl
@[simp] theorem State.tel_dies (s : State) (off : Nat) : (s.tel off).dies = s.dies := rfl
@[simp] theorem State.tel_regions (s : State) (off : Nat) : (s.tel off).regions = s.regions := rfl
@[simp] theorem State.tel_ctxs (s : State) (off : Nat) : (s.tel off).ctxs = s.ctxs := rfl
@[simp] theorem State.tel_fns (s : State) (off : Nat) : (s.tel off).fns = s.fns := rfl
@[simp] theorem State.tel_links (s : State) (off : Nat) : (s.tel off).links = s.links := rfl
@[simp] theorem State.tel_dom (s : State) (off : Nat) : (s.tel off).dom = s.dom := rfl
@[simp] theorem State.tel_arrivals (s : State) (off : Nat) : (s.tel off).arrivals = s.arrivals := rfl
@[simp] theorem State.tel_pstores (s : State) (off : Nat) : (s.tel off).pstores = s.pstores := rfl
@[simp] theorem State.tel_pstoreid (s : State) (off : Nat) : (s.tel off).pstoreid = s.pstoreid := rfl
@[simp] theorem State.tel_psigs (s : State) (off : Nat) : (s.tel off).psigs = s.psigs := rfl
@[simp] theorem State.tel_incs (s : State) (off : Nat) : (s.tel off).incs = s.incs := rfl
@[simp] theorem State.tel_incid (s : State) (off : Nat) : (s.tel off).incid = s.incid := rfl
@[simp] theorem State.tel_probes (s : State) (off : Nat) : (s.tel off).probes = s.probes := rfl
@[simp] theorem State.tel_probeid (s : State) (off : Nat) : (s.tel off).probeid = s.probeid := rfl
@[simp] theorem State.tel_invals (s : State) (off : Nat) : (s.tel off).invals = s.invals := rfl
@[simp] theorem State.tel_invalid (s : State) (off : Nat) : (s.tel off).invalid = s.invalid := rfl
@[simp] theorem State.tel_hostMem (s : State) (off : Nat) : (s.tel off).hostMem = s.hostMem := rfl
@[simp] theorem State.tel_powered (s : State) (off : Nat) : (s.tel off).powered = s.powered := rfl
@[simp] theorem State.tel_inputs (s : State) (off : Nat) : (s.tel off).inputs = s.inputs := rfl
@[simp] theorem State.tel_agenda (s : State) (off : Nat) : (s.tel off).agenda = s.agenda := rfl
@[simp] theorem State.tel_cur (s : State) (off : Nat) : (s.tel off).cur = s.cur := rfl
@[simp] theorem State.tel_freeCtr (s : State) (off : Nat) : (s.tel off).freeCtr = s.freeCtr := rfl
@[simp] theorem State.tel_outbox (s : State) (off : Nat) : (s.tel off).outbox = s.outbox := rfl

@[simp] theorem State.send_tiles (s : State) (kind : String) (args : List Nat) : (s.send kind args).tiles = s.tiles := rfl
@[simp] theorem State.send_pools (s : State) (kind : String) (args : List Nat) : (s.send kind args).pools = s.pools := rfl
@[simp] theorem State.send_dram (s : State) (kind : String) (args : List Nat) : (s.send kind args).dram = s.dram := rfl
@[simp] theorem State.send_dramTag (s : State) (kind : String) (args : List Nat) : (s.send kind args).dramTag = s.dramTag := rfl
@[simp] theorem State.send_dramUE (s : State) (kind : String) (args : List Nat) : (s.send kind args).dramUE = s.dramUE := rfl
@[simp] theorem State.send_dies (s : State) (kind : String) (args : List Nat) : (s.send kind args).dies = s.dies := rfl
@[simp] theorem State.send_regions (s : State) (kind : String) (args : List Nat) : (s.send kind args).regions = s.regions := rfl
@[simp] theorem State.send_ctxs (s : State) (kind : String) (args : List Nat) : (s.send kind args).ctxs = s.ctxs := rfl
@[simp] theorem State.send_fns (s : State) (kind : String) (args : List Nat) : (s.send kind args).fns = s.fns := rfl
@[simp] theorem State.send_hub (s : State) (kind : String) (args : List Nat) : (s.send kind args).hub = s.hub := rfl
@[simp] theorem State.send_links (s : State) (kind : String) (args : List Nat) : (s.send kind args).links = s.links := rfl
@[simp] theorem State.send_dom (s : State) (kind : String) (args : List Nat) : (s.send kind args).dom = s.dom := rfl
@[simp] theorem State.send_arrivals (s : State) (kind : String) (args : List Nat) : (s.send kind args).arrivals = s.arrivals := rfl
@[simp] theorem State.send_pstores (s : State) (kind : String) (args : List Nat) : (s.send kind args).pstores = s.pstores := rfl
@[simp] theorem State.send_pstoreid (s : State) (kind : String) (args : List Nat) : (s.send kind args).pstoreid = s.pstoreid := rfl
@[simp] theorem State.send_psigs (s : State) (kind : String) (args : List Nat) : (s.send kind args).psigs = s.psigs := rfl
@[simp] theorem State.send_incs (s : State) (kind : String) (args : List Nat) : (s.send kind args).incs = s.incs := rfl
@[simp] theorem State.send_incid (s : State) (kind : String) (args : List Nat) : (s.send kind args).incid = s.incid := rfl
@[simp] theorem State.send_probes (s : State) (kind : String) (args : List Nat) : (s.send kind args).probes = s.probes := rfl
@[simp] theorem State.send_probeid (s : State) (kind : String) (args : List Nat) : (s.send kind args).probeid = s.probeid := rfl
@[simp] theorem State.send_invals (s : State) (kind : String) (args : List Nat) : (s.send kind args).invals = s.invals := rfl
@[simp] theorem State.send_invalid (s : State) (kind : String) (args : List Nat) : (s.send kind args).invalid = s.invalid := rfl
@[simp] theorem State.send_hostMem (s : State) (kind : String) (args : List Nat) : (s.send kind args).hostMem = s.hostMem := rfl
@[simp] theorem State.send_powered (s : State) (kind : String) (args : List Nat) : (s.send kind args).powered = s.powered := rfl
@[simp] theorem State.send_inputs (s : State) (kind : String) (args : List Nat) : (s.send kind args).inputs = s.inputs := rfl
@[simp] theorem State.send_agenda (s : State) (kind : String) (args : List Nat) : (s.send kind args).agenda = s.agenda := rfl
@[simp] theorem State.send_cur (s : State) (kind : String) (args : List Nat) : (s.send kind args).cur = s.cur := rfl
@[simp] theorem State.send_freeCtr (s : State) (kind : String) (args : List Nat) : (s.send kind args).freeCtr = s.freeCtr := rfl

/-! ### The executing agent -/

theorem State.core_tile {s : State} {k : Nat} (h : s.cur.agent = .tile k) : s.core = (s.tile k).core := by
  simp [State.core, h]
theorem State.core_sorrel {s : State} {d : Nat} (h : s.cur.agent = .sorrel d) : s.core = (s.die d).sorrel := by
  simp [State.core, h]
theorem State.setCore_tile {s : State} {k : Nat} (c : Core) (h : s.cur.agent = .tile k) :
    s.setCore c = s.setTile k { s.tile k with core := c } := by
  simp [State.setCore, h]
theorem State.setCore_sorrel {s : State} {d : Nat} (c : Core) (h : s.cur.agent = .sorrel d) :
    s.setCore c = s.setDie d { s.die d with sorrel := c } := by
  simp [State.setCore, h]
theorem State.me_tile {s : State} {k : Nat} (h : s.cur.agent = .tile k) : s.me = k := by simp [State.me, h]
theorem State.onSorrel_tile {s : State} {k : Nat} (h : s.cur.agent = .tile k) : s.onSorrel = false := by
  simp [State.onSorrel, h]
theorem State.onSorrel_sorrel {s : State} {d : Nat} (h : s.cur.agent = .sorrel d) : s.onSorrel = true := by
  simp [State.onSorrel, h]

@[simp] theorem State.setCore_cur (s : State) (c : Core) : (s.setCore c).cur = s.cur := by
  unfold State.setCore; split <;> rfl
@[simp] theorem State.setPc_cur (s : State) (n : Nat) : (s.setPc n).cur = s.cur := by simp [State.setPc]

/-- The front end of a tile reads back what was written to it. -/
theorem State.core_setCore_tile {s : State} {k : Nat} (c : Core) (h : s.cur.agent = .tile k) : (s.setCore c).core = c := by
  rw [State.core_tile (by simpa using h), State.setCore_tile c h]; simp
theorem State.core_setCore_sorrel {s : State} {d : Nat} (c : Core) (h : s.cur.agent = .sorrel d) : (s.setCore c).core = c := by
  rw [State.core_sorrel (by simpa using h), State.setCore_sorrel c h]; simp

@[simp] theorem State.setCore_pools (s : State) (c : Core) : (s.setCore c).pools = s.pools := by
  unfold State.setCore; split <;> rfl
@[simp] theorem State.setCore_dram (s : State) (c : Core) : (s.setCore c).dram = s.dram := by
  unfold State.setCore; split <;> rfl
@[simp] theorem State.setCore_dramTag (s : State) (c : Core) : (s.setCore c).dramTag = s.dramTag := by
  unfold State.setCore; split <;> rfl
@[simp] theorem State.setCore_dramUE (s : State) (c : Core) : (s.setCore c).dramUE = s.dramUE := by
  unfold State.setCore; split <;> rfl
@[simp] theorem State.setCore_regions (s : State) (c : Core) : (s.setCore c).regions = s.regions := by
  unfold State.setCore; split <;> rfl
@[simp] theorem State.setCore_ctxs (s : State) (c : Core) : (s.setCore c).ctxs = s.ctxs := by
  unfold State.setCore; split <;> rfl
@[simp] theorem State.setCore_fns (s : State) (c : Core) : (s.setCore c).fns = s.fns := by
  unfold State.setCore; split <;> rfl
@[simp] theorem State.setCore_hub (s : State) (c : Core) : (s.setCore c).hub = s.hub := by
  unfold State.setCore; split <;> rfl
@[simp] theorem State.setCore_links (s : State) (c : Core) : (s.setCore c).links = s.links := by
  unfold State.setCore; split <;> rfl
@[simp] theorem State.setCore_dom (s : State) (c : Core) : (s.setCore c).dom = s.dom := by
  unfold State.setCore; split <;> rfl
@[simp] theorem State.setCore_arrivals (s : State) (c : Core) : (s.setCore c).arrivals = s.arrivals := by
  unfold State.setCore; split <;> rfl
@[simp] theorem State.setCore_pstores (s : State) (c : Core) : (s.setCore c).pstores = s.pstores := by
  unfold State.setCore; split <;> rfl
@[simp] theorem State.setCore_pstoreid (s : State) (c : Core) : (s.setCore c).pstoreid = s.pstoreid := by
  unfold State.setCore; split <;> rfl
@[simp] theorem State.setCore_psigs (s : State) (c : Core) : (s.setCore c).psigs = s.psigs := by
  unfold State.setCore; split <;> rfl
@[simp] theorem State.setCore_incs (s : State) (c : Core) : (s.setCore c).incs = s.incs := by
  unfold State.setCore; split <;> rfl
@[simp] theorem State.setCore_incid (s : State) (c : Core) : (s.setCore c).incid = s.incid := by
  unfold State.setCore; split <;> rfl
@[simp] theorem State.setCore_probes (s : State) (c : Core) : (s.setCore c).probes = s.probes := by
  unfold State.setCore; split <;> rfl
@[simp] theorem State.setCore_probeid (s : State) (c : Core) : (s.setCore c).probeid = s.probeid := by
  unfold State.setCore; split <;> rfl
@[simp] theorem State.setCore_invals (s : State) (c : Core) : (s.setCore c).invals = s.invals := by
  unfold State.setCore; split <;> rfl
@[simp] theorem State.setCore_invalid (s : State) (c : Core) : (s.setCore c).invalid = s.invalid := by
  unfold State.setCore; split <;> rfl
@[simp] theorem State.setCore_hostMem (s : State) (c : Core) : (s.setCore c).hostMem = s.hostMem := by
  unfold State.setCore; split <;> rfl
@[simp] theorem State.setCore_powered (s : State) (c : Core) : (s.setCore c).powered = s.powered := by
  unfold State.setCore; split <;> rfl
@[simp] theorem State.setCore_inputs (s : State) (c : Core) : (s.setCore c).inputs = s.inputs := by
  unfold State.setCore; split <;> rfl
@[simp] theorem State.setCore_agenda (s : State) (c : Core) : (s.setCore c).agenda = s.agenda := by
  unfold State.setCore; split <;> rfl
@[simp] theorem State.setCore_freeCtr (s : State) (c : Core) : (s.setCore c).freeCtr = s.freeCtr := by
  unfold State.setCore; split <;> rfl
@[simp] theorem State.setCore_outbox (s : State) (c : Core) : (s.setCore c).outbox = s.outbox := by
  unfold State.setCore; split <;> rfl

end Sys2Proof.Machine
end

