-- ==== Sys2Proof/Laws/Words.lean ====
section
/-! SUPPORT. What the shapes shared by many words come to: a front-end word that goes, a scalar, predicate or capability word, a queued
word that issues. -/

namespace Sys2Proof.Machine

/-- A front-end word that goes is its body. -/
theorem feWord_goes {p : BitVec 4} {s : State} (h : s.goes p) (body : State → FRes) :
    feWord p s body = .next (body s).state := by
  simp only [State.goes] at h
  simp [feWord, predGate, h]

/-- Under a false predicate it only lets the next word follow. -/
theorem feWord_false {p : BitVec 4} {s : State} (h : s.core.qv p.toNat = (false, false)) (body : State → FRes) :
    feWord p s body = .next (s.setPc (s.cur.pc + 8)) := by
  simp [feWord, predGate, h, FRes.state]

/-- Under a poisoned predicate it raises POISBR. -/
theorem feWord_poison {p : BitVec 4} {s : State} (h : (s.core.qv p.toNat).2 = true) (body : State → FRes) :
    feWord p s body = .next (s.take { cause := cPOISBR, val := p.toNat }) := by
  simp [feWord, predGate, h, FRes.state]

@[simp] theorem FRes.step_setCore (s : State) (c : Core) : (FRes.step (s.setCore c)).state = s.after c := by
  simp [FRes.state, State.after]

theorem scalWord_goes {p : BitVec 4} {s : State} (h : s.goes p) (d : BitVec 6) (g : Core → Scal) :
    scalWord p d s g = .next (s.after (s.core.setS d.toNat (g s.core))) := by
  simp [scalWord, feWord_goes h]

/-- A scalar result of sources without poison. -/
theorem scalRes_clean {l : List Scal} (h : ∀ x ∈ l, x.tag = false) (v : BitVec 64) : scalRes l v = ⟨v, false⟩ := by
  have : l.filter Scal.tag = [] := List.filter_eq_nil_iff.mpr fun x hx => by simp [h x hx]
  simp [scalRes, this]

theorem predWord_goes {p : BitVec 4} {s : State} (h : s.goes p) {d : BitVec 6} (hd : s.core.owned d.toNat = false)
    (g : Core → Bool × Bool) :
    predWord p d s g = .next (s.after (s.core.setQ d.toNat ((g s.core).1 && !(g s.core).2) (g s.core).2)) := by
  simp [predWord, feWord_goes h, hd]

theorem capWord_ok {p : BitVec 4} {s : State} (h : s.goes p) (d : BitVec 6) {g : Core → Except TrapInfo Cap} {c : Cap}
    (hg : g s.core = .ok c) : capWord p d s g = .next (s.after (s.core.setCap d.toNat c)) := by
  simp [capWord, feWord_goes h, hg]

theorem capWord_trap {p : BitVec 4} {s : State} (h : s.goes p) (d : BitVec 6) {g : Core → Except TrapInfo Cap} {t : TrapInfo}
    (hg : g s.core = .error t) : capWord p d s g = .next (s.take t) := by
  simp [capWord, feWord_goes h, hg, FRes.state]

/-- What a queued word of a tile comes to, by what its body answers. -/
theorem qWord_issues {s : State} {k : Nat} (h : s.issues k) (hd : Hdr) (body : State → QRes) :
    qWord hd s body = .next (match body s with
      | .wait => s
      | .trap s' t => s'.take t
      | .done s' => pushDone hd (issueHead hd s')
      | .held s' => issueHead hd s'
      | .result s' lat dst y acc => putDue hd (issueHead hd s') lat dst y acc) := by
  obtain ⟨h1, h2⟩ := h
  simp only [qWord, State.onSorrel, h1, h2, if_true]
  rfl

/-- Under a false predicate it takes its tokens and makes its pushes. -/
theorem qWord_false {s : State} {k : Nat} (h : s.byTile k) (hp : s.cur.pred = false) (hd : Hdr) (body : State → QRes) :
    qWord hd s body = .next (pushDone hd (issueHead hd s)) := by
  simp only [State.byTile] at h
  simp [qWord, State.onSorrel, h, hp]

/-- A supervisor word on a tile raises PRIV (R100). -/
theorem svWord_tile {s : State} {k : Nat} (h : s.byTile k) (p : BitVec 4) (body : State → FRes) :
    svWord p s body = .next (s.take { cause := cPRIV, val := s.cur.w0 }) := by
  simp only [State.byTile] at h
  simp [svWord, State.onSorrel, h, FRes.state]

/-- On Sorrel it is its body when it goes. -/
theorem svWord_sorrel {s : State} {d : Nat} (h : s.bySorrel d) {p : BitVec 4} (hp : s.goes p) (body : State → FRes) :
    svWord p s body = .next (body s).state := by
  simp only [State.bySorrel] at h
  simp only [State.goes] at hp
  simp [svWord, State.onSorrel, h, predGate, hp]

/-- A supervisor word whose inputs are ready comes to what its body answers (R321). -/
theorem svOp_ready {s : State} {d k : Nat} {p : BitVec 4} {f : FmtZ} (h : s.svReady d p f k)
    (body : State → Nat → List Nat → State × Nat) :
    svOp p f k s body
      = .next ((body s (s.reg f.a.toNat) ((List.range k).map fun j => s.reg (f.b.toNat + j))).1.svDone f.a.toNat
          (body s (s.reg f.a.toNat) ((List.range k).map fun j => s.reg (f.b.toNat + j))).2) := by
  obtain ⟨h1, h2, h3, h4⟩ := h
  have h5 : (((List.range k).map fun i => s.core.s (f.b.toNat + i)).any Scal.tag) = false := by
    simpa [List.any_eq_false] using h4
  simp only [svOp, svWord_sorrel h1 h2, h3, h5, State.svDone, State.reg, List.map_map, Function.comp_def]
  rfl

end Sys2Proof.Machine
end

