-- ==== Sys2Proof/Tests/Slice0.lean ====
section
/-! SUPPORT. Tests of the model: refused ill-formed terms, words that the spec writes out, single steps whose results the spec gives, and
states that meet the hypotheses of the statements. -/

namespace Sys2Proof.Tests

open Sys2Proof Sys2Proof.Machine
set_option Elab.async false

/-- No tokens and the predicate q0. -/
abbrev h0 : Hdr := ⟨false, false, false, false, 0⟩

/-! ### States that the tests start from -/

/-- Tile 0 runs a word of its front end, or of the queue that `cur` names. -/
abbrev onTile (t : Tile) : State := { tiles := [(0, t)] }
/-- The Sorrel of die 0 runs a word. -/
abbrev onSorrel (c : Core) : State := { cur := { agent := .sorrel 0 }, dies := [(0, { state := 5, sorrel := c })] }
/-- Scalar registers by number, without a window offset and without poison. -/
abbrev regs (l : List (Nat × BitVec 64)) : Core := { sreg := l.map fun x => (x.1, ⟨x.2, false⟩) }
/-- The state an outcome gives. -/
def after (o : Out) : State := nextOr {} o

/-! ### Words the spec writes out -/

/-- 04_encoding.md Table 42. -/
theorem test_decode_common :
    decode 0x0000000000000000 0 = .ok (.nop 0 ⟨0, 0, 0, 0⟩)
      ∧ decode 0x6159041800000000 0 = .ok (.ldv ⟨false, true, false, true, 9⟩ ⟨4, 3, 0, 0, 0, 0, 0⟩)
      ∧ decode 0x61000418A1800100 0 = .ok (.ldv h0 ⟨4, 3, 5, 0, 3, 64, 0⟩)
      ∧ decode 0x4000080442080003 0 = .ok (.vfma h0 ⟨8, 4, 0x42, 8, 0, 0, 0, 0, 3⟩)
      ∧ decode 0x21005030FFFFFFFF 0 = .ok (.addi 0 ⟨20, 3, 0, 0xFFFFFFFF⟩)
      ∧ decode 0x6800200000000000 0 = .ok (.markL h0 ⟨2, 0, 0, 0, 0⟩)
      ∧ decode 0x8600200000000000 0 = .ok (.markS h0 ⟨2, 0, 0, 0, 0⟩)
      ∧ decode 0x4000080442080603 0 = .error .field ∧ decode 0x0010000000000000 0 = .error .tokenBit
      ∧ decode 0x0C00000000000000 0 = .error .unassigned := by decide

/-- 05_control_scalar.md Table 54 and the word of its `cder` example. -/
theorem test_decode_scalar :
    decode 0x220050000000000A 0 = .ok (.li 0 ⟨20, 0, 0, 10⟩) ∧ decode 0x0600500000000003 0 = .ok (.loop 0 ⟨20, 0, 0, 3⟩)
      ∧ decode 0x2000555580000000 0 = .ok (.add 0 ⟨21, 21, 22, 0, 0, 0, 0⟩) ∧ decode 0x0700000000000000 0 = .ok (.lend 0 ⟨0, 0, 0, 0⟩)
      ∧ decode 0x0B00000000000000 0 = .ok (.halt 0 ⟨0, 0, 0, 0⟩) ∧ decode 0x3100103600021000 0 = .ok (.cder 0 ⟨4, 3, 24, 0, 0x21, 0, 0⟩)
      ∧ decode 0x2A00780000101000 0 = .ok (.mfsr 0 ⟨30, 0, 0, 0, 0x101, 0, 0⟩)
      ∧ decode 0x2B0001F000100000 0 = .ok (.mtsr 0 ⟨0, 31, 0, 0, 0x100, 0, 0⟩) := by decide

/-- 06_vector_arith.md Table 67 and its illegal words. -/
theorem test_decode_vector_arith :
    decode 0x4000010203000000 0 = .ok (.vadd h0 ⟨1, 2, 3, 0, 0, 0, 0, 0, 0⟩)
      ∧ decode 0x40020A0B3F8008AF 0 = .ok (.vmax ⟨false, false, false, false, 2⟩ ⟨10, 11, 0x3F, 0x80, 1, 0, 5, 1, 7⟩)
      ∧ decode 0x40101E1F401E1503 0 = .ok (.vfma ⟨false, false, false, true, 0⟩ ⟨0x1E, 0x1F, 0x40, 0x1E, 2, 5, 0, 0, 3⟩)
      ∧ decode 0x4700030409000012 0 = .ok (.vcmp h0 ⟨3, 4, 9, 0, 0, 0, 0, 2, 2⟩)
      ∧ decode 0x4A001408001C0000 0 = .ok (.vcvt h0 ⟨20, 8, 0, 3, true, 0, 0, 0, 0, 0, 0⟩)
      ∧ decode 0x400001020300000B 0 = .error .field ∧ decode 0x4000010203000008 0 = .ok (.vadd h0 ⟨1, 2, 3, 0, 0, 0, 0, 1, 0⟩)
      ∧ decode 0x4A001409001C0000 0 = .error .field ∧ decode 0x4000010203000700 0 = .error .field
      ∧ decode 0x4500010203000001 0 = .error .field := by decide

/-- 07_vector_data.md Table 74. -/
theorem test_decode_vector_data :
    decode 0x5600020700000060 0 = .ok (.vred h0 ⟨2, 7, 0, 0, 0, 0, 3, 0, 0⟩)
      ∧ decode 0x57000A0400003840 0 = .ok (.vredx h0 ⟨10, 4, 0, 0, 7, 0, 2, 0, 0⟩)
      ∧ decode 0x5100090102006000 0 = .ok (.vperm h0 ⟨9, 1, 2, 0, 12, 0, 0, 0, 0⟩)
      ∧ decode 0x5300040400016008 0 = .ok (.vrot h0 ⟨4, 4, 0, 1, 12, 0, 0, 1, 0⟩)
      ∧ decode 0x4F000C4300056008 0 = .ok (.vext h0 ⟨12, 0x43, 0, 5, 12, 0, 0, 1, 0⟩)
      ∧ decode 0x4D00070009000010 0 = .ok (.vsplat h0 ⟨7, 0, 9, 0, 0, 0, 0, 2, 0⟩)
      ∧ decode 0x5900140800180000 0 = .ok (.vmqnt h0 ⟨20, 8, 0, 3, false, 0, 0, 0, 0, 0, 0⟩)
      ∧ decode 0x5A00201415001800 0 = .ok (.vmdq h0 ⟨32, 20, 21, 0, false, 0, 3, 0, 0, 0, 0⟩)
      ∧ decode 0x5B001E0C28000000 0 = .ok (.vscl h0 ⟨30, 12, 40, 0, false, 0, 0, 0, 0, 0, 0⟩)
      ∧ decode 0x5C00180300184800 0 = .ok (.vlqd h0 ⟨24, 3, 0, 3, false, 0, 9, 0, 0, 0, 0⟩)
      ∧ decode 0x5D00050000000020 0 = .ok (.vpsn h0 ⟨5, 0, 0, 0, 0, 0, 1, 0, 0⟩)
      ∧ decode 0x5D0005050000000A 0 = .ok (.vprep h0 ⟨5, 5, 0, 0, 0, 0, 0, 1, 2⟩)
      ∧ decode 0x5E00030102000000 0 = .ok (.jand h0 ⟨3, 1, 2, 0, 0, 0, 0, 0, 0⟩)
      ∧ decode 0x5E00060300006004 0 = .ok (.jpopc h0 ⟨6, 3, 0, 0, 12, 0, 0, 0, 4⟩) := by decide

/-- 08_memory_order.md Table 77 and its illegal words. -/
theorem test_decode_memory :
    decode 0x6000540800000042 0 = .ok (.lds h0 ⟨0x54, 1, 0, 0, 0, 16, 2⟩)
      ∧ decode 0x81000810C3800000 0 = .ok (.stv h0 ⟨8, 2, 6, 0, 7, 0, 0⟩)
      ∧ decode 0x63000A1811FFFF00 0 = .ok (.ldvg h0 ⟨10, 3, 2, 1, 0xFFFF00⟩)
      ∧ decode 0x8500030800004400 0 = .ok (.spl h0 ⟨3, 1, 0, 0, 0, 0x1100, 0⟩)
      ∧ decode 0x6700030800004400 0 = .ok (.rfl h0 ⟨3, 1, 0, 0, 0, 0x1100, 0⟩)
      ∧ decode 0x8700080000000000 0 = .ok (.feno h0 ⟨0, 4, 0, 0, 0⟩) ∧ decode 0x88000404A0000000 0 = .ok (.fenr h0 ⟨0, 2, 0, 37, 0⟩)
      ∧ decode 0x8800050000000000 0 = .ok (.fenr h0 ⟨0, 2, 1, 0, 0⟩) ∧ decode 0x8900050000000000 0 = .ok (.fenq h0 ⟨0, 2, 1, 0, 0⟩)
      ∧ decode 0x6000540800000043 0 = .error .field ∧ decode 0x6100440800000000 0 = .error .field
      ∧ decode 0x6809200000000000 0 = .error .field ∧ decode 0x8800000000000000 0 = .error .field := by decide

/-- 09_page.md Table 88, 10_barrier.md Table 96 and its illegal words. -/
theorem test_decode_page_and_sync :
    decode 0xEA00518000000000 0 = .ok (.otwrWr 0 ⟨20, 24, 0, 0⟩) ∧ decode 0xEA00528000000002 0 = .ok (.otwrFpop 0 ⟨20, 40, 0, 2⟩)
      ∧ decode 0xE90050000000000A 0 = .ok (.xinvObj 0 ⟨20, 0, 0, 0xA⟩) ∧ decode 0xE90014600000400B 0 = .ok (.xinvGfr 0 ⟨5, 6, 0, 0x400B⟩)
      ∧ decode 0xC100800C03000000 0 = .ok (.semw h0 ⟨2, 0, 12, 3, 0, 0⟩) ∧ decode 0xC200400D01000000 0 = .ok (.sems h0 ⟨1, 0, 13, 1, 0, 0⟩)
      ∧ decode 0xC400000700580000 0 = .ok (.semi h0 ⟨0, 0, 7, 0, 22, 0⟩) ∧ decode 0xC600820000540000 0 = .ok (.barb h0 ⟨2, 2, 0, 0, 21, 0⟩)
      ∧ decode 0xC719050000000000 0 = .ok (.barw ⟨false, false, false, true, 9⟩ ⟨0, 5, 0, 0, 0, 0⟩)
      ∧ decode 0xC800850000500000 0 = .ok (.barq h0 ⟨2, 5, 0, 0, 20, 0⟩) ∧ decode 0xEB00515000000000 0 = .ok (.smapWr 0 ⟨20, 21, 0, 0⟩)
      ∧ decode 0xEC00518000000000 0 = .ok (.bmapBind 0 ⟨20, 24, 0, 0⟩) ∧ decode 0xC100C00C03000000 0 = .error .field
      ∧ decode 0xC100800C00000000 0 = .error .field ∧ decode 0xC2004A0D01000000 0 = .error .field
      ∧ decode 0xEB00515000000004 0 = .error .unassigned := by decide

/-- 11_matrix.md Table 105 and its illegal words. -/
theorem test_decode_matrix :
    decode 0xA000010014000010 0 = .ok (.hset h0 ⟨1, 0, 20, 0, 0, 0, 0, 2, 0⟩) ∧ decode 0xA200000115000010 0 = .ok (.hrd h0 ⟨0, 1, 21, 0, 0, 0, 0, 2, 0⟩)
      ∧ decode 0xA300085100050008 0 = .ok (.mxrv h0 ⟨8, 0x51, 0, 5, 0, 0, 0, 1, 0⟩)
      ∧ decode 0xA4005209003F0008 0 = .ok (.mxwv h0 ⟨0x52, 9, 0, 63, 0, 0, 0, 1, 0⟩)
      ∧ decode 0xB000000005010001 0x0000000010000003 = .ok (.mxla h0 ⟨0, 0, 5, 1, 1, 0x10000003⟩)
      ∧ decode 0xB2000C030D010000 0x0000000001FFE000 = .ok (.mxmma h0 ⟨12, 3, 13, 1, 0, 0x1FFE000⟩)
      ∧ decode 0xB200000000000000 0x0000000000F7E825 = .ok (.mxmma h0 ⟨0, 0, 0, 0, 0, 0xF7E825⟩)
      ∧ decode 0xB500000000000021 4 = .ok (.mxst h0 ⟨0, 0, 0, 0, 0x21, 4⟩)
      ∧ decode 0xB600000000000006 0x0000000400000001 = .ok (.mxspl h0 ⟨0, 0, 0, 0, 6, 0x400000001⟩)
      ∧ decode 0xB800000000000003 0 = .ok (.mxgng h0 ⟨0, 0, 0, 0, 3, 0⟩) ∧ decode 0xB200000000000000 0x00000000002FE000 = .error .field
      ∧ decode 0xB100000000000040 3 = .error .field ∧ decode 0xB500000000000121 4 = .error .field
      ∧ decode 0xA300085100400008 0 = .error .field := by decide

/-- 12_copy.md Table 113 and its illegal words. -/
theorem test_decode_copy :
    decode 0xD00000000D010000 0x8000000000152A84 = .ok (.xcp h0 ⟨0, 0, 13, 1, 0, 0x8000000000152A84⟩)
      ∧ decode 0xD300000009010400 0x0800000000170AC6 = .ok (.xaw h0 ⟨0, 0, 9, 1, 0x400, 0x0800000000170AC6⟩)
      ∧ decode 0xD400000000000402 0x0000000000150290 = .ok (.xawr h0 ⟨0, 0, 0, 0, 0x402, 0x150290⟩)
      ∧ decode 0xD600000004010000 0x0000008250000000 = .ok (.xsig h0 ⟨0, 0, 4, 1, 0, 0x8250000000⟩)
      ∧ decode 0xC000000000500000 0 = .ok (.xpop h0 ⟨0, 0, 0, 0, 20, 0⟩) ∧ decode 0xD300000009010000 0x0800000000170AC6 = .error .field
      ∧ decode 0xD300000009010540 0x0800000000170AC6 = .error .field ∧ decode 0xD600000000000000 0x0000008250000000 = .error .field
      ∧ decode 0xD000000000000001 0x8000000000152A84 = .error .field := by decide

/-- 13_kernel.md Table 120, 14_group.md Table 129, 15_queue.md Table 140, 16_context.md Table 151, 17_link.md Table 159. -/
theorem test_decode_system :
    decode 0xF100518000000000 0 = .ok (.ksldLd 0 ⟨20, 24, 0, 0⟩) ∧ decode 0xF100518000000003 0 = .ok (.ksldRd 0 ⟨20, 24, 0, 3⟩)
      ∧ decode 0xF100500000000002 0 = .ok (.ksldEvc 0 ⟨20, 0, 0, 2⟩) ∧ decode 0xEF00518000000000 0 = .ok (.measExt 0 ⟨20, 24, 0, 0⟩)
      ∧ decode 0xEF00168000000003 0 = .ok (.measNode 0 ⟨5, 40, 0, 3⟩) ∧ decode 0xE400518000000000 0 = .ok (.rgstaPlc 0 ⟨20, 24, 0, 0⟩)
      ∧ decode 0xE400500000000001 0 = .ok (.rgstaGo 0 ⟨20, 0, 0, 1⟩) ∧ decode 0xE500500000000000 0 = .ok (.rgpre 0 ⟨20, 0, 0, 0⟩)
      ∧ decode 0xE700515000000001 0 = .ok (.rgmovOut 0 ⟨20, 21, 0, 1⟩) ∧ decode 0xE800528000000002 0 = .ok (.rgretRd 0 ⟨20, 40, 0, 2⟩)
      ∧ decode 0xF200146000000000 0 = .ok (.csigAlc 0 ⟨5, 6, 0, 0⟩) ∧ decode 0xF200500000000001 0 = .ok (.csigFre 0 ⟨20, 0, 0, 1⟩)
      ∧ decode 0xF200515000000002 0 = .ok (.csigAdd 0 ⟨20, 21, 0, 2⟩) ∧ decode 0xF200528000000004 0 = .ok (.csigRd 0 ⟨20, 40, 0, 4⟩)
      ∧ decode 0xE00000000000002A 0 = .ok (.trap 0 ⟨0, 0, 0, 0x2A⟩) ∧ decode 0xE003000000000001 0 = .ok (.trap 3 ⟨0, 0, 0, 1⟩)
      ∧ decode 0xE100000000000000 0 = .ok (.tret 0 ⟨0, 0, 0, 0⟩) ∧ decode 0xE200515000000000 0 = .ok (.savc 0 ⟨20, 21, 0, 0⟩)
      ∧ decode 0xE300515000000000 0 = .ok (.rstc 0 ⟨20, 21, 0, 0⟩) ∧ decode 0xF000518000000000 0 = .ok (.rcpt 0 ⟨20, 24, 0, 0⟩)
      ∧ decode 0xED00500000000000 0 = .ok (.lnkcUp 0 ⟨20, 0, 0, 0⟩) ∧ decode 0xED00500000000002 0 = .ok (.lnkcRkey 0 ⟨20, 0, 0, 2⟩)
      ∧ decode 0xED00500000000006 0 = .ok (.lnkcDrst 0 ⟨20, 0, 0, 6⟩) ∧ decode 0xEE00518000000000 0 = .ok (.lnkqLnk 0 ⟨20, 24, 0, 0⟩)
      ∧ decode 0xEE00528000000002 0 = .ok (.lnkqDom 0 ⟨20, 40, 0, 2⟩) := by decide

/-! ### Ill-formed terms -/

/-- Reserved fields, register ranges, counts, types and roundings that 04_encoding.md R92 and the owning chapters refuse. -/
theorem test_wf_refuses_front_end :
    ([.nop 0 ⟨1, 0, 0, 0⟩, .bra 0 ⟨0, 1, 0, 0⟩, .brp 0 ⟨16, 0, 0, 0⟩, .brp 0 ⟨0, 0, 4, 0⟩, .brp 0 ⟨0, 1, 1, 0⟩, .jmpc 0 ⟨0, 0, 1, 0⟩,
      .call 0 ⟨0, 0, 0, 0⟩, .call 0 ⟨0, 0, 7, 0⟩, .ret 0 ⟨0, 0, 1, 1⟩, .loop 0 ⟨0, 0, 8, 1⟩, .loop 0 ⟨0, 0, 0, 0⟩, .lend 0 ⟨0, 0, 0, 1⟩,
      .lstg 0 ⟨0, 0, 0, 9⟩, .lbrk 0 ⟨0, 0, 8, 0⟩, .stepw 0 ⟨0, 0, 1, 0⟩, .halt 0 ⟨0, 0, 0, 1⟩, .add 0 ⟨0, 0, 0, 1, 0, 0, 0⟩,
      .add 0 ⟨0, 0, 0, 0, 0, 1, 0⟩, .add 0 ⟨0, 0, 0, 0, 0, 0, 1⟩, .li 0 ⟨0, 1, 0, 0⟩, .cmp 0 ⟨16, 0, 0, 0, 0, 0, 0⟩,
      .cmp 0 ⟨0, 0, 0, 0, 0, 0, 12⟩, .cmpi 0 ⟨0, 0, 12, 0⟩, .extb 0 ⟨0, 0, 0, 0, 64 * 1 + 63, 0, 0⟩, .mfsr 0 ⟨0, 0, 0, 0, 0xFFF, 0, 0⟩,
      .cget 0 ⟨0, 0, 0, 0, 10, 0, 0⟩, .cmov 0 ⟨16, 0, 0, 0, 0, 0, 0⟩, .trap 0 ⟨0, 0, 0, 0x10000⟩, .tret 0 ⟨0, 0, 0, 1⟩,
      .otwrWr 0 ⟨0, 57, 0, 0⟩, .otwrRd 0 ⟨0, 0, 0, 1⟩, .xinvGfr 0 ⟨0, 0, 0, 3⟩, .csigFre 0 ⟨0, 1, 0, 1⟩, .rgpre 0 ⟨0, 0, 0, 1⟩,
      .lnkcUp 0 ⟨0, 1, 0, 0⟩] : List Instr).all (fun i => !i.wf) = true := by decide

/-- The same for queued words. -/
theorem test_wf_refuses_queued :
    ([.vadd h0 ⟨0x48, 0, 0, 0, 0, 0, 0, 0, 0⟩, .vadd h0 ⟨0, 0, 0, 0, 3, 0, 0, 0, 0⟩, .vadd h0 ⟨0, 0, 0, 0, 0, 7, 0, 0, 0⟩,
      .vadd h0 ⟨0, 0, 0, 1, 0, 0, 0, 0, 0⟩, .vadd h0 ⟨0, 0, 0, 0, 0, 0, 0, 3, 0⟩, .vfma h0 ⟨0, 0, 0, 0, 0, 0, 0, 1, 3⟩,
      .viadd h0 ⟨0, 0, 0, 0, 0, 0, 0, 0, 0⟩, .vand h0 ⟨0, 0, 0, 0, 0, 0, 0, 0, 0⟩, .vcmp h0 ⟨8, 0, 0, 0, 0, 0, 0, 0, 0⟩,
      .vcvt h0 ⟨0, 0, 0, 0, false, 0, 0, 0, 0, 0, 0⟩, .vcvt h0 ⟨20, 9, 0, 3, true, 0, 0, 0, 0, 0, 0⟩, .vperm h0 ⟨9, 1, 2, 0, 0, 0, 0, 0, 0⟩,
      .vredx h0 ⟨10, 4, 0, 0, 0, 1, 2, 0, 0⟩, .vmqnt h0 ⟨21, 8, 0, 3, false, 0, 0, 0, 0, 0, 0⟩, .vlqd h0 ⟨22, 3, 0, 3, false, 0, 9, 0, 0, 0, 0⟩,
      .jand h0 ⟨8, 0, 0, 0, 0, 0, 0, 0, 0⟩, .lds h0 ⟨0x80, 0, 0, 0, 0, 0, 0⟩, .lds h0 ⟨0x40, 0, 0, 0, 0, 0, 3⟩, .ldv h0 ⟨0x44, 0, 0, 0, 0, 0, 0⟩,
      .sts h0 ⟨0x40, 0, 0, 0, 0, 0, 0⟩, .stv h0 ⟨0, 0, 0, 0, 0, 0, 1⟩, .markL ⟨false, false, false, false, 9⟩ ⟨2, 0, 0, 0, 0⟩,
      .markL h0 ⟨0, 1, 0, 0, 0⟩, .feno h0 ⟨0, 7, 0, 0, 0⟩, .fenr h0 ⟨0, 0, 0, 0, 0⟩, .fenq h0 ⟨0, 2, 0, 0, 1⟩, .semw h0 ⟨3, 0, 0, 1, 0, 0⟩,
      .semw h0 ⟨0, 0, 0, 0, 0, 0⟩, .sems h0 ⟨0, 10, 0, 1, 0, 0⟩, .bara h0 ⟨0, 0, 1, 0, 0, 0⟩, .xpop h0 ⟨1, 0, 0, 0, 0, 0⟩,
      .mxmma h0 ⟨0, 0, 0, 0, 0, 0x2FE000⟩, .mxlb h0 ⟨0, 0, 0, 0, 0x40, 3⟩, .mxst h0 ⟨0, 0, 0, 0, 0x121, 4⟩, .mxgng h0 ⟨0, 0, 0, 0, 4, 0⟩,
      .hset h0 ⟨4, 0, 20, 0, 0, 0, 0, 2, 0⟩, .xcp h0 ⟨0, 0, 0, 0, 1, 0⟩, .xsig h0 ⟨0, 0, 0, 0, 0, 0x8250000000⟩,
      .xaw h0 ⟨0, 0, 0, 0, 0, 0x0800000000170AC6⟩] : List Instr).all (fun i => !i.wf) = true := by decide

/-! ### States and operands that meet the hypotheses of the statements -/

theorem witness_DecodeReadsWhatEncodeWrites :
    words (.add 15 ⟨63, 63, 63, 0, 0, 0, 0⟩) = some (0x200FFFFFC0000000, 0) ∧ (Instr.add 15 ⟨63, 63, 63, 0, 0, 0, 0⟩).wf = true
      ∧ (Instr.mxspl h0 ⟨0, 0, 0, 0, 6, 0x400000001⟩).wf = true := by decide +kernel

theorem witness_EncodeWritesWhatDecodeReads :
    decode 0x200FFFFFC0000000 0 = .ok (.add 15 ⟨63, 63, 63, 0, 0, 0, 0⟩)
      ∧ decode 0xB600000000000006 0x0000000400000001 = .ok (.mxspl h0 ⟨0, 0, 0, 0, 6, 0x400000001⟩) := by decide +kernel

theorem canonical_reset : State.reset.canonical :=
  ⟨rfl, rfl, fun _ => ⟨rfl, rfl, rfl⟩, fun _ => rfl, fun _ => rfl, fun _ => rfl⟩

theorem witness_StepKeepsCanonicalMemory : State.reset.canonical ∧ ∃ t, step State.reset = .next t := ⟨canonical_reset, _, rfl⟩

/-- Two arrivals of one close at one address, from tiles 0 and 1. -/
abbrev arr (tix : Nat) : Arrival := ⟨1, 4, 0, tix, 0, 0, 0, 0, 0, 64, 0, 1, 0, 1, none, none, 0, 0, none, none⟩

theorem witness_ArrivalOrderDoesNotMatter :
    [arr 0, arr 1].Perm [arr 1, arr 0] ∧ (∀ a ∈ [arr 0, arr 1], a.port = none ∧ a.rgn = 1 ∧ a.due ≤ 4)
      ∧ ([arr 0, arr 1].map fun a => (a.lseq, a.tix, a.seq, a.elem)).Nodup
      ∧ (∀ a ∈ [{ arr 0 with port := some 11 }, { arr 1 with port := some 11 }], a.port = some 11 ∧ a.lseq = 0 ∧ a.due ≤ 4) := by
  refine ⟨List.Perm.swap _ _ _, by decide, by decide, by decide⟩

theorem witness_StepRunsTheDecodedInstruction_front :
    let u := State.reset.withFetchWord 64 0x2000555580000000
    let s := { u with agenda := [] }
    u.agenda = .fetch false 0 false :: [] ∧ s.runs 0 = true ∧ (u.tile 0).core.stepw = none ∧ (u.tile 0).feOff = false
      ∧ (s.region (u.tile 0).rgn).adj = [] ∧ s.wordsAt (.tile 0) (u.tile 0).core.pc = some (0x2000555580000000, 0) ∧ (u.tile 0).core.trap.hnd = false
      ∧ queueOf 0x2000555580000000 = 0 ∧ isTwoWord 0x2000555580000000 = false ∧ clsOf 0x2000555580000000 ≠ 7 := by decide +kernel

theorem witness_StepRunsTheDecodedInstruction_dispatch :
    let u := { State.reset.oneTile 0x4000010203000000 0 id with agenda := [.fetch false 0 false] }
    let s := { u with agenda := [] }
    s.runs 0 = true ∧ (u.tile 0).feOff = false ∧ s.wordsAt (.tile 0) (u.tile 0).core.pc = some (0x4000010203000000, 0)
      ∧ queueOf 0x4000010203000000 = 2 ∧ ((u.tile 0).core.qv 0).2 = false ∧ ((u.tile 0).queue 2).length < 16
      ∧ fwdWait s (u.tile 0) (.vadd h0 ⟨1, 2, 3, 0, 0, 0, 0, 0, 0⟩) = none := by decide +kernel

theorem witness_StepRunsTheDecodedInstruction_issue :
    let u := State.reset.withFetchWord 64 0x4000010203000000
    u.agenda = .issue 0 2 :: [] ∧ ({ u with agenda := [] } : State).runs 0 = true ∧ (u.tile 0).canIssue 2 = true
      ∧ (((u.tile 0).queue 2).head?.map QEntry.instr) = some (.vadd h0 ⟨1, 2, 3, 0, 0, 0, 0, 0, 0⟩) := by decide +kernel

theorem witness_StepRunsTheDecodedInstruction_sorrel :
    ∀ x ∈ [(0xED00500000000006, true), (0xED00500000000000, false)],
      let u := State.reset.withFetchWord 64 x.1
      u.agenda = .fetch true 0 x.2 :: [] ∧ (u.die 0).state = 5 ∧ (u.die 0).sorrel.halted = false ∧ (u.die 0).sorrel.hold = none
        ∧ (u.die 0).sorrel.win = [] ∧ ({ u with agenda := [] } : State).wordsAt (.sorrel 0) (u.die 0).sorrel.pc = some (x.1, 0)
        ∧ ((decode x.1 0).toOption.map resetsDie) = some x.2 := by
  decide +kernel

theorem witness_StepRunsTheDecodedInstruction_event :
    let s : State := { inputs := [.event 0 .powerOn] }
    s.agenda = [] ∧ s.inputs = .event 0 .powerOn :: [] ∧ outsideEvent .powerOn = true ∧ step s = exec .powerOn ({ s with inputs := [] } : State).asDev :=
  ⟨rfl, rfl, rfl, rfl⟩

/-- `q1` false, `q2` poisoned. -/
abbrev preds : State := onTile { core := { q := [(1, (false, false)), (2, (false, true))] } }

theorem witness_FalsePredicates :
    preds.core.qv (1 : BitVec 4).toNat = (false, false) ∧ (preds.core.qv (2 : BitVec 4).toNat).2 = true ∧ preds.byTile 0
      ∧ ({ preds with cur := { pred := false } } : State).byTile 0 ∧ ({ preds with cur := { pred := false } } : State).cur.pred = false
      ∧ preds.scalarWaits = false := ⟨rfl, rfl, rfl, rfl, rfl, rfl⟩

theorem witness_FalsePredicates_sorrel :
    let s := onSorrel preds.core
    s.bySorrel 0 ∧ s.core.qv (1 : BitVec 4).toNat = (false, false) ∧ (s.core.qv (2 : BitVec 4).toNat).2 = true
      ∧ (∀ p, let h : Hdr := { h0 with pred := p }; h.pred = p ∧ (h.popl, h.popr, h.pshl, h.pshr) = (false, false, false, false)) :=
  ⟨rfl, rfl, rfl, fun _ => ⟨rfl, rfl⟩⟩

/-- A loop of level 0 in flight owns `q8`. -/
abbrev inLoop : State := onTile { core := { loops := [(0, { active := true, stop := 0, start := 8, x := 9, p := 3, n := 3 })] } }

theorem witness_FrontEndWordsWriteOneRegister :
    inLoop.goes 0 ∧ inLoop.byTile 0 ∧ inLoop.core.owned (3 : BitVec 6).toNat = false ∧ inLoop.core.owned (8 : BitVec 6).toNat = true
      ∧ (onSorrel {}).goes 0 ∧ (onSorrel {}).bySorrel 0 := by
  exact ⟨rfl, rfl, rfl, rfl, rfl, rfl⟩

/-- `s1` = 7, `s2` = 0, `s3` poison 5, `q1` true, `q3` poisoned, `c1` with every right. -/
abbrev scal : State := onTile { core := {
  sreg := [(1, ⟨7, false⟩), (2, ⟨0, false⟩), (3, ⟨5, true⟩)], q := [(1, (true, false)), (3, (false, true))] } }

theorem witness_ScalarAluWords :
    scal.goes 0 ∧ (scal.core.s 1).tag = false ∧ (scal.core.s 2).tag = false ∧ ((scal.core.s 3).tag || (scal.core.s 1).tag) = true
      ∧ (scal.core.s 2).bits = 0 ∧ (scal.core.s 3).tag = true := ⟨rfl, rfl, rfl, rfl, rfl, rfl⟩

theorem witness_ScalarImmediateSelectField :
    scal.goes 0 ∧ (scal.core.s 1).tag = false ∧ (scal.core.qv 1).2 = false ∧ (scal.core.qv 3).2 = true
      ∧ (scal.core.s 3).tag = true ∧ ((scal.core.s 3).tag || (scal.core.s 1).tag) = true
      ∧ (∀ k, k < 10 → (BitVec.ofNat 12 k).toNat = k) ∧ (0 : BitVec 12).toNat = 64 * 0 + (1 - 1) ∧ (63 : BitVec 12).toNat = 64 * 0 + (64 - 1)
      ∧ (4032 : BitVec 12).toNat = 64 * 63 + (1 - 1) ∧ 63 + 1 ≤ 64 ∧ 0 + 64 ≤ 64 := by
  refine ⟨rfl, ?_⟩
  decide

theorem witness_PredicateWords :
    scal.goes 0 ∧ scal.core.owned (4 : BitVec 6).toNat = false ∧ (scal.core.s 1).tag = false ∧ (scal.core.s 3).tag = true := ⟨rfl, rfl, rfl, rfl⟩

theorem witness_TransferWords :
    scal.goes 0 ∧ inLoop.goes 0 ∧ (scal.core.qv 1).2 = false ∧ (scal.core.qv 3).2 = true ∧ (scal.core.s 3).tag = true
      ∧ ((scal.core.s 1).bits + (1 : BitVec 32).signExtend 64).toNat % 8 = 0 ∧ ((scal.core.s 1).bits + (0 : BitVec 32).signExtend 64).toNat % 8 ≠ 0
      ∧ (inLoop.core.loop 0).active = true ∧ (3 : BitVec 4) < 4 := by
  refine ⟨rfl, rfl, ?_⟩
  decide

/-- Frame offset 56: the next call of 2 spills one unit when the frame area has room. -/
abbrev deep (n : Nat) : State :=
  { tiles := [(0, { rgn := 1, core := { w := n } })], regions := [(1, { image := oneTileImage [] })] }

/-- Frame offset 56 with room for one unit. -/
abbrev spilling : State :=
  { tiles := [(0, { rgn := 1, core := { w := 56 } })], regions := [(1, { image := mwrite (oneTileImage []) 0x10 (leBytes 4 65) })] }

/-- A return address that is poisoned, and one that is misaligned. -/
theorem witness_CallAndReturn_link :
    ∀ x ∈ [(⟨5, true⟩, true), ((⟨12, false⟩ : Scal), false)],
      let s : State := { tiles := [(0, { core := { sreg := [(63, x.1)] } })] }
      s.goes 0 ∧ 0 ≤ s.core.w ∧ windowWaits s (s.core.w - 0 < s.core.lo) = false ∧ (s.core.s 63).tag = x.2
        ∧ (x.2 = false → (s.core.s 63).bits.toNat % 8 ≠ 0) := by
  simp only [List.forall_mem_cons, List.not_mem_nil, false_implies, implies_true, and_true, State.goes]
  decide +kernel

/-- A load has still to write `s16`. -/
theorem witness_CallAndReturn_waits :
    let s := onTile { due := [⟨9, 0, 1, [.scal 16 ⟨0, false⟩], none, false, false, none⟩] }
    s.goes 0 ∧ s.scalarWaits = true := ⟨rfl, by decide⟩

theorem witness_CallAndReturn :
    (deep 0).goes 0 ∧ max (deep 0).core.lo ((deep 0).core.w + 6 + 6 - 62) ≤ (frameArea (deep 0)).2 ∧ windowWaits (deep 0) false = false
      ∧ max (deep 0).core.lo ((deep 0).core.w + 6 + 6 - 62) = (deep 0).core.lo
      ∧ (frameArea (deep 56)).2 < max (deep 56).core.lo ((deep 56).core.w + 1 + 6 - 62)
      ∧ ((deep 1).core.s 63).tag = false ∧ ((deep 1).core.s 63).bits.toNat % 8 = 0 ∧ 1 ≤ (deep 1).core.w ∧ (deep 0).core.w < 1
      ∧ max spilling.core.lo (spilling.core.w + 1 + 6 - 62) ≤ (frameArea spilling).2
      ∧ spilling.core.lo < max spilling.core.lo (spilling.core.w + 1 + 6 - 62) ∧ windowWaits spilling true = false := by
  refine ⟨rfl, ?_⟩
  decide +kernel

/-- Level 0 in pass `p` of 9 with 3 stages, its `lend` at the word being executed. -/
abbrev passing (p : Nat) : State :=
  { cur := { pc := 64 }, tiles := [(0, { core := { loops := [(0, { active := true, start := 8, stop := 64, x := 9, p := p, n := 3 })] } })] }

/-- Level 0 is pre-emptible, in pass 3 of 9 with n stages at its `lend`; with a request pending its end is due at the t-th boundary. -/
abbrev boundary (n t : Nat) (preq : Bool) : State :=
  { cur := { pc := 64 }, regions := [(1, { preq := preq, tgt := t })]
    tiles := [(0, { rgn := 1, core := { loops := [(0, { active := true, pre := true, start := 8, stop := 64, x := 9, p := 3, n := n })] } })] }

theorem witness_LoopWords_boundary :
    ∀ x ∈ [(1, 1, true), (2, 1, true), (1, 2, true), (1, 1, false)],
      let s := boundary x.1 x.2.1 x.2.2
      let l := s.core.loop 0
      s.byTile 0 ∧ s.goes 0 ∧ s.core.active.getLast? = some 0 ∧ s.cur.pc = l.stop ∧ s.core.outerPre = some 0 ∧ l.p + 1 < l.x ∧ 1 ≤ l.n
        ∧ l.n = x.1 ∧ (s.region (s.tile 0).rgn).preq = x.2.2 ∧ (s.region (s.tile 0).rgn).tgt = x.2.1 ∧ (s.tile 0).bndc + 1 = 1 := by
  simp only [List.forall_mem_cons, List.not_mem_nil, false_implies, implies_true, and_true, State.byTile, State.goes]
  decide +kernel

/-- The level has drained: it ends in its last pass, stopped or not. -/
theorem witness_LoopWords_stopped :
    let l : Loop := { active := true, start := 8, stop := 64, x := 4, p := 3, n := 1, stopped := true }
    let s : State := { cur := { pc := 64 }, tiles := [(0, { core := { loops := [(0, l)] } })] }
    s.goes 0 ∧ s.core.active.getLast? = some 0 ∧ s.core.loop 0 = l ∧ l.x ≤ l.p + 1 ∧ l.x + l.n < l.p + 3 ∧ l.stopped = true := by
  refine ⟨rfl, ?_⟩
  decide +kernel

theorem witness_LoopWords :
    ((1 : Nat) < 2 ∨ True) ∧ scal.goes 0 ∧ (∀ k, 0 ≤ k → k < 8 → (scal.core.loop k).active = false)
      ∧ 2 ≤ (scal.core.s 1).bits.toNat % 2 ^ 32 + scal.core.pendOf 0 ∧ (scal.core.s 2).bits.toNat % 2 ^ 32 + scal.core.pendOf 0 < 2
      ∧ (passing 9).core.active.getLast? = some 0 ∧ (passing 9).cur.pc = ((passing 9).core.loop 0).stop ∧ (passing 9).core.outerPre ≠ some 0
      ∧ ((passing 9).core.loop 0).p + 3 ≤ ((passing 9).core.loop 0).x + ((passing 9).core.loop 0).n
      ∧ ((passing 10).core.loop 0).x + ((passing 10).core.loop 0).n < ((passing 10).core.loop 0).p + 3
      ∧ ((passing 10).core.loop 0).stopped = false ∧ ((passing 9).core.loop 1).active = false ∧ (passing 9).core.active.getLast? ≠ some 1
      ∧ (scal.tile 0).step < ((scal.core.s 1).bits.toNat + 0) % 2 ^ 64 ∧ ((scal.core.s 2).bits.toNat + 0) % 2 ^ 64 ≤ (scal.tile 0).step
      ∧ (scal.core.s 3).tag = true ∧ (onSorrel {}).bySorrel 0 ∧ (onSorrel {}).goes 0 := by
  refine ⟨.inl (by decide), rfl, ?_, ?_, ?_, ?_, ?_, ?_, ?_, ?_, ?_, ?_, ?_, ?_, ?_, rfl, rfl, rfl⟩ <;> decide +kernel

/-- Level 0 is active with 3 stages, or level 1 has 2 stages pending: a second level with 2 stages is ILL. -/
theorem witness_LoopWords_lstg :
    inLoop.goes 0 ∧ (inLoop.core.loop 0).active = true ∧ 2 ≤ (inLoop.core.loop 0).n
      ∧ (let s := onTile { core := { pend := [(1, 2)] } }; s.goes 0 ∧ 2 ≤ s.core.pendOf 1) := ⟨rfl, rfl, by decide, rfl, by decide⟩

/-- A trap taken from the front end is being handled; `s1` = 16. -/
abbrev handling (dq : BitVec 64) : State := onTile { trapped := true, core := { regs [(1, 16)] with trap := { tstat := 1 + 4 * dq, trpc := 40 }, fePc := 24 } }

theorem witness_SpecialAndCapabilityWords :
    scal.goes 0 ∧ (scal.core.s 1).tag = false ∧ (scal.core.s 3).tag = true ∧ scal.core.trap.hnd = false ∧ (0x103 : Nat) ≠ 0x105
      ∧ (handling 0).core.trap.hnd = true ∧ (handling 0).core.trap.dq = 0 ∧ (onSorrel {}).bySorrel 0 ∧ scal.byTile 0
      ∧ (scal.core.s 1).bits.toNat < 2 ^ 48 ∧ ((7 : Nat) : Int) = (scal.core.cap 1).cur + (scal.core.s 1).bits.toInt + (0 : BitVec 12).toInt :=
  ⟨rfl, rfl, rfl, rfl, by decide, rfl, rfl, rfl, rfl, by decide, by decide⟩

/-- Writes of `TSTAT`, and one of `TRPC` that is ignored for its detection point. -/
theorem witness_SpecialAndCapabilityWords_mtsr :
    (handling 1).goes 0 ∧ (handling 1).core.trap.hnd = true ∧ (handling 1).core.trap.dq ≠ 0 ∧ ((handling 1).core.s 1).tag = false
      ∧ (0x100 : BitVec 12).toNat = 0x100 ∧ (0x103 : BitVec 12).toNat = 0x103 ∧ (0x106 : Nat) ≠ 0x100 := ⟨rfl, rfl, by decide, rfl, rfl, rfl, by decide⟩

/-- Tile 0 of a region of 255 × 2 tiles, its loops 0 and 2 active with 1 and 3 stages. -/
abbrev specials : State :=
  { tiles := [(0, { rgn := 1, tix := 300, tok := [(2, 8)], psnc := [(4, 127)],
                    core := { loops := [(0, { active := true, n := 1 }), (2, { active := true, n := 3, p := 7 })] } })]
    regions := [(1, { ctx := 2, w := 255, h := 2 })], ctxs := [(2, { vf := 1, iface := 3 })] }

theorem witness_SpecialAndCapabilityWords_reads :
    specials.byTile 0 ∧ (let t := specials.tile 0; let R := specials.region t.rgn
      0 < R.w ∧ R.w ≤ 256 ∧ R.w < 256 ∧ (∀ i, i < 6 → tget 0 t.tok i < 16) ∧ (∀ i, i < 5 → tget 0 t.psnc i < 128)
        ∧ 2 ∈ t.core.active ∧ 2 ≤ (t.core.loop 2).n ∧ (∀ m ∈ t.core.active, 2 ≤ (t.core.loop m).n → 2 ≤ m)
        ∧ (∀ l ∈ inLoop.core.active, (({ inLoop.core.loop l with n := 1 } : Loop)).n < 2) ∧ R.ctx < 256 ∧ (specials.ctx R.ctx).vf < 256) := by
  refine ⟨rfl, ?_⟩
  decide +kernel

/-- 05_control_scalar.md, the example of R133: object 0x123 with rights R, W, H, D, exponent 12, 2^30 bytes, cursor 0x01234567 in `c3`, and
`s24` = 0x10000000. -/
abbrev derives : State :=
  { cur := { w0 := 0x3100103600021000 }
    tiles := [(0, { core := { regs [(24, 0x10000000)] with c := [(3, mkCap 0x123 0x63 0x01234567 12 0 0x40000 true)] } })] }

theorem witness_SpecialAndCapabilityWords_cder :
    derives.goes 0 ∧ (let a := derives.core.cap 3; let hi := a.cur + (derives.core.s 24).bits.toNat; let top := fun e => (hi + 2 ^ e - 1) / 2 ^ e
      (derives.core.s 24).tag = false ∧ a.tag = true ∧ a.rights / 2 ^ 6 % 2 = 1 ∧ 6 ≤ a.exp ∧ a.exp ≤ 40 ∧ (0x21 : BitVec 12).toNat / 256 % 2 = 0
        ∧ top 8 < 2 ^ 21 ∧ (∀ m, m < 8 → 6 ≤ m → 2 ^ 21 ≤ top m) ∧ a.lo ≤ a.cur / 2 ^ 8 * 2 ^ 8 ∧ top 8 * 2 ^ 8 ≤ a.hi
        ∧ (0x121 : BitVec 12).toNat / 256 % 2 = 1 ∧ a.cur / 2 ^ 8 * 2 ^ 8 ≠ a.cur) := by
  refine ⟨rfl, ?_⟩
  decide +kernel

/-- The traps of the words that move a cursor or derive: `s1` = 7, `s2` is poison, `s3` = 2^62; `c1` is null, `c2` untagged, `c3` without `D`, `c4` with
an exponent of 41, `c5` a capability of 64 bytes. -/
theorem witness_SpecialAndCapabilityWords_traps :
    let c : Core := { sreg := [(1, ⟨7, false⟩), (2, ⟨5, true⟩), (3, ⟨0x4000000000000000, false⟩)]
                      c := [(2, ⟨1, false⟩), (3, mkCap 1 0x3F 0 6 0 1 true), (4, mkCap 1 0xFF 0 41 0 1 true), (5, mkCap 1 0xFF 60 6 0 1 true)] }
    let s := onTile { core := c }
    s.goes 0 ∧ (c.s 1).tag = false ∧ (c.s 2).tag = true ∧ 2 ^ 48 ≤ (c.s 3).bits.toNat ∧ (c.cap 1).tag = false ∧ (c.cap 1).bits = 0
      ∧ (c.cap 2).tag = false ∧ (c.cap 2).bits ≠ 0 ∧ (c.cap 3).tag = true ∧ (c.cap 3).rights / 2 ^ 6 % 2 = 0 ∧ (c.cap 4).rights / 2 ^ 6 % 2 = 1
      ∧ 40 < (c.cap 4).exp ∧ (∀ e, e ≤ 40 → 6 ≤ e → 2 ^ 21 ≤ ((c.cap 5).cur + (c.s 3).bits.toNat + 2 ^ e - 1) / 2 ^ e)
      ∧ (c.cap 5).hi < ((c.cap 5).cur + 7 + 2 ^ 6 - 1) / 2 ^ 6 * 2 ^ 6
      ∧ ((2 : Int) ^ 48 ≤ (c.cap 5).cur + (c.s 3).bits.toInt + (0 : BitVec 12).toInt) := by
  refine ⟨rfl, ?_⟩
  decide +kernel

theorem witness_AuthorityNeverGrows :
    derives.cur.agent ≠ .dev ∧ ∃ t, exec (.cder 0 ⟨4, 3, 24, 0, 0x21, 0, 0⟩) derives = .next t ∧ (t.core.cap 4).tag = true :=
  ⟨by decide, _, rfl, by decide +kernel⟩

/-- `v1` holds 1.0, `v2` the number 3 and `v3` poison 9 in every lane; `j1` is lanes 0 and 1; `s1` holds 5 and `s2` is poison 4. -/
abbrev vecs : Tile :=
  { vreg := [(1, mkVec fun _ => ⟨0x3F800000, false⟩), (2, mkVec fun _ => ⟨3, false⟩), (3, mkVec fun _ => ⟨9, true⟩)], j := [(1, 3)] }
/-- A queued word of tile 0 is taken from queue q under a true predicate. -/
abbrev queued (q : Nat) (t : Tile) : State :=
  { cur := { q := q, snap := { sreg := [(1, ⟨5, false⟩), (2, ⟨4, true⟩), (3, ⟨99999, false⟩)] } }, tiles := [(0, t)] }

theorem witness_FloatingWords :
    (queued 2 vecs).issues 0 ∧ (let s := queued 2 vecs; let f : FmtV := ⟨4, 1, 1, 1, 0, 0, 0, 0, 0⟩; let a := fun n => fElem 0 (srcA s f n) 0
      ∀ n, n < 64 → (a n).ordinary = true ∧ fAdd (s.modeAt 0 n 0) (a n) (a n) ≠ .invalid ∧ fMul (a n) (a n) ≠ .invalid
        ∧ fFma (s.modeAt 0 n 0) (a n) (a n) (a n) ≠ .invalid ∧ fDiv (.fin false 1 0) (a n) ≠ .invalid ∧ fRsqrt (a n) ≠ .invalid
        ∧ fSqrt (a n) ≠ .invalid ∧ fExp2 (a n) ≠ .invalid ∧ fLog2 (a n) ≠ .invalid) := by
  refine ⟨⟨rfl, rfl⟩, ?_⟩
  decide +kernel

/-- `v1` to `v4` with a foreign NaN, a signalling NaN, poison 0x200007 and two infinities in lanes 0 to 3 of `j1`; tile 0 is in context 2, whose poison
log has n of its 3 entries used. -/
abbrev dirty (n : Nat) : State :=
  { queued 2 { rgn := 1, tix := 6, j := [(1, 15)], vreg :=
      [(1, [⟨0x7FC00001, false⟩, ⟨0x7F800001, false⟩, ⟨0x7FE00007, true⟩, ⟨0x7F800000, false⟩]), (2, [⟨0x3F800000, false⟩, ⟨0x3F800000, false⟩, ⟨0, false⟩, ⟨0xFF800000, false⟩])] } with
    regions := [(1, { ctx := 2, w := 4, h := 2 })], ctxs := [(2, { plbase := 0x200000, pllen := 3, plhead := n })] }

theorem witness_FloatingWords_poison :
    (dirty 0).issues 0 ∧ (dirty 3).issues 0 ∧ (0 : BitVec 5).toNat < 5
      ∧ (let s := dirty 0; let f : FmtV := ⟨4, 1, 2, 1, 0, 0, 1, 0, 0⟩; let x := fun n => fElem 0 (srcA s f n) 0
        s.laneOn 1 0 ∧ s.laneOn 1 3 ∧ ¬ s.laneOn 1 4 ∧ (x 0).takes = [okFOREIGN] ∧ (x 1).takes = [okSNAN] ∧ x 2 = .poison 0x200007
          ∧ (x 3).ordinary = true ∧ fAdd (s.modeAt 0 3 0) (x 3) (fElem 0 (opndB s f 3) 0) = .invalid)
      ∧ ((dirty 0).ctx ((dirty 0).region 1).ctx).pllen ≠ 0 ∧ ((dirty 0).ctx 2).plhead ≠ ((dirty 0).ctx 2).pllen
      ∧ ((dirty 3).ctx 2).plhead = ((dirty 3).ctx 2).pllen ∧ ((queued 2 vecs).ctx 0).pllen = 0
      ∧ (dirty 0).inBound (((dirty 0).ctx 2).plbase + 32 * 0) 32 = false ∧ Memory.wf (dirty 0).dram = true := by
  refine ⟨⟨rfl, rfl⟩, ⟨rfl, rfl⟩, by decide, ⟨⟨by decide, rfl⟩, ⟨by decide, rfl⟩, fun h => absurd h.2 (by decide), ?_⟩, ?_⟩
  all_goals decide +kernel

/-- The first origin of the word of Table 60's shape: the foreign NaN of lane 0, then the signalling NaN of lane 1, then the sum of the infinities. -/
theorem test_origins :
    let s := dirty 0
    let o := exec (.vadd h0 ⟨4, 1, 2, 0, 0, 0, 1, 0, 0⟩) s
    ((List.range 4).map fun n => match ((after o).tile 0).due.getLast? with
        | some ⟨_, _, _, [.vec _ v _], _, _, _, _⟩ => ((v.at n).bits.toNat, (v.at n).tag)
        | _ => (0, false))
      = [(0x7FE01880, true), (0x7FE01881, true), (0x7FE00007, true), (0x7FE01882, true)]
      ∧ tget 0 ((after o).tile 0).psnc 1 = 3 ∧ ((after o).region 1).origins = 3 ∧ ((after o).ctx 2).plhead = 3 := by decide +kernel

theorem witness_IntegerWords :
    (queued 2 vecs).issues 0 ∧ (let s := queued 2 vecs; let f : FmtV := ⟨4, 2, 2, 2, 5, 0, 1, 0, 0⟩; let g : FmtV := ⟨4, 2, 3, 2, 5, 0, 1, 0, 0⟩
      s.laneOn 1 0 ∧ s.laneOn 1 1 ∧ ¬ s.laneOn 1 2 ∧ ([srcA s f 0, opndB s f 0].all fun l => !l.tag) = true
        ∧ ([srcA s g 0, opndB s g 0].all fun l => !l.tag) = false) := by
  refine ⟨⟨rfl, rfl⟩, ⟨by decide, rfl⟩, ⟨by decide, rfl⟩, fun h => absurd h.2 (by decide), ?_⟩
  decide +kernel

theorem witness_MoveAndMaskWords :
    (queued 2 vecs).issues 0 ∧ (let s := queued 2 vecs
      opndIdx s ⟨4, 1, 1, 0, 0, 0, 0, 2, 0⟩ = .inl 5 ∧ (5 : BitVec 5).toNat ≠ 0
        ∧ (srcA s ⟨4, 2, 2, 0, 5, 0, 0, 0, 5⟩ 63).tag = false ∧ (5 : BitVec 3).toNat < 6) := by
  refine ⟨⟨rfl, rfl⟩, ?_⟩
  decide +kernel

theorem witness_GroupedWords :
    (queued 2 vecs).issues 0 ∧ (6 : BitVec 5).toNat = 6 ∧ (∀ n, n < 64 → (srcA (queued 2 vecs) ⟨4, 2, 0, 0, 6, 0, 0, 0, 0⟩ n).tag = false)
      ∧ 1 ≤ elems (8 : BitVec 5).toNat / elems (0 : BitVec 4).toNat := by
  refine ⟨⟨rfl, rfl⟩, by decide, by decide +kernel, by decide⟩

/-- Sums that keep 0 are 0 over zeros. -/
theorem redTree_zero (g : Nat → Nat → Option Nat) (h : g 0 0 = some 0) : ∀ n i, redTree g (fun _ => 0) n i = some 0 := by
  intro n
  induction n with
  | zero => intro _; rfl
  | succ n ih => intro i; simp [redTree, ih, h]

theorem scanTree_zero (g : Nat → Nat → Option Nat) (h : g 0 0 = some 0) : ∀ l n, scanTree g l (fun _ => some 0) n = some 0 := by
  intro l
  induction l with
  | nil => intro _; rfl
  | cons d l ih =>
    intro n
    have e : (fun i => if i < d then some 0 else (some 0).bind fun a => (some 0).bind fun b => g a b) = fun _ : Nat => some 0 := by
      funext i
      split <;> simp [h]
    simpa only [scanTree, e] using ih n

/-- Types, masks and sources that the clauses on their results ask for. -/
theorem witness_GroupedWords_results :
    (dirty 0).issues 0 ∧ elems 0 = 1 ∧ elems 6 = 1 ∧ (0 : Nat) < 5 ∧ (queued 2 vecs).myTile.mask 2 = 0 ∧ (queued 2 vecs).myTile.mask 1 ≠ 0
      ∧ ((dirty 0).ctx ((dirty 0).ctxNo (dirty 0).me)).pclr = false
      ∧ (let s : State := { dirty 0 with ctxs := [(2, { pclr := true })] }; (s.ctx (s.ctxNo s.me)).pclr = true)
      ∧ (∀ n, n < 64 → (fElem 0 (srcA (queued 2 vecs) ⟨4, 5, 0, 0, 0, 0, 0, 0, 0⟩ n) 0).ordinary = true
          ∧ (srcA (queued 2 vecs) ⟨4, 5, 0, 0, 0, 0, 0, 0, 0⟩ n).bits.toNat = 0) ∧ addR ⟨0, 0⟩ 0 0 = some 0
      ∧ elems 3 ≤ elems 3 ∧ 1 ≤ elems 3 / elems 0 ∧ 1 ≤ elems 5 / elems 3 ∧ elems 0 ≤ elems 5
      ∧ (scaleOf ⟨0x200000FF, true⟩ = .pois 0x200000 ∧ scaleOf ⟨255, false⟩ = .foreign ∧ scaleOf ⟨254, false⟩ = .code 254) := by
  refine ⟨⟨rfl, rfl⟩, ?_⟩
  decide +kernel

/-- The scratchpad of a tile with every right, in `c1`; scratchpad bytes 0 to 7 hold 0x81 to 0x88. -/
abbrev loads (q : Nat) : State :=
  { cur := { q := q, snap := { c := [(1, mkCap oidScr 0xFF 0 6 0 0x2000 true)], sreg := [(1, ⟨5, false⟩), (2, ⟨4, true⟩)] } }
    tiles := [(0, { vecs with scr := (List.range 8).map fun i => (i, BitVec.ofNat 8 (0x81 + i)) })] }

theorem witness_FailedChecksTrap :
    (loads 1).issues 0
      ∧ (match checkAll ((loads 1).cur.snap.capP 0) 8 rtR 8 (chkOne (loads 1) ⟨1, 0, 0, 0, 0, 0, 3⟩) with
        | .error t => t.cause
        | .ok _ => 0) = cCAPNUL := by
  refine ⟨⟨rfl, rfl⟩, ?_⟩
  decide +kernel

/-- Each case of `Cap.Check` for 8 bytes with R through the capability of the example of R133 (exponent 12, 2^30 bytes) with the given tag and rights. -/
theorem witness_FailedChecksTrap_checks :
    let c := fun (r : Nat) (t : Bool) => mkCap 0x123 r 0x01234567 12 0 0x40000 t
    capCheck Cap.null 0 8 rtR 8 = .error cCAPNUL ∧ capCheck (c 0x63 false) 0 8 rtR 8 = .error cCAPTAG ∧ capCheck (c 0x62 true) 0 8 rtR 8 = .error cCAPRGT
      ∧ capCheck (c 0x63 true) (2 ^ 30 - 0x01234567 - 7) 8 rtR 8 = .error cCAPBND ∧ capCheck (c 0x63 true) (-0x01234568) 8 rtR 8 = .error cCAPBND
      ∧ capCheck (c 0x63 true) 0 8 rtR 8 = .error cALIGN ∧ capCheck (c 0x63 true) 1 8 rtR 8 = .ok (0x123, 0x01234568)
      ∧ capCheck (c 0x63 true) (2 ^ 30 - 0x01234567 - 8) 8 rtR 8 = .ok (0x123, 2 ^ 30 - 8) ∧ (0 : Nat) < 8 ∧ rtR < 2 ^ 8 := by decide +kernel

theorem witness_FailedChecksTrap_lanes :
    let c := mkCap 0x123 0x63 0 12 0 0x40000 true
    (∀ y ∈ [(⟨0, 0, none⟩ : Chk)], y.pois = none ∧ capCheck c y.off 8 rtR 8 = .ok (0x123, 0)) ∧ (⟨1, 0, some 4⟩ : Chk).pois = some 4
      ∧ (⟨1, 4, none⟩ : Chk).pois = none ∧ capCheck c (⟨1, 4, none⟩ : Chk).off 8 rtR 8 = .error cALIGN
      ∧ checkAll (mkCap 0x123 0xFF 0 12 0 0x40000 true) 272 rtR 16 (chkOne (loads 1) ⟨1, 1, 0, 0, 0, 0, 0⟩) = .ok [(0, 0)]
      ∧ (mkCap 0x123 0xFF 0 12 0 0x40000 true).oid ≠ oidScr := by decide +kernel

theorem witness_LoadWords :
    (loads 1).issues 0 ∧ ((loads 1).tile 0).scrUE = [] ∧ ((loads 1).pool (clusterOf 0)).ue = [] ∧ ((loads 1).tile 0).dacc = [] ∧ (let s := loads 1; let c := s.cur.snap.capP 1
      c.oid = oidScr
        ∧ checkAll c 8 rtR 8 (chkOne s ⟨1, 1, 0, 0, 0, 0, 3⟩) = .ok [(0, 0)] ∧ (1 : BitVec 8).toNat % 64 ≠ 0
        ∧ checkAll c 4 rtR 4 (chkContig s ⟨1, 1, 0, 1, 0, 0, 0⟩) = .ok [(0, 0), (1, 4)]
        ∧ checkAll c 1 rtR 1 (chkStride s ⟨1, 1, 0, 1, 0, 0, 0⟩) = .ok [(0, 0), (1, 0)]
        ∧ checkAll c 4 rtR 4 (chkIdx s ⟨1, 1, 4, 1, 0⟩) = .ok [(0, 0), (1, 0)]
        ∧ checkAll c 16 rtR 16 (chkOne s ⟨1, 1, 0, 0, 0, 0, 0⟩) = .ok [(0, 0)]
        ∧ checkAll c 2 rtR 2 (chkSplat s ⟨1, 1, 0, 1, 0, 0, 1⟩) = .ok [(0, 0)] ∧ (1 : BitVec 3).toNat < 3
        ∧ checkAll c 272 rtR 16 (chkOne s ⟨1, 1, 0, 0, 0, 0, 0⟩) = .ok [(0, 0)]) := by
  refine ⟨⟨rfl, rfl⟩, rfl, rfl, rfl, ?_⟩
  decide +kernel

/-- The same through a capability for any object, with the rights given; `v5` is FP32 poison 7 in every lane. -/
abbrev through (oid rights q : Nat) : State :=
  { cur := { q := q, snap := { c := [(1, mkCap oid rights 0 6 0 0x2000 true)], sreg := [(1, ⟨5, false⟩), (2, ⟨4, true⟩)] } }
    tiles := [(0, { vecs with vreg := (5, mkVec fun _ => ⟨0x7FE00007, true⟩) :: vecs.vreg })] }

/-- The pool and an object in DRAM. -/
theorem witness_LoadWords_others :
    (oidPool, .pool (clusterOf 0), 26) ∈ [(oidScr, Space.scr 0, 10), (oidPool, .pool (clusterOf 0), 26)]
      ∧ ∀ o ∈ [oidPool, 1], let s := through o 0xFF 1; let c := s.cur.snap.capP 1
        s.cur.pred = true ∧ (s.pool (clusterOf 0)).ue = [] ∧ (s.tile 0).dacc = [] ∧ c.oid = o ∧ c.oid ≠ oidScr
          ∧ checkAll c 8 rtR 8 (chkOne s ⟨1, 1, 0, 0, 0, 0, 3⟩) = .ok [(0, 0)] ∧ checkAll c 2 rtR 2 (chkSplat s ⟨1, 1, 0, 1, 0, 0, 1⟩) = .ok [(0, 0)]
          ∧ checkAll c 4 rtR 4 (chkContig s ⟨1, 1, 0, 1, 0, 0, 0⟩) = .ok [(0, 0), (1, 4)]
          ∧ checkAll c 16 rtW 16 (chkOne s ⟨1, 1, 0, 0, 0, 0, 0⟩) = .ok [(0, 0)] := by
  refine ⟨by decide, ?_⟩
  simp only [List.forall_mem_cons, List.not_mem_nil, false_implies, implies_true, and_true]
  decide +kernel

/-- FP32 poison in `v5`: stored through a capability with P, refused through one without it; `v3` is refused through either. -/
theorem witness_StoreWords_poison :
    let s := through oidScr 0xFF 3
    let r := through oidScr 0x7F 3
    let l : List (Nat × Nat) := [(0, 0), (1, 0)]
    (s.cur.snap.capP 1).has rtP = true ∧ (r.cur.snap.capP 1).has rtP = false
      ∧ (∀ x ∈ l, (((s.tile 0).v 5).at x.1).bits.toNat / 2 ^ 22 ≠ 0) ∧ (((r.tile 0).v 5).at 0).tag = true
      ∧ checkAll (s.cur.snap.capP 1) 4 rtW 4 (chkIdx s ⟨5, 1, 4, 1, 0⟩) = .ok l ∧ checkAll (r.cur.snap.capP 1) 4 rtW 4 (chkStride r ⟨5, 1, 0, 1, 0, 0, 2⟩) = .ok l
      ∧ ((2 : BitVec 2).toNat < 2) = False ∧ (((s.tile 0).v 3).at 0).bits.toNat / 2 ^ 22 = 0 := by
  refine ⟨?_, ?_, ?_, ?_, ?_, ?_, by simp, ?_⟩ <;> decide +kernel

theorem witness_StoreWords :
    (loads 3).issues 0 ∧ Memory.wf ((loads 3).tile 0).scr = true ∧ ((loads 3).tile 0).dacc = [] ∧ (let s := loads 3; let c := s.cur.snap.capP 1
      (oidScr, Space.scr 0) ∈ [(oidScr, .scr 0), (oidPool, .pool (clusterOf 0))] ∧ Memory.wf (s.pool (clusterOf 0)).mem = true
        ∧ c.oid = oidScr ∧ (s.cur.snap.s 1).tag = false ∧ (s.cur.snap.s 2).tag = true
        ∧ checkAll c 4 rtW 4 (chkOne s ⟨1, 1, 0, 0, 0, 0, 2⟩) = .ok [(0, 0)]
        ∧ checkAll c 16 rtW 16 (chkOne s ⟨1, 1, 0, 0, 0, 0, 0⟩) = .ok [(0, 0)]
        ∧ checkAll c 4 rtW 4 (chkContig s ⟨2, 1, 0, 1, 0, 0, 0⟩) = .ok [(0, 0), (1, 4)]
        ∧ (∀ x ∈ [(0, 0), (1, 4)], (((s.tile 0).v 2).at x.1).tag = false) ∧ (((s.tile 0).v 3).at 0).tag = true
        ∧ (((s.tile 0).v 3).at 0).bits.toNat / 2 ^ 22 = 0
        ∧ checkAll c 1 rtW 1 (chkStride s ⟨3, 1, 0, 1, 0, 0, 0⟩) = .ok [(0, 0), (1, 0)] ∧ (0 : BitVec 2).toNat < 2
        ∧ checkAll c 4 rtW 4 (chkIdx s ⟨2, 1, 4, 1, 0⟩) = .ok [(0, 0), (1, 0)]
        ∧ checkAll c 272 rtW 16 (chkOne s ⟨1, 1, 0, 0, 0, 0, 0⟩) = .ok [(0, 0)]) := by
  refine ⟨⟨rfl, rfl⟩, rfl, rfl, ?_⟩
  decide +kernel

/-- A word in a queue. -/
abbrev ent (i : Instr) (seq : Nat) : QEntry := ⟨i, 8 * seq, 0, 0, seq, 0, true, {}⟩
/-- The heads of the L and S queues are marks n and m of tile 0, which runs for a region of one tile. -/
abbrev marks (q n m : Nat) : State :=
  { cur := { q := q, seq := 1 }
    tiles := [(0, { rgn := 1, cyc := 9, lq := [ent (.markL h0 ⟨BitVec.ofNat 4 n, 0, 0, 0, 0⟩) 1], sq := [ent (.markS h0 ⟨BitVec.ofNat 4 m, 0, 0, 0, 0⟩) 2] })]
    regions := [(1, { w := 1, h := 1 })] }

theorem witness_MarksAndFences :
    (marks 1 0 0).issues 0 ∧ (marks 3 15 15).issues 0
      ∧ ((marks 1 0 0).tile 0).canIssue 1 = true ∧ ((marks 1 0 0).tile 0).canIssue 3 = true ∧ ((marks 3 15 15).tile 0).canIssue 3 = true
      ∧ (0 : BitVec 4) ≠ 15 ∧ (marks 1 0 15).cur.seq < 2 ∧ (0 : BitVec 11).toNat < ((marks 3 0 0).rgnOf 0).w * ((marks 3 0 0).rgnOf 0).h
      ∧ ((marks 3 0 0).rgnOf 0).w * ((marks 3 0 0).rgnOf 0).h ≤ (1 : BitVec 11).toNat ∧ ((marks 3 0 0).tile 0).storesBefore 0 = false
      ∧ ((marks 3 0 0).tile 0).copiesBefore 0 = false
      ∧ ({ dacc := [⟨0, 0, 0, 0, true, 0, 0, [], none, none, 1, 0, [], none⟩], dord := 1 } : Tile).storesBefore 1 = true := by
  refine ⟨⟨rfl, rfl⟩, ⟨rfl, rfl⟩, ?_⟩
  decide +kernel

theorem witness_ResultsAndTokens :
    (queued 1 vecs).byTile 0 ∧ (queued 3 vecs).byTile 0 ∧ 1 ≤ (queued 1 vecs).cur.q ∧ (queued 3 vecs).cur.q ≤ 3
      ∧ (∀ i, i < 6 → tget 0 (vecs.tok) i ≤ 8) ∧ tget 0 ({ tok := [(2, 7)] } : Tile).tok 2 < 8
      ∧ 8 ≤ tget 0 ({ tok := [(2, 8)], pushw := [(1, 2)] } : Tile).tok 2 ∧ ({ tok := [(2, 8)], pushw := [(1, 2)] } : Tile).pushnow = [] ∧ (2 : Nat) ≠ 0x48 + 1 := by
  refine ⟨rfl, rfl, ?_⟩
  decide

/-- Tile 0 of region 1, whose semaphore name 3 is physical semaphore 40 with the count n. -/
abbrev sems (q n : Nat) : State :=
  { cur := { q := q, snap := { sreg := [(1, ⟨65535, false⟩), (2, ⟨65536, false⟩), (3, ⟨4, true⟩)] } }
    tiles := [(0, { rgn := 1, smap0 := [(3, ⟨true, 40⟩)], sem := [(40, BitVec.ofNat 16 n)] })], regions := [(1, { ctx := 2, state := 3 })] }

theorem witness_SemaphoreWords :
    (sems 2 1).issues 0 ∧ (sems 2 1).semPhys 0 3 = some 40 ∧ (sems 2 1).semPhys 0 4 = none ∧ 1 ≤ ((sems 2 1).tile 0).count 40
      ∧ ((sems 2 65535).tile 0).count 40 ≤ 65535 ∧ ((sems 2 0).tile 0).count 40 < 1 ∧ ((sems 2 0).cur.snap.s 1).tag = false
      ∧ ((sems 2 0).cur.snap.s 1).bits.toNat ≤ 65535 ∧ 65535 < ((sems 2 0).cur.snap.s 2).bits.toNat ∧ ((sems 2 0).cur.snap.s 3).tag = true := by
  refine ⟨⟨rfl, rfl⟩, ?_⟩
  decide +kernel

theorem witness_SemaphoreWords_sorrel :
    let s := onSorrel (regs [(1, 65535)])
    s.bySorrel 0 ∧ s.goes h0.pred ∧ (h0.popl || h0.popr || h0.pshl || h0.pshr) = false ∧ (tget 0 (s.die 0).sem 1).toNat + 0 ≤ 65535
      ∧ (tget 0 (s.die 0).sem 1).toNat < 1 ∧ (s.core.s 1).tag = false ∧ (s.core.s 1).bits.toNat ≤ 65535 := by
  refine ⟨rfl, rfl, ?_⟩
  decide +kernel

/-- Handle 5 of context 2 is bound to barrier 1 of pool 0, in the given state and phase; tile 0 waits for its phase w. -/
abbrev bars (state : Nat) (phase w : BitVec 16) : State :=
  { cur := { q := 2, snap := { sreg := [(1, ⟨1, false⟩), (2, ⟨2 ^ 41, false⟩)] } }
    tiles := [(0, { rgn := 1, wph := [(5, w)] })], regions := [(1, { ctx := 2, state := 3 })]
    ctxs := [(2, { bmap := [(5, (0, 1))] })], pools := [(0, { bar := [(1, { count := 4, state := state, phase := phase, rgn := 1 })] })] }

theorem witness_BarrierWords :
    (bars 1 0 0).issues 0 ∧ (bars 1 0 0).barAt 2 5 = some (0, 1) ∧ (bars 1 0 0).barAt 2 6 = none
      ∧ ((bars 1 0 0).cur.snap.s 1).bits ≠ 0 ∧ ((bars 1 0 0).cur.snap.s 2).bits.toNat ≤ 2 ^ 41 ∧ ((bars 1 0 0).cur.snap.s 4).bits = 0
      ∧ ((bars 1 0 0).bar (0, 1)).state ≠ 3 ∧ ((bars 3 0 0).bar (0, 1)).state = 3
      ∧ (((bars 2 1 0).bar (0, 1)).phase - 0).toNat = 1 ∧ (((bars 2 0 0x8001).bar (0, 1)).phase - 0x8001).toNat = 32767
      ∧ (((bars 2 0 0).bar (0, 1)).phase - 0).toNat = 0 ∧ (((bars 2 0 0x8000).bar (0, 1)).phase - 0x8000).toNat = 32768
      ∧ 0 < ((bars 1 0 0).bar (0, 1)).count ∧ 1 ≤ 3 ∧ 0 + 3 < 4 ∧ 0 + 4 = 4 ∧ 4 < 0 + 5 ∧ 0 + 7 < 2 * 4 ∧ 2 * 4 ≤ 0 + 8 := by
  refine ⟨⟨rfl, rfl⟩, ?_⟩
  decide +kernel

/-- Tile 0 with a handler at 64 runs a word of queue q at 24. -/
abbrev traps (q : Nat) (tvec : BitVec 32) : State :=
  { cur := { q := q, pc := 24, w0 := 9 }, tiles := [(0, { rgn := 1, live := true, core := { pc := 56, trap := { tvec := tvec } } })], regions := [(1, { state := 3 })] }

theorem witness_TrapEntry :
    (traps 0 64).byTile 0 ∧ (traps 0 64).cur.q = 0 ∧ 1 ≤ (traps 1 64).cur.q ∧ (traps 3 64).cur.q ≤ 3 ∧ (traps 0 64).cur.pc < 2 ^ 32 - 8
      ∧ handlerMay cPOISST = true ∧ handlerMay cSWTRAP = true ∧ ((traps 0 64).tile 0).core.trap.hnd = false ∧ ((traps 0 64).tile 0).core.trap.tvec ≠ 0xFFFFFFFF
      ∧ ((traps 0 64).tile 0).core.pc < 2 ^ 32 ∧ ((traps 0 0xFFFFFFFF).tile 0).core.trap.tvec = 0xFFFFFFFF
      ∧ ((traps 0 64).region ((traps 0 64).tile 0).rgn).report = none ∧ (handling 0).core.trap.hnd = true ∧ handlerMay cABORT = false := by
  refine ⟨rfl, ?_⟩
  decide +kernel

theorem witness_TrapAndReturn :
    (handling 0).goes 0 ∧ (handling 0).byTile 0 ∧ (handling 0).core.trap.hnd = true ∧ (handling 0).core.trap.dq = 0 ∧ (handling 0).core.trap.skip = false
      ∧ (handling 0).core.trap.tstat.toNat / 16 % 2 ^ 12 = 0 ∧ (handling 0).core.trap.tstat.toNat / 2 ^ 32 = 0 ∧ (handling 3).core.trap.dq ≠ 0
      ∧ (handling 3).core.fePc < 2 ^ 64 ∧ scal.goes 0 ∧ scal.core.trap.hnd = false
      ∧ (handling 0x40000000).core.trap.tstat.toNat / 2 ^ 32 ≠ 0 ∧ (handling 0x40000000).core.trap.hnd = true
      ∧ (handling 4).core.trap.tstat.toNat / 16 % 2 ^ 12 ≠ 0 := by
  refine ⟨rfl, rfl, rfl, rfl, rfl, rfl, rfl, by decide, by decide, rfl, rfl, by decide, rfl, by decide⟩

/-- The Sorrel of die 0 with a handler at 64, or none, in it or not. -/
abbrev sorrelTraps (tvec : BitVec 32) (hnd : BitVec 64) : State := onSorrel { pc := 24, trap := { tvec := tvec, tstat := hnd } }

theorem witness_TrapAndReturn_entry :
    (traps 0 64).goes 0 ∧ (traps 0 64).byTile 0 ∧ (traps 0 64).cur.q = 0 ∧ (traps 0 64).cur.pc < 2 ^ 32 - 8 ∧ (traps 0 64).core.trap.hnd = false
      ∧ (traps 0 64).core.trap.tvec ≠ 0xFFFFFFFF
      ∧ (sorrelTraps 64 0).goes 0 ∧ (sorrelTraps 64 0).bySorrel 0 ∧ (sorrelTraps 64 0).cur.pc < 2 ^ 32 - 8 ∧ (sorrelTraps 64 0).core.trap.hnd = false
      ∧ (sorrelTraps 64 0).core.trap.tvec ≠ 0xFFFFFFFF ∧ (sorrelTraps 0xFFFFFFFF 0).core.trap.tvec = 0xFFFFFFFF ∧ (sorrelTraps 64 1).core.trap.hnd = true
      ∧ (sorrelTraps 64 1).core.trap.tstat.toNat / 16 % 2 ^ 12 = 0 ∧ (sorrelTraps 64 1).core.trap.tstat.toNat / 2 ^ 32 = 0 := by
  refine ⟨rfl, rfl, rfl, by decide, rfl, by decide, rfl, rfl, by decide, rfl, by decide, rfl, rfl, by decide, by decide⟩

/-- `s3` is poisoned: it is `sA` of one word, and register j from `sB` = `s0` or `s3` of another. -/
theorem witness_SupervisorWordChecks :
    scal.byTile 0 ∧ (onSorrel scal.core).bySorrel 0 ∧ (onSorrel scal.core).goes 0 ∧ ((onSorrel scal.core).core.s 3).tag = true
      ∧ ((onSorrel scal.core).core.s ((0 : BitVec 6).toNat + 3)).tag = true ∧ ((onSorrel scal.core).core.s ((3 : BitVec 6).toNat + 0)).tag = true :=
  ⟨rfl, rfl, rfl, rfl, rfl, rfl⟩

/-- The tile runs a live region of w tiles with semaphore name 3 mapped to 40. -/
abbrev live (t : Tile) : Tile := { t with rgn := 1, live := true, smap0 := [(3, ⟨true, 40⟩)] }
/-- Tile 0 of a region of two running tiles. -/
abbrev pairOf (t u : Tile) : State :=
  { cur := { q := 2, snap := { c := [(1, mkCap oidScr 0xFF 0 6 0 0x2000 true)], sreg := [(1, ⟨16, false⟩), (2, ⟨4, true⟩), (4, ⟨1, false⟩)] } }
    tiles := [(0, live t), (1, live { u with tix := 1 })], regions := [(1, { ctx := 2, state := 3, w := 2, h := 1, mid := true })] }
/-- A matrix command with opcode `opc` in word 0, whose wait is semaphore 3 with threshold 1. -/
abbrev mcmd (i : Instr) (opc : Nat) (started finished : Bool) : MeCmd :=
  ⟨0, i, 8, opc * 2 ^ 56 + 3 * 2 ^ 40 + 2 ^ 32, 0, Cap.null, 0, 0, started, 0, finished, 0, 0, [], 0, [], 0⟩
/-- A copy command of opcode `opc` within tile 0's scratchpad: n bytes from 64 to 0. -/
abbrev xcmd (i : Instr) (opc n : Nat) : XeCmd :=
  { seq := 4, instr := i, pc := 8, w0 := opc * 2 ^ 56 + 3 * 2 ^ 40 + 2 ^ 32, w1 := 0, dobj := some oidScr, dofs := 0, fobj := some oidScr, fofs := 64,
    dcap := Cap.null, fcap := Cap.null, dtile := some 0, ord := 0, len := n, vals := [7], due := 0 }
abbrev e0 : FmtE := ⟨0, 0, 0, 0, 0, 0⟩

theorem witness_MatrixRegisterWords :
    (pairOf {} {}).issues 0 ∧ ((pairOf {} {}).cur.snap.s 1).tag = false ∧ ((pairOf {} {}).cur.snap.s 2).tag = true
      ∧ (1 : BitVec 8).toNat % 64 ≠ 0 ∧ (64 : BitVec 8).toNat % 64 = 0 ∧ opndIdx (pairOf {} {}) ⟨0, 0, 0, 63, 0, 0, 0, 1, 0⟩ = .inl 63
      ∧ opndIdx (pairOf {} {}) ⟨0, 0, 2, 0, 0, 0, 0, 0, 0⟩ = .inr 4 ∧ accBusy ((pairOf {} {}).tile 0) = false
      ∧ accBusy ((pairOf { meq := [mcmd (.mxmma h0 e0) 0x12 false false] } {}).tile 0) = true := by
  refine ⟨⟨rfl, rfl⟩, ?_⟩
  decide +kernel

theorem witness_EngineChecks :
    let s := pairOf {} {}
    let f : FmtE := ⟨0, 0, 0, 0, 0, 1⟩
    let q : MReq := { n := 16, rights := rtR, align := 4, rows := 2, str := 64 }
    let d : XReq := { adr := [1], val := [4], dst := some { rights := rtW, n := 16 } }
    (∀ r : Nat, r < 2 → (capCheck (s.cur.snap.capP 1) (r * 64) 16 rtR 4).isOk = true) ∧ (capCheck (s.cur.snap.capP 0) 0 16 rtR 4).isOk = false
      ∧ (s.semPhys s.me 3).isSome = true ∧ (s.semPhys s.me 4).isSome = false ∧ (meCheck s f (some q)).isOk = true ∧ (s.cur.snap.s 2).tag = true
      ∧ (sideOpt (s.cur.snap.capP 1) 0 d.dst).isOk = true ∧ (sideOpt (s.cur.snap.capP 0) 0 d.dst).isOk = false ∧ (xCheck s f false d).isOk = true
      ∧ bitsN (1 * 2 ^ 40) 40 4 ≠ 0 ∧ s.peerOk 2 1 = false := by
  decide +kernel

theorem witness_EngineCommandsIssue :
    (pairOf {} {}).issues 0 ∧ (let s := pairOf {} {}
      (s.tile 0).meq.length < 16 ∧ (s.tile 0).xeq.length < 32 ∧ 16 ≤ (List.replicate 16 (mcmd (.mxz h0 e0) 0x13 false false)).length
        ∧ 32 ≤ (List.replicate 32 (xcmd (.xcp h0 e0) 0x10 8)).length ∧ meCheck s e0 none = .ok () ∧ bitsN 6 1 3 ≤ 3
        ∧ (match xCheck s e0 false { adr := [2] } with
          | .error t => t.2
          | .ok _ => true) = false
        ∧ (match xCheck s ⟨4, 1, 0, 0, 0, 0⟩ true {} with
          | .error t => t.2
          | .ok _ => false) = true
        ∧ (match meCheck s ⟨4, 1, 0, 0, 0, 0⟩ none with
          | .error t => t.2
          | .ok _ => false) = true) := by
  refine ⟨⟨rfl, rfl⟩, ?_⟩
  decide +kernel

theorem witness_MatrixCommandRuns_start :
    ∀ i ∈ [(Instr.mxz h0 e0, 0x13), (.mxprm h0 e0, 0x14), (.mxgng h0 e0, 0x18)],
      let c := mcmd i.1 i.2 false false
      let s := pairOf { meq := [c], sem := [(40, 1)] } {}
      c.opc = i.2 ∧ i.2 ∈ [0x13, 0x14, 0x18] ∧ (s.tile 0).meq = [c] ∧ c.park = 0 ∧ (s.tile 0).meDead = false ∧ (s.tile 0).meStarted = false
        ∧ s.engineOk 0 false = true ∧ (s.tile 0).storesBefore c.ord = false ∧ s.semPhys 0 (bitsN c.w0 40 8) = some 40
        ∧ bitsN c.w0 32 8 ≤ (s.tile 0).count 40 ∧ ((pairOf { meq := [c] } {}).tile 0).count 40 < bitsN c.w0 32 8 := by
  decide +kernel

theorem witness_MatrixCommandRuns_end :
    let c := mcmd (.mxz h0 e0) 0x13 true true
    let d := { c with w0 := c.w0 + 3 * 2 ^ 24 + 255 * 2 ^ 16 }
    ((pairOf { meq := [c] } {}).tile 0).meq.find? (·.id == 0) = some c ∧ c.gang = 0 ∧ c.park = 0 ∧ bitsN c.w0 16 8 = 0 ∧ bitsN d.w0 16 8 ≠ 0
      ∧ (pairOf { meq := [d] } {}).semPhys 0 (bitsN d.w0 24 8) = some 40 ∧ (([d] : List MeCmd).any fun x => x.id < d.id && x.landsHere && !x.finished) = false := by
  decide +kernel

/-- Every opcode that works, alone and fit to start, over the tile's own scratchpad: with its threshold met, not met, and with none and no mapping. -/
theorem witness_MatrixCommandRuns_work :
    ∀ o ∈ [0x10, 0x11, 0x12, 0x14, 0x15, 0x16, 0x17],
      let c := { mcmd (.mxz h0 e0) o false false with cap := mkCap oidScr 0xFF 0 6 0 0x2000 true }
      let d : MeCmd := { c with w0 := o * 2 ^ 56 + 4 * 2 ^ 40 }
      let s := pairOf { meq := [c], sem := [(40, 1)] } {}
      let u := pairOf { meq := [d] } {}
      (s.engineOk 0 false = true ∧ (s.tile 0).storesBefore (max c.ord (tget 0 (s.tile 0).semOrd 40)) = false ∧ waitTh c.w0 = 1
          ∧ s.semPhys 0 (bitsN c.w0 40 8) = some 40 ∧ (s.tile 0).count 40 = 1 ∧ c.opc = o)
        ∧ u.engineOk 0 false = true ∧ (u.tile 0).storesBefore d.ord = false ∧ waitTh d.w0 = 0 ∧ u.semPhys 0 (bitsN d.w0 40 8) = none ∧ (u.tile 0).count 40 < 1 := by
  decide +kernel

/-- The other conditions of `meAlone` hold of such a state as it is written. -/
theorem witness_MatrixCommandRuns_alone (o : Nat) :
    let c := { mcmd (.mxz h0 e0) o false false with cap := mkCap oidScr 0xFF 0 6 0 0x2000 true }
    let s := pairOf { meq := [c], sem := [(40, 1)] } {}
    (s.tile 0).meq = [c] ∧ c.started = false ∧ c.finished = false ∧ c.park = 0 ∧ c.row = 0 ∧ c.ue = [] ∧ (s.tile 0).meDead = false
      ∧ (s.tile 0).meStarted = false ∧ c.cap.oid = 0xFFFFF0 := 
  ⟨rfl, rfl, rfl, rfl, rfl, rfl, rfl, rfl, show (mkCap oidScr 0xFF 0 6 0 0x2000 true).oid = 0xFFFFF0 by decide +kernel⟩

theorem witness_MatrixCommandRuns_banks :
    ({} : Tile).meWhole ∧ (∀ i j, i < 128 → j < 128 → (({} : Tile).cellAt i j).2 = none) ∧ ({} : Tile).scrUE = [] := by
  refine ⟨fun i _ => ⟨rfl, rfl, rfl⟩, fun i j _ _ => ?_, rfl⟩
  show (List.replicate 128 (none : Option Nat)).getD j none = none
  rw [List.getD_eq_getElem?_getD, List.getElem?_replicate]
  split <;> rfl

/-- Empty banks decode to the integer 0 with scale code 0 in every format of R243. -/
theorem witness_MatrixCommandRuns_panel : ∀ fmt ∈ [0, 1, 2], ({} : Tile).panel fmt 0 0 1 (fun _ _ => 0) (List.replicate 128 0) := by
  simp only [Tile.panel]
  decide +kernel

/-- No poison starts where 1.0 takes 2 or 3 in, and a cell at the end of its range. -/
theorem witness_MatrixCommandRuns_values :
    promoteEx 0x3F800000 (cellExact 0 127 127 8) ≠ .invalid ∧ (cellExact 0 127 127 8).ordinary = true ∧ (decodeF fFP32 0x3F800000).ordinary = true
      ∧ promoted 0x3F800000 (cellExact 0 127 127 8) = 0x40400000 ∧ -(2 ^ 47) ≤ (-(2 ^ 47) : Int) + 0 ∧ isPois32 0x7FE00007 = true ∧ isPois32 0x3F800000 = false
      ∧ rawElem 3 [] ([] : List Byte) 0 = .flt (decodeF fBF16 0) ∧ (decodeF fBF16 0).ordinary = true
      ∧ fFma ⟨0, 0⟩ (decodeF fBF16 0) (decodeF fBF16 0) (decodeF fFP32 0) ≠ .invalid ∧ (mkCap oidScr 0x7F 0 6 0 0x2000 true).has rtP = false := by
  decide +kernel

theorem witness_MatrixCommandRuns_gang :
    let c : MeCmd := { mcmd (.mxrp h0 e0) 0x19 true false with gang := 1 }
    let d : MeCmd := { mcmd (.mxla h0 e0) 0x10 true true with gang := 1 }
    let s := pairOf { meq := [d] } { meq := [c], gpos := 1, gsize := 2 }
    (s.tile 1).meq.find? (fun x => x.opc == 0x19 && x.started && !x.finished && x.gang != 0) = some c ∧ s.gangLoad 1 c.gang = some (0, d) ∧ 1 ≠ 0 := by
  decide +kernel

theorem witness_CopyCommandRuns_start :
    ∀ i ∈ [(Instr.xcp h0 e0, 0x10), (.xfil h0 e0, 0x1A), (.xsig h0 e0, 0x16), (.xsel h0 e0, 0x19)],
      let c := { xcmd i.1 i.2 0x7FFC0 with fobj := if i.2 = 0x1A then none else some oidScr }
      let s := pairOf { xeq := [c], sem := [(40, 1)] } {}
      (s.tile 0).xrun = [] ∧ (s.tile 0).xeq = c :: [] ∧ s.xeMayStart 0 c = true ∧ c.finished = false ∧ c.park = 0 ∧ c.buf = [] ∧ c.ue = []
        ∧ c.pois = [] ∧ c.peer = false ∧ c.opc = i.2 ∧ bitN c.w0 1 = false ∧ (s.tile 0).storesBefore (max c.ord (tget 0 (s.tile 0).semOrd 40)) = false ∧ s.semPhys 0 (bitsN c.w0 40 8) = some 40
        ∧ bitsN c.w0 32 8 ≤ (s.tile 0).count 40 ∧ ((pairOf { xeq := [c] } {}).tile 0).count 40 < bitsN c.w0 32 8
        ∧ (s.region (s.tile 0).rgn).rword = none ∧ 1 ≤ c.len ∧ c.dofs.toNat + c.len ≤ 0x80000 ∧ c.fofs.toNat + c.len ≤ 0x80000 := by
  decide +kernel

/-- Bytes 0 to 7 of the scratchpad index two elements of 4 bytes, at 16 and beyond its end. -/
theorem witness_CopyCommandRuns_shapes :
    let m := mwrite [] 0 [16, 0, 0, 0, 0, 0, 8, 0]
    let c := { xcmd (.xcg h0 e0) 0x12 8 with w1 := 2 * 2 ^ 51, vals := [0, 0], dofs := 64, fofs := 0, dcap := mkCap oidScr 0xFF 0 6 0 0x2000 true,
                                             fcap := mkCap oidScr 0xFF 0 6 0 0x2000 true }
    let s := pairOf { xeq := [c], sem := [(40, 1)], scr := m } {}
    let d := { xcmd (.xc2 h0 e0) 0x11 8 with vals := [0, 4, 2, 2 ^ 32 * 8 + 4], dofs := 0, fofs := 64 }
    let D := fun (r : Nat) => d.dofs + r * sextN 32 (d.val 3 / 2 ^ 32)
    let F := fun (r : Nat) => d.fofs + r * sextN 32 (d.val 3)
    s.xeMayStart 0 c = true ∧ c.opc = 0x12 ∧ Memory.wf m = true ∧ bitsN c.w1 51 13 = 2 ∧ bitN (c.w0 % 2 ^ 16) 1 = false
      ∧ sextN 32 (leVal (mread m (c.val 1 + 4 * 0) 4)) = 16 ∧ capCheck c.fcap 16 4 rtR 1 = .ok (0xFFFFF0, 16) ∧ capCheck c.fcap 0x80000 4 rtR 1 = .error cCAPBND
      ∧ sextN 32 (leVal (mread m (c.val 1 + 4 * 1) 4)) = 0x80000
      ∧ (pairOf { xeq := [d] } {}).xeMayStart 0 d = true ∧ d.opc = 0x11 ∧ 1 ≤ d.val 1 ∧ d.val 2 = 2
      ∧ (∀ r, r < 2 → 0 ≤ D r ∧ D r + d.val 1 ≤ 0x80000 ∧ 0 ≤ F r ∧ F r + d.val 1 ≤ 0x80000) ∧ D 0 + d.val 1 ≤ D 1
      ∧ (let h := { xcmd (.xhsh h0 e0) 0x17 65536 with dofs := 65536, fofs := 0 }
        (pairOf { xeq := [h] } {}).xeMayStart 0 h = true ∧ h.opc = 0x17 ∧ 1 ≤ h.len ∧ h.dofs.toNat + 48 ≤ 0x80000 ∧ h.fofs.toNat + h.len ≤ 0x80000)
      ∧ (let n := { xcmd (.xcp h0 e0) 0x10 8 with w0 := 0x10 * 2 ^ 56 + 2 ^ 40 }
        bitsN n.w0 32 8 = 0 ∧ (pairOf {} {}).semPhys 0 (bitsN n.w0 40 8) = none ∧ (pairOf { xeq := [n] } {}).xeMayStart 0 n = true
          ∧ ((pairOf { xeq := [n] } {}).tile 0).storesBefore n.ord = false) := by
  decide +kernel

theorem witness_CopyCommandRuns_end :
    let c := { xcmd (.xcp h0 e0) 0x10 8 with finished := true }
    let d := { c with w0 := c.w0 + 3 * 2 ^ 24 + 2 ^ 16 }
    let a := { xcmd (.xawr h0 e0) 0x14 4 with finished := true, seq := 5 }
    let b := { a with seq := 2 }
    ((pairOf { xrun := [c] } {}).tile 0).xrun.find? (·.seq == 4) = some c ∧ bitN c.w1 50 = false ∧ bitsN c.w0 16 8 = 0 ∧ bitsN d.w0 16 8 ≠ 0
      ∧ c.opc ≠ 0x16 ∧ bitN d.w0 0 = false ∧ (pairOf {} {}).semPhys 0 (bitsN d.w0 24 8) = some 40 ∧ bitN (d.w0 + 1) 0 = true ∧ d.dtile = some 0
      ∧ d.peer = false ∧ (pairOf { xrun := [d] } {}).landsBefore 0 d.seq 0 none = false
      ∧ c.pushes = false ∧ c.isAw = false ∧ a.isAw = true ∧ a.applied = false ∧ ({ a with applied := true } : XeCmd).peer = false ∧ a.pushes = true ∧ b ∈ [b, a] ∧ b.pushes = true ∧ b.seq < a.seq
      ∧ (queued 3 { xfifo := [5] }).issues 0 ∧ ((queued 3 { xfifo := [5] }).tile 0).xfifo = 5 :: [] := by
  refine ⟨by decide, by decide, by decide, by decide, by decide, by decide, by decide +kernel, by decide, rfl, rfl, by decide +kernel, by decide, by decide, by decide,
    rfl, rfl, by decide, by decide +kernel, by decide, by decide, ⟨rfl, rfl⟩, rfl⟩

theorem witness_ArrivalsAndIncrements :
    let x : RemInc := ⟨0, 1, 3, 1, 0, 4, 8, 0, 0, none, false⟩
    let y := { x with en := 5 }
    let c := { xcmd (.xaw h0 e0) 0x13 8 with finished := true, elems := [(0, 1, none), (4, 2, some 3)], seq := 9 }
    let l := { xcmd (.xcp h0 e0) 0x10 8 with seq := 3, dtile := some 1 }
    let s : State := { pairOf { xrun := [c] } {} with incs := [x] }
    let w := { xcmd (.xaw h0 e0) 0x13 8 with late := some 0 }
    s.incs.find? (·.id == 0) = some x ∧ x.peer = none ∧ incHeld s { x with peer := some (11, 2 ^ 40, 0) } = false ∧ s.seamDown 0 0 = none
      ∧ (arr 0).port = none ∧ incHeld s x = false ∧ incHeld (pairOf { xrun := [l] } {}) x = true ∧ s.semPhys 1 x.en = some 40
      ∧ s.semPhys 1 y.en = none ∧ (s.rgnOf 0).report = none ∧ (s.tile 0).xrun.find? (·.seq == 9) = some c ∧ c.isAw = true ∧ c.ain = false
      ∧ c.park = 0 ∧ c.peer = false ∧ c.dobj = some oidScr
      ∧ (({ pairOf { xeq := [w] } {} with dom := { step := 4096 } } : State).dueAw 1 0).find? (fun x => !x.2.started && x.2.late.any fun d => d + 4096 ≤ 4096)
          = some (0, w)
      ∧ (arr 0).space = 0 ∧ (arr 0).unit = 0 ∧ (arr 0).tile = 0 ∧ (arr 0).exp = none ∧ (arr 0).vp = none ∧ (arr 0).ty ≠ 0 ∧ (arr 0).op = 0 := by
  decide +kernel

/-- What floating elements an arrival meets (R277): 1.0, infinities whose sum is invalid, poison 5, a foreign NaN and a signalling one. -/
theorem witness_ArrivalsAndIncrements_floats :
    (let x := decodeF fFP32 0x3F800000; let i := decodeF fFP32 0x7F800000; let j := decodeF fFP32 0xFF800000
      x.ordinary = true ∧ i.ordinary = true ∧ fAdd ⟨0, 0⟩ x x ≠ .invalid ∧ fAdd ⟨0, 0⟩ i j = .invalid)
      ∧ decodeF fFP32 0x7FE00005 = .poison 0x200005 ∧ decodeF fFP32 0x7FC00001 = .quiet ∧ decodeF fFP32 0x7F800001 = .signalling
      ∧ ({ arr 0 with ty := 0, vp := some 5 } : Arrival).vp = some 5 ∧ ({ arr 0 with port := some 11 } : Arrival).port = some 11
      ∧ Memory.wf (({} : State).tile 0).scr = true := by decide +kernel

/-- An increment and an accumulate toward a peer, its way down and up; and a foreign NaN that a peer's arrival brings to a zero word. -/
theorem witness_ArrivalsAndIncrements_peer :
    let x : RemInc := ⟨0, 1, 3, 1, 0, 4, 8, 0, 0, some (0, 2 ^ 40, 0), false⟩
    let c := { xcmd (.xaw h0 e0) 0x13 8 with w1 := 2 ^ 40, finished := true }
    let s : State := { pairOf { xrun := [c] } {} with incs := [x] }
    let u : State := { s with links := [(0, { state := 5 }), (14, { state := 5 })] }
    let a : Arrival := { arr 0 with port := some 11, ty := 0, v := 0x7FC00001 }
    s.incs.find? (·.id == 0) = some x ∧ incHeld s x = false ∧ s.peerDown 0 (2 ^ 40) = some 0 ∧ u.peerDown 0 (2 ^ 40) = none ∧ (s.rgnOf 0).report = none
      ∧ (s.tile 0).xrun.find? (fun y => y.seq == 4 && y.peer && y.isAw) = some c ∧ c.applied = false ∧ c.told = false ∧ c.porg = []
      ∧ ({ c with applied := true } : XeCmd).applied = true ∧ ({ arr 0 with space := 3, port := some 11, seq := 4 } : Arrival).seq = 4
      ∧ ([(0, 0, 5)] : List (Nat × Nat × Nat)).find? (fun y => y.1 == a.tix && y.2.1 == a.seq) = some (a.tix, a.seq, 5) ∧ (s.region 0).origins = 0
      ∧ (decodeF fFP32 (BitVec.ofNat 32 (leVal (s.rd a.at a.addr 4)) : BitVec 32).toNat).ordinary = true ∧ decodeF fFP32 a.v.toNat = .quiet := by
  decide +kernel

theorem witness_PeersAndHubCipher :
    let c := { xcmd (.xcp h0 e0) 0x10 8 with park := 3, w1 := 2 ^ 40 + 2 ^ 39 + 5 * 2 ^ 28 }
    let d := { xcmd (.xopn h0 e0) 0x18 8 with park := 4 }
    let s := pairOf { xrun := [c] } {}
    let k := fun (x : KeySlot) => ({ pairOf { xrun := [d] } {} with hub := { keys := [(0, x)] } } : State)
    let key := fun (x : KeySlot) => (tget {} (k x).hub.keys 0 : KeySlot)
    (s.tile 0).xrun.find? (·.seq == 4) = some c ∧ c.peer = true ∧ (s.rgnOf 0).report = none ∧ bitN c.w1 39 = true ∧ 5 ≤ bitsN c.w1 28 11
      ∧ bitsN c.w1 28 11 < 6 ∧ ((k {}).tile 0).xrun.find? (·.seq == 4) = some d ∧ d.opc = 0x18 ∧ d.dobj = some oidScr ∧ d.dtile = some 0 ∧ d.unnumbered = []
      ∧ (key {}).valid = false ∧ (key { valid := true, owner := 3 }).valid = true ∧ (key { valid := true, owner := 3 }).owner ≠ (k {}).ctxNo 0
      ∧ (key { valid := true, owner := 2 }).owner = (k {}).ctxNo 0 ∧ leVal (([] : List Byte).take 4) ≠ d.len := by
  decide +kernel

/-- A sealed object of 8 zero bytes under the key 0 with the count 1, and its tag. -/
theorem witness_PeersAndHubCipher_sealed :
    let x : KeySlot := { valid := true, owner := 2 }
    let hdr : List Byte := [0, 0, 0, 0, 1, 0, 0, 0, 0, 0, 0, 0, 8, 0, 0, 0]
    let ct : List Byte := List.replicate 8 0
    ∀ tag, tag = (gcm x.bytes (hdr.take 12) hdr ct ct).2 →
      let src := hdr ++ ct ++ tag
      let r := gcm x.bytes (src.take 12) (src.take 16) ((src.drop 16).take 8) ((src.drop 16).take 8)
      leVal ((src.drop 12).take 4) = 8 ∧ x.last.toNat < leVal ((src.drop 4).take 8) ∧ r.2 = (src.drop (16 + 8)).take 16 ∧ r.1.length = 8 := by
  intro x hdr ct tag ht src r
  have hl : tag.length = 16 := ht ▸ by decide +kernel
  have hr : r = gcm x.bytes (hdr.take 12) hdr ct ct := by
    show gcm x.bytes (src.take 12) (src.take 16) ((src.drop 16).take 8) ((src.drop 16).take 8) = _
    rw [show src.take 12 = hdr.take 12 from rfl, show src.take 16 = hdr from rfl, show (src.drop 16).take 8 = ct from rfl]
  have h8 : (gcm x.bytes (hdr.take 12) hdr ct ct).1.length = 8 := by decide +kernel
  refine ⟨?_, ?_, ?_, by rw [hr]; exact h8⟩
  · rw [show (src.drop 12).take 4 = [8, 0, 0, 0] from rfl]
    decide
  · rw [show (src.drop 4).take 8 = [1, 0, 0, 0, 0, 0, 0, 0] from rfl]
    decide
  rw [hr, ← ht]
  simp [src, hdr, ct, List.take_of_length_le hl.le]

/-! The supervisor words of Sorrel: `sA` is `s20`, `sB` is `s24`. -/

abbrev fz : FmtZ := ⟨20, 24, 0, 0⟩
/-- The Sorrel of die 0 with registers `l` runs a supervisor word. -/
abbrev sv (l : List (Nat × BitVec 64)) : State := onSorrel (regs l)

theorem sv_ready (l : List (Nat × BitVec 64)) (s : State) (n : Nat) (ha : s.cur.agent = .sorrel 0) (hd : (s.die 0).sorrel = regs l) :
    s.svReady 0 0 fz n := by
  have hc : s.core = regs l := by simp [State.core, ha, hd]
  have h : ∀ k, ((regs l).s k).tag = false := by
    intro k
    have g : ∀ (l : List (Nat × BitVec 64)) (k : Nat), (tget Scal.zero (l.map fun x => (x.1, (⟨x.2, false⟩ : Scal))) k).tag = false := by
      intro l k
      induction l with
      | nil => rfl
      | cons x l ih => by_cases hx : x.1 = k <;> simp_all [tget]
    by_cases hk : k = 0
    · simp [Core.s, hk, Scal.zero]
    · simpa [Core.s, hk] using g l _
  exact ⟨ha, by simp [State.goes, Core.qv], by rw [hc]; exact h _, fun j _ => by rw [hc]; exact h _⟩

/-- Context 2 has its table of 16 entries at 2 MiB; slot 0 of it holds frames 9 upwards. -/
abbrev tables (l : List (Nat × BitVec 64)) : State :=
  { sv l with
    ctxs := [(2, { otbase := 0x200000, slots := [(0, { state := 3, frame := 9, len := 1024 })] })]
    dram := mwrite (mwrite [] 0x200008 [16]) 0x204000 [8]
    fns := [(1, { glen := 4, gbase := 0x204000 })] }

theorem witness_TableWords :
    (∀ l n, (tables l).svReady 0 0 fz n) ∧ (tables []).otLen 2 = 16 ∧ 15 < (tables []).otLen 2
      ∧ descOk [0x200000, 16, 0, 0, 0, 0, 0, 0] = true ∧ descOk [0x200000, 0xFFFF01, 0, 0, 0, 0, 0, 0] = false
      ∧ (mkEnt [8, 0, 0, 0, 0, 0, 0, 0]).state = 0 ∧ (tables []).entOk 2 (mkEnt [8, 0, 0, 0, 0, 0, 0, 0]) = false
      ∧ (let e := mkEnt [1 + 16 + 2 ^ 32, 0, 9, 0, 0, 0, 0, 0]
        (tables []).entOk 2 e = true ∧ otMove (mkEnt ((tables []).otWords 2 1)).state e.state = true
          ∧ (tables []).entHosts 2 e = [9] ∧ 9 ∈ (tables []).boundFrames ∧ 8 ∉ (tables []).boundFrames)
      ∧ (let e := mkEnt [1 + 16 + 2 ^ 32, 0, 8, 0, 0, 0, 0, 0]
        (tables []).entOk 2 e = true ∧ (tables []).entHosts 2 e = [8])
      ∧ ((tables []).fn 1).glen ≤ 4 ∧ 3 < ((tables []).fn 1).glen ∧ bitN (2 ^ 19 + 9) 19 = true ∧ (2 ^ 19 + 9) % 2 ^ 19 ∈ (tables []).boundFrames
      ∧ bitN 9 19 = false ∧ (tables []).inBound ((tables []).otBase 2 + 64 * 15) 64 = false ∧ (tables []).inBound (((tables []).fn 1).gbase + 4 * 3) 4 = false
      ∧ ({ tables [] with ctxs := [(2, { otbase := 9 * 2097152, slots := [(0, { state := 3, frame := 9, len := 1024 })] })] } : State).inBound (9 * 2097152 + 64 * 15) 64 = true
      ∧ (tables []).inBound (9 * 2097152 + 4 * 3) 4 = true := by
  refine ⟨fun l n => sv_ready l _ n rfl rfl, ?_⟩
  decide +kernel

/-- Frame h is in state st of function 1, with one uncorrectable error. -/
abbrev frames (h st used : Nat) : State :=
  { tables [(20, BitVec.ofNat 64 h)] with
    dram := mwrite [] (ftAddr h) (leBytes 8 (mkFt st 1 0 1)), fns := [(1, { burst := 2, used := used, pcg := 1 })] }
/-- A fault record of the given kind. -/
abbrev fault (kind : Nat) : FaultRec := ⟨2, 1, 0, false, kind, false, 0, 0, 0, 1, 5, 0, 0, none⟩
/-- The fault buffer of die 0 holds a record, and one is popped. -/
abbrev faulted (l : List (Nat × BitVec 64)) (kind : Nat) : State :=
  { cur := { agent := .sorrel 0 }, dies := [(0, { state := 5, sorrel := regs l, fbuf := [fault kind], fpop := [fault kind] })] }

theorem witness_FrameAndFaultWords :
    (∀ h st u n, (frames h st u).svReady 0 0 fz n) ∧ (∀ l k n, (faulted l k).svReady 0 0 fz n)
      ∧ 393216 ≤ (frames 393216 0 0).reg 20 % 2 ^ 19 ∧ (frames 393215 0 0).reg 20 % 2 ^ 19 < 393216
      ∧ 9 ∈ (frames 9 0 0).boundFrames ∧ 8 ∉ (frames 8 0 0).boundFrames ∧ (∀ st, st < 6 → (frames 8 st 0).ft 8 % 8 = st)
      ∧ ((frames 8 0 1).fn 1).used < ((frames 8 0 1).fn 1).burst ∧ ((frames 8 0 2).fn 1).burst ≤ ((frames 8 0 2).fn 1).used
      ∧ ((frames 8 0 1).fn 1).groupOn (8 / 131072) = true ∧ ((frames 131072 0 1).fn 1).groupOn (131072 / 131072) = false
      ∧ 1 ≤ (frames 8 4 0).ft 8 / 2 ^ 27 % 2 ^ 16 ∧ (frames 8 4 0).hub.retired.length < 4096
      ∧ bitN (2 ^ 63 + 1) 63 = true ∧ (2 ^ 63 + 1) % 2097152 ≠ 0
      ∧ ((sv []).die 0).fbuf = [] ∧ ((faulted [] 0).die 0).fbuf = fault 0 :: [] ∧ ((faulted [] 0).die 0).fheld = []
      ∧ ((faulted [] 7).die 0).fpop.find? (·.seq == 5) = some (fault 7) ∧ ((faulted [] 7).die 0).fpop.find? (·.seq == 4) = none
      ∧ (let s := { frames 8 4 0 with dram := mwrite [] (ftAddr 8) (leBytes 8 (mkFt 4 1 0 0)) }
        s.ft 8 % 8 = 4 ∧ s.ft 8 / 2 ^ 27 % 2 ^ 16 = 0 ∧ 8 ∉ s.boundFrames)
      ∧ (fault 1).kind = 1 ∧ (fault 2).kind ≠ 0 ∧ (fault 2).kind ≠ 1 := by
  refine ⟨fun h st u n => sv_ready _ _ n rfl rfl, fun l k n => sv_ready l _ n rfl rfl, ?_⟩
  decide +kernel

/-- A region of 2 × 2 tiles with bank 0, Running or Starting, whose tile 0 has map name 3 and whose barrier handle 5 is bound. -/
abbrev mapped (st : Nat) (l : List (Nat × BitVec 64)) : State :=
  { sv l with
    tiles := [(0, { rgn := 1, smap0 := [(3, ⟨true, 40⟩)], sem := [(40, 65535)] }), (1, { rgn := 1 }), (96, { rgn := 1 }), (97, { rgn := 1 })]
    regions := [(1, { ctx := 2, state := st, w := 2, h := 2 })], ctxs := [(2, { bmap := [(5, (0, 1))] })]
    pools := [(0, { bar := [(1, { count := 4, state := 1, rgn := 1 })] })] }

theorem witness_MapWords :
    (∀ st l n, (mapped st l).svReady 0 0 fz n) ∧ (let s := mapped 1 []
      s.holder 0 0 = some 1 ∧ s.holder 0 1 = none ∧ s.holder 95 0 = none ∧ 0 ∉ (s.die (dieOfTile 0)).defect ∧ (s.region 1).running = false
        ∧ ((mapped 3 []).region 1).running = true ∧ (tget {} ((s.tile 0).smap 0) 3 : SMapE).valid = true ∧ (s.tile 0).count 40 ≠ 0
        ∧ (tget {} ((s.tile 0).smap 0) 4 : SMapE).valid = false ∧ 40 ∈ usedPhys (s.tile 0) 0 4 ∧ 41 ∉ usedPhys (s.tile 0) 0 4
        ∧ (65535 : Int) + sextN 32 (2 ^ 32 - 65535) = 0 ∧ 65535 < (65535 : Int) + sextN 32 1
        ∧ (65535 : Int) + sextN 32 (2 ^ 32 - 65536) < 0 ∧ 0 ∈ s.clustersOf 1 ∧ 1 ∉ s.clustersOf 1 ∧ (s.region 1).out = false ∧ s.homePool 1 0 = 0 ∧ (s.bar (0, 1)).state ≠ 0 ∧ (s.bar (0, 0)).state = 0
        ∧ (s.barAt 2 5).isSome = true ∧ s.barAt 2 6 = none ∧ (mapped 2 []).shownState ((mapped 2 []).region ((mapped 2 []).bar (0, 1)).rgn) ≠ 3
        ∧ (mapped 3 []).shownState ((mapped 3 []).region ((mapped 3 []).bar (0, 1)).rgn) = 3) := by
  refine ⟨fun st l n => sv_ready l _ n rfl rfl, ?_⟩
  decide +kernel

/-- Die 0 leads; slot 3 of context 2 is in the given state for one byte of object 1, which lies in frame 8; frame 9 is Pinned. -/
abbrev slotted (st : Nat) (dig : BitVec 384) (l : List (Nat × BitVec 64)) : State :=
  { sv l with
    hub := { lease := some 0 }
    ctxs := [(2, { otbase := 0x200000, slots := [(3, { state := st, len := 1, loading := [1], digest := dig })] })]
    dram := mwrite (mwrite (mwrite [] 0x200008 [16]) 0x200040 (wordsBytes [2 + 16 + 2 ^ 32, 0, 8 + 2 ^ 29])) (ftAddr 9) [3] }

theorem witness_SlotAndMeasurementWords :
    (∀ st d l m, (slotted st d l).svReady 0 0 fz m) ∧ (slotted 0 0 []).hub.lease = some 0 ∧ (sv []).hub.lease ≠ some 0
      ∧ (∀ st, st < 6 → ((slotted st 0 []).slotOf 2 3).state = st)
      ∧ 128 % 16 = 0 ∧ (2 ^ 32 - 16) % 16 = 0 ∧ 112 < 128 ∧ (2 ^ 18 - 8) + 8 ≤ 2 ^ 18 ∧ (2 ^ 18 - 8) % 8 = 0 ∧ 2 ^ 18 < (2 ^ 18 - 8) + 9
      ∧ 2 ^ 32 * 2 / 2 ^ 32 % 4 = 2 ∧ 2 ^ 32 * 3 / 2 ^ 32 % 4 = 3 ∧ (slotted 2 0 []).areaOk ((slotted 2 0 []).ctx 2).vf 9 1 = true
      ∧ (slotted 2 0 []).areaOk ((slotted 2 0 []).ctx 2).vf 8 1 = false ∧ (slotted 2 0 []).objBytes 2 1 0 1 = some [0]
      ∧ ({ slotted 2 0 [] with dramUE := [8 * 65536] } : State).objBytes 2 1 0 1 = none
      ∧ digNum (sha384 [0]) ≠ ((slotted 2 0 []).slotOf 2 3).digest := by
  refine ⟨fun st d l m => sv_ready l _ m rfl rfl, ?_⟩
  decide +kernel

theorem witness_SlotAndMeasurementWords_match : digNum (sha384 [0]) = ((slotted 2 (digNum (sha384 [0])) []).slotOf 2 3).digest := rfl

/-- Region 1 of 2 × 2 tiles with its origin at tile 0, in the given state and with its bank 0, Saved out to frame 9 or not; frames 9 to 12 are
Pinned. -/
abbrev placed (st : Nat) (out : Bool) (slots : Option Nat) (l : List (Nat × BitVec 64)) : State :=
  { sv l with
    hub := { lease := some 0 }
    tiles := [(0, { rgn := 1 }), (1, { rgn := 1 }), (96, { rgn := 1 }), (97, { rgn := 1 })]
    regions := [(1, { ctx := 2, state := st, w := 2, h := 2, out := out, slotsOut := slots, loops := [(0, (1, true))] })]
    dram := mwrite [] (ftAddr 9) ((List.range 4).flatMap fun _ => leBytes 8 3) }
/-- A launch of context 2 waits at stage 3 in queue 4, for slot 3. -/
abbrev waiting (st : Nat) : State :=
  { sv [(20, 2 ^ 25 + 4 * 2 ^ 16 + 3)] with
    hub := { lease := some 0 }
    fns := [(0, { clmask := 1 })], dram := mwrite [] (9 * 2097152 + 6) [2, 2]
    ctxs := [(2, { slots := [(3, { state := st, frame := 9, len := 1024 })], queues := [(4, { launch := some { ctx := 2, q := 4, slot := 3, stage := 3 } })] })] }

theorem witness_RegionWords :
    (∀ st o x l n, (placed st o x l).svReady 0 0 fz n) ∧ (∀ st, st < 12 → ((placed st false none []).region 1).state = st)
      ∧ (let R := (placed 7 false none []).region 1
        R.state = 7 ∧ R.out = false ∧ R.slotsOut = none ∧ R.op = none ∧ (placed 7 false none []).areaOk ((placed 7 false none []).ctx R.ctx).vf 9 (R.w * R.h / 2) = true
          ∧ placeWord 0 = some (R.ox, R.oy, R.rot, false) ∧ [R.seam0, R.seam1].filter (· != 0) = [] ∧ placeWord (2 ^ 63) = none)
      ∧ (let R := (placed 3 false none []).region 1
        R.state = 3 ∧ R.preq = false ∧ R.preReq = false ∧ (∃ l ∈ R.loops, l.2.2 = true) ∧ (placed 3 false none []).shownState R = 3 ∧ R.holdReq = false)
      ∧ ({ state := 6, hold := true } : Region).hold = true
      ∧ (let s := placed 7 true none []; s.areaOk (s.ctx 2).vf 9 (s.region 1).areaFrames = true)
      ∧ ((placed 7 true (some 9) []).bankFree 1 0 ((placed 7 true (some 9) []).region 1).tiles = true)
      ∧ ({ op := some (2, 9, 1) } : Region).op = some (2, 9, 1)
      ∧ ((waiting 3).stage3 2 4 3).isSome = true ∧ (waiting 3).stage3 2 5 3 = none ∧ ((waiting 2).slotOf 2 3).state = 2
      ∧ ((waiting 3).tryPlace 2 4 { ctx := 2, q := 4, slot := 3, stage := 3 } (0, 0, 0, false)).isOk = true
      ∧ ((waiting 3).tryPlace 2 4 { ctx := 2, q := 4, slot := 3, stage := 3 } (2, 0, 0, false)).isOk = false
      ∧ 2 ^ 32 / 2 ^ 32 ≠ 0 ∧ (∃ k ∈ (placed 6 false none []).tilesOf 1, ((placed 6 false none []).tile k).ended = false) := by
  refine ⟨fun st o x l n => sv_ready l _ n rfl rfl, ?_⟩
  decide +kernel

/-- A Saved region beside clusters that its function may use or not, and its placement at column 2, by the caller or by search. -/
abbrev movable (out : Bool) (mask : Nat) : State := { placed 7 out none [] with fns := [(0, { clmask := mask })] }

theorem witness_RegionWords_move :
    let req : PlaceReq := ⟨1, 2, 2, 2, [], []⟩
    let s := movable false 2
    (∀ out m n, (movable out m).svReady 0 0 fz n) ∧ (s.region 1).slotsOut = none ∧ (s.region 1).tw = [] ∧ placeWord 2 = some (2, 0, 0, false)
      ∧ placeWord 4 = some (4, 0, 0, false) ∧ placeWord (2 ^ 15) = some (0, 0, 0, true) ∧ placeWord (2 ^ 13) = some (0, 0, 1, false)
      ∧ s.placeOk req 0 2 0 = some 0 ∧ s.placeOk req 0 4 0 = none ∧ s.autoPlace req = some (0, 2, 0, 0) ∧ (movable true 1).placeOk req 0 0 0 = some 0
      ∧ (movable false 1).autoPlace req = some (0, 0, 0, 0) ∧ (placeTiles 0 2 2 2 0).Nodup
      ∧ ({ seam0 := 2 } : Region).seam0 ≠ 0 ∧ ({} : Region).loops = [] := by
  refine ⟨fun out m n => sv_ready [] _ n rfl rfl, ?_, ?_, ?_, ?_, ?_, ?_, ?_, ?_, ?_, ?_, ?_, ?_, ?_, ?_⟩ <;> decide +kernel

/-- Bank 0 of the tiles of region 1 is taken by region 2, and bank 1 by region 3 or not. -/
theorem witness_RegionWords_banks :
    let t := fun (b : Nat) => ({ placed 7 true (some 9) [] with
      regions := [(1, { ctx := 2, state := 7, w := 2, h := 2, out := true, slotsOut := some 9 }), (2, { ctx := 2, state := 7, w := 2, h := 2 }),
                  (3, { ctx := 2, state := 7, w := 2, h := 2, bank := b })] } : State)
    (t 0).bankFree 1 0 ((t 0).region 1).tiles = false ∧ (t 0).bankFree 1 1 ((t 0).region 1).tiles = true
      ∧ (t 1).bankFree 1 1 ((t 1).region 1).tiles = false := by
  decide +kernel

/-- No placement passes when the function may use no cluster. -/
theorem witness_RegionWords_none : (movable false 0).autoPlace ⟨1, 2, 2, 2, [], []⟩ = none := by
  decide +kernel

/-- A Pending region whose launch came from slot 3 of context 2, which is in state st and counts n launches. -/
theorem witness_RegionWords_slots :
    let s := fun (st n : Nat) => ({ sv [] with regions := [(1, { ctx := 2, state := 1, launch := { ctx := 2, slot := 3 } })],
                                               ctxs := [(2, { slots := [(3, { state := st, count := n })] })] } : State)
    ((s 3 0).region 1).state = 1 ∧ (s 3 254).slotPasses ((s 3 254).region 1) = true ∧ (s 4 0).slotPasses ((s 4 0).region 1) = true
      ∧ (s 4 255).slotPasses ((s 4 255).region 1) = false ∧ (s 5 0).slotPasses ((s 5 0).region 1) = false := by decide +kernel

/-- Handle 5 of context 2 is in use with the value n. -/
abbrev signals (n : Nat) (l : List (Nat × BitVec 64)) : State :=
  { sv l with hub := { lease := some 0, sig := [(5, ⟨2, true, BitVec.ofNat 64 n, 0⟩)] }, ctxs := [(2, { rclen := 1 })] }
/-- A receipt body for context 0 that is well formed. -/
abbrev body : State :=
  { cur := { agent := .sorrel 0 }
    dies := [(0, { state := 5, sorrel := regs [], sram := mwrite [] 0 [0x43, 0x52, 0x33, 0x47, 1] })], hub := { lease := some 0 }, ctxs := [(0, { rclen := 1 })] }

theorem witness_SignalAndReceiptWords :
    (∀ n l k, (signals n l).svReady 0 0 fz k) ∧ (∀ k, body.svReady 0 0 fz k) ∧ ((signals 0 []).sig 5).used = true ∧ ((signals 0 []).sig 6).used = false
      ∧ (signals 0 []).hub.waiters = [] ∧ (signals 0 []).hub.waitq = []
      ∧ (∀ c ∈ (signals 0 []).ctxs, ((signals 0 []).ctx c.1).guilt ≤ ((signals 0 []).fn ((signals 0 []).ctx c.1).vf).glim)
      ∧ ((signals (2 ^ 64 - 1) []).sig 5).value.toNat + 0 < 2 ^ 64 ∧ ((signals (2 ^ 64 - 1) []).sig 5).value.toNat ≤ 2 ^ 64 - 1
      ∧ bodyBad (mread (body.die 0).sram 0 512) 0 = false ∧ bodyBad (mread (body.die 0).sram 8 512) 0 = true
      ∧ (2 ^ 18 - 512) % 8 = 0 ∧ body.hub.lease = some 0 ∧ (body.ctx 0).rclen ≠ 0 ∧ (sv []).hub.lease ≠ some 0 := by
  refine ⟨fun n l k => sv_ready l _ k rfl rfl, fun k => sv_ready [] _ k rfl rfl, ?_⟩
  decide +kernel

/-- A host and a queue wait on the handle for 8. -/
theorem witness_SignalAndReceiptWords_waiters :
    let w : Waiter := ⟨5, 8, 0, 0, 1, 0, false, 2, 0⟩
    let s := fun (n : Nat) => ({ signals n [] with hub := { (signals n []).hub with waiters := [w, { w with isQueue := true }] } } : State)
    (∀ n k, (s n).svReady 0 0 fz k) ∧ (∀ n, (s n).hub.waitq = [] ∧ ((s n).sig 5).used = true)
      ∧ (∀ c ∈ (s 7).ctxs, ((s 7).ctx c.1).guilt ≤ ((s 7).fn ((s 7).ctx c.1).vf).glim)
      ∧ ((s 7).ctx ((s 7).sig 5).owner).guilt + 1 ≤ ((s 7).fn ((s 7).ctx ((s 7).sig 5).owner).vf).glim
      ∧ ((s 7).sig 5).value.toNat = 7 ∧ w.target.toNat ≤ 7 + 1 ∧ 7 < w.target.toNat ∧ 2 ^ 64 ≤ ((s (2 ^ 64 - 1)).sig 5).value.toNat + 1
      ∧ 6 < ((s 7).sig 5).value.toNat := by
  refine ⟨fun n k => sv_ready [] _ k rfl rfl, fun n => ⟨rfl, rfl⟩, ?_⟩
  decide +kernel

/-- Link i is in state st, and die 1 in state ds; `s20` names i. -/
abbrev linked (i st ds : Nat) : State :=
  { cur := { agent := .sorrel 0 }, dies := [(0, { state := 5, sorrel := regs [(20, BitVec.ofNat 64 i)] }), (1, { state := ds })], links := [(i, { state := st })] }

theorem witness_LinkWords :
    (∀ i st ds k, (linked i st ds).svReady 0 0 fz k) ∧ 16 < (linked 17 0 0).reg 20 % 32 ∧ (linked 16 0 0).reg 20 % 32 ≤ 16
      ∧ 12 ≤ (linked 12 0 0).reg 20 % 32 ∧ (linked 11 0 0).reg 20 % 32 < 12 ∧ (∀ st, st < 9 → ((linked 11 st 0).link 11).state = st)
      ∧ (joined (linked 11 3 0) ((linked 11 3 0).link 11)).length ≤ 63 ∧ max (linked 11 3 0).dom.diameter ((linked 11 3 0).link 11).pdia ≤ 8
      ∧ 63 < 64 ∧ 8 < max (linked 11 3 0).dom.diameter ({ pdia := 9 } : Link).pdia ∧ ((linked 11 4 0).link 11).d0.wait = false
      ∧ ((linked 11 4 0).link 11).d1.wait = false ∧ 2 < (linked 3 0 0).reg 20 % 32 ∧ (linked 2 0 0).reg 20 % 32 ≤ 2
      ∧ ((linked 1 0 5).die 1).state ≠ 0 ∧ ((linked 1 0 0).die 1).state = 0 ∧ ((linked 1 0 3).die 1).state = 3 ∧ 1 ≠ 0 := by
  refine ⟨fun i st ds k => sv_ready _ _ k rfl rfl, ?_, ?_, ?_, ?_, ?_, ?_, ?_⟩
  rotate_left 5
  · refine Nat.le_trans (m := 1) ?_ (by decide)
    have h : (linked 11 3 0).dom.members = [] ∧ ((linked 11 3 0).link 11).pmem = [] := ⟨rfl, rfl⟩
    by_cases hp : (pkgOf ((linked 11 3 0).link 11).peer != ownPkg) = true <;> simp [joined, h, hp, List.eraseDups_cons]
  all_goals decide +kernel

/-- A walk of die 0 for tile 0 under epoch e, and object 1 of context 2 Resident in frame 8 or not. -/
abbrev walking (e st : Nat) : State :=
  { dies := [(0, { epoch := 4, walks := [⟨7, 2, 1, 0, 0, e, e, 0, 0, false, 3, 0⟩] })], tiles := [(0, { rgn := 1 })], regions := [(1, { ctx := 2, stall := { walk := 1 } })]
    ctxs := [(2, { otbase := 0x200000 })], invals := [⟨7, [(0, 4)], [], [], false, 0, 0⟩, ⟨8, [(0, 5)], [], [], false, 0, 0⟩, ⟨9, [(0, 4)], [], [], true, 1, 0⟩]
    dram := mwrite (mwrite [] 0x200008 [16]) 0x200040 (wordsBytes [st + 16 + 2 ^ 32, 0, 8 + 2 ^ 29]) }

theorem witness_PageEvents :
    let s := walking 4 2
    (s.die 0).walks.find? (·.id == 7) = some ⟨7, 2, 1, 0, 0, 4, 4, 0, 0, false, 3, 0⟩ ∧ (s.die 0).epoch = 4 ∧ ((walking 3 2).die 0).epoch ≠ 3
      ∧ (match s.walk 2 1 0 with
        | .ok y => y.2.2.2
        | .error _ => 393216) < 393216
      ∧ (match (walking 4 0).walk 2 1 0 with
        | .ok _ => 9
        | .error k => k) = 2
      ∧ (s.die 0).fbuf.length < 1024 ∧ (s.region 1).stall.up = true ∧ (s.region 2).stall.up = false ∧ invReady s ⟨7, [(0, 4)], [], [], false, 0, 0⟩ = true
      ∧ invReady s ⟨8, [(0, 5)], [], [], false, 0, 0⟩ = false ∧ s.invals.find? (·.id == 9) = some ⟨9, [(0, 4)], [], [], true, 1, 0⟩ ∧ s.locked 31 = false
      ∧ (s.fn 31).s2busy = false ∧ (s.fn 31).burst < 1 ∧ 0 ≤ (s.fn 31).burst ∧ 2 ^ 20 - 1 < 2 ^ 20 ∧ 393216 ≤ 393216 * 2097152 / 2097152
      ∧ ftState (s.ft 9) = 0 ∧ ftState ((frames 9 2 0).ft 9) ≠ 0
      ∧ ((List.range 32).map fun i => if i = 31 then 0 else (s.fn i).guar).foldl (· + ·) 0 ≤ s.budgetFrames := by
  decide +kernel

theorem witness_PageEvents_full :
    let D := (walking 4 0).die 0
    let s := { walking 4 0 with dies := [(0, { D with fbuf := List.replicate 1024 (fault 0) })] }
    1024 ≤ (s.die 0).fbuf.length ∧ (s.die 0).walks = D.walks ∧ (s.die 0).epoch = 4
      ∧ (match s.walk 2 1 0 with
        | .ok _ => 9
        | .error k => k) = 2 := by
  decide +kernel

/-- A region of two tiles, tile 0 as given and tile 1 ended or not. -/
abbrev ending (t : Tile) (e : Bool) : State :=
  { tiles := [(0, { t with rgn := 1 }), (1, { rgn := 1, tix := 1, ended := e })], regions := [(1, { ctx := 2, state := 3, w := 2, h := 1 })] }

theorem witness_TileEvents :
    let done : Tile := { live := true, core := { halted := true } }
    let s := ending done true
    ({ stepw := some 0 } : Core).stepw = some 0 ∧ 0 ≤ (s.tile 0).step ∧ (s.tile 0).step < 1 ∧ (s.tile 0).ended = false ∧ (s.tile 0).live = true
      ∧ (s.tile 0).core.halted = true ∧ (s.tile 0).trapped = false ∧ (s.tile 0).catchup = false ∧ (s.tile 0).drained = true ∧ (s.tile 0).meq = []
      ∧ (s.tile 0).xeq = [] ∧ (s.tile 0).xrun = [] ∧ 0 ∈ s.tilesOf 1 ∧ (∀ i ∈ s.tilesOf 1, i ≠ 0 → (s.tile i).ended = true)
      ∧ (∃ i ∈ (ending done false).tilesOf 1, i ≠ 0 ∧ ((ending done false).tile i).ended = false) := by
  decide +kernel

theorem witness_TileEvents_fence :
    let f : Fence := ⟨true, 2, false, 0, 0, true, [1], 0, false, false, 0⟩
    let g := { f with owners := [1, 2] }
    let s := ending { fence := some f } true
    (s.tile 0).fence = some f ∧ f.rel = true ∧ f.asked = true ∧ 1 ∈ f.owners ∧ (∀ o ∈ f.owners, o = 1) ∧ (∃ o ∈ g.owners, o ≠ 1)
      ∧ fenrReady (ending { fence := some f, fenrIn := [] } true) 1 0 = true
      ∧ fenrReady (ending { fence := some f } false) 1 0 = false := by
  decide +kernel

/-- A store or a load of 4 bytes at offset 0 of object 1, which the cache of die 0 maps to frame 8, or not. -/
abbrev atPort (wr hit : Bool) : State :=
  { ending { dacc := [⟨3, 0, 0, 0, wr, 0, 1, [⟨0, 0, 4, [1, 2, 3, 4]⟩], some (.vec 1 1), none, 0, 0, [], none⟩] } true with
    dies := [(0, { etc := if hit then [⟨2, 1, 0, 1, 8, 8, 0⟩] else [] })] }

/-- A DRAM load and a store of one lane whose frame the cache of the die holds. -/
theorem witness_LoadWords_port :
    ∀ wr, let s := atPort wr true; let a : DAcc := ⟨3, 0, 0, 0, wr, 0, 1, [⟨0, 0, 4, [1, 2, 3, 4]⟩], some (.vec 1 1), none, 0, 0, [], none⟩
      (s.tile 0).dacc = [a] ∧ (a.st, a.id, a.write, a.ues) = (0, 3, wr, none) ∧ s.reaches 0 1 a.parts (fun _ => 8 * frameB) ∧ s.dramUE = []
        ∧ (a.parts.map Part.lane).Nodup ∧ (∀ p ∈ a.parts, p.data.length = p.n) ∧ Memory.wf s.dram = true := by
  intro wr
  refine ⟨rfl, rfl, ⟨fun p hp => ?_, ?_⟩, rfl, by simp, by simp, rfl⟩
  · simp only [List.mem_singleton] at hp
    subst hp
    cases wr <;> decide +kernel
  · cases wr <;> decide +kernel

/-- A due result whose DRAM load has sampled. -/
theorem witness_LoadWords_writeback :
    let y : DAcc := ⟨3, 0, 0, 0, false, 0, 1, [], none, none, 3, 0, [.scal 5 ⟨7, false⟩], none⟩
    let x : Due := ⟨9, 0, 1, [], none, false, false, some 3⟩
    let t : Tile := { cyc := 9, due := [x], dacc := [y] }
    ((onTile t).tile 0).due = [x] ∧ x.at_ ≤ t.now ∧ x.acc = some y.id ∧ t.dacc = [y] ∧ y.st = 3 := by
  refine ⟨rfl, ?_, rfl, rfl, rfl⟩
  decide

theorem witness_TileEvents_access :
    (∀ wr hit, ((atPort wr hit).tile 0).dacc = [⟨3, 0, 0, 0, wr, 0, 1, [⟨0, 0, 4, [1, 2, 3, 4]⟩], some (.vec 1 1), none, 0, 0, [], none⟩])
      ∧ (atPort true true).phys (dieOfTile 0) ((atPort true true).ctxNo 0) 1 0 4 = .ok [(0, 8 * 2097152, 4)]
      ∧ (atPort true true).pathDown (dieOfTile 0) [(0, 8 * 2097152, 4)] = none ∧ (atPort false true).dramUE = []
      ∧ (atPort true false).phys (dieOfTile 0) ((atPort true false).ctxNo 0) 1 0 4 = .error 0
      ∧ (⟨3, 0, 1, [], none, false, false, none⟩ : Due).at_ ≤ ({ cyc := 3 } : Tile).now ∧ ({ cyc := 2 } : Tile).now < 3
      ∧ (handling 0).tile 0 = { trapped := true, core := { regs [(1, 16)] with trap := { tstat := 1, trpc := 40 }, fePc := 24 } }
      ∧ ((handling 0).region 0).report = none := by
  refine ⟨fun _ _ => rfl, ?_⟩
  decide +kernel

/-- The L queue of tile 0 waits for a token of the C queue, its blocked-step count due or not, in a block of identity i; a probe of the given path comes to
it. -/
abbrev blocked (i : BitVec 32) (due : Bool) (path : List (BitVec 32)) (sender : Nat) : State :=
  { tiles := [(0, { rgn := 1, live := true, lq := [⟨.ldv ⟨false, true, false, false, 0⟩ ⟨0, 0, 0, 0, 0, 0, 0⟩, 8, 0x6100000000000000 + 2 ^ 54, 0, 1, 0, true, {}⟩],
                      blk := [(1, ⟨i, 4, 8, 1, due⟩)] })]
    regions := [(1, { ctx := 2, state := 3, w := 1, h := 1 })], probes := [⟨7, path, sender, 0, 1, 0⟩] }

theorem witness_ProbeEvents :
    let i := waitIdent 0 1 0 5
    let o := waitIdent 0 2 0 1
    let s := blocked i true [i] 0
    let w : Wait := ⟨0, 5, 8, 1⟩
    (s.tile 0).blk.find? (·.1 == 1) = some (1, ⟨i, 4, 8, 1, true⟩) ∧ s.blockedOn 0 1 = some w ∧ w.ident 1 (s.tile 0).tix = i ∧ s.blockedOn 0 2 = none
      ∧ s.probes.find? (·.id == 7) = some ⟨7, [i], 0, 0, 1, 0⟩ ∧ ({ s with probes := [] } : State).blockedOn 0 1 = some w
      ∧ agentKey i = 1 ∧ agentKey o = 2 ∧ o ≠ i := by
  decide +kernel

theorem witness_ProbeEvents_paths (i o : BitVec 32) (h : agentKey i = 1 ∧ agentKey o = 2 ∧ o ≠ i) :
    [i].head? = some i ∧ (∀ y ∈ [i], agentKey i ≤ agentKey y) ∧ [o, i].head? ≠ some i ∧ (∃ y ∈ [o, i], agentKey y = agentKey i)
      ∧ ∀ y ∈ [o], agentKey y ≠ agentKey i := by
  simp [h]

/-- The L queue of tile 0 waits for semaphore name 3, which nobody raises but what `extra` holds. -/
abbrev semBlocked (i : BitVec 32) (extra : List QEntry) : State :=
  { tiles := [(0, { rgn := 1, live := true, smap0 := [(3, ⟨true, 40⟩)], core := { halted := true }, sq := extra,
                    lq := [⟨.semw h0 ⟨0, 0, 3, 1, 0, 0⟩, 8, 0, 0, 1, 0, true, {}⟩], blk := [(1, ⟨i, 4, 8, 1, true⟩)] })]
    regions := [(1, { ctx := 2, state := 3, w := 1, h := 1 })] }

theorem witness_ProbeEvents_satisfiers :
    let i := waitIdent 2 1 0 40
    let o := semBlocked i []
    let s := semBlocked i [⟨.sems h0 ⟨0, 0, 3, 1, 0, 0⟩, 16, 0, 0, 2, 0, true, {}⟩]
    o.blockedOn 0 1 = some ⟨2, 40, 8, 1⟩ ∧ s.blockedOn 0 1 = some ⟨2, 40, 8, 1⟩ ∧ (⟨2, 40, 8, 1⟩ : Wait).ident 1 0 = i
      ∧ o.satisfiers 0 1 2 40 = [] ∧ s.satisfiers 0 1 2 40 = [(0, 3)] := by
  decide +kernel

/-- A region of two tiles in state st with its flags, both tiles at the close of a step or not. -/
abbrev regioned (R : Region) (cyc : Nat) : State :=
  { tiles := [(0, { rgn := 1, live := true, cyc := cyc }), (1, { rgn := 1, live := true, tix := 1, cyc := cyc })], regions := [(1, { R with ctx := 2, w := 2, h := 1 })] }

theorem witness_RegionEvents :
    let start := regioned { state := 2, rstep := 1 } 0
    let close := regioned { state := 3, mid := true } 128
    let drain := ({ regions := [(1, { state := 5, ctx := 2, w := 1, h := 1 })] } : State)
    (regioned { state := 8, move := some (1, 0, 2, 0) } 0 |>.region 1).out = false ∧ (placeTiles 1 2 1 0 2).Nodup
      ∧ (start.region 1).state = 2 ∧ (start.region 1).resume = false ∧ (start.region 1).startIn = 0 ∧ (start.region 1).rstep = 1 ∧ 1 < (start.region 1).w
      ∧ start.tilesOf 1 = (start.region 1).tiles
      ∧ (∀ k ∈ start.tilesOf 1, (start.tile k).rgn = 1) ∧ (close.region 1).mid = true ∧ (close.tilesOf 1).Nodup ∧ (∀ k ∈ close.tilesOf 1, (close.tile k).atClose = true)
      ∧ close.lateAw 1 (close.region 1).rstep = false ∧ close.arrivals = [] ∧ (∃ k ∈ (regioned { state := 3, mid := true } 127).tilesOf 1,
        ((regioned { state := 3, mid := true } 127).tile k).atClose = false)
      ∧ (drain.region 1).mid = false ∧ (drain.region 1).holdReq = false ∧ drain.drainedRegion 1 = true ∧ drain.shownState (drain.region 1) = 5
      ∧ (∀ k ∈ drain.tilesOf 1, (drain.tile k).dacc = []) ∧ (drain.region 1).stall.up = false ∧ (regioned { state := 8, move := some (1, 0, 2, 0) } 0 |>.region 1).state = 8
      ∧ (regioned { state := 3, holdReq := true } 0).shownState ((regioned { state := 3, holdReq := true } 0).region 1) = 3
      ∧ (regioned { state := 3, holdReq := true, stall := { walk := 1 } } 0).shownState ((regioned { state := 3, holdReq := true, stall := { walk := 1 } } 0).region 1) ≠ 3
      ∧ ({ holdReq := true, state := 3 } : Region).mid = false ∧ ({ state := 6 } : Region).hold = false
      ∧ (∀ k ∈ (regioned { state := 2, resume := true } 0).tilesOf 1, ((regioned { state := 2, resume := true } 0).tile k).live = true) := by
  decide +kernel

/-- Context 2 of function 1, alone, in state st with its queue 3 in state qs. -/
abbrev context (st qs : Nat) : State :=
  { ctxs := [(2, { state := st, vf := 1, otbase := 0x200000, magtab := 0x200000, plbase := 0x200000, rcbase := 0x200000, queues := [(3, { half0 := { qstate := qs } })] })]
    dram := mwrite [] (ftAddr 1) [3 + 8], hub := { lease := some 0 } }

theorem witness_ContextEvents :
    (∀ st, st < 9 → ((context st 0).ctx 2).state = st)
      ∧ ((context 0 0).ctxs.any fun y => y.1 != 2 && y.2.state != 0 && y.2.vf == 1 && y.2.iface == 0) = false ∧ (context 0 0).locked 1 = false
      ∧ (∀ a ∈ [0x200000, 0x200000, 0x200000, 0x200000], (context 1 0).pinnedTo 1 a = true) ∧ (context 2 0).cstate 2 = 2
      ∧ (∀ q ∈ ((context 2 0).ctx 2).queues, q.2.half.qstate = 0) ∧ (∃ q ∈ ((context 2 1).ctx 2).queues, q.2.half.qstate ≠ 0)
      ∧ (∀ q ∈ ((context 2 0).ctx 2).queues, q.2.launch = none)
      ∧ (∃ q ∈ ({ queues := [(3, { launch := some {} })] } : Ctx).queues, q.2.launch ≠ none)
      ∧ (context 2 0).ctxs.filter (fun y => y.2.vf == 1) = [(2, (context 2 0).ctx 2)] ∧ ((context 2 0).ctx 2).state ≠ 0
      ∧ (context 1 0).ctxBound 2 = false
      ∧ ({ context 1 0 with ctxs := [(2, { state := 1, otbase := 9 * 2097152, slots := [(0, { state := 3, frame := 9, len := 1024 })] })] } : State).ctxBound 2 = true
      ∧ (∀ n, n < 4 → ({ scrub := n } : Ctx).scrub = n) ∧ ({ guilt := 65 } : Ctx).guilt = 65 ∧ ((context 0 0).fn 1).glim = 64
      ∧ ((context 2 0).ctx 2).state ≠ 8 ∧ (2, (context 2 0).ctx 2) ∈ (context 2 0).ctxs ∧ (1 : Nat) ≤ 31 := by
  decide +kernel

/-- Context 2 of function 1 is Ready and holds its interface; queue 3 is enabled, in state qs with a packet pending, and waits for kind k. -/
abbrev queueing (qs k : Nat) (Q : Queue) : State :=
  { ctxs := [(2, { state := 2, vf := 1, queues := [(3, { Q with en := true, qwr := 1, half0 := { qstate := qs, waitk := k } })] })]
    fns := [(1, { holder := some 2 })], hub := { lease := some 0 } }

theorem witness_QueueEvents :
    let s := queueing 1 0 {}
    let Q := s.queue 2 3
    (s.ctx 2).state ≠ 8 ∧ 2 < 2 ^ 32 ∧ 18 < 2 ^ 32 ∧ 18 ≠ Q.qwr ∧ Q.ents < ({ Q with qwr := 18 } : Queue).pending ∧ Q.inFlight = false ∧ Q.done = none ∧ Q.seq % 2 = 0 ∧ 2 ≠ Q.qwr ∧ ({ Q with qwr := 2 } : Queue).pending ≤ Q.ents ∧ (s.ctx 2).state ≠ 0 ∧ (s.ctx 2).state ≠ 1
      ∧ (s.ctx 2).state ≠ 7 ∧ ((queueing 0 0 {}).queue 2 3).half.qstate = 0 ∧ Q.half.qstate = 1 ∧ ((queueing 5 0 {}).queue 2 3).half.qstate = 5
      ∧ (s.queue 2 4).half.qstate = 0 ∧ ((queueing 4 0 { launch := some { rgn := 1 } }).queue 2 3).launch = some { rgn := 1 } ∧ ({ rgn := 1 } : Launch).rgn ≠ 0 ∧ (s.ctx 2).guilt + 1 ≤ (s.fn 1).glim ∧ (s.ctx 2).guilt < 0xFFFF
      ∧ s.leader ≠ none ∧ (∀ L, ((queueing 4 0 { done := some (0, 0, 0) }).queue 2 3).launch = some L → L.rgn = 0 ∧ L.stage ≠ 4) ∧ (s.fn 1).holder = some 2 ∧ 2 ∈ s.workers 1 ∧ s.pickQueue 2 = some 3 ∧ Q.half.selr = 0
      ∧ s.nextHolder 1 (s.ctx 2).iface = some 2 ∧ (s.fn 2).holder = none ∧ (∀ k, k < 4 → ((queueing 3 k {}).queue 2 3).half.waitk = k)
      ∧ pktF ((queueing 3 3 {}).queue 2 3).pkt 2 1 < ((queueing 3 3 {}).queue 2 3).pending ∧ ((queueing 3 2 {}).queue 2 3).woke = none
      ∧ ((queueing 3 1 {}).fn 1).freed = ((queueing 3 1 {}).queue 2 3).freed ∧ ({ state := 7, scrubbed := true } : Ctx).scrubbed = true
      ∧ ((queueing 3 2 { woke := some 8 }).queue 2 3).woke = some 8 ∧ ((queueing 3 1 { freed := 1, launch := some {} }).fn 1).freed ≠ 1
      ∧ (queueing 3 1 { freed := 1, launch := some {} }).blockedAt 1 ((queueing 3 1 {}).queue 2 3).prio = false ∧ s.locked 31 = false
      ∧ (∀ e ∈ s.ctxs, (s.ctx e.1).guilt ≤ ((s.setFn 31 { s.fn 31 with glim := 0 }).fn (s.ctx e.1).vf).glim)
      ∧ ({ s with ctxs := [(2, { state := 2, vf := 1, iface := 0, queues := [(3, Q)] }), (4, { state := 2, vf := 1, iface := 1, queues := [(3, Q)] })] } : State).nextHolder 1 0 = some 4
      ∧ ({ s with dies := [(0, { sorrel := { halted := true } })] } : State).leader = none := by
  decide +kernel

/-- A packet at stage 2 of queue 3 of context 2, which owns handle 5 with the value 7: type, operation, followers, handle and value. -/
abbrev packet (ty op n h v : Nat) : State :=
  let p := (((mwrite (mwrite (mwrite (mwrite [] 0 [BitVec.ofNat 8 ty]) 2 [BitVec.ofNat 8 n]) 8 (leBytes 2 h)) 10 [BitVec.ofNat 8 op])))
  { queueing 2 0 { pkt := mread (mwrite p 16 (leBytes 8 v)) 0 1024 } with hub := { lease := some 0, sig := [(5, ⟨2, true, 7, 0⟩)] } }

theorem witness_PacketEvents :
    (∀ ty, ty < 4 → (packet ty 0 0 5 7).atStage2 2 3 = true) ∧ (queueing 1 0 {}).atStage2 2 3 = false ∧ ((queueing 1 0 {}).queue 2 3).launch = none := by
  decide +kernel

theorem witness_PacketEvents_forms :
    pktBad ((packet 0 0 0 5 7).queue 2 3).pkt = true ∧ pktBad ((packet 3 1 0 5 7).queue 2 3).pkt = false ∧ pktBad ((packet 3 2 0 5 7).queue 2 3).pkt = false
      ∧ pktBad ((packet 3 0 0 5 7).queue 2 3).pkt = false ∧ pktBad ((packet 1 0 0 0xFFFF 0).queue 2 3).pkt = false
      ∧ pktBad ((packet 2 0 2 0 0).queue 2 3).pkt = false ∧ (packet 3 1 0 5 7).owns 2 5 = true ∧ (packet 3 1 0 6 7).owns 2 6 = false
      ∧ ((packet 3 1 0 5 7).sig 5).value.toNat + 7 < 2 ^ 64 ∧ ((packet 3 1 0 5 7).sig 5).value.toNat ≤ 7 ∧ ((packet 3 0 0 5 8).sig 5).value.toNat < 8
      ∧ ((packet 2 0 2 0 0).queue 2 3).pending ≤ pktF ((packet 2 0 2 0 0).queue 2 3).pkt 2 1
      ∧ (packet 3 1 0 5 7).hub.waiters = [] ∧ (packet 3 1 0 5 7).hub.waitq = []
      ∧ (∀ e ∈ (packet 3 1 0 5 7).ctxs, ((packet 3 1 0 5 7).ctx e.1).guilt ≤ ((packet 3 1 0 5 7).fn ((packet 3 1 0 5 7).ctx e.1).vf).glim) := by
  decide +kernel

theorem witness_PacketEvents_select :
    let s := { packet 2 0 2 0 0 with ctxs := [(2, { state := 2, vf := 1, queues := [(3, { ((packet 2 0 2 0 0).queue 2 3) with qwr := 3, size := 3 })] })] }
    s.atStage2 2 3 = true ∧ pktF (s.queue 2 3).pkt 2 1 < (s.queue 2 3).pending
      ∧ (∀ i, i < pktF (s.queue 2 3).pkt 2 1 → mget s.hostMem (s.entryAt 2 (s.queue 2 3) ((s.queue 2 3).half.qrd + 1 + i)) ≠ 2)
      ∧ mget ({ s with hostMem := [(1024, 2)] } : State).hostMem (s.entryAt 2 (s.queue 2 3) ((s.queue 2 3).half.qrd + 1 + 0)) = 2 := by
  decide +kernel

theorem witness_PacketEvents_complete :
    let s := queueing 2 0 { done := some (0, 0, 0) }
    let t := queueing 2 0 { done := some (0, 0, 0), landed := true }
    let z : SigOp := ⟨0, 5, 1, 1, 2, 3, 0, 0⟩
    let l := queueing 2 0 { done := some (0, 0, 0), launch := some { stage := 3, sigop := 1 } }
    s.leader ≠ none ∧ (s.queue 2 3).seq % 2 = 0 ∧ (s.queue 2 3).launch = none ∧ (s.queue 2 3).done = some (0, 0, 0) ∧ (s.queue 2 3).landed = false
      ∧ ((l.queue 2 3).launch.map Launch.sigop) = some 1 ∧ ({ seq := 1 } : Queue).seq % 2 = 1
      ∧ (packet 3 1 0 5 7).owns z.ctx z.handle = true ∧ ((packet 3 1 0 5 7).sig z.handle).inst ≠ 4
      ∧ (t.queue 2 3).landed = true ∧ (∀ z ∈ t.hub.sigops, ¬ (z.ctx = 2 ∧ z.q = 3)) ∧ [z].find? (·.id == 0) = some z
      ∧ (∀ b ∈ [z], b.ctx = z.ctx → b.q = z.q → z.id ≤ b.id) ∧ (∃ b ∈ [z, { z with id := 4 }], b.ctx = 2 ∧ b.q = 3 ∧ b.id < 4) := by
  decide +kernel

/-- Die 0 is in state st, its own link 14 in state l, under no lease; nothing else runs. -/
abbrev died (st l : Nat) : State := { dies := [(0, { state := st }), (1, { state := 5 })], links := [(14, { state := l })] }

theorem witness_DieEvents :
    (∀ st, st < 6 → ((died st 0).die 0).state = st) ∧ ((died 0 0).die 1).state = 5 ∧ ((died 2 0).link 14).state = 0 ∧ ((died 2 0).die 0).qcode ≠ 6
      ∧ ((died 3 2).die 0).checked = false ∧ ((died 3 2).die 0).qcode ≠ 6 ∧ ((died 3 2).die 0).checked = false
      ∧ 2 ≤ ((died 3 2).link 14).state ∧ ((died 3 1).link 14).state < 2
      ∧ ((died 3 2).link 14).carries = false ∧ (died 5 0).regions = [] ∧ (2 : Nat) < 3 ∧ 1 < 3 := by decide +kernel

/-- A die that is measured as its manifest says, with the identity fused for it or another. -/
theorem witness_DieEvents_checks (d : Nat) :
    let D : Die := { state := 3, leaf := Config.fusedIdentity d, fwDigest := some Config.fwManifest }
    D.admitCode d 0 = 0 ∧ D.admitCode d 5 = 5 ∧ D.admitCode d noSession = 4 ∧ (5 % 256 ≠ 0 ∧ 5 ≠ noSession) ∧ 256 % 256 = 0 ∧ ({ D with fwDigest := none } : Die).admitCode d 0 = 2
      ∧ ({ D with leaf := ~~~Config.fusedIdentity d } : Die).admitCode d 0 = 3 := by
  have h : ~~~Config.fusedIdentity d ≠ Config.fusedIdentity d := by
    intro h
    have := congrArg (·.getLsbD 0) h
    simp at this
  simp [Die.admitCode, noSession, h]

theorem witness_DieEvents_tiles : ∀ k, ((died 5 0).tile k).rgn = 0 := fun _ => rfl

/-- Link i is in state st between dies that are in state ds. -/
abbrev ported (i : Nat) (L : Link) (ds : Nat) : State :=
  { links := [(i, L)], dies := [(0, { state := ds }), (1, { state := ds }), (2, { state := ds })] }

theorem witness_LinkAndDomainEvents :
    (∀ st, st < 9 → ((ported 11 { state := st } 5).link 11).state = st) ∧ ((ported 16 { state := 1, retrain := true } 5).link 16).retrain = true
      ∧ ((ported 16 { state := 1, retrain := true } 5).link 16).d0.wait = false ∧ (1 : BitVec 384) ≠ tget 0 (ported 11 { state := 2 } 5).hub.peerid 11
      ∧ (0 : BitVec 384) = tget 0 (ported 11 { state := 2 } 5).hub.peerid 11 ∧ (∀ d ∈ linkDies 12, 4 ≤ ((ported 12 { state := 2 } 4).die d).state)
      ∧ (∃ d ∈ linkDies 12, ((ported 12 { state := 2 } 3).die d).state < 4) ∧ ((ported 11 { state := 5 } 5).link 11).carries = true
      ∧ (ported 11 { state := 5 } 5 |>.link 11).clear = true ∧ (ported 11 { state := 5, d1 := { held := [(0, 1)] } } 5 |>.link 11).clear = false
      ∧ (ported 11 { state := 5, d1 := { sent := [(0, 1, [])] } } 5 |>.link 11).clear = false
      ∧ ((ported 11 { state := 4 } 5).link 11).carries = false ∧ ({} : State).dom.freezeAt = none ∧ ({} : State).dom.frozen = false := by decide +kernel

theorem witness_LinkAndDomainEvents_tiles : ∀ k, ((ported 11 { state := 5 } 5).tile k).rgn = 0 := fun _ => rfl

theorem witness_FlitAndRolloverEvents :
    let L := fun (st : Nat) (x : Dir) => (({ state := st, d0 := x } : Link).dir 0)
    ({ state := 5 } : Link).state ≠ 0 ∧ (L 5 {}).rgen % 2 = 0 % 2 ∧ (L 5 {}).held = [] ∧ 0 = (L 5 {}).rcnt ∧ 0 < (L 5 { rcnt := 1 }).rcnt ∧ (L 5 {}).rcnt < 1
      ∧ (L 6 { two := true }).rgen % 2 ≠ 1 % 2 ∧ (L 6 { two := true }).two = true ∧ (L 5 {}).two = false ∧ (L 5 { fails := 2 }).fails < 3
      ∧ 3 ≤ (L 5 { fails := 3 }).fails ∧ (L 6 { roll := true }).roll = true ∧ (L 6 { roll := true }).sw = false ∧ (L 6 { sw := true }).sw = true
      ∧ (L 6 { sw := true }).wait = false ∧ (L 6 { roll := true }).stop = []
      ∧ (L 6 { sw := true, slast := some 0 }).slast = some 0 ∧ 0 ≤ (L 6 { sw := true, slast := some 0 }).rcnt
      ∧ ({} : Link).receives 12 0 = true ∧ ({} : Link).sends 12 0 = true
      ∧ (∃ y ∈ (L 6 { sent := [(0, 0, [])], gen := 1 }).sent, y.1 ≠ 1) ∧ (∀ y ∈ (L 6 { sent := [(1, 0, [])], gen := 1 }).sent, y.1 = 1)
      ∧ (L 5 { sent := [(0, 3, [7])] }).sent.find? (fun y => y.1 == 0 && y.2.1 == 3) = some (0, 3, [7]) ∧ (L 5 {}).scnt + 2 < 2 ^ 32 - 2 ^ 24
      ∧ ¬ (14 ≤ 11 ∧ (({} : State).die (11 - 14)).state = 3) ∧ (14 ≤ 14 ∧ ((died 3 2).die (14 - 14)).state = 3) ∧ (({ state := 6, d0 := { sw := true } } : Link).dir 1).wait = false := by decide +kernel

/-- A flit of the old generation is outstanding, or how many there were is not known. -/
theorem witness_FlitAndRolloverEvents_outstanding (n : Nat) :
    (({ sw := true, slast := some 1 } : Dir).slast = some n → ({ sw := true, slast := some 1 } : Dir).rcnt < n)
      ∧ (({ sw := true } : Dir).slast = some n → ({ sw := true } : Dir).rcnt < n) := by
  simp
  omega

/-- Of a Glimet link this package sends in one direction and receives in the other. -/
theorem witness_FlitAndRolloverEvents_directions (L : Link) :
    L.receives 11 (1 - sendDir 11 L) = true ∧ L.sends 11 (sendDir 11 L) = true ∧ 1 - sendDir 11 L ≠ sendDir 11 L := by
  unfold Link.receives Link.sends sendDir
  split <;> simp

theorem witness_TelemetryEvents :
    let b : Tab Nat × List Nat := ([(0x60, 4)], [3])
    let c : Tab Nat × List Nat := ([(0x60, 5)], [2])
    let s : State := { hub := { flash0 := some b, flash1 := some c, tel := [(0x60, 4)] } }
    s.hub.flash0 = some b ∧ s.hub.flash1 = some c ∧ ({} : Hub).flash0 = none ∧ min (tget 0 s.hub.tel 0x60 + 1) (2 ^ 64 - 1) % 2 = 1
      ∧ min (tget 0 ({} : Hub).tel 0x60 + 1) (2 ^ 64 - 1) % 2 = 1 ∧ min (tget 0 c.1 0x60 + 1) (2 ^ 64 - 1) % 2 = 0
      ∧ (1 : BitVec 32).getLsbD 0 = true ∧ (2 : BitVec 32).getLsbD 0 = false ∧ s.hub.host.busy = false ∧ ({ busy := true } : Snapshot).busy = true
      ∧ 65532 % 4 = 0 ∧ 65532 + 4 ≤ 65536 ∧ 65528 + 8 ≤ 65536 ∧ 65536 < 65536 + 4 ∧ 65472 + 64 ≤ 65536 ∧ 65472 % 4 = 0 := by decide +kernel

/-- Dies 0 and 1 run, and die 0 holds the lease. -/
abbrev leased (left : Nat) : State := { dies := [(0, { state := 5 }), (1, { state := 5 })], hub := { lease := some 0, leaseLeft := left } }

theorem witness_LeaseAndPowerEvents :
    ((leased 1).die 0).state = 5 ∧ ((leased 1).die 0).sorrel.halted = false ∧ (leased 1).hub.lease = some 0 ∧ (leased 1).hub.leaseLeft ≠ 0
      ∧ (leased 1).hub.lease ≠ some 1 ∧ (leased 0).hub.leaseLeft = 0 ∧ (leased 0).hub.lease ≠ some 1 ∧ ((leased 0).die 1).state = 5 ∧ 1 < 3
      ∧ (∀ e, e < 1 → ¬((leased 0).die e).state = 5 ∨ (leased 0).hub.lease = some e)
      ∧ (let s : State := { hub := { lease := some 2 } }
        (∀ e, e < 3 → ¬(s.die e).state = 5 ∨ s.hub.lease = some e) ∧ s.hub.leaseLeft = 0 ∧ s.hub.lease = some 2)
      ∧ 16 ∈ [16, 64] ∧ 16 ≤ 64 := by decide +kernel

theorem witness_RegisterEvents :
    let s : State := { fns := [(1, { pcg := 2, clmask := 2 })] }
    s.locked 31 = false ∧ (s.fn 31).used = 0 ∧ s.clash 31 (2 % 2 ^ 384) Fn.pcg = true ∧ s.clash 31 (4 % 2 ^ 384) Fn.pcg = false
      ∧ s.holdsRegion 31 = false ∧ s.clash 31 (2 % 2 ^ 432) Fn.clmask = true ∧ s.clash 31 (4 % 2 ^ 432) Fn.clmask = false
      ∧ (mapped 1 []).holdsRegion 0 = true ∧ PartField.clmask ≠ PartField.pcg ∧ ({ tdisp := 1 } : Fn).tdisp = 1
      ∧ ({ s with fns := [(31, { tdisp := 1 })] } : State).locked 31 = true
      ∧ (∀ st, st < 9 → ((context st 0).ctx 2).state = st) ∧ ((context 2 0).queue 2 3).half.qstate = 0 ∧ ((context 2 1).queue 2 3).half.qstate ≠ 0
      ∧ s.slotFn 255 = none ∧ ({ fns := [(3, { tdisp := 2, idekm := true })], hub := { ksvf := [(255, 2 ^ 31 + 3)] } } : State).slotFn 255 = some 3
      ∧ ({ tdisp := 2, idekm := true } : Fn).idekm = true := by decide +kernel

theorem witness_PeerAndKeyEvents :
    let s : State :=
      { ctxs := [(2, { peers := [(11, 16 + 3), (10, 12 + 16), (9, 3)] })], links := [(3, { state := 5 })]
        fns := [(3, { tdisp := 2, idekm := true }), (4, { tdisp := 1 })], hub := { ksvf := [(255, 2 ^ 31 + 3), (254, 2 ^ 31 + 5)] } }
    let p := fun e => (tget 0 (s.ctx 2).peers e).toNat
    s.slotFn 255 = some 3 ∧ (s.fn 3).tdisp = 2 ∧ (s.fn 3).idekm = true ∧ s.flying 3 2 1 = [] ∧ s.slotFn 254 = some 5 ∧ (s.fn 5).tdisp = 0 ∧ bitN (2 ^ 31 + 6) 31 = true ∧ bitN 6 31 = false
      ∧ (s.fn ((2 ^ 31 + 6) % 32)).tdisp = 0 ∧ s.slotFn 255 ≠ some 4 ∧ (s.fn 4).tdisp = 1 ∧ s.locked (s.ctx 2).vf = false
      ∧ (∀ r ∈ s.regions, r.2.ctx = 2 → r.2.state = 0) ∧ (∃ r ∈ (regioned {} 0).regions, r.2.ctx = 2 ∧ r.2.state ≠ 0) = False
      ∧ (∃ r ∈ (regioned { state := 3 } 0).regions, r.2.ctx = 2 ∧ r.2.state ≠ 0) ∧ bitN (p 11) 4 = true ∧ p 11 % 16 < 12
      ∧ (s.link (p 11 % 16)).carries = true ∧ 12 ≤ p 10 % 16 ∧ bitN (p 9) 4 = false ∧ (s.link 11).state = 0 ∧ (s.link 3).state ≠ 0 := by decide +kernel

/-- A command that went through port 11 to object 9 of context 3 there is in flight, and its run is cached for the port. -/
theorem witness_PeerAndKeyEvents_flying :
    let c := { xcmd (.xcp h0 e0) 0x10 8 with w1 := 2 ^ 40, finished := true, dobj := some 9 }
    let s : State :=
      { pairOf { xrun := [c] } {} with
        ctxs := [(2, { peers := [(0, 11 + 16 + 32 + 3 * 256)] })], links := [(11, { state := 5, cache := [⟨3, 9, 0, 1, 8, 8, 0⟩] })] }
    s.flying 11 3 9 = [(0, 4)] ∧ (∃ x ∈ (s.link 11).cache, x.covered 3 9 0 1 = true) := by
  decide +kernel

/-- An image of 2 × 2 tiles with 16 bytes of code that every tile runs, and its bytes. -/
abbrev image : List Byte :=
  leBytes 4 0x4933474B ++ [1, 0, 2, 2] ++ List.replicate 24 0
    ++ ([(128, 32), (160, 64), (224, 16), (240, 0), (240, 768)].flatMap fun x => leBytes 4 x.1 ++ leBytes 4 x.2) ++ List.replicate 88 0
    ++ ((List.range 4).flatMap fun _ => leBytes 4 0 ++ leBytes 4 16 ++ leBytes 4 0xFFFFFFFF ++ leBytes 4 0) ++ List.replicate 784 0

theorem witness_LoadChecksAndHostWaits_image : image.length = 1008 ∧ imgOk (ofBytes 0 image) 1008 = true := by decide +kernel

/-- Context 2 of interface 0 of function 1 owns handle 5 with the value 7; `SWT` of the interface holds n. -/
abbrev waits (n : Nat) (ws : List Waiter) : State :=
  { ctxs := [(2, { state := 2, vf := 1 })], fns := [(1, { swt := [(0, BitVec.ofNat 64 n)] })], hub := { sig := [(5, ⟨2, true, 7, 0⟩)], waiters := ws } }

theorem witness_LoadChecksAndHostWaits :
    let s := waits 8 []
    s.ctxOfIface 1 0 = some 2 ∧ s.ctxOfIface 1 1 = none ∧ (s.ctx 2).state ≠ 8 ∧ bitN (2 ^ 31 + 5) 31 = true ∧ s.owns 2 5 = true ∧ s.owns 2 6 = false
      ∧ s.hub.waiters.length < 1024 ∧ (tget 0 ((waits 7 []).fn 1).swt 0).toNat ≤ ((waits 7 []).sig 5).value.toNat
      ∧ (s.sig 5).value.toNat < (tget 0 (s.fn 1).swt 0).toNat ∧ min ((s.ctx 2).guilt + 16) 0xFFFF ≤ (s.fn (s.ctx 2).vf).glim
      ∧ ((slotted 1 0 []).slotOf 2 3).state = 1 ∧ ((slotted 1 0 []).slotOf 2 3).state ≠ 0 ∧ (slotted 1 0 []).objBytes 2 2 0 1 = none
      ∧ (slotted 1 0 []).objBytes 2 1 0 1 = some [0] ∧ imgOk (ofBytes 0 [0]) 1 = false := by decide +kernel

/-! ### Single steps whose results the spec gives -/

/-- The registers of the front end after a word. -/
def core (o : Out) : Core := (after o).core
/-- Lane n of the i-th vector result that a queued word of tile 0 leaves to be written. -/
def res (o : Out) (i n : Nat) : Lane :=
  match ((after o).tile 0).due.getLast? with
  | some d => match d.dst.getD i (.mask 0 0 0) with
    | .vec _ v _ => v.at n
    | _ => Lane.zero
  | none => Lane.zero
/-- A vector with the given lanes, lane 0 first. -/
abbrev vec (l : List Nat) : Vec := l.map fun x => ⟨BitVec.ofNat 32 x, false⟩
/-- A word of the C queue of tile 0 with these vector registers and lane masks. -/
abbrev onC (v : List (Nat × List Nat)) (j : List (Nat × BitVec 64)) : State := queued 2 { vreg := v.map fun x => (x.1, vec x.2), j := j }

/-- 05_control_scalar.md, the example of R125. -/
theorem test_li_lih :
    (core (exec (.li 0 ⟨5, 0, 0, 0x89ABCDEF⟩) (onTile {}))).s 5 = ⟨0xFFFFFFFF89ABCDEF, false⟩
      ∧ (core (exec (.lih 0 ⟨5, 0, 0, 0x01234567⟩) (after (exec (.li 0 ⟨5, 0, 0, 0x89ABCDEF⟩) (onTile {}))))).s 5 = ⟨0x0123456789ABCDEF, false⟩ := by
  decide +kernel

/-- 05_control_scalar.md, the example of R129. -/
theorem test_extb : (core (exec (.extb 0 ⟨5, 6, 0, 0, 64 * 8 + 11, 0, 0⟩) (onTile { core := regs [(6, 0xA53C00)] }))).s 5 = ⟨0x53C, false⟩ := by
  decide +kernel

/-- 05_control_scalar.md, the example of R133: b = 0x12345 and t = 0x112346 with e = 8, the cursor kept; the exact form raises CAPBND. -/
theorem test_cder :
    (core (exec (.cder 0 ⟨4, 3, 24, 0, 0x21, 0, 0⟩) derives)).cap 4 = mkCap 0x123 0x21 0x01234567 8 0x12345 0x112346 true
      ∧ (core (exec (.cder 0 ⟨4, 3, 24, 0, 0x121, 0, 0⟩) derives)).trap.tcause.toNat = cCAPBND := by decide +kernel

/-- Window offset w with units below lo in memory, and a frame of 512 bytes. -/
abbrev calling (w lo : Nat) : State :=
  { tiles := [(0, { rgn := 1, live := true, core := { w := w, lo := lo, trap := { tvec := 0xFFFFFFFF } } })], regions := [(1, { image := mwrite (oneTileImage []) 0x10 (leBytes 4 512) })] }

/-- 05_control_scalar.md Table 47, calls 10 and 11. -/
theorem test_call :
    (core (exec (.call 0 ⟨0, 0, 6, 4⟩) (calling 54 0))).w = 60 ∧ (core (exec (.call 0 ⟨0, 0, 6, 4⟩) (calling 54 0))).lo = 4
      ∧ (core (exec (.call 0 ⟨0, 0, 6, 4⟩) (calling 54 0))).pc = 32
      ∧ ((after (exec (.call 0 ⟨0, 0, 6, 4⟩) (calling 60 4))).region 1).report.map Report.cause = some cCAPBND := by decide +kernel

/-- 06_vector_arith.md Table 60: `vfma.f32.rne v8, v1, v2, v3/j4` on the tile with index 6. -/
theorem test_vfma_table60 :
    let a := [0x3FC00000, 0x1A000000, 0x7F800000, 0x7FC00001, 0x7FE00C07, 0x7FC00001, 0x7F7FFFFF, 0x7F7FFFFF]
    let b := [0x40000000, 0x1A000000, 0, 0x3F800000, 0x3F800000, 0, 0x40000000, 0x40000000]
    let c := [0xC0400000, 0, 0x3F800000, 0x40000000, 0x7F800001, 0, 0xFF800000, 0x3F800000]
    let t : Tile := { tix := 6, vreg := [(1, vec a |>.mapIdx fun i x => if i = 4 then ⟨x.bits, true⟩ else x), (2, vec b), (3, vec c)], j := [(4, 0xDF)] }
    let o := exec (.vfma h0 ⟨8, 1, 2, 3, 0, 0, 4, 0, 3⟩) (queued 2 t)
    (List.range 8).map (res o 0) = [⟨0, false⟩, ⟨0, false⟩, ⟨0x7FE01880, true⟩, ⟨0x7FE01881, true⟩, ⟨0x7FE00C07, true⟩, (res o 0 5), ⟨0xFF800000, false⟩, ⟨0x7F800000, false⟩]
      ∧ tget 0 ((after o).tile 0).psnc 1 = 3 := by decide +kernel

/-- 06_vector_arith.md, the example of R147. -/
theorem test_saturating :
    let s := onC [(1, [0x7F8001FF]), (2, [0x02800102])] []
    (res (exec (.vadds h0 ⟨3, 1, 2, 0, 10, 0, 0, 0, 0⟩) s) 0 0).bits = 0x7F800201 ∧ (res (exec (.vadds h0 ⟨3, 1, 2, 0, 11, 0, 0, 0, 0⟩) s) 0 0).bits = 0x81FF02FF
      ∧ (res (exec (.viadd h0 ⟨3, 1, 2, 0, 10, 0, 0, 0, 0⟩) s) 0 0).bits = 0x81000201 := by decide +kernel

/-- 06_vector_arith.md, the example of R149. -/
theorem test_vcls :
    let s := queued 2 { vreg := [(1, [⟨0x7FE08001, true⟩]), (2, [⟨0x7FC00001, false⟩])] }
    (res (exec (.vcls h0 ⟨3, 1, 0, 0, 1, 0, 0, 0, 0⟩) s) 0 0).bits = 0x01000004 ∧ (res (exec (.vcls h0 ⟨3, 2, 0, 0, 0, 0, 0, 0, 0⟩) s) 0 0).bits = 0x200 := by
  decide +kernel

/-- 06_vector_arith.md, the examples of R145: −149.0, −150.0 and 128.0; the least subnormal. -/
theorem test_vex2_vlg2 :
    let s := onC [(1, [0xC3150000, 0xC3160000, 0x43000000]), (2, [1])] [(1, 7)]
    let e := fun (rm : BitVec 3) => (List.range 3).map fun n => (res (exec (.vex2 h0 ⟨3, 1, 0, 0, 0, rm, 1, 0, 0⟩) s) 0 n).bits
    e 0 = [1, 0, 0x7F800000] ∧ (e 2).getD 1 0 = 1 ∧ (e 1).getD 2 0 = 0x7F7FFFFF
      ∧ (res (exec (.vlg2 h0 ⟨3, 2, 0, 0, 0, 0, 1, 0, 0⟩) (onC [(2, [1])] [(1, 1)])) 0 0).bits = 0xC3150000 := by decide +kernel

/-- 07_vector_data.md, the example of R159. -/
theorem test_vcmprs_vexpd :
    let s := onC [(1, List.range 64)] [(1, 0x96)]
    let p := exec (.vcmprs h0 ⟨3, 1, 0, 0, 0, 0, 1, 0, 0⟩) s
    let x := exec (.vexpd h0 ⟨3, 1, 0, 0, 0, 0, 1, 0, 0⟩) s
    ((List.range 4).map fun n => (res p 0 n).bits) = [1, 2, 4, 7] ∧ ([1, 2, 4, 7].map fun n => (res x 0 n).bits) = [0, 1, 2, 3] := by decide +kernel

/-- 07_vector_data.md, the examples of R164 and R163. -/
theorem test_vscan_vredx :
    let o := exec (.vscan h0 ⟨3, 1, 0, 0, 0, 0, 1, 0, 0⟩) (onC [(1, [0x4B800000, 0x3F800000, 0x3F800000, 0x3F800000])] [(1, 15)])
    let r := exec (.vredx h0 ⟨10, 4, 0, 0, 7, 0, 2, 0, 0⟩) (onC [(4, [0, 9, 0, 5, 0, 0, 0, 5])] [(2, 0x8A)])
    (res o 0 3).bits = 0x4B800001 ∧ (res r 0 0).bits = 5 ∧ (res r 1 63).bits = 3 := by decide +kernel

/-- 07_vector_data.md Table 73. -/
theorem test_vmqnt :
    let o := exec (.vmqnt h0 ⟨20, 8, 0, 3, false, 0, 0, 0, 0, 0, 0⟩)
      (onC [(8, [0x447A0000, 0, 0, 0, 0, 0, 0, 0, 0, 0x7FC00001]), (9, [0xC0400000]), (10, [0x3A83126F])] [])
    res o 0 0 = ⟨0xB478, false⟩ ∧ res o 0 1 = ⟨0, false⟩ ∧ res o 0 8 = ⟨0x200080, true⟩ ∧ res o 0 15 = ⟨0, true⟩ ∧ res o 1 0 = ⟨0x81, false⟩
      ∧ res o 1 1 = ⟨0x200080FF, true⟩ ∧ res o 1 2 = ⟨0, false⟩ ∧ tget 0 ((after o).tile 0).psnc 1 = 1 := by decide +kernel

/-- 02_numerics.md Table 22: 460, 470 and 2^−10 to E4M3, with the overflow-poison flag and without it. -/
theorem test_vcvt :
    let s := onC [(8, [0x43E60000]), (9, [0x43EB0000]), (10, [0x3A800000])] [(1, 1)]
    (res (exec (.vcvt h0 ⟨20, 8, 0, 3, false, 0, 0, 0, 1, 0, 0⟩) s) 0 0).bits = 0x007E7E ∧ (res (exec (.vcvt h0 ⟨20, 8, 0, 3, false, 0, 0, 2, 1, 0, 0⟩) s) 0 0).bits / 0x10000 = 1
      ∧ (res (exec (.vcvt h0 ⟨20, 8, 0, 3, true, 0, 0, 0, 1, 0, 0⟩) s) 0 0).bits % 0x10000 / 0x100 = 0x7F := by decide +kernel

/-- 08_memory_order.md R180, R181: bytes in little-endian order, sign extension, and a store's four bytes. -/
theorem test_load_store :
    let l := fun (i : Instr) => ((after (exec i (loads 1))).tile 0).due.map Due.dst
    l (.lds h0 ⟨2, 1, 0, 0, 0, 2, 1⟩) = [[.scal 2 ⟨0x8483, false⟩]] ∧ l (.lds h0 ⟨0x42, 1, 0, 0, 0, 2, 1⟩) = [[.scal 2 ⟨0xFFFFFFFFFFFF8483, false⟩]]
      ∧ (res (exec (.ldv h0 ⟨1, 1, 0, 1, 0, 0, 0⟩) (loads 1)) 0 1).bits = 0x88878685
      ∧ mread ((after (exec (.sts h0 ⟨1, 1, 0, 0, 0, 16, 2⟩) (loads 3))).tile 0).scr 14 8 = [0, 0, 5, 0, 0, 0, 0, 0] := by decide +kernel

/-- 08_memory_order.md, the example of R184: lane 1 holds poison of the integer form. -/
theorem test_stv_poison :
    let t := fun (b : Bool) => { loads 3 with tiles := [(0, { vreg := [(8, [⟨0x7FE01880, true⟩, ⟨0x00201880, b⟩])], j := [(1, 3)] })] }
    (core (exec (.stv h0 ⟨8, 1, 0, 1, 0, 0, 0⟩) (t true))).trap.tcause.toNat = cPOISST
      ∧ mread ((after (exec (.stv h0 ⟨8, 1, 0, 1, 0, 0, 0⟩) (t false))).tile 0).scr 0 8 = leBytes 4 0x7FE01880 ++ leBytes 4 0x00201880 := by decide +kernel

/-- 10_barrier.md, the example of R223: the wait of L leaves 0. -/
theorem test_semw : ((after (exec (.semw h0 ⟨0, 0, 3, 2, 0, 0⟩) (sems 1 2))).tile 0).count 40 = 0 ∧ after (exec (.semw h0 ⟨0, 0, 3, 2, 0, 0⟩) (sems 1 1)) = sems 1 1 := by
  decide +kernel

/-- 10_barrier.md Table 91: the last of four arrivals, two arrivals too many, and twice the count. -/
theorem test_barrier_close :
    let b : Barrier := { count := 4, arrived := 3, state := 1, phase := 0xFFFF }
    b.close 1 false = { b with state := 2, arrived := 0, phase := 0 } ∧ b.close 3 false = { b with arrived := 2, phase := 0 } ∧ (b.close 5 false).state = 3 := by
  decide +kernel

/-- 10_barrier.md, the identities of its example of R235. -/
theorem test_wait_identity : waitIdent 2 1 6 3 = 0x00180612 ∧ waitIdent 2 2 6 4 = 0x00200622 := by decide +kernel

/-- R345, R346, R348, R349: `trap #42` enters the handler at 64 with the next word in `TRPC`; `tret` goes back there. -/
theorem test_trap_tret :
    let c := core (exec (.trap 0 ⟨0, 0, 0, 42⟩) (traps 0 64))
    c.pc = 64 ∧ c.trap.tcause.toNat = 0x60 ∧ c.trap.tval = 42 ∧ c.trap.tpc = 24 ∧ c.trap.trpc = 32 ∧ c.trap.hnd = true
      ∧ (core (exec (.tret 0 ⟨0, 0, 0, 0⟩) (handling 0))).pc = 40 ∧ (core (exec (.tret 0 ⟨0, 0, 0, 0⟩) (handling 0))).trap.hnd = false := by decide +kernel

/-- R100: a supervisor word of a tile raises PRIV with its word. -/
theorem test_priv : (core (exec (.rgpre 0 fz) (traps 0 64))).trap.tcause.toNat = cPRIV ∧ (core (exec (.rgpre 0 fz) (traps 0 64))).trap.tval = 9 := by decide +kernel

/-- R258 and R257: lanes 0 and 63 of `v1` reach rows 4 and 5 of quarter 1 at row pair 2. -/
theorem test_mxwv :
    let t := (after (exec (.mxwv h0 ⟨0x51, 1, 0, 2, 0, 0, 0, 1, 0⟩) (onC [(1, List.range 64)] []))).tile 0
    t.accAt 4 32 = 0 ∧ t.accAt 4 33 = 1 ∧ t.accAt 5 32 = 32 ∧ t.accAt 5 63 = 63 ∧ t.accAt 5 64 = 0 := by decide +kernel

/-- R275: an `xcp` of 8 bytes and an `xfil` of 3 in the tile's own scratchpad. -/
theorem test_xcp_xfil :
    let m := mwrite [] 64 [1, 2, 3, 4, 5, 6, 7, 8]
    let c := { xcmd (.xcp h0 e0) 0x10 8 with w0 := 0x10 * 2 ^ 56 }
    let f := { xcmd (.xfil h0 e0) 0x1A 3 with w0 := 0x1A * 2 ^ 56, fobj := none, vals := [0x0201], dofs := 9 }
    mread ((after (exec (.xeCommandStart 0) (pairOf { xeq := [c], scr := m } {}))).tile 0).scr 0 9 = [1, 2, 3, 4, 5, 6, 7, 8, 0]
      ∧ mread ((after (exec (.xeCommandStart 0) (pairOf { xeq := [f], scr := m } {}))).tile 0).scr 8 5 = [0, 1, 2, 0, 0] := by decide +kernel

/-- 12_copy.md Table 111: integer add wraps, and the smaller of −1 and 1. -/
theorem test_arrivals :
    let s := onTile { scr := mwrite [] 64 [255, 255, 255, 255] }
    let g := fun (a : Arrival) => mread ((s.applyArr 0 a).tile 0).scr 64 4
    g (arr 0) = [0, 0, 0, 0] ∧ g { arr 0 with op := 1 } = [255, 255, 255, 255] ∧ g { arr 0 with op := 2 } = [1, 0, 0, 0] := by decide +kernel

/-- 14_group.md, the example of R303: tile (5, 1) of 8 × 4 at 90° with origin (40, 2) lies at (42, 7). -/
theorem test_rotation : (placeTiles 1 8 4 40 2).getD 13 0 = 96 * 7 + 42 := by decide +kernel

/-- 14_group.md, the example of R322: handle 1 with placement 0. -/
theorem test_rgsta_plc :
    let s : State :=
      { sv [(20, 0x2500000C), (24, 0x8000)] with
        hub := { lease := some 0 }, fns := [(3, { clmask := 2 ^ 432 - 1 })], dram := mwrite [] (9 * 2097152 + 6) [8, 4]
        ctxs := [(37, { vf := 3, slots := [(12, { state := 3, frame := 9, len := 1024 })],
                        queues := [(0, { launch := some { ctx := 37, q := 0, slot := 12, stage := 3 } })] })] }
    let u := after (exec (.rgstaPlc 0 fz) s)
    u.reg 24 = 0x0001000000000000 ∧ u.reg 20 = 0x2500000C ∧ (u.region 1).state = 1 ∧ (core (exec (.rgpre 0 fz) (u.setCore (regs [(20, 1)])))).s 20 = ⟨3, false⟩ := by
  decide +kernel

/-- R215, R336, R378: a Pinned frame becomes Migrating, a signal is added to, a Down link starts to train, and status 3 comes back from another. -/
theorem test_supervisor :
    (after (exec (.otwrFrm 0 fz) { frames 8 3 1 with dies := [(0, { state := 5, sorrel := regs [(20, 8), (24, 4)] })] })).ft 8 = mkFt 4 1 0 1
      ∧ ((after (exec (.csigAdd 0 fz) (signals 9 [(20, 5), (24, 1)]))).sig 5).value = 10
      ∧ ((after (exec (.lnkcUp 0 fz) (linked 11 0 0))).link 11).state = 1 ∧ (core (exec (.lnkcUp 0 fz) (linked 11 1 0))).s 20 = ⟨11, false⟩ := by
  decide +kernel

/-- FIPS 180-4: SHA-384 of "abc". -/
theorem test_sha384 :
    beVal (sha384 [0x61, 0x62, 0x63])
      = 0xcb00753f45a35e8bb5a03d699ac65007272c32ab0eded1631a8b605a43ff5bed8086072ba1e7cc2358baeca134c825a7 := by decide +kernel

/-- R55, R58: from reset, a placed `li` runs and a placed `vadd` issues; and the package takes its first step. -/
theorem test_first_step :
    ((after (step (State.reset.withFetchWord 64 0x220050000000000A))).tile 0).core.s 20 = ⟨10, false⟩
      ∧ ((after (step (State.reset.withFetchWord 64 0x4000010203000000))).tile 0).due.length = 1 := by decide +kernel

end Sys2Proof.Tests
end

section
/-! SUPPORT. The machine right after reset (01_architecture.md R23 to R30). -/

namespace Sys2Proof.Machine

/-- An empty table reads its default. -/
@[simp] theorem tget_nil {α : Type} (d : α) (k : Nat) : tget d [] k = d := rfl

/-! ### A front end whose registers nothing has written -/

theorem Core.s_of_unwritten {c : Core} (h : c.sreg = []) (n : Nat) : c.s n = ⟨0, false⟩ := by
  simp [Core.s, Scal.zero, h]

theorem Core.cap_of_unwritten {c : Core} (h : c.c = []) (n : Nat) : c.cap n = ⟨0, false⟩ := by
  simp [Core.cap, Cap.null, h]

theorem Core.qv_of_unwritten {c : Core} (h : c.q = []) (n : Nat) :
    c.qv n = if n = 0 then (true, false) else (false, false) := by
  simp [Core.qv, h]

theorem Tile.mask_of_unwritten {t : Tile} (h : t.j = []) (n : Nat) :
    t.mask n = if n = 0 then BitVec.allOnes 64 else 0 := by
  simp [Tile.mask, h]

/-- Both halves of a control block that nothing has written are zero. -/
theorem Queue.half_of_unwritten {Q : Queue} (h0 : Q.half0 = {}) (h1 : Q.half1 = {}) : Q.half = {} := by
  simp [Queue.half, h0, h1]

end Sys2Proof.Machine
end

section
/-! SUPPORT. Power-on and telemetry (01_architecture.md R25 to R30): what each event does, with the frame tables that a power-on writes
(09_page.md R206, R215). -/

namespace Sys2Proof.Machine

/-! ### Frame tables -/

@[simp] theorem leBytes_length (n v : Nat) : (leBytes n v).length = n := by
  induction n generalizing v with
  | zero => rfl
  | succ n ih => simp [leBytes, ih]

/-- The bytes of a value read back as the value, at their width. -/
theorem leVal_leBytes (n v : Nat) : leVal (leBytes n v) = v % 256 ^ n := by
  induction n generalizing v with
  | zero => simp [leBytes, leVal, Nat.mod_one]
  | succ n ih =>
    have hbyte : (BitVec.ofNat 8 v).toNat = v % 256 := BitVec.toNat_ofNat v 8
    rw [leBytes, leVal, ih, hbyte, Nat.pow_succ', Nat.mod_mul]

theorem State.ft_setFt_self {s : State} (h v : Nat) (hs : Memory.wf s.dram = true) : (s.setFt h v).ft h = v % 256 ^ 8 := by
  have hread := mread_mwrite (leBytes 8 v) (ftAddr h) hs
  rw [leBytes_length] at hread
  exact (congrArg leVal hread).trans (leVal_leBytes 8 v)

/-- The entries of two frames lie apart. -/
theorem ftAddr_apart {h k : Nat} (hk : k ≠ h) : ftAddr k + 8 ≤ ftAddr h ∨ ftAddr h + 8 ≤ ftAddr k := by
  simp only [ftAddr, dieOfFrame, dieFrames, frameB]
  omega

theorem State.ft_setFt_ne (s : State) {h k : Nat} (v : Nat) (hk : k ≠ h) : (s.setFt h v).ft k = s.ft k := by
  refine congrArg leVal (mread_mwrite_out _ ?_)
  simpa using ftAddr_apart hk

theorem State.wf_setFt {s : State} (h v : Nat) (hs : Memory.wf s.dram = true) : Memory.wf (s.setFt h v).dram = true :=
  State.wf_dramWr _ _ hs

/-- After one entry has been written for each of several frames, each of them has it. -/
theorem State.ft_foldl_setFt {f : Nat → Nat} {v k : Nat} {l : List Nat} {s : State} (hs : Memory.wf s.dram = true)
    (h : (∃ d ∈ l, f d = k) ∨ s.ft k = v % 256 ^ 8) : (l.foldl (fun (z : State) d => z.setFt (f d) v) s).ft k = v % 256 ^ 8 := by
  induction l generalizing s with
  | nil => simpa using h
  | cons x l ih =>
    refine ih (State.wf_setFt _ _ hs) ?_
    by_cases hx : k = f x
    · subst hx
      exact .inr (State.ft_setFt_self _ _ hs)
    · rw [State.ft_setFt_ne _ _ hx]
      simpa [Ne.symm hx] using h

/-- An entry that is made of its fields, cut to the 8 bytes of an entry, has the state it was given. -/
theorem ftState_mkFt (st vf gfr ue : Nat) : ftState (mkFt st vf gfr ue % 256 ^ 8) = st % 8 := by
  simp only [ftState, mkFt]
  omega

/-- Only DRAM may differ, of the parts that a power-on is asked about, and it is still in its canonical form. -/
structure State.OnlyDram (s t : State) : Prop where
  tiles : t.tiles = s.tiles
  dies : t.dies = s.dies
  regions : t.regions = s.regions
  ctxs : t.ctxs = s.ctxs
  hub : t.hub = s.hub
  links : t.links = s.links
  hostMem : t.hostMem = s.hostMem
  powered : t.powered = s.powered
  wf : Memory.wf s.dram = true → Memory.wf t.dram = true

theorem State.OnlyDram.refl (s : State) : s.OnlyDram s := ⟨rfl, rfl, rfl, rfl, rfl, rfl, rfl, rfl, id⟩

theorem State.OnlyDram.trans {s t u : State} (h : s.OnlyDram t) (g : t.OnlyDram u) : s.OnlyDram u :=
  ⟨g.tiles.trans h.tiles, g.dies.trans h.dies, g.regions.trans h.regions, g.ctxs.trans h.ctxs, g.hub.trans h.hub, g.links.trans h.links,
    g.hostMem.trans h.hostMem, g.powered.trans h.powered, g.wf ∘ h.wf⟩

theorem State.OnlyDram.foldl {α : Type} {f : State → α → State} (hf : ∀ (s : State) (x : α), s.OnlyDram (f s x)) (l : List α)
    (s : State) : s.OnlyDram (l.foldl f s) := by
  induction l generalizing s with
  | nil => exact refl s
  | cons x l ih => exact (hf s x).trans (ih (f s x))

theorem State.OnlyDram.setFt (s : State) (h v : Nat) : s.OnlyDram (s.setFt h v) :=
  ⟨rfl, rfl, rfl, rfl, rfl, rfl, rfl, rfl, State.wf_setFt h v⟩

/-! ### Telemetry counters (01_architecture.md R25) -/

/-- The width of a counter of the first 8 KiB is 64 bits. -/
theorem State.tget_tel (s : State) {off : Nat} (h : off < 0x2000) (j : Nat) :
    tget 0 (s.tel off).hub.tel j = if j = off then min (tget 0 s.hub.tel off + 1) (2 ^ 64 - 1) else tget 0 s.hub.tel j := by
  have hwide : ¬ 0x2000 ≤ off := by omega
  simp only [State.tel, tmod, hwide, if_false, tget_tset]

theorem State.tel_records (s : State) {off : Nat} (h : off < 0x2000) :
    (s.tel off).hub.tel = tset s.hub.tel off (min (tget 0 s.hub.tel off + 1) (2 ^ 64 - 1)) := by
  have hwide : ¬ 0x2000 ≤ off := by omega
  simp only [State.tel, tmod, hwide, if_false]

/-! ### Power-on (R26) -/

theorem newerBank_none_right (a : Tab Nat × List Nat) : newerBank (some a) none = some a := rfl

theorem newerBank_some (a b : Tab Nat × List Nat) :
    newerBank (some a) (some b) = if tget 0 b.1 0x60 < tget 0 a.1 0x60 then some a else some b := rfl

/-- The bank that a power-on loads, an empty one where none is valid. -/
def State.loadedBank (s : State) : Tab Nat × List Nat := (newerBank s.hub.flash0 s.hub.flash1).getD ([], [])

/-- The package with power, before its frame tables are written and its power-on is counted. -/
def State.coldStart (s : State) : State :=
  { hostMem := s.hostMem, inputs := s.inputs, agenda := s.agenda, freeCtr := s.freeCtr, outbox := s.outbox, powered := true
    dies := [0, 1, 2].map fun d => (d, { defect := (s.die d).defect })
    hub := { flash0 := s.hub.flash0, flash1 := s.hub.flash1, tel := s.loadedBank.1,
             fresh := (newerBank s.hub.flash0 s.hub.flash1).isNone, retired := s.loadedBank.2 } }

/-- Frames become Retired. -/
def State.retireFrames (s : State) (l : List Nat) : State := l.foldl (fun (z : State) h => z.setFt h (mkFt fsRetired 0 0 0)) s

/-- Frame 0 of each die, which holds its frame table, becomes Pinned. -/
def State.pinTables (s : State) : State := [0, 1, 2].foldl (fun (z : State) d => z.setFt (d * dieFrames) (mkFt fsPinned 0 0 0)) s

/-- The package with power and its frame tables. -/
def State.withTables (s : State) : State := (s.coldStart.retireFrames s.loadedBank.2).pinTables

/-- The package after a power-on. -/
def State.poweredOn (s : State) : State := s.withTables.tel 0x48

theorem exec_powerOn (s : State) : exec .powerOn s = .next s.poweredOn := rfl

theorem State.OnlyDram.retireFrames (s : State) (l : List Nat) : s.OnlyDram (s.retireFrames l) :=
  State.OnlyDram.foldl (fun s _ => .setFt s _ _) l s

theorem State.OnlyDram.pinTables (s : State) : s.OnlyDram s.pinTables :=
  State.OnlyDram.foldl (fun s _ => .setFt s _ _) _ s

theorem State.pinTables_ft {s : State} (hs : Memory.wf s.dram = true) {d : Nat} (hd : d < 3) :
    ftState (s.pinTables.ft (d * dieFrames)) = 3 := by
  have hmem : d ∈ [0, 1, 2] := by simp; omega
  have hentry : s.pinTables.ft (d * dieFrames) = mkFt fsPinned 0 0 0 % 256 ^ 8 := State.ft_foldl_setFt hs (.inl ⟨d, hmem, rfl⟩)
  rw [hentry]
  exact ftState_mkFt fsPinned 0 0 0

/-- Writing the frame tables leaves everything but DRAM as the package starts with it. -/
theorem State.withTables_onlyDram (s : State) : s.coldStart.OnlyDram s.withTables :=
  (State.OnlyDram.retireFrames s.coldStart s.loadedBank.2).trans (.pinTables _)

theorem State.withTables_ft (s : State) {d : Nat} (hd : d < 3) : ftState (s.withTables.ft (d * dieFrames)) = 3 :=
  State.pinTables_ft ((State.OnlyDram.retireFrames s.coldStart s.loadedBank.2).wf rfl) hd

theorem State.poweredOn_ft (s : State) {d : Nat} (hd : d < 3) : ftState (s.poweredOn.ft (d * dieFrames)) = 3 := by
  rw [State.ft, State.poweredOn, State.tel_dram]
  exact s.withTables_ft hd

theorem State.poweredOn_die (s : State) {d : Nat} (hd : d < 3) : s.poweredOn.die d = { defect := (s.die d).defect } := by
  rw [State.die, State.poweredOn, State.tel_dies, s.withTables_onlyDram.dies]
  obtain rfl | rfl | rfl : d = 0 ∨ d = 1 ∨ d = 2 := by omega
  all_goals rfl

/-- Of the hub, a power-on keeps the flash banks and loads the newer one; the power-on count is one more than the bank's. -/
theorem State.poweredOn_hub (s : State) :
    s.poweredOn.hub = { s.coldStart.hub with tel := tset s.loadedBank.1 0x48 (min (tget 0 s.loadedBank.1 0x48 + 1) (2 ^ 64 - 1)) } := by
  rw [State.poweredOn, State.tel, s.withTables_onlyDram.hub]
  rfl

/-! ### Samples (Table 9) -/

theorem tempBin_eq_iff (t : Int) {b : Nat} (hb : b < 32) :
    b = tempBin t ↔ (b = 0 ∧ t < 20) ∨ (0 < b ∧ b < 31 ∧ 20 + 3 * ((b : Int) - 1) ≤ t ∧ t < 20 + 3 * b) ∨ (b = 31 ∧ 110 ≤ t) := by
  unfold tempBin
  split <;> omega

theorem droopBin_eq_iff (m : Nat) {b : Nat} (hb : b < 16) :
    b = droopBin m ↔ (b < 15 ∧ 5 * b ≤ m ∧ m < 5 * b + 5) ∨ (b = 15 ∧ 75 ≤ m) := by
  unfold droopBin
  omega

theorem tempBin_lt (t : Int) : tempBin t < 32 := by
  unfold tempBin
  split <;> omega

theorem droopBin_lt (m : Nat) : droopBin m < 16 := by
  unfold droopBin
  omega

/-- A sample of one die raises the count of its temperature's bin and that of its droop's. -/
theorem telemetrySample_one (t : Int) (m : Nat) (s : State) :
    exec (.telemetrySample [t] [m]) s = .next ((s.tel (0xB00 + tempBin t * 8)).tel (0xF00 + droopBin m * 8)) := by
  show execTelemetrySample [t] [m] s = _
  simp [execTelemetrySample]

theorem tget_sample_temp (s : State) (t : Int) (m : Nat) {b : Nat} (hb : b < 32) :
    tget 0 ((s.tel (0xB00 + tempBin t * 8)).tel (0xF00 + droopBin m * 8)).hub.tel (0xB00 + b * 8)
      = if b = tempBin t then min (tget 0 s.hub.tel (0xB00 + b * 8) + 1) (2 ^ 64 - 1) else tget 0 s.hub.tel (0xB00 + b * 8) := by
  have ht := tempBin_lt t
  have hm := droopBin_lt m
  rw [State.tget_tel _ (by omega), if_neg (by omega), State.tget_tel _ (by omega)]
  by_cases h : b = tempBin t
  · rw [if_pos h, if_pos (by omega), h]
  · rw [if_neg h, if_neg (by omega)]

theorem tget_sample_droop (s : State) (t : Int) (m b : Nat) :
    tget 0 ((s.tel (0xB00 + tempBin t * 8)).tel (0xF00 + droopBin m * 8)).hub.tel (0xF00 + b * 8)
      = if b = droopBin m then min (tget 0 s.hub.tel (0xF00 + b * 8) + 1) (2 ^ 64 - 1) else tget 0 s.hub.tel (0xF00 + b * 8) := by
  have ht := tempBin_lt t
  have hm := droopBin_lt m
  have hother : ∀ c, tget 0 (s.tel (0xB00 + tempBin t * 8)).hub.tel (0xF00 + c * 8) = tget 0 s.hub.tel (0xF00 + c * 8) := fun c => by
    rw [State.tget_tel _ (by omega), if_neg (by omega)]
  rw [State.tget_tel _ (by omega), hother, hother]
  by_cases h : b = droopBin m
  · rw [if_pos h, if_pos (by omega), h]
  · rw [if_neg h, if_neg (by omega)]

/-! ### Flash writes (R26) -/

/-- The store with its write sequence raised goes to the bank that the sequence's parity names. -/
theorem telemetryFlashWrite_banks (s : State) :
    ∃ u, exec .telemetryFlashWrite s = .next u ∧ u.hub.tel = (s.tel 0x60).hub.tel
      ∧ (tget 0 (s.tel 0x60).hub.tel 0x60 % 2 = 0 → u.hub.flash0 = some ((s.tel 0x60).hub.tel, s.hub.retired) ∧ u.hub.flash1 = s.hub.flash1)
      ∧ (tget 0 (s.tel 0x60).hub.tel 0x60 % 2 = 1 → u.hub.flash1 = some ((s.tel 0x60).hub.tel, s.hub.retired) ∧ u.hub.flash0 = s.hub.flash0) := by
  by_cases heven : tget 0 (s.tel 0x60).hub.tel 0x60 % 2 = 0
  · exact ⟨_, congrArg Host.Outcome.next (if_pos heven), rfl, fun _ => ⟨rfl, rfl⟩, fun hodd => by omega⟩
  · exact ⟨_, congrArg Host.Outcome.next (if_neg heven), rfl, fun h => absurd h heven, fun _ => ⟨rfl, rfl⟩⟩

/-! ### Snapshots (R27, R28) -/

theorem Snapshot.request_busy {x : Snapshot} (h : x.busy = true) (tel : Tab Nat) (n : Nat) : x.request tel n = x := by
  simp [Snapshot.request, h]

theorem Snapshot.request_idle {x : Snapshot} (h : x.busy = false) (tel : Tab Nat) (n : Nat) :
    x.request tel n = { x with busy := true, next := tel, left := n } := by
  simp [Snapshot.request, h]

theorem Snapshot.complete_busy {x : Snapshot} (h : x.busy = true) :
    x.complete = { x with busy := false, valid := true, seq := (x.seq + 1) % 2 ^ 32, recs := x.next, next := [] } := by
  simp [Snapshot.complete, h]

theorem Snapshot.complete_idle {x : Snapshot} (h : x.busy = false) : x.complete = x := by
  simp [Snapshot.complete, h]

/-- A snapshot that the host asks for completes 155 boundaries on at the latest. -/
theorem snap_requests {v : BitVec 32} (hv : v.getLsbD 0 = true) (s : State) :
    ∃ n, n ≤ 155 ∧ exec (.snap v) s =
      .next { s with freeCtr := s.freeCtr + 1, hub := { s.hub with host := s.hub.host.request s.hub.tel n } } :=
  ⟨min s.delay.1 snapSteps, Nat.min_le_right _ _, congrArg Host.Outcome.next (if_pos hv)⟩

theorem snap_without_bit {v : BitVec 32} (hv : v.getLsbD 0 = false) (s : State) : exec (.snap v) s = .next s :=
  congrArg Host.Outcome.next (if_neg (by rw [hv]; decide))

theorem mctpSnapshotRequest_requests (s : State) :
    ∃ n, n ≤ 155 ∧ exec .mctpSnapshotRequest s =
      .next { s with freeCtr := s.freeCtr + 1, hub := { s.hub with mgmt := s.hub.mgmt.request s.hub.tel n } } :=
  ⟨min s.delay.1 snapSteps, Nat.min_le_right _ _, rfl⟩

theorem snapshotComplete_host (s : State) :
    exec (.snapshotComplete false) s = .next { s with hub := { s.hub with host := s.hub.host.complete } } := rfl

theorem snapshotComplete_mgmt (s : State) :
    exec (.snapshotComplete true) s = .next { s with hub := { s.hub with mgmt := s.hub.mgmt.complete } } := rfl

/-! ### Accesses of the windows (R29, R30) -/

theorem winOk_write (off len : Nat) : winOk true off len = true ↔ off = 0 := by simp [winOk]

theorem winOk_read (off len : Nat) :
    winOk false off len = true ↔ (len = 4 ∨ len = 8) ∧ off % len = 0 ∧ off + len ≤ 65536 := by
  simp [winOk, and_assoc]

theorem telemetryUnsupportedAccess_allowed {wr : Bool} {off len : Nat} (h : winOk wr off len = true) (s : State) :
    exec (.telemetryUnsupportedAccess wr off len) s = .next s :=
  congrArg Host.Outcome.next (if_pos h)

theorem telemetryUnsupportedAccess_refused {wr : Bool} {off len : Nat} (h : ¬ winOk wr off len = true) (s : State) :
    exec (.telemetryUnsupportedAccess wr off len) s = .next (s.send "unsupported-request" [off, len]) :=
  congrArg Host.Outcome.next (if_neg h)

theorem mctpTelemetryRead_answered {off len : Nat} (h : 4 ≤ len ∧ len ≤ 64 ∧ off % 4 = 0 ∧ off + len ≤ 65536) (s : State) :
    exec (.mctpTelemetryRead off len) s =
      .next (s.send "mctp" ((List.range len).map fun i => winByte s.hub.mgmt s.hub.fresh (off + i))) :=
  congrArg Host.Outcome.next (if_pos h)

theorem mctpTelemetryRead_unanswered {off len : Nat} (h : ¬ (4 ≤ len ∧ len ≤ 64 ∧ off % 4 = 0 ∧ off + len ≤ 65536)) (s : State) :
    exec (.mctpTelemetryRead off len) s = .next s :=
  congrArg Host.Outcome.next (if_neg h)

end Sys2Proof.Machine
end

section
/-! SUPPORT. The lease (01_architecture.md R23): what its lapse leaves alone, and who takes it; the step period (14_group.md R320). -/

namespace Sys2Proof.Machine

/-- What the lease rests on is as before: its record in the hub, the state and the semaphores of each die, and the tiles. -/
structure State.KeepsLead (s t : State) : Prop where
  tiles : t.tiles = s.tiles
  lease : t.hub.lease = s.hub.lease
  leaseLeft : t.hub.leaseLeft = s.hub.leaseLeft
  state : ∀ d, (t.die d).state = (s.die d).state
  sem : ∀ d, (t.die d).sem = (s.die d).sem

namespace State.KeepsLead

theorem refl (s : State) : s.KeepsLead s := ⟨rfl, rfl, rfl, fun _ => rfl, fun _ => rfl⟩

theorem trans {s t u : State} (h : s.KeepsLead t) (g : t.KeepsLead u) : s.KeepsLead u :=
  ⟨g.tiles.trans h.tiles, g.lease.trans h.lease, g.leaseLeft.trans h.leaseLeft, fun d => (g.state d).trans (h.state d),
    fun d => (g.sem d).trans (h.sem d)⟩

theorem foldl {α : Type} {f : State → α → State} (hf : ∀ (s : State) (x : α), s.KeepsLead (f s x)) (l : List α) (s : State) :
    s.KeepsLead (l.foldl f s) := by
  induction l generalizing s with
  | nil => exact refl s
  | cons x l ih => exact (hf s x).trans (ih (f s x))

/-- A new front end of a Sorrel. -/
theorem setSorrel (s : State) (d : Nat) (c : Core) : s.KeepsLead (s.setDie d { s.die d with sorrel := c }) := by
  refine ⟨rfl, rfl, rfl, fun e => ?_, fun e => ?_⟩
  all_goals
    obtain rfl | h := eq_or_ne e d
    · rw [State.die_setDie_self]
    · rw [State.die_setDie_ne _ _ h]

theorem setQueue (s : State) (c q : Nat) (Q : Queue) : s.KeepsLead (s.setQueue c q Q) :=
  ⟨rfl, rfl, rfl, fun _ => rfl, fun _ => rfl⟩

theorem setSlotOf (s : State) (c sl : Nat) (x : Slot) : s.KeepsLead (s.setSlotOf c sl x) :=
  ⟨rfl, rfl, rfl, fun _ => rfl, fun _ => rfl⟩

/-- A status that a Sorrel is given. -/
theorem onDie_putStatus (s : State) (d a st : Nat) : s.KeepsLead (s.onDie d fun u => u.putStatus a st) :=
  setSorrel s d _

theorem unhold (s : State) (what key : Nat) : s.KeepsLead (s.unhold what key) := by
  refine foldl (fun s d => ?_) _ s
  dsimp only
  split
  · exact setSorrel s d _
  · exact refl s

theorem abandonLoads (s : State) (d : Nat) : s.KeepsLead (s.abandonLoads d) := by
  refine foldl (fun s c => foldl (fun s x => ?_) _ s) _ s
  split
  · split
    · exact ((setSlotOf s _ _ _).trans (onDie_putStatus _ _ _ _)).trans (unhold _ _ _)
    · exact refl s
  · exact refl s

theorem replay (s : State) (c q : Nat) : s.KeepsLead (s.replay c q) := by
  unfold State.replay
  dsimp only
  split
  · exact refl s
  · split
    · split
      · exact setQueue s c q _
      · exact ⟨rfl, rfl, rfl, fun _ => rfl, fun _ => rfl⟩
    · exact setQueue s c q _

theorem replayAll (s : State) : s.KeepsLead s.replayAll :=
  foldl (fun s (c : Nat × Ctx) => foldl (fun s (q : Nat × Queue) => replay s c.1 q.1) c.2.queues s) s.ctxs s

end State.KeepsLead

/-! ### Renewing -/

theorem State.leader_eq_some_iff {s : State} {d : Nat} :
    s.leader = some d ↔ s.hub.lease = some d ∧ (s.die d).sorrel.halted = false := by
  simp [State.leader, Option.filter_eq_some_iff]

theorem leaseRenew_by_leader {s : State} {d : Nat} (h : s.leader = some d) :
    exec (.leaseRenew d) s = .next { s with hub := { s.hub with leaseLeft := 1000000 } } :=
  congrArg Host.Outcome.next (if_pos h)

theorem leaseRenew_by_other {s : State} {d : Nat} (h : s.leader ≠ some d) : exec (.leaseRenew d) s = .next s :=
  congrArg Host.Outcome.next (if_neg h)

/-! ### Lapsing -/

/-- The lease stands while its holder runs and has renewed it in time. -/
theorem State.leaseGone_eq_false_iff {s : State} :
    s.leaseGone = false ↔ ∃ d, s.hub.lease = some d ∧ s.hub.leaseLeft ≠ 0 ∧ (s.die d).state = 5 := by
  unfold State.leaseGone
  split
  next h => simp [h]
  next d h => simp [h, State.mayLead]

/-- A lease that no die holds, whose time has run out, or whose holder does not run, has lapsed. -/
theorem State.leaseGone_of_lapsed {s : State}
    (h : s.hub.lease = none ∨ s.hub.leaseLeft = 0 ∨ ∃ e, s.hub.lease = some e ∧ ¬ (s.die e).state = 5) : s.leaseGone = true := by
  by_contra hstands
  obtain ⟨d, hd, hleft, hrun⟩ := State.leaseGone_eq_false_iff.mp (Bool.eq_false_iff.mpr hstands)
  rcases h with hnone | hzero | ⟨e, he, hdown⟩
  · simp [hnone] at hd
  · exact hleft hzero
  · obtain rfl : d = e := Option.some.inj (hd.symm.trans he)
    exact hdown hrun

/-- The package once nobody holds the lease: the old holder's loads are abandoned. -/
def State.leaseDropped (s : State) : State :=
  match s.hub.lease with
  | some d => ({ s with hub := { s.hub with lease := none, leaseLeft := 0 } } : State).abandonLoads d
  | none => s

/-- Die d takes the lease, and its semaphores 1 to 3 tell its Sorrel to look at everything (15_queue.md R326, R334). -/
def State.leaseTaken (s : State) (d : Nat) : State :=
  let u := { s with hub := { s.hub with lease := some d, leaseLeft := leaseNs } }
  let u := u.setDie d { s.die d with sem := tset (tset (tset (s.die d).sem 1 1) 2 1) 3 1 }
  if (s.die d).sorrel.halted then u else u.replayAll

/-- The die that a lapsed lease goes to. -/
def State.nextLeader (s : State) : Option Nat := (List.range 3).find? fun d => s.mayLead d && s.hub.lease != some d

theorem State.leaseDropped_tiles (s : State) : s.leaseDropped.tiles = s.tiles := by
  unfold State.leaseDropped
  split
  · exact (State.KeepsLead.abandonLoads _ _).tiles
  · rfl

theorem State.leaseDropped_lease (s : State) : s.leaseDropped.hub.lease = none := by
  unfold State.leaseDropped
  split
  next d _ => exact (State.KeepsLead.abandonLoads _ _).lease
  next h => exact h

theorem State.leaseDropped_state (s : State) (d : Nat) : (s.leaseDropped.die d).state = (s.die d).state := by
  unfold State.leaseDropped
  split
  · exact (State.KeepsLead.abandonLoads _ _).state d
  · rfl

theorem leaseLapse_stands {s : State} (h : s.leaseGone = false) : exec .leaseLapse s = .next s := by
  show execLeaseLapse s = _
  simp [execLeaseLapse, h]

/-- A lapse drops the lease, and the next leader takes it where there is one. -/
theorem leaseLapse_gone {s : State} (h : s.leaseGone = true) :
    exec .leaseLapse s = .next (s.nextLeader.elim s.leaseDropped s.leaseDropped.leaseTaken) := by
  have hmay : ∀ d, s.leaseDropped.mayLead d = s.mayLead d := fun d => by simp [State.mayLead, State.leaseDropped_state]
  have hnext : [0, 1, 2].find? (fun d => s.leaseDropped.mayLead d && s.hub.lease != some d) = s.nextLeader := by
    simp only [hmay]
    rfl
  show execLeaseLapse s = _
  simp only [execLeaseLapse, h, Bool.not_true, Bool.false_eq_true, if_false]
  change Host.Outcome.next (match [0, 1, 2].find? (fun d => s.leaseDropped.mayLead d && s.hub.lease != some d) with
    | none => s.leaseDropped
    | some d => s.leaseDropped.leaseTaken d) = _
  rw [hnext]
  cases s.nextLeader <;> rfl

/-- The lowest-numbered Running die, other than the one that held the lease, takes it. -/
theorem State.nextLeader_eq_some {s : State} {d : Nat} (hd : d < 3) (hrun : (s.die d).state = 5) (hnew : s.hub.lease ≠ some d)
    (hleast : ∀ e, e < d → ¬ (s.die e).state = 5 ∨ s.hub.lease = some e) : s.nextLeader = some d := by
  refine List.find?_range_eq_some.mpr ⟨by simp [State.mayLead, hrun, hnew], List.mem_range.mpr hd, fun e he => ?_⟩
  rcases hleast e he with h | h <;> simp [State.mayLead, h]

theorem State.nextLeader_eq_none {s : State} (h : ∀ e, e < 3 → ¬ (s.die e).state = 5 ∨ s.hub.lease = some e) :
    s.nextLeader = none := by
  refine List.find?_range_eq_none.mpr fun e he => ?_
  rcases h e he with h | h <;> simp [State.mayLead, h]

/-- The new leader holds the lease for 1 ms, with its semaphores 1 to 3 at 1; no tile has changed. -/
theorem State.leaseTaken_spec (s : State) (d : Nat) :
    (s.leaseTaken d).hub.lease = some d ∧ (s.leaseTaken d).hub.leaseLeft = 1000000
      ∧ ((s.leaseTaken d).die d).sem = tset (tset (tset (s.die d).sem 1 1) 2 1) 3 1 ∧ (s.leaseTaken d).tiles = s.tiles := by
  unfold State.leaseTaken
  dsimp only
  split
  · exact ⟨rfl, rfl, by rw [State.die_setDie_self], rfl⟩
  · obtain ⟨htiles, hlease, hleft, -, hsem⟩ := State.KeepsLead.replayAll
      (({ s with hub := { s.hub with lease := some d, leaseLeft := leaseNs } } : State).setDie d
        { s.die d with sem := tset (tset (tset (s.die d).sem 1 1) 2 1) 3 1 })
    exact ⟨hlease, hleft, by rw [hsem, State.die_setDie_self], htiles⟩

/-! ### The step period (14_group.md R320) -/

/-- The smallest of the values from 16 to 64 that members request, 64 when there is none. -/
def leastPeriod (ms : List Nat) : Nat := (ms.filter fun m => 16 ≤ m && m ≤ 64).foldl min 64

theorem stepPeriodChange_sets (ms : List Nat) (s : State) :
    exec (.stepPeriodChange ms) s = .next { s with hub := { s.hub with stepm := leastPeriod ms } } := rfl

theorem leastPeriod_spec (ms : List Nat) :
    (leastPeriod ms = 64 ∨ (leastPeriod ms ∈ ms ∧ 16 ≤ leastPeriod ms)) ∧ leastPeriod ms ≤ 64
      ∧ ∀ m ∈ ms, 16 ≤ m → m ≤ 64 → leastPeriod ms ≤ m := by
  obtain ⟨hmem, hle⟩ := List.min?_eq_some_iff.mp (List.min?_cons' : (64 :: ms.filter fun m => 16 ≤ m && m ≤ 64).min? = some (leastPeriod ms))
  refine ⟨?_, hle 64 (by simp), fun m hm h16 h64 => hle m (by simp [hm, h16, h64])⟩
  rcases List.mem_cons.mp hmem with h | h
  · exact .inl h
  · simp only [List.mem_filter, Bool.and_eq_true, decide_eq_true_eq] at h
    exact .inr ⟨h.1, h.2.1⟩

end Sys2Proof.Machine
end

section
/-! The statements of 01_architecture.md: reset (O7), power-on and telemetry (O56), the lease and the power cap (O57). -/

namespace Sys2Proof.Proofs

open Sys2Proof Sys2Proof.Machine

/-- Settles O7: every table of the reset state is empty, so each part reads its default, and each default is the stated reset value. -/
theorem resetValues : Obligations.ResetValues := by
  unfold Obligations.ResetValues
  refine ⟨rfl, rfl, rfl, rfl, rfl, rfl, fun _ => rfl, fun _ => rfl, fun _ => ⟨rfl, rfl⟩,
    fun _ _ => ⟨rfl, rfl, by rw [Queue.half_of_unwritten rfl rfl]⟩, fun _ => ⟨rfl, rfl, rfl, rfl⟩, fun _ => rfl,
    fun _ _ => ⟨rfl, rfl⟩, ?registers, fun _ => ⟨rfl, fun _ => rfl⟩, ?canonical, ?tile, ?sorrel,
    fun _ => ⟨fun _ => rfl, rfl, fun _ => rfl⟩, rfl, fun _ => rfl, rfl, fun _ => ⟨rfl, rfl, rfl, rfl, rfl⟩, rfl, rfl, rfl,
    fun _ => ⟨rfl, rfl, rfl, rfl, fun _ => rfl⟩⟩
  case registers => exact fun _ n => ⟨Core.s_of_unwritten rfl n, Core.qv_of_unwritten rfl n, Core.cap_of_unwritten rfl n, rfl, rfl⟩
  case canonical => exact ⟨rfl, rfl, fun _ => ⟨rfl, rfl, rfl⟩, fun _ => rfl, fun _ => rfl, fun _ => rfl⟩
  case tile =>
    exact fun _ => ⟨rfl, rfl, rfl, rfl, rfl, rfl, rfl, rfl, rfl, Tile.mask_of_unwritten rfl,
      fun _ => ⟨rfl, rfl, rfl, rfl, rfl, rfl, rfl, rfl, rfl⟩, rfl, rfl, rfl, rfl, fun _ => ⟨rfl, rfl⟩, rfl⟩
  case sorrel =>
    exact fun _ => ⟨rfl, rfl, rfl, rfl, rfl,
      fun n => ⟨Core.s_of_unwritten rfl n, Core.qv_of_unwritten rfl n, Core.cap_of_unwritten rfl n, rfl, rfl, rfl⟩,
      fun _ => rfl, rfl, rfl, rfl, rfl⟩

/-- Settles O56, event by event: a power-on writes only the frame tables over its fresh package, so the hub, the dies and the other parts
are read off that package, and the frame tables from the writes. -/
theorem telemetryEvents : Obligations.TelemetryEvents := by
  unfold Obligations.TelemetryEvents
  intro s t m off len v
  refine ⟨?powerOn, ?flashWrite, ?sample, rfl, rfl, rfl, fun hv => snap_without_bit hv s, ?snap, ?mctpSnap, ?hostIdle, ?mgmtIdle, ?hostDone,
    ?mgmtDone, ?badWrite, ?badWidth, ?read, ?write, ?unanswered, ?answered⟩
  case powerOn =>
    have hrest := s.withTables_onlyDram
    refine ⟨s.poweredOn, exec_powerOn s, hrest.powered, hrest.tiles, hrest.regions, hrest.ctxs, hrest.links, ?_⟩
    rw [s.poweredOn_hub]
    refine ⟨rfl, hrest.hostMem, rfl, rfl, fun d hd => ⟨by rw [s.poweredOn_die hd], by rw [s.poweredOn_die hd], s.poweredOn_ft hd⟩,
      ?none, ?one, ?two⟩
    case none =>
      intro h0 h1
      simp [State.coldStart, State.loadedBank, newerBank, h0, h1, tset]
    case one =>
      intro b h0 h1
      simp [State.coldStart, State.loadedBank, newerBank_none_right, h0, h1]
    case two =>
      intro b c h0 h1
      rw [State.coldStart, State.loadedBank, h0, h1, newerBank_some]
      split <;> exact ⟨rfl, rfl⟩
  case flashWrite =>
    have h := telemetryFlashWrite_banks s
    rwa [State.tel_records s (by decide), tget_tset_self] at h
  case sample =>
    refine ⟨_, telemetrySample_one t m s, rfl, fun b hb => ?_, fun b hb => ?_⟩
    · simp only [tget_sample_temp s t m hb, tempBin_eq_iff t hb]
    · simp only [tget_sample_droop, droopBin_eq_iff m hb]
  case snap =>
    intro hv
    obtain ⟨n, hn, hexec⟩ := snap_requests hv s
    exact ⟨_, hexec, rfl, fun h => by rw [Snapshot.request_busy h], fun h => ⟨n, hn, by rw [Snapshot.request_idle h]⟩⟩
  case mctpSnap =>
    obtain ⟨n, hn, hexec⟩ := mctpSnapshotRequest_requests s
    exact ⟨_, hexec, rfl, fun h => by rw [Snapshot.request_busy h], fun h => ⟨n, hn, by rw [Snapshot.request_idle h]⟩⟩
  case hostIdle => exact fun h => by rw [snapshotComplete_host, Snapshot.complete_idle h]
  case mgmtIdle => exact fun h => by rw [snapshotComplete_mgmt, Snapshot.complete_idle h]
  case hostDone => exact fun h => by rw [snapshotComplete_host, Snapshot.complete_busy h]
  case mgmtDone => exact fun h => by rw [snapshotComplete_mgmt, Snapshot.complete_busy h]
  case badWrite => exact fun h => telemetryUnsupportedAccess_refused (by rwa [winOk_write]) s
  case badWidth => exact fun h4 h8 => telemetryUnsupportedAccess_refused (by simp [winOk_read, h4, h8]) s
  case read => exact fun hlen halign hend => telemetryUnsupportedAccess_allowed ((winOk_read off len).mpr ⟨hlen, halign, hend⟩) s
  case write => exact fun h => telemetryUnsupportedAccess_allowed ((winOk_write off len).mpr h) s
  case unanswered => exact fun h => mctpTelemetryRead_unanswered (by omega) s
  case answered => exact fun h4 h64 halign hend => mctpTelemetryRead_answered ⟨h4, h64, halign, hend⟩ s

/-- Settles O57: dropping the lease changes no die's state, so the next leader is found in the state before the lapse, and examining every
control block afterwards leaves the lease and the semaphores as they were set. -/
theorem leaseAndPowerEvents : Obligations.LeaseAndPowerEvents := by
  unfold Obligations.LeaseAndPowerEvents
  intro s d v ms
  refine ⟨?notLeader, fun h hrun => leaseRenew_by_leader (State.leader_eq_some_iff.mpr ⟨h, hrun⟩),
    fun h hleft hrun => leaseLapse_stands (State.leaseGone_eq_false_iff.mpr ⟨d, h, hleft, hrun⟩), ?taken, ?dropped, rfl, ?period⟩
  case notLeader =>
    refine fun h => leaseRenew_by_other fun hlead => ?_
    obtain ⟨hlease, hrun⟩ := State.leader_eq_some_iff.mp hlead
    rcases h with h | h
    · exact h hlease
    · simp [hrun] at h
  case taken =>
    intro hd hrun hleast hnew hgone
    obtain ⟨hlease, hleft, hsem, htiles⟩ := s.leaseDropped.leaseTaken_spec d
    refine ⟨s.leaseDropped.leaseTaken d, ?_, hlease, hleft, ?_, ?_, ?_, htiles.trans s.leaseDropped_tiles⟩
    · rw [leaseLapse_gone (State.leaseGone_of_lapsed hgone), State.nextLeader_eq_some hd hrun hnew hleast]
      rfl
    all_goals simp [hsem, tget_tset]
  case dropped =>
    rintro hnobody ⟨e, he, hlapsed⟩
    have hgone : s.leaseGone = true := State.leaseGone_of_lapsed (.inr (hlapsed.imp id fun h => ⟨e, he, h⟩))
    refine ⟨s.leaseDropped, ?_, s.leaseDropped_lease, s.leaseDropped_tiles⟩
    rw [leaseLapse_gone hgone, State.nextLeader_eq_none hnobody]
    rfl
  case period =>
    obtain ⟨hfrom, h64, hleast⟩ := leastPeriod_spec ms
    exact ⟨_, stepPeriodChange_sets ms s, rfl, hleast, hfrom.imp id And.left, by dsimp only; omega, h64⟩

end Sys2Proof.Proofs
end

section
/-! SUPPORT. Which task of the agenda runs a word (03_tile.md R55 to R61): the front end of a tile, the head of a queue, a Sorrel's front
end, an input. -/

namespace Sys2Proof.Machine

/-! ### The queues of a tile -/

/-- A queue reads back what was last put in it. -/
theorem Tile.queue_setQueue_self (t : Tile) (q : Nat) (l : List QEntry) : (t.setQueue q l).queue q = l := by
  by_cases h1 : q = 1
  · simp [Tile.queue, Tile.setQueue, h1]
  · by_cases h2 : q = 2 <;> simp [Tile.queue, Tile.setQueue, h1, h2]

/-! ### The front end of a tile -/

/-- The words at the PC of tile k decode to an instruction that its front end may take: no cause of `smap.adj` waits, the word stands where a word of
its length may, the tile is in no handler, and a system word is one of a tile that finds the tile drained (R57, R102). -/
structure State.ready (s : State) (k : Nat) (i : Instr) (w0 w1 : Nat) : Prop where
  adj : (s.rgnOf k).adj = []
  words : s.wordsAt (.tile k) (s.tile k).core.pc = some (w0, w1)
  decodes : decode w0 w1 = .ok i
  aligned : isTwoWord w0 = true → (s.tile k).core.pc / 8 % 2 = 0
  noHandler : (s.tile k).core.trap.hnd = false
  system : clsOf w0 = 7 → opcOf w0 < 2 ∧ (s.tile k).drained = true

/-- A word that passes the checks of R102 is executed by the front end, or goes to its queue. -/
theorem State.front_of_ready {s : State} {k : Nat} {i : Instr} {w0 w1 : Nat} (h : s.ready k i w0 w1) :
    s.front k = if queueOf w0 ≠ 0 then queueAct s (s.tile k) i w0 w1 else .run i w0 w1 := by
  have hplace : (isTwoWord w0 && (s.tile k).core.pc / 8 % 2 == 1) = false := by
    cases htwo : isTwoWord w0 with
    | false => rfl
    | true => simp [h.aligned htwo]
  have hpriv : ¬ (clsOf w0 = 7 ∧ 2 ≤ opcOf w0) := fun hc => absurd (h.system hc.1).1 (by omega)
  have hhold : ¬ (clsOf w0 = 7 ∧ (s.tile k).drained = false) := fun hc => by simp [(h.system hc.1).2] at hc
  simp only [State.front, h.adj, List.find?_nil, h.words, h.decodes, hplace, h.noHandler, hpriv, hhold, Bool.false_and,
    Bool.false_eq_true, true_and, if_false]

/-- A queued word whose predicate has no poison goes on to its queue when that has room (R58, R59, R186). -/
theorem queueAct_room {s : State} {t : Tile} {i : Instr} {w0 : Nat} (w1 : Nat) (hpred : (t.core.qv (hdrOf w0).pred.toNat).2 = false)
    (hroom : (t.queue (queueOf w0)).length < 16) (hfwd : fwdWait s t i = none) : queueAct s t i w0 w1 = .queue i w0 w1 := by
  simp [queueAct, hpred, hroom, hfwd]

section
variable {s : State} {k : Nat} (hrun : s.runs k = true) (hwait : (s.tile k).core.stepw = none) (hon : (s.tile k).feOff = false)
include hrun

theorem State.trapped_of_runs : (s.tile k).trapped = false := by
  simp only [State.runs, Bool.and_eq_true, Bool.not_eq_true'] at hrun
  obtain ⟨⟨⟨⟨-, htrapped⟩, -⟩, -⟩, -⟩ := hrun
  exact htrapped

include hwait hon

/-- The first slot of a running tile whose front end handles a word now executes it. -/
theorem State.feTurn_run {i : Instr} {w0 w1 : Nat} (hfront : s.front k = .run i w0 w1) : s.feTurn k false = exec i (s.handle k w0 w1) := by
  simp [State.feTurn, execStepwRelease, hwait, andThen, State.fetchTile, hrun, Tile.idleFe, State.trapped_of_runs hrun, hon, hfront]

/-- Or it puts it in its queue. -/
theorem State.feTurn_queue {i : Instr} {w0 w1 : Nat} (hfront : s.front k = .queue i w0 w1) :
    s.feTurn k false = .next (s.dispatch k i w0 w1) := by
  simp [State.feTurn, execStepwRelease, hwait, andThen, State.fetchTile, hrun, Tile.idleFe, State.trapped_of_runs hrun, hon, hfront]

end

/-- A word that enters its queue stands last in it, with the registers of its dispatch (R58). -/
theorem State.dispatch_queue (s : State) (k : Nat) (i : Instr) (w0 w1 : Nat) :
    ∃ e, ((s.dispatch k i w0 w1).tile k).queue (queueOf w0) = (s.tile k).queue (queueOf w0) ++ [e] ∧ e.instr = i
      ∧ e.pc = (s.tile k).core.pc ∧ e.pred = ((s.tile k).core.qv (hdrOf w0).pred.toNat).1 ∧ e.snap = (s.tile k).core := by
  refine ⟨⟨i, (s.tile k).core.pc, w0, w1, (s.tile k).seqno, (s.tile k).now + 1, ((s.tile k).core.qv (hdrOf w0).pred.toNat).1,
    (s.tile k).core⟩, ?_, rfl, rfl, rfl, rfl⟩
  simp only [State.dispatch, State.tile_setTile_self]
  exact Tile.queue_setQueue_self _ _ _

/-! ### The head of a queue -/

theorem State.issueOf_head {s : State} {k q : Nat} {e : QEntry} (hrun : s.runs k = true) (hissue : (s.tile k).canIssue q = true)
    (hhead : ((s.tile k).queue q).head? = some e) : s.issueOf k q = exec e.instr (s.atEntry k q e) := by
  simp [State.issueOf, hrun, hissue, hhead]

/-! ### A Sorrel's front end -/

/-- A Sorrel that handles a word now runs what it decodes: a word that resets a die in the first place of the cycle, any other in the last
(R10). -/
theorem State.fetchSorrel_decoded {s : State} {d : Nat} {i : Instr} {w0 w1 : Nat} (hstate : (s.die d).state = 5)
    (hhalt : (s.die d).sorrel.halted = false) (hhold : (s.die d).sorrel.hold = none) (hwin : (s.die d).sorrel.win = [])
    (hwords : s.wordsAt (.sorrel d) (s.die d).sorrel.pc = some (w0, w1)) (hdec : decode w0 w1 = .ok i) (first : Bool) :
    s.fetchSorrel d first = if resetsDie i != first then .next s
      else exec i ((if first then { s with agenda := s.agenda.erase (.fetch true d false) } else s).atWord (.sorrel d) (s.die d).sorrel.pc
        w0 w1 0) := by
  simp [State.fetchSorrel, State.frontS, hstate, hhalt, hhold, hwin, hwords, hdec]

/-! ### Inputs -/

/-- The input at the head comes first when none whose time has come stands before it in R10's order. -/
theorem Input.first_eq_self {s : State} {i : Input} {l : List Input} (h : ∀ x ∈ l, x.delay = 0 → i.rank s ≤ x.rank s) : i.first s l = i := by
  have hdue : ∀ x ∈ l.takeWhile fun x => x.delay == 0, i.rank s ≤ x.rank s := fun x hx =>
    h x (List.takeWhile_subset _ hx) (by simpa using List.mem_takeWhile_imp hx)
  unfold Input.first
  revert hdue
  induction l.takeWhile fun x => x.delay == 0 with
  | nil => exact fun _ => rfl
  | cons x m ih =>
    intro hdue
    obtain ⟨hx, hm⟩ := List.forall_mem_cons.mp hdue
    rw [List.foldl_cons, if_neg (by omega)]
    exact ih hm

/-- Between two cycles the input whose turn it is is applied, and it is an input no more. -/
theorem State.between_first {s : State} {i : Input} {l : List Input} (hin : s.inputs = i :: l) (hnow : i.delay = 0)
    (h : ∀ x ∈ l, x.delay = 0 → i.rank s ≤ x.rank s) : s.between = i.apply { s with inputs := l } := by
  simp [State.between, hin, hnow, Input.first_eq_self h]

end Sys2Proof.Machine
end

section
/-! SUPPORT. What a word does under a false and under a poisoned predicate (03_tile.md R59), by the shape of its word: of a tile's front end,
of a Sorrel's, of a queue. -/

namespace Sys2Proof.Machine

section
variable {p : BitVec 4} {s : State}

/-- A `call` or `ret` for which no scalar write is pending is a word like any other (R117). -/
theorem callWord_ready (h : s.scalarWaits = false) (body : State → FRes) : callWord p s body = feWord p s body := by
  simp [callWord, h]

/-- A supervisor word runs on a Sorrel as a front-end word (R100). -/
theorem svWord_eq_feWord {d : Nat} (h : s.bySorrel d) (body : State → FRes) : svWord p s body = feWord p s body := by
  simp [svWord, feWord, State.onSorrel_sorrel h]

/-- A semaphore word without token bits runs on a Sorrel as a front-end word (R225). -/
theorem syncWord_eq_feWord {d : Nat} (h : s.bySorrel d) {hd : Hdr} (hp : hd.pred = p)
    (hbare : (hd.popl, hd.popr, hd.pshl, hd.pshr) = (false, false, false, false)) (onTile : State → QRes) (onSorrel : State → FRes) :
    syncWord hd s onTile onSorrel = feWord p s onSorrel := by
  simp only [Prod.mk.injEq] at hbare
  obtain ⟨hpopl, hpopr, hpshl, hpshr⟩ := hbare
  simp [syncWord, feWord, State.onSorrel_sorrel h, hpopl, hpopr, hpshl, hpshr, hp]

end

/-- Each instruction of a list is a front-end word under predicate p. -/
def State.runsInFront (s : State) (p : BitVec 4) (l : List Instr) : Prop := ∀ i ∈ l, ∃ body, exec i s = feWord p s body

theorem State.runsInFront_nil (s : State) (p : BitVec 4) : s.runsInFront p [] := by simp [State.runsInFront]

theorem State.runsInFront_cons {s : State} {p : BitVec 4} {i : Instr} {l : List Instr} :
    s.runsInFront p (i :: l) ↔ (∃ body, exec i s = feWord p s body) ∧ s.runsInFront p l := List.forall_mem_cons

theorem State.runsInFront.under_false {s : State} {p : BitVec 4} {l : List Instr} (h : s.runsInFront p l)
    (hq : s.core.qv p.toNat = (false, false)) : ∀ i ∈ l, exec i s = .next (s.setPc (s.cur.pc + 8)) := by
  intro i hi
  obtain ⟨body, hbody⟩ := h i hi
  rw [hbody, feWord_false hq]

theorem State.runsInFront.under_poison {s : State} {p : BitVec 4} {l : List Instr} (h : s.runsInFront p l)
    (hq : (s.core.qv p.toNat).2 = true) : ∀ i ∈ l, exec i s = .next (s.take { cause := cPOISBR, val := p.toNat }) := by
  intro i hi
  obtain ⟨body, hbody⟩ := h i hi
  rw [hbody, feWord_poison hq]

/-- The state with the word being issued one of tile k that was taken under a false predicate. -/
def State.underFalse (s : State) (k : Nat) : State := { s with cur := { s.cur with agent := .tile k, pred := false } }

theorem State.underFalse_eq {s : State} {k : Nat} (hs : s.byTile k) (hp : s.cur.pred = false) : s.underFalse k = s := by
  have hcur : ({ s.cur with agent := .tile k, pred := false } : Cur) = s.cur := by rw [← hs, ← hp]
  rw [State.underFalse, hcur]

end Sys2Proof.Machine
end

section
/-! SUPPORT. The frame of a front-end word: reading a register after writing one (03_tile.md R65, R67), and what a new front end of a tile or a
Sorrel leaves as it was. -/

namespace Sys2Proof.Machine

/-- Of two writes of one key the second stands. -/
@[simp] theorem tset_tset_self {α : Type} (t : Tab α) (k : Nat) (v w : α) : tset (tset t k v) k w = tset t k w := by
  induction t with
  | nil => simp [tset]
  | cons x t ih =>
    obtain ⟨k', v'⟩ := x
    by_cases hlt : k < k'
    · simp [tset, hlt]
    · by_cases heq : k = k'
      · simp [tset, heq]
      · simp [tset, hlt, heq, ih]

@[simp] theorem State.setTile_setTile_self (s : State) (k : Nat) (x y : Tile) : (s.setTile k x).setTile k y = s.setTile k y := by
  simp [State.setTile]

@[simp] theorem State.setDie_setDie_self (s : State) (k : Nat) (x y : Die) : (s.setDie k x).setDie k y = s.setDie k y := by
  simp [State.setDie]

/-! ### Registers -/

/-- Two names of scalar registers name one physical register only when they are the same (R67). -/
theorem Core.phys_eq_iff (c : Core) {m n : Nat} (hm : m < 64) (hn : n < 64) : c.phys m = c.phys n ↔ m = n := by
  refine ⟨fun h => ?_, congrArg _⟩
  unfold Core.phys at h
  split at h <;> split at h <;> omega

theorem Core.s_setS (c : Core) {d n : Nat} (x : Scal) (hd : d < 64) (hn : n < 64) :
    (c.setS d x).s n = if n = d ∧ d ≠ 0 then x else c.s n := by
  by_cases h0 : d = 0
  · simp [Core.setS, h0]
  · by_cases hn0 : n = 0
    · simp [Core.s, hn0, Ne.symm h0]
    · have hphys : ∀ m, (c.setS d x).phys m = c.phys m := fun m => by simp [Core.setS, h0, Core.phys]
      simp only [Core.s, hn0, if_false, hphys]
      simp [Core.setS, h0, tget_tset, Core.phys_eq_iff c hn hd]

theorem Core.setS_frame (c : Core) (d : Nat) (x : Scal) :
    (c.setS d x).q = c.q ∧ (c.setS d x).c = c.c ∧ (c.setS d x).trap = c.trap ∧ (c.setS d x).loops = c.loops := by
  unfold Core.setS
  split <;> exact ⟨rfl, rfl, rfl, rfl⟩

theorem Core.qv_setQ (c : Core) (d n : Nat) (x y : Bool) :
    (c.setQ d x y).qv n = if n = d ∧ d ≠ 0 then (x, y) else c.qv n := by
  by_cases h0 : d = 0
  · simp [Core.setQ, h0]
  · by_cases hn0 : n = 0
    · simp [Core.qv, hn0, Ne.symm h0]
    · simp [Core.setQ, Core.qv, h0, hn0, tget_tset]

theorem Core.setQ_frame (c : Core) (d : Nat) (x y : Bool) : (c.setQ d x y).sreg = c.sreg ∧ (c.setQ d x y).c = c.c := by
  unfold Core.setQ
  split <;> exact ⟨rfl, rfl⟩

theorem Core.cap_setCap (c : Core) (d n : Nat) (x : Cap) : (c.setCap d x).cap n = if n = d ∧ d ≠ 0 then x else c.cap n := by
  by_cases h0 : d = 0
  · simp [Core.setCap, h0]
  · by_cases hn0 : n = 0
    · simp [Core.cap, hn0, Ne.symm h0]
    · simp [Core.setCap, Core.cap, h0, hn0, tget_tset]

theorem Core.setCap_frame (c : Core) (d : Nat) (x : Cap) : (c.setCap d x).sreg = c.sreg ∧ (c.setCap d x).q = c.q := by
  unfold Core.setCap
  split <;> exact ⟨rfl, rfl⟩

/-! ### The state outside -/

theorem onlyTile_setTile (s : State) (k : Nat) (x : Tile) : onlyTile k s (s.setTile k x) :=
  ⟨rfl, fun _ hj => s.tile_setTile_ne x hj⟩

/-- A tile whose scratchpad is as it was changes no memory. -/
theorem sameMemory_setTile (s : State) (k : Nat) {x : Tile} (h : x.scr = (s.tile k).scr) : sameMemory s (s.setTile k x) := by
  refine ⟨fun _ => rfl, fun j a => ?_, fun _ _ => rfl, fun _ => rfl, fun _ _ => rfl⟩
  obtain rfl | hj := eq_or_ne j k
  · rw [State.tile_setTile_self, h]
  · rw [s.tile_setTile_ne x hj]

/-- A die whose Sorrel's SRAM is as it was changes no memory. -/
theorem sameMemory_setDie (s : State) (d : Nat) {x : Die} (h : x.sram = (s.die d).sram) : sameMemory s (s.setDie d x) := by
  refine ⟨fun _ => rfl, fun _ _ => rfl, fun _ _ => rfl, fun _ => rfl, fun e a => ?_⟩
  obtain rfl | he := eq_or_ne e d
  · rw [State.die_setDie_self, h]
  · rw [s.die_setDie_ne x he]

theorem State.after_tile {s : State} {k : Nat} (h : s.byTile k) (c : Core) :
    s.after c = s.setTile k { s.tile k with core := { c with pc := (s.cur.pc + 8) % 2 ^ 64 } } := by
  have hcur : (s.setCore c).cur.agent = .tile k := by rwa [State.setCore_cur]
  rw [State.after, State.setPc, State.core_setCore_tile c h, State.setCore_tile _ hcur, State.setCore_tile c h]
  simp

theorem State.after_sorrel {s : State} {d : Nat} (h : s.bySorrel d) (c : Core) :
    s.after c = s.setDie d { s.die d with sorrel := { c with pc := (s.cur.pc + 8) % 2 ^ 64 } } := by
  have hcur : (s.setCore c).cur.agent = .sorrel d := by rwa [State.setCore_cur]
  rw [State.after, State.setPc, State.core_setCore_sorrel c h, State.setCore_sorrel _ hcur, State.setCore_sorrel c h]
  simp

/-! ### The words by what they write -/

/-- A word that goes and answers new registers of its front end leaves those, and the next word follows. -/
theorem feWord_step {p : BitVec 4} {s : State} (h : s.goes p) {body : State → FRes} {c : Core} (hbody : body s = .step (s.setCore c)) :
    feWord p s body = .next (s.after c) := by
  rw [feWord_goes h, hbody, FRes.step_setCore]

/-- A word that goes and answers ILL raises it with the word. -/
theorem feWord_ill {p : BitVec 4} {s : State} (h : s.goes p) {body : State → FRes} (hbody : body s = illHere s) :
    feWord p s body = .next (s.take { cause := cILL, val := s.cur.w0 }) := by
  rw [feWord_goes h, hbody]
  rfl

end Sys2Proof.Machine
end

section
/-! SUPPORT. The issue of a queued word, the write of its result and its token pushes (03_tile.md R61 to R63, R66, R69, R78). -/

namespace Sys2Proof.Machine

/-! ### Issuing -/

theorem Tile.queue_setQueue_ne (t : Tile) {p q : Nat} (l : List QEntry) (hp : 1 ≤ p ∧ p ≤ 3) (hq : 1 ≤ q ∧ q ≤ 3) (h : p ≠ q) :
    (t.setQueue q l).queue p = t.queue p := by
  obtain rfl | rfl | rfl : q = 1 ∨ q = 2 ∨ q = 3 := by omega
  · obtain rfl | rfl : p = 2 ∨ p = 3 := by omega
    all_goals rfl
  · obtain rfl | rfl : p = 1 ∨ p = 3 := by omega
    all_goals rfl
  · obtain rfl | rfl : p = 1 ∨ p = 2 := by omega
    all_goals rfl

/-- Tile t with the tokens of a word of queue q taken (R61). -/
def Tile.popTokens (t : Tile) (h : Hdr) (q : Nat) : Tile :=
  let t := if h.popl then takeTok t (popLeft q) else t
  if h.popr then takeTok t (popRight q) else t

/-- Tile t once the head of queue q, of program-order number seq, has issued. -/
def Tile.headIssued (t : Tile) (h : Hdr) (q seq : Nat) : Tile :=
  let t := (t.popTokens h q).setQueue q (((t.popTokens h q).queue q).drop 1)
  { t with issued := q :: t.issued, ahead := (t.ahead ++ [(seq, q)]).filter fun x => t.oldest seq < x.1 }

theorem issueHead_eq {s : State} {k : Nat} (hs : s.byTile k) (h : Hdr) :
    issueHead h s = s.setTile k ((s.tile k).headIssued h s.cur.q s.cur.seq) := by
  simp only [issueHead, State.setMyTile, State.myTile, State.me_tile hs]
  rfl

theorem Tile.popTokens_frame (t : Tile) (h : Hdr) (q : Nat) : t.popTokens h q = { t with tok := (t.popTokens h q).tok } := by
  cases hl : h.popl <;> cases hr : h.popr <;> simp [Tile.popTokens, hl, hr, takeTok]

theorem Tile.setQueue_frame (t : Tile) (q : Nat) (l : List QEntry) :
    t.setQueue q l = { t with lq := (t.setQueue q l).lq, cq := (t.setQueue q l).cq, sq := (t.setQueue q l).sq } := by
  unfold Tile.setQueue
  split
  · rfl
  · split <;> rfl

/-- The issue of a head changes the queues, the tokens and the record of what has issued, and nothing else of the tile. -/
theorem Tile.headIssued_frame (t : Tile) (h : Hdr) (q seq : Nat) :
    t.headIssued h q seq = { t with
      tok := (t.headIssued h q seq).tok, lq := (t.headIssued h q seq).lq, cq := (t.headIssued h q seq).cq
      sq := (t.headIssued h q seq).sq, issued := (t.headIssued h q seq).issued, ahead := (t.headIssued h q seq).ahead } := by
  rw [Tile.headIssued, Tile.setQueue_frame, Tile.popTokens_frame]

section
variable (t : Tile) (h : Hdr) (q seq : Nat)

@[simp] theorem Tile.headIssued_core : (t.headIssued h q seq).core = t.core := by rw [Tile.headIssued_frame]
@[simp] theorem Tile.headIssued_vreg : (t.headIssued h q seq).vreg = t.vreg := by rw [Tile.headIssued_frame]
@[simp] theorem Tile.headIssued_j : (t.headIssued h q seq).j = t.j := by rw [Tile.headIssued_frame]
@[simp] theorem Tile.headIssued_h : (t.headIssued h q seq).h = t.h := by rw [Tile.headIssued_frame]
@[simp] theorem Tile.headIssued_scr : (t.headIssued h q seq).scr = t.scr := by rw [Tile.headIssued_frame]
@[simp] theorem Tile.headIssued_due : (t.headIssued h q seq).due = t.due := by rw [Tile.headIssued_frame]
@[simp] theorem Tile.headIssued_now : (t.headIssued h q seq).now = t.now := by rw [Tile.headIssued_frame]; rfl

end

theorem Tile.headIssued_tok (t : Tile) (h : Hdr) (q seq : Nat) : (t.headIssued h q seq).tok = (t.popTokens h q).tok := by
  rw [Tile.headIssued, Tile.setQueue_frame]

theorem Tile.headIssued_queue_self (t : Tile) (h : Hdr) (q seq : Nat) : (t.headIssued h q seq).queue q = (t.queue q).drop 1 := by
  have hself := (t.popTokens h q).queue_setQueue_self q (((t.popTokens h q).queue q).drop 1)
  refine hself.trans ?_
  rw [Tile.popTokens_frame]
  rfl

theorem Tile.headIssued_queue_ne (t : Tile) (h : Hdr) {p q : Nat} (seq : Nat) (hp : 1 ≤ p ∧ p ≤ 3) (hq : 1 ≤ q ∧ q ≤ 3) (hne : p ≠ q) :
    (t.headIssued h q seq).queue p = t.queue p := by
  have hother := (t.popTokens h q).queue_setQueue_ne (((t.popTokens h q).queue q).drop 1) hp hq hne
  refine hother.trans ?_
  rw [Tile.popTokens_frame]
  rfl

/-- The tile of a queued word that has issued with a result (R69, R78). -/
theorem State.issued_eq {s : State} {k : Nat} (hs : s.byTile k) (h : Hdr) (lat : Nat) (dst : List Dest) (y : Option (Nat × Nat)) :
    s.issued h lat dst y = s.setTile k { (s.tile k).headIssued h s.cur.q s.cur.seq with
      due := (s.tile k).due ++ [⟨(s.tile k).now + lat - 1, s.cur.seq, s.cur.q, dst, y, h.pshl, h.pshr, none⟩] } := by
  have hme : (s.setTile k ((s.tile k).headIssued h s.cur.q s.cur.seq)).me = k := State.me_tile hs
  rw [State.issued, issueHead_eq hs, putDue]
  simp only [State.setMyTile, State.myTile, hme, State.tile_setTile_self, State.setTile_setTile_self, State.setTile_cur,
    Tile.headIssued_due, Tile.headIssued_now]

/-! ### Writing a result -/

/-- A lane of a merged value is the new one's where the lane is active (R83). -/
theorem Vec.at_merge (old new : Vec) (act : BitVec 64) {n : Nat} (hn : n < 64) :
    (old.merge new act).at n = if activeL act n then new.at n else old.at n := by
  simp [Vec.merge, mkVec, Vec.at, hn]

/-- A result of one vector register is written to it and then to the `y` register of its pipe (R66). -/
theorem Tile.land_vec (t : Tile) {d : Due} {r y : Nat} (hy : d.y = some (y, r)) (v : Vec) (act : BitVec 64) :
    t.land d [.vec r v act] = { t with
      vreg := tset (tset t.vreg r ((t.v r).merge v act)) (0x48 + y) ((t.v r).merge v act)
      pushnow := (t.land d [.vec r v act]).pushnow } := by
  simp [Tile.land, Core.keeps, Tile.writeDest, hy, Tile.v]

/-! ### Pushes -/

/-- The pushes of a list that are for FIFO f. -/
def pushesTo (l : List (Nat × Nat)) (f : Nat) : Nat := (l.filter fun x => x.2 == f).length

theorem pushesTo_append (l m : List (Nat × Nat)) (f : Nat) : pushesTo (l ++ m) f = pushesTo l f + pushesTo m f := by
  simp [pushesTo]

theorem pushesTo_cons (x : Nat × Nat) (l : List (Nat × Nat)) (f : Nat) : pushesTo (x :: l) f = pushesTo [x] f + pushesTo l f :=
  pushesTo_append [x] l f

theorem pushesTo_perm {l m : List (Nat × Nat)} (h : l.Perm m) (f : Nat) : pushesTo l f = pushesTo m f := (h.filter _).length_eq

theorem insPush_perm (p : Nat × Nat) (l : List (Nat × Nat)) : (insPush p l).Perm (p :: l) := by
  induction l with
  | nil => exact .refl _
  | cons q l ih =>
    unfold insPush
    split
    · exact .refl _
    · exact (ih.cons q).trans (.swap p q l)

/-- A list put element by element in another, by an operation that adds each once, adds all of them once. -/
theorem foldl_insert_perm {α : Type} {ins : α → List α → List α} (h : ∀ a l, (ins a l).Perm (a :: l)) (l m : List α) :
    (l.foldl (fun m a => ins a m) m).Perm (m ++ l) := by
  induction l generalizing m with
  | nil => simp
  | cons a l ih => exact (ih _).trans (((h a m).append_right l).trans List.perm_middle.symm)

/-- Push x waits for a reason: its FIFO is full, or a push of another word of its queue waits (R63). -/
def mayWait (tok : Tab Nat) (w : List (Nat × Nat)) (x : Nat × Nat) : Prop :=
  8 ≤ tget 0 tok x.2 ∨ ∃ y ∈ w, pusherOf y.2 = pusherOf x.2 ∧ y.1 ≠ x.1

/-- One push: it waits, or its token is there. -/
theorem pushAll_cons (x : Nat × Nat) (l : List (Nat × Nat)) (tok : Tab Nat) (w : List (Nat × Nat)) :
    (pushAll (x :: l) tok w = pushAll l tok (w ++ [x]) ∧ mayWait tok w x)
      ∨ (pushAll (x :: l) tok w = pushAll l (tset tok x.2 (tget 0 tok x.2 + 1)) w ∧ tget 0 tok x.2 < 8) := by
  simp only [pushAll]
  split
  next h =>
    simp only [Bool.or_eq_true, List.any_eq_true, Bool.and_eq_true, beq_iff_eq, bne_iff_ne, decide_eq_true_eq] at h
    exact .inl ⟨rfl, h.symm⟩
  next h =>
    simp only [Bool.or_eq_true, decide_eq_true_eq, not_or] at h
    exact .inr ⟨rfl, Nat.lt_of_not_le h.2⟩

/-- No push is lost: each one is a token more or waits. -/
theorem pushAll_conserves (l : List (Nat × Nat)) (tok : Tab Nat) (w : List (Nat × Nat)) (f : Nat) :
    tget 0 (pushAll l tok w).1 f + pushesTo (pushAll l tok w).2 f = tget 0 tok f + pushesTo (w ++ l) f := by
  induction l generalizing tok w with
  | nil => simp [pushAll]
  | cons x l ih =>
    rcases pushAll_cons x l tok w with ⟨heq, -⟩ | ⟨heq, -⟩
    · rw [heq, ih, List.append_assoc]
      rfl
    · have hone : pushesTo [x] f = if f = x.2 then 1 else 0 := by
        by_cases h : f = x.2
        · simp [pushesTo, h]
        · simp [pushesTo, h, Ne.symm h]
      rw [heq, ih, tget_tset, pushesTo_append, pushesTo_append, pushesTo_cons x l, hone]
      split
      next h =>
        subst h
        omega
      next => omega

/-- A push that waits at the end has its reason to wait. -/
theorem pushAll_waiting {l : List (Nat × Nat)} {tok : Tab Nat} {w : List (Nat × Nat)} (h : ∀ x ∈ w, mayWait tok w x) :
    ∀ x ∈ (pushAll l tok w).2, mayWait (pushAll l tok w).1 (pushAll l tok w).2 x := by
  induction l generalizing tok w with
  | nil => exact h
  | cons x l ih =>
    rcases pushAll_cons x l tok w with ⟨heq, hx⟩ | ⟨heq, -⟩
    · rw [heq]
      have hmore : ∀ z, mayWait tok w z → mayWait tok (w ++ [x]) z := fun z hz =>
        hz.imp id fun ⟨y, hy, hyz⟩ => ⟨y, List.mem_append_left _ hy, hyz⟩
      refine ih fun z hz => ?_
      rcases List.mem_append.mp hz with hz | hz
      · exact hmore z (h z hz)
      · obtain rfl := List.mem_singleton.mp hz
        exact hmore z hx
    · rw [heq]
      refine ih fun z hz => (h z hz).imp (fun hfull => ?_) id
      rw [tget_tset]
      split
      next heq => rw [← heq]; omega
      next => exact hfull

/-- No FIFO comes to hold more than 8. -/
theorem pushAll_le {l : List (Nat × Nat)} {tok : Tab Nat} {w : List (Nat × Nat)} (h : ∀ f, tget 0 tok f ≤ 8) (f : Nat) :
    tget 0 (pushAll l tok w).1 f ≤ 8 := by
  induction l generalizing tok w with
  | nil => exact h f
  | cons x l ih =>
    rcases pushAll_cons x l tok w with ⟨heq, -⟩ | ⟨heq, hroom⟩
    · rw [heq]
      exact ih h
    · rw [heq]
      refine ih fun g => ?_
      rw [tget_tset]
      split
      next => omega
      next => exact h g

/-- A single push waits exactly when its FIFO is full. -/
theorem pushAll_single (x : Nat × Nat) (tok : Tab Nat) :
    pushAll [x] tok [] = if 8 ≤ tget 0 tok x.2 then (tok, [x]) else (tset tok x.2 (tget 0 tok x.2 + 1), []) := by
  simp [pushAll]

/-- The waiting pushes of a tile and then those of its cycle, in the order in which they are made. -/
def Tile.pushes (t : Tile) : List (Nat × Nat) := t.pushw ++ t.pushnow.foldl (fun l p => insPush p l) []

/-- The tile after the pushes at the end of a cycle. -/
def Tile.pushesMade (t : Tile) : Tile :=
  { t with tok := (pushAll t.pushes t.tok []).1, pushw := (pushAll t.pushes t.tok []).2, pushnow := [] }

theorem tokenPushWaitEnd_eq (s : State) (k : Nat) : exec (.tokenPushWaitEnd k) s = .next (s.setTile k (s.tile k).pushesMade) := rfl

theorem Tile.pushes_perm (t : Tile) : t.pushes.Perm (t.pushw ++ t.pushnow) := (foldl_insert_perm insPush_perm t.pushnow []).append_left t.pushw

theorem Tile.pushesMade_single {t : Tile} {x : Nat × Nat} (h : (t.pushw = [x] ∧ t.pushnow = []) ∨ (t.pushw = [] ∧ t.pushnow = [x])) :
    (tget 0 t.tok x.2 < 8 → tget 0 t.pushesMade.tok x.2 = tget 0 t.tok x.2 + 1 ∧ t.pushesMade.pushw = [])
      ∧ (8 ≤ tget 0 t.tok x.2 → t.pushesMade.tok = t.tok ∧ t.pushesMade.pushw = [x]) := by
  have hpushes : t.pushes = [x] := by
    rcases h with ⟨hw, hnow⟩ | ⟨hw, hnow⟩ <;> simp [Tile.pushes, hw, hnow, insPush]
  refine ⟨fun hroom => ?_, fun hfull => ?_⟩
  · have hnot : ¬ 8 ≤ tget 0 t.tok x.2 := by omega
    simp [Tile.pushesMade, hpushes, pushAll_single, hnot]
  · simp [Tile.pushesMade, hpushes, pushAll_single, hfull]

end Sys2Proof.Machine
end

section
/-! SUPPORT. Loops over the tiles of a region: what every turn keeps stands at the end, and what one turn does to its own tile is what the
loop does to it. -/

namespace Sys2Proof.Machine

/-- What every turn of a loop keeps, the loop keeps. -/
theorem foldl_keeps {σ α β : Type} {f : σ → α → σ} (g : σ → β) (h : ∀ s x, g (f s x) = g s) (l : List α) (s : σ) :
    g (l.foldl f s) = g s := by
  induction l generalizing s with
  | nil => rfl
  | cons x l ih => exact (ih (f s x)).trans (h s x)

/-- A loop of which no turn does anything does nothing. -/
theorem foldl_idle {σ α : Type} {f : σ → α → σ} {s : σ} {l : List α} (h : ∀ x ∈ l, f s x = s) : l.foldl f s = s := by
  induction l with
  | nil => rfl
  | cons x l ih =>
    obtain ⟨hx, hl⟩ := List.forall_mem_cons.mp h
    rw [List.foldl_cons, hx]
    exact ih hl

/-- A loop that rewrites tiles leaves every other tile. -/
theorem State.tile_foldl_setTile_ne {α : Type} {key : α → Nat} {f : α → Tile → Tile} {l : List α} {j : Nat} (s : State)
    (h : ∀ x ∈ l, key x ≠ j) : (l.foldl (fun s x => s.setTile (key x) (f x (s.tile (key x)))) s).tile j = s.tile j := by
  induction l generalizing s with
  | nil => rfl
  | cons x l ih =>
    obtain ⟨hx, hl⟩ := List.forall_mem_cons.mp h
    rw [List.foldl_cons, ih _ hl, State.tile_setTile_ne _ _ (Ne.symm hx)]

/-- A loop that rewrites different tiles gives each the value of its own turn. -/
theorem State.tile_foldl_setTile {α : Type} {key : α → Nat} {f : α → Tile → Tile} {l : List α} {x : α} (s : State)
    (hnodup : (l.map key).Nodup) (hx : x ∈ l) :
    (l.foldl (fun s x => s.setTile (key x) (f x (s.tile (key x)))) s).tile (key x) = f x (s.tile (key x)) := by
  induction l generalizing s with
  | nil => cases hx
  | cons y l ih =>
    obtain ⟨hy, hl⟩ := List.nodup_cons.mp hnodup
    have hne : ∀ z ∈ l, key z ≠ key y := fun z hz heq => hy (heq ▸ List.mem_map_of_mem hz)
    rw [List.foldl_cons]
    rcases List.mem_cons.mp hx with rfl | hx
    · rw [State.tile_foldl_setTile_ne _ hne, State.tile_setTile_self]
    · rw [ih _ hl hx, State.tile_setTile_ne _ _ (hne x hx)]

end Sys2Proof.Machine
end

section
/-! SUPPORT. A column of a region starts (03_tile.md R72, 13_kernel.md R292, 14_group.md R310). -/

namespace Sys2Proof.Machine

/-- A tile at the first word of its stream, with no register written, in cycle 0 of step 0 (R72). -/
structure Tile.fresh (t : Tile) : Prop where
  live : t.live = true
  pc : t.core.pc = 0
  sreg : t.core.sreg = []
  halted : t.core.halted = false
  step : t.step = 0
  cyc : t.cyc = 0

/-- Of the tiles only k may differ, and it is fresh if it was; the regions are as they were. -/
structure State.OnlyFills (k : Nat) (s t : State) : Prop where
  regions : t.regions = s.regions
  others : ∀ j, j ≠ k → t.tile j = s.tile j
  fresh : (s.tile k).fresh → (t.tile k).fresh

namespace State.OnlyFills
variable {k : Nat}

theorem refl (s : State) : OnlyFills k s s := ⟨rfl, fun _ _ => rfl, id⟩

theorem trans {s t u : State} (h : OnlyFills k s t) (g : OnlyFills k t u) : OnlyFills k s u :=
  ⟨g.regions.trans h.regions, fun j hj => (g.others j hj).trans (h.others j hj), g.fresh ∘ h.fresh⟩

theorem foldl {α : Type} {f : State → α → State} (hf : ∀ s x, OnlyFills k s (f s x)) (l : List α) (s : State) :
    OnlyFills k s (l.foldl f s) := by
  induction l generalizing s with
  | nil => exact refl s
  | cons x l ih => exact (hf s x).trans (ih (f s x))

theorem setTile (s : State) {x : Tile} (h : (s.tile k).fresh → x.fresh) : OnlyFills k s (s.setTile k x) :=
  ⟨rfl, fun _ hj => s.tile_setTile_ne x hj, fun hk => by rw [State.tile_setTile_self]; exact h hk⟩

theorem wr_pool (s : State) (c a : Nat) (bs : List Byte) : OnlyFills k s (s.wr (.pool c) a bs) := ⟨rfl, fun _ _ => rfl, id⟩

theorem poolInit (s : State) (c off : Nat) (bs : List Byte) (given : List (Nat × Nat)) : OnlyFills k s (s.poolInit c off bs given) := by
  unfold State.poolInit
  split
  · exact wr_pool s c off bs
  · refine foldl (fun s x => ?_) _ s
    split
    · exact refl s
    · exact wr_pool s c _ _

/-- A record of the initial data fills the tile's scratchpad, its cluster's pool or its semaphores (R291). -/
theorem applyInit (given : List (Nat × Nat)) (s : State) (r : InitRec) : OnlyFills k s (s.applyInit k given r) := by
  unfold State.applyInit
  split
  · exact setTile s fun h => ⟨h.live, h.pc, h.sreg, h.halted, h.step, h.cyc⟩
  · split
    · exact poolInit s _ _ _ _
    · refine foldl (fun s i => ?_) _ s
      split
      · exact refl s
      · exact setTile s fun h => ⟨h.live, h.pc, h.sreg, h.halted, h.step, h.cyc⟩

end State.OnlyFills

theorem launchTile_fresh (s : State) (t : Tile) (R : Region) : (launchTile s t R).fresh := ⟨rfl, rfl, rfl, rfl, rfl, rfl⟩

theorem Tile.fresh_setCounts {α : Type} (p : α → Nat) (l : List α) {t : Tile} (h : t.fresh) :
    (l.foldl (fun t e => t.setCount (p e) 0) t).fresh := by
  induction l generalizing t with
  | nil => exact h
  | cons e l ih => exact ih ⟨h.live, h.pc, h.sreg, h.halted, h.step, h.cyc⟩

/-- A tile that starts is fresh; no other tile and no region changes. -/
theorem State.startTile_spec (r : Nat) (s : State) (k : Nat) :
    ((s.startTile r k).tile k).fresh ∧ (∀ j, j ≠ k → (s.startTile r k).tile j = s.tile j) ∧ (s.startTile r k).regions = s.regions := by
  unfold State.startTile
  extract_lets R t t' s' recs x y p1 p2
  have hfresh : t'.fresh := Tile.fresh_setCounts (fun e : Nat × SMapE => e.2.phys) _ (launchTile_fresh s (s.tile k) R)
  have hfill : State.OnlyFills k s' _ := State.OnlyFills.foldl (.applyInit (overData recs R.w t'.tix)) (p1 ++ p2) s'
  exact ⟨hfill.fresh (by rw [State.tile_setTile_self]; exact hfresh), fun j hj => (hfill.others j hj).trans (s.tile_setTile_ne _ hj),
    hfill.regions⟩

/-- Starting tiles makes each of them fresh. -/
theorem State.startTiles_fresh (r : Nat) {l : List Nat} {k : Nat} (s : State) (h : k ∈ l ∨ (s.tile k).fresh) :
    ((l.foldl (State.startTile r) s).tile k).fresh := by
  induction l generalizing s with
  | nil => simpa using h
  | cons x l ih =>
    obtain ⟨hself, hothers, -⟩ := State.startTile_spec r s x
    refine ih _ ?_
    by_cases hx : k = x
    · exact .inr (hx ▸ hself)
    · rw [hothers k hx]
      exact h.imp (fun hmem => (List.mem_cons.mp hmem).resolve_left hx) id

theorem State.startTiles_others (r : Nat) {l : List Nat} {k : Nat} (s : State) (h : k ∉ l) :
    (l.foldl (State.startTile r) s).tile k = s.tile k := by
  induction l generalizing s with
  | nil => rfl
  | cons x l ih =>
    obtain ⟨hx, hl⟩ := not_or.mp (mt List.mem_cons.mpr h)
    obtain ⟨-, hothers, -⟩ := State.startTile_spec r s x
    exact (ih _ hl).trans (hothers k hx)

theorem State.startTiles_regions (r : Nat) (l : List Nat) (s : State) : (l.foldl (State.startTile r) s).regions = s.regions :=
  foldl_keeps State.regions (fun s k => (State.startTile_spec r s k).2.2) l s

/-- The tiles of column `col` of region rg that start with it. -/
def State.columnTiles (s : State) (rg col : Nat) : List Nat :=
  (s.region rg).tiles.filter fun k => (s.tile k).rgn == rg && (s.tile k).tix % (s.region rg).w == col

/-- The state once a column has started; after the last one the region runs. -/
def State.columnStarted (s : State) (rg col : Nat) : State :=
  let u := (s.columnTiles rg col).foldl (State.startTile rg) s
  if col + 1 = (s.region rg).w then u.setRegion rg { u.region rg with state := 3 } else u

theorem regionColumnStart_not {s : State} {rg col : Nat} (h : (s.region rg).state ≠ 2 ∨ (s.region rg).resume = true
    ∨ (s.region rg).startIn ≠ 0 ∨ (s.region rg).rstep ≠ col ∨ (s.region rg).w ≤ col) : exec (.regionColumnStart rg col) s = .next s :=
  congrArg Host.Outcome.next (if_pos h)

theorem regionColumnStart_starts {s : State} {rg col : Nat} (h : ¬ ((s.region rg).state ≠ 2 ∨ (s.region rg).resume = true
    ∨ (s.region rg).startIn ≠ 0 ∨ (s.region rg).rstep ≠ col ∨ (s.region rg).w ≤ col)) :
    exec (.regionColumnStart rg col) s = .next (s.columnStarted rg col) :=
  congrArg Host.Outcome.next (if_neg h)

theorem State.columnStarted_tile (s : State) (rg col k : Nat) :
    (s.columnStarted rg col).tile k = ((s.columnTiles rg col).foldl (State.startTile rg) s).tile k := by
  unfold State.columnStarted
  dsimp only
  split <;> rfl

theorem State.columnStarted_state (s : State) (rg col : Nat) :
    ((s.columnStarted rg col).region rg).state = if col + 1 = (s.region rg).w then 3 else (s.region rg).state := by
  unfold State.columnStarted
  dsimp only
  split
  · rw [State.region_setRegion_self]
  · rw [State.region, State.startTiles_regions]
    rfl

end Sys2Proof.Machine
end

section
/-! SUPPORT. The close of a region step (14_group.md R310): what is applied at a close leaves the step of every tile and of every region as it
was, so that the next step begins from there. -/

namespace Sys2Proof.Machine

/-- No tile has gone to another step or stopped, and no region has counted a step. -/
structure State.KeepsSteps (s t : State) : Prop where
  step : ∀ k, (t.tile k).step = (s.tile k).step
  live : ∀ k, (t.tile k).live = (s.tile k).live
  rstep : ∀ r, (t.region r).rstep = (s.region r).rstep
  xsteps : ∀ r, (t.region r).xsteps = (s.region r).xsteps

namespace State.KeepsSteps

theorem of_eq {s t : State} (ht : t.tiles = s.tiles) (hr : t.regions = s.regions) : s.KeepsSteps t := by
  have htile : ∀ k, t.tile k = s.tile k := fun k => by rw [State.tile, ht]; rfl
  have hregion : ∀ r, t.region r = s.region r := fun r => by rw [State.region, hr]; rfl
  exact ⟨fun k => by rw [htile], fun k => by rw [htile], fun r => by rw [hregion], fun r => by rw [hregion]⟩

theorem refl (s : State) : s.KeepsSteps s := of_eq rfl rfl

theorem trans {s t u : State} (h : s.KeepsSteps t) (g : t.KeepsSteps u) : s.KeepsSteps u :=
  ⟨fun k => (g.step k).trans (h.step k), fun k => (g.live k).trans (h.live k), fun r => (g.rstep r).trans (h.rstep r),
    fun r => (g.xsteps r).trans (h.xsteps r)⟩

theorem foldl_mem {α : Type} {f : State → α → State} {l : List α} (hf : ∀ x ∈ l, ∀ s : State, s.KeepsSteps (f s x)) (s : State) :
    s.KeepsSteps (l.foldl f s) := by
  induction l generalizing s with
  | nil => exact refl s
  | cons x l ih =>
    obtain ⟨hx, hl⟩ := List.forall_mem_cons.mp hf
    exact (hx s).trans (ih hl (f s x))

theorem foldl {α : Type} {f : State → α → State} (hf : ∀ (s : State) (x : α), s.KeepsSteps (f s x)) (l : List α) (s : State) :
    s.KeepsSteps (l.foldl f s) :=
  foldl_mem (fun x _ s => hf s x) s

theorem setTile (s : State) (k : Nat) {x : Tile} (hstep : x.step = (s.tile k).step) (hlive : x.live = (s.tile k).live) :
    s.KeepsSteps (s.setTile k x) := by
  have hsame {β : Type} (g : Tile → β) (hg : g x = g (s.tile k)) (j : Nat) : g ((s.setTile k x).tile j) = g (s.tile j) := by
    obtain rfl | hj := eq_or_ne j k
    · rw [State.tile_setTile_self, hg]
    · rw [State.tile_setTile_ne _ _ hj]
  exact ⟨hsame Tile.step hstep, hsame Tile.live hlive, fun _ => rfl, fun _ => rfl⟩

theorem setRegion (s : State) (r : Nat) {x : Region} (hstep : x.rstep = (s.region r).rstep) (hx : x.xsteps = (s.region r).xsteps) :
    s.KeepsSteps (s.setRegion r x) := by
  have hsame {β : Type} (g : Region → β) (hg : g x = g (s.region r)) (j : Nat) : g ((s.setRegion r x).region j) = g (s.region j) := by
    obtain rfl | hj := eq_or_ne j r
    · rw [State.region_setRegion_self, hg]
    · rw [State.region_setRegion_ne _ _ hj]
  exact ⟨fun _ => rfl, fun _ => rfl, hsame Region.rstep hstep, hsame Region.xsteps hx⟩

theorem devWr (s : State) (a : Nat) (bs : List Byte) : s.KeepsSteps (s.devWr a bs) := by
  unfold State.devWr
  split
  · exact refl s
  · exact of_eq rfl rfl

theorem setCtx (s : State) (c : Nat) (x : Ctx) : s.KeepsSteps (s.setCtx c x) := of_eq rfl rfl

theorem logEntry (s : State) (o : OrgAt) (kind id cnt : Nat) : s.KeepsSteps (s.logEntry o kind id cnt) := by
  unfold State.logEntry
  dsimp only
  split
  · exact refl s
  · split
    · exact setCtx s _ _
    · exact (devWr s _ _).trans (setCtx _ _ _)

theorem newOrigin (s : State) (o : OrgAt) (kind : Nat) : s.KeepsSteps (s.newOrigin o kind).1 :=
  ((setTile s o.tile (by rfl) (by rfl)).trans (setRegion _ _ (by rfl) (by rfl))).trans (logEntry _ o kind _ 0)

theorem numberPeer (s : State) (k seq : Nat) : s.KeepsSteps (s.numberPeer k seq) := by
  unfold State.numberPeer
  split
  · exact refl s
  · exact (setTile s k (by rfl) (by rfl)).trans (foldl (fun s kind => newOrigin s _ kind) _ _)

/-- The arrivals of a command at a peer: its origins are numbered. -/
theorem applyArr_peer (u : Nat) (s : State) {a : Arrival} (h : a.space = 3) : s.KeepsSteps (s.applyArr u a) := by
  rw [State.applyArr, if_pos h]
  exact (numberPeer s _ _).trans (of_eq rfl rfl)

theorem closeBarriers (s : State) (r u : Nat) : s.KeepsSteps (s.closeBarriers r u) :=
  (setRegion s r (by rfl) (by rfl)).trans (foldl (fun _ _ => of_eq (by rfl) (by rfl)) _ _)

theorem countBlocked (s : State) (k : Nat) : s.KeepsSteps (s.countBlocked k) := setTile s k rfl rfl

theorem finish (s : State) (what key : Nat) (put : Nat → Nat) : s.KeepsSteps (s.finish what key put) := by
  refine foldl (fun s d => ?_) _ s
  dsimp only
  split <;> exact of_eq rfl rfl

theorem latch (s : State) (r : Nat) : s.KeepsSteps (s.latch r) := by
  unfold State.latch
  dsimp only
  split
  · exact refl s
  · exact (setRegion s r (by rfl) (by rfl)).trans (finish _ _ _ _)

end State.KeepsSteps

theorem insArr_perm (a : Arrival) (l : List Arrival) : (insArr a l).Perm (a :: l) := by
  induction l with
  | nil => exact .refl _
  | cons b l ih =>
    unfold insArr
    split
    · exact (ih.cons b).trans (.swap a b l)
    · exact .refl _

theorem inOrder_perm (l : List Arrival) : (inOrder l).Perm l := foldl_insert_perm insArr_perm l []

theorem State.peerArrs_space (s : State) (r u : Nat) : ∀ a ∈ s.peerArrs r u, a.space = 3 := by
  intro a ha
  obtain ⟨x, -, rfl⟩ := List.mem_map.mp ha
  rfl

/-- With no arrival in at a port of the package, a close applies those of its commands at peers. -/
theorem State.KeepsSteps.applyDue {s : State} (h : s.arrivals = []) (r u : Nat) : s.KeepsSteps (s.applyDue r u) := by
  unfold State.applyDue
  simp only [h, List.filter_nil, List.nil_append]
  refine ((of_eq (by rfl) (by rfl)).trans (foldl_mem (fun a ha v => applyArr_peer u v ?_) _)).trans
    (foldl (fun s k => setTile s k (by rfl) (by rfl)) _ _)
  exact s.peerArrs_space r u a ((inOrder_perm _).mem_iff.mp ha)

/-- The state of a close before the next step begins. -/
def State.closed (s : State) (r : Nat) : State :=
  (((s.tilesOf r).foldl State.countBlocked ((s.applyDue r (s.region r).rstep).closeBarriers r (s.region r).rstep))).latch r

/-- The state in which each of the tiles has begun its next step. -/
def State.nextSteps (s : State) (ks : List Nat) : State := ks.foldl (fun s k => s.setTile k (s.tile k).nextStep) s

theorem State.KeepsSteps.closed {s : State} (h : s.arrivals = []) (r : Nat) : s.KeepsSteps (s.closed r) :=
  (((applyDue h r _).trans (closeBarriers _ _ _)).trans (foldl countBlocked _ _)).trans (latch _ _)

theorem State.nextSteps_regions (s : State) (ks : List Nat) : (s.nextSteps ks).regions = s.regions :=
  foldl_keeps State.regions (fun s k => s.setTile_regions k _) ks s

theorem State.nextSteps_tile {ks : List Nat} (s : State) (h : ks.Nodup) {k : Nat} (hk : k ∈ ks) :
    (s.nextSteps ks).tile k = (s.tile k).nextStep :=
  State.tile_foldl_setTile (key := id) (f := fun _ => Tile.nextStep) s (by rwa [List.map_id]) hk

/-- The state after a step close. -/
def State.stepClosed (s : State) (r : Nat) : State :=
  let u := (s.closed r).nextSteps (s.tilesOf r)
  u.setRegion r { u.region r with mid := false, rstep := (u.region r).rstep + 1, xsteps := (u.region r).xsteps + 1 }

section
variable {s : State} {rg : Nat}

theorem regionStepClose_waits (h : (s.region rg).mid = false ∨ (∃ k ∈ s.tilesOf rg, (s.tile k).atClose = false)
    ∨ s.lateAw rg (s.region rg).rstep = true) : exec (.regionStepClose rg) s = .next s := by
  refine congrArg Host.Outcome.next (if_pos ?_)
  simp only [Bool.or_eq_true, Bool.not_eq_true', List.all_eq_false, Bool.not_eq_true]
  exact or_assoc.mpr h

theorem regionStepClose_closes (hmid : (s.region rg).mid = true) (hrun : ∀ k ∈ s.tilesOf rg, (s.tile k).atClose = true)
    (hin : s.lateAw rg (s.region rg).rstep = false) : exec (.regionStepClose rg) s = .next (s.stepClosed rg) := by
  refine congrArg Host.Outcome.next (if_neg ?_)
  simp only [Bool.or_eq_true, Bool.not_eq_true', List.all_eq_false, Bool.not_eq_true, not_or]
  exact ⟨⟨by simp [hmid], fun ⟨k, hk, hnot⟩ => by simp [hrun k hk] at hnot⟩, by simp [hin]⟩

theorem State.stepClosed_region (harr : s.arrivals = []) :
    ((s.stepClosed rg).region rg).rstep = (s.region rg).rstep + 1 ∧ ((s.stepClosed rg).region rg).xsteps = (s.region rg).xsteps + 1
      ∧ ((s.stepClosed rg).region rg).mid = false := by
  have hclosed := State.KeepsSteps.closed harr rg
  have hregion : ((s.closed rg).nextSteps (s.tilesOf rg)).region rg = (s.closed rg).region rg := by
    rw [State.region, State.nextSteps_regions]
    rfl
  rw [State.stepClosed]
  dsimp only
  rw [State.region_setRegion_self, hregion]
  exact ⟨congrArg (· + 1) (hclosed.rstep rg), congrArg (· + 1) (hclosed.xsteps rg), rfl⟩

theorem State.stepClosed_tile (harr : s.arrivals = []) (hnodup : (s.tilesOf rg).Nodup) {k : Nat} (hk : k ∈ s.tilesOf rg)
    (hlive : (s.tile k).live = true) : ((s.stepClosed rg).tile k).step = (s.tile k).step + 1 ∧ ((s.stepClosed rg).tile k).cyc = 0 := by
  have hclosed := State.KeepsSteps.closed harr rg
  have htile : (s.stepClosed rg).tile k = ((s.closed rg).tile k).nextStep := State.nextSteps_tile _ hnodup hk
  have hrun : ((s.closed rg).tile k).live = true := (hclosed.live k).trans hlive
  rw [htile, Tile.nextStep, if_pos hrun]
  exact ⟨congrArg (· + 1) (hclosed.step k), rfl⟩

end

end Sys2Proof.Machine
end

section
/-! SUPPORT. A region freezes, is saved and resumes (14_group.md R312, R315, R317). -/

namespace Sys2Proof.Machine

/-! ### Freezing and saving -/

/-- A tile with no access under way has none to flush. -/
theorem State.flushAcc_idle {s : State} {k : Nat} (h : (s.tile k).dacc = []) (sel : DAcc → Bool) : s.flushAcc k sel = s := by
  simp [State.flushAcc, h]

theorem State.landStores_idle {s : State} {r : Nat} (h : ∀ k ∈ s.tilesOf r, (s.tile k).dacc = []) : s.landStores r = s :=
  foldl_idle fun k hk => State.flushAcc_idle (h k hk) _

theorem Tile.setSlot_live (t : Tile) (b : Nat) (m : Memory) : (t.setSlot b m).live = t.live := by
  unfold Tile.setSlot
  split <;> rfl

/-- A tile that has been saved runs no more, and neither does one that had stopped before. -/
theorem State.saveTile_live {base b k j : Nat} {s : State} (h : j = k ∨ (s.tile j).live = false) :
    ((s.saveTile base b k).tile j).live = false := by
  unfold State.saveTile
  by_cases hj : j = k
  · subst hj
    rw [State.tile_setTile_self, Tile.setSlot_live]
  · rw [State.tile_setTile_ne _ _ hj]
    exact h.resolve_left hj

theorem State.saveTiles_live {base b : Nat} {l : List Nat} {j : Nat} {s : State} (h : j ∈ l ∨ (s.tile j).live = false) :
    ((l.foldl (State.saveTile base b) s).tile j).live = false := by
  induction l generalizing s with
  | nil => simpa using h
  | cons k l ih =>
    refine ih ?_
    by_cases hj : j = k
    · exact .inr (State.saveTile_live (.inl hj))
    · exact h.imp (fun hmem => (List.mem_cons.mp hmem).resolve_left hj) fun hlive => State.saveTile_live (.inr hlive)

section
variable {s : State} {rg : Nat}

theorem regionFreeze_mid (h : (s.region rg).mid = true) : exec (.regionFreeze rg) s = .next s :=
  congrArg Host.Outcome.next (if_pos h)

theorem regionFreeze_held (hmid : (s.region rg).mid = false) (hreq : (s.region rg).holdReq = true) :
    exec (.regionFreeze rg) s = .next (if s.shownState (s.region rg) ≠ 3 then s else
      (s.setRegion rg { s.region rg with state := 6, hold := true, holdReq := false, frozen := true }).finish 3 rg (statusIn 0)) := by
  show execRegionFreeze rg s = _
  simp only [execRegionFreeze, hmid, hreq, Bool.false_eq_true, if_false, if_true]

theorem regionFreeze_stays (hmid : (s.region rg).mid = false) (hreq : (s.region rg).holdReq = false)
    (h : s.shownState (s.region rg) ≠ 5 ∨ s.drainedRegion rg = false) : exec (.regionFreeze rg) s = .next s := by
  have hnot : ¬ (s.shownState (s.region rg) = 5 ∧ s.drainedRegion rg = true) := by
    rintro ⟨hfive, hdrained⟩
    rcases h with h | h
    · exact h hfive
    · simp [h] at hdrained
  show execRegionFreeze rg s = _
  simp only [execRegionFreeze, hmid, hreq, hnot, Bool.false_eq_true, if_false]

/-- The schedule step from which the tiles that resume count (R315). -/
def State.saveBase (s : State) (rg : Nat) : Nat :=
  (((s.tilesOf rg).filter fun k => !(s.tile k).ended).map fun k => (s.tile k).bstep).foldl min (2 ^ 64)

/-- The state with every tile of the region saved. -/
def State.savedTiles (s : State) (rg : Nat) : State :=
  (s.tilesOf rg).foldl (State.saveTile (s.saveBase rg) (s.region rg).bank) s

theorem regionFreeze_saves (hmid : (s.region rg).mid = false) (hreq : (s.region rg).holdReq = false)
    (hstate : s.shownState (s.region rg) = 5) (hdrained : s.drainedRegion rg = true) (hidle : ∀ k ∈ s.tilesOf rg, (s.tile k).dacc = [])
    (hwire : (s.region rg).stall.up = false) :
    exec (.regionFreeze rg) s = .next ((s.savedTiles rg).setRegion rg
      { (s.savedTiles rg).region rg with state := 6, frozen := true, rbase := s.saveBase rg }) := by
  have hnone : (s.tilesOf rg).any (fun k => !(s.tile k).dacc.isEmpty) = false :=
    List.any_eq_false.mpr fun k hk => by simp [hidle k hk]
  show execRegionFreeze rg s = _
  simp only [execRegionFreeze, hmid, hreq, hstate, hdrained, State.landStores_idle hidle, hnone, hwire, Bool.false_eq_true, if_false,
    and_self, if_true, Bool.or_self]
  rfl

theorem regionSaveComplete_saved (hstate : (s.region rg).state = 6) (hhold : (s.region rg).hold = false) :
    exec (.regionSaveComplete rg) s = .next (s.setRegion rg { s.region rg with state := 7, preq := false }) :=
  congrArg Host.Outcome.next (if_neg (by simp [hstate, hhold]))

theorem regionSaveComplete_not (h : (s.region rg).state ≠ 6 ∨ (s.region rg).hold = true) : exec (.regionSaveComplete rg) s = .next s :=
  congrArg Host.Outcome.next (if_pos h)

/-! ### Resuming -/

theorem regionResumeStart_not (h : (s.region rg).state ≠ 2 ∨ (s.region rg).resume = false ∨ (s.region rg).startIn ≠ 0) :
    exec (.regionResumeStart rg) s = .next s :=
  congrArg Host.Outcome.next (if_pos h)

/-- With every tile live the region runs. -/
theorem regionResumeStart_all (hstate : (s.region rg).state = 2) (hresume : (s.region rg).resume = true)
    (hstart : (s.region rg).startIn = 0) (hlive : ∀ k ∈ s.tilesOf rg, (s.tile k).live = true) :
    exec (.regionResumeStart rg) s = .next (s.setRegion rg { s.region rg with state := 3, resume := false }) := by
  have hgo : ((s.tilesOf rg).filter fun k => !(s.tile k).live && !bitN (slotF ((s.tile k).slot (s.region rg).bank) 0x6440 8) 0
      && slotF ((s.tile k).slot (s.region rg).bank) 0x6430 8 / 2 ^ 8 + (s.region rg).rbase == (s.region rg).rstep) = [] :=
    List.filter_eq_nil_iff.mpr fun k hk => by simp [hlive k hk]
  have hall : (s.tilesOf rg).all (fun k => (s.tile k).live || bitN (slotF ((s.tile k).slot (s.region rg).bank) 0x6440 8) 0) = true :=
    List.all_eq_true.mpr fun k hk => by simp [hlive k hk]
  show execRegionResumeStart rg s = _
  have hready : ¬ ((s.region rg).state ≠ 2 ∨ (s.region rg).resume = false ∨ (s.region rg).startIn ≠ 0) := by
    simp [hstate, hresume, hstart]
  simp only [execRegionResumeStart, hready, if_false, hgo, List.foldl_nil, hall, if_true]

end

end Sys2Proof.Machine
end

section
/-! SUPPORT. A move of a region completes (14_group.md R318): what it leaves in the dies, in the region's record and in the new tiles. -/

namespace Sys2Proof.Machine

/-! ### What the parts of a move leave alone -/

section
variable (s : State) (r : Nat)

theorem State.unbindBar_tiles (c h : Nat) : (s.unbindBar c h).tiles = s.tiles := by
  unfold State.unbindBar
  split <;> rfl
theorem State.unbindBar_dies (c h : Nat) : (s.unbindBar c h).dies = s.dies := by
  unfold State.unbindBar
  split <;> rfl
theorem State.unbindBar_regions (c h : Nat) : (s.unbindBar c h).regions = s.regions := by
  unfold State.unbindBar
  split <;> rfl

theorem State.carryBars_tiles (src dst : Nat → Nat) : (s.carryBars r src dst).tiles = s.tiles :=
  (foldl_keeps State.tiles (by exact fun _ _ => rfl) _ _).trans (foldl_keeps State.tiles (fun s _ => s.unbindBar_tiles _ _) _ s)
theorem State.carryBars_dies (src dst : Nat → Nat) : (s.carryBars r src dst).dies = s.dies :=
  (foldl_keeps State.dies (by exact fun _ _ => rfl) _ _).trans (foldl_keeps State.dies (fun s _ => s.unbindBar_dies _ _) _ s)
theorem State.carryBars_regions (src dst : Nat → Nat) : (s.carryBars r src dst).regions = s.regions :=
  (foldl_keeps State.regions (by exact fun _ _ => rfl) _ _).trans (foldl_keeps State.regions (fun s _ => s.unbindBar_regions _ _) _ s)

theorem State.dropSlots_dies (b : Nat) (ks : List Nat) : (s.dropSlots b ks).dies = s.dies :=
  foldl_keeps State.dies (fun s k => s.setTile_dies k _) ks s

theorem State.dropTiles_dies (b : Nat) (ks : List Nat) : (s.dropTiles b ks).dies = s.dies :=
  (foldl_keeps State.dies (by exact fun _ _ => rfl) _ _).trans (foldl_keeps State.dies (fun s k => s.setTile_dies k _) ks s)

theorem State.fenceTiles_dies (b : Nat) (ks : List Nat) : (s.fenceTiles r b ks).dies = s.dies :=
  foldl_keeps State.dies (fun s (x : Nat × Nat) => s.setTile_dies x.1 _) _ s
theorem State.fenceTiles_regions (b : Nat) (ks : List Nat) : (s.fenceTiles r b ks).regions = s.regions :=
  foldl_keeps State.regions (fun s (x : Nat × Nat) => s.setTile_regions x.1 _) _ s

theorem State.imageIn_dies (R : Region) (f : Nat) : (s.imageIn R f).dies = s.dies := by
  refine foldl_keeps State.dies (fun s i => ?_) _ s
  exact foldl_keeps State.dies (fun s j => s.setTile_dies _ _) _ _
theorem State.imageIn_regions (R : Region) (f : Nat) : (s.imageIn R f).regions = s.regions := by
  refine foldl_keeps State.regions (fun s i => ?_) _ s
  exact foldl_keeps State.regions (fun s j => s.setTile_regions _ _) _ _

theorem State.moveBack_dies : (s.moveBack r).dies = s.dies :=
  (State.carryBars_dies _ _ _ _).trans ((State.imageIn_dies _ _ _).trans
    (foldl_keeps State.dies (fun s (x : Nat × Nat) => s.setTile_dies x.1 _) _ s))
theorem State.moveBack_regions : (s.moveBack r).regions = s.regions :=
  (State.carryBars_regions _ _ _ _).trans ((State.imageIn_regions _ _ _).trans
    (foldl_keeps State.regions (fun s (x : Nat × Nat) => s.setTile_regions x.1 _) _ s))

end

/-! ### The tiles of the new placement -/

/-- What a tile holds and whose it is: its scratchpad with the tags, and its region. -/
def Tile.holding (t : Tile) : Memory × List Nat × Nat := (t.scr, t.scrTag, t.rgn)

theorem Tile.setSlot_holding (t : Tile) (b : Nat) (m : Memory) : (t.setSlot b m).holding = t.holding := by
  unfold Tile.setSlot
  split <;> rfl

theorem Tile.loadMap_holding (t : Tile) (b : Nat) (m : Memory) : (t.loadMap b m).holding = t.holding := by
  unfold Tile.loadMap
  refine (foldl_keeps Tile.holding (fun t n => ?_) _ _).trans ?_
  · dsimp only
    split <;> rfl
  · dsimp only
    split <;> rfl

theorem Tile.setSmap_rgn (t : Tile) (b : Nat) (m : Tab SMapE) : (t.setSmap b m).rgn = t.rgn := by
  unfold Tile.setSmap
  split <;> rfl

/-- A tile of a placement is its region's. -/
theorem State.fenceTiles_rgn (s : State) (r b : Nat) {ks : List Nat} (hnodup : ks.Nodup) {k : Nat} (hk : k ∈ ks) :
    ((s.fenceTiles r b ks).tile k).rgn = r := by
  have hlen : ks.length ≤ (List.range ks.length).length := by simp
  have hkeys : (ks.zip (List.range ks.length)).map Prod.fst = ks := List.map_fst_zip hlen
  obtain ⟨x, hx, rfl⟩ := List.mem_map.mp (hkeys.symm ▸ hk : k ∈ (ks.zip (List.range ks.length)).map Prod.fst)
  have htile := State.tile_foldl_setTile (key := Prod.fst)
    (f := fun (p : Nat × Nat) (t : Tile) => { t with rgn := r, tix := p.2 }.setSmap b (freshMap b)) s (hkeys.symm ▸ hnodup) hx
  exact (congrArg Tile.rgn htile).trans (Tile.setSmap_rgn _ _ _)

/-- A tile that takes over the scratchpad of tile `old` and the image `m`, both of the place a region leaves for placement `R2`. -/
def Tile.takeOver (t : Tile) (R R2 : Region) (old : Tile) (m : Memory) : Tile :=
  let img := rebaseMap m R.bank R2.bank
  ({ t with scr := old.scr, scrTag := old.scrTag, scrUE := old.scrUE, ended := bitN (slotF img 0x6440 8) 0 }.setSlot R2.bank img).loadMap
    R2.bank img

theorem Tile.takeOver_holding (t : Tile) (R R2 : Region) (old : Tile) (m : Memory) :
    (t.takeOver R R2 old m).holding = (old.scr, old.scrTag, t.rgn) := by
  simp only [Tile.takeOver, Tile.loadMap_holding, Tile.setSlot_holding]
  rfl

/-- The state in which the tiles of the new placement are the region's, and have not taken over what they are to hold. -/
def State.moveFenced (s : State) (r : Nat) (R R2 : Region) : State :=
  let u := s.carryBars r (if R.out then awayPool r else ((s.clustersOf r).getD · 0)) (awayPool r)
  let u := (u.dropSlots R.bank R.tiles).dropTiles R.bank ((u.tilesOf r).filter R.tiles.contains)
  (u.setRegion r R2).fenceTiles r R2.bank R2.tiles

/-- The state in which they have. -/
def State.moveTaken (s : State) (r : Nat) (R R2 : Region) : State :=
  (R2.tiles.zip ((R.tiles.map s.tile).zip (R.tiles.map fun k => (s.tile k).slot R.bank))).foldl
    (fun u x => u.setTile x.1 ((u.tile x.1).takeOver R R2 x.2.1 x.2.2)) (s.moveFenced r R R2)

/-- The state in which the pools have, too. -/
def State.moveFilled (s : State) (r : Nat) (R R2 : Region) : State :=
  let u := s.moveTaken r R R2
  if R.out then u.imageIn R2 R.savef
  else ((u.clustersOf r).zip ((s.clustersOf r).map s.pool)).foldl (fun u x => u.setPool x.1 { x.2 with bar := [] }) u

/-- Last come the barriers. -/
theorem State.moveTo_eq (s : State) (r : Nat) (R R2 : Region) :
    s.moveTo r R R2 = (s.moveFilled r R R2).carryBars r (awayPool r) (((s.moveFilled r R R2).clustersOf r).getD · 0) := rfl

theorem State.moveFenced_dies (s : State) (r : Nat) (R R2 : Region) : (s.moveFenced r R R2).dies = s.dies :=
  (State.fenceTiles_dies _ _ _ _).trans ((State.dropTiles_dies _ _ _).trans ((State.dropSlots_dies _ _ _).trans (State.carryBars_dies _ _ _ _)))

theorem State.moveTaken_dies (s : State) (r : Nat) (R R2 : Region) : (s.moveTaken r R R2).dies = s.dies :=
  (foldl_keeps State.dies (fun u (x : Nat × Tile × Memory) => u.setTile_dies x.1 _) _ _).trans (s.moveFenced_dies r R R2)

theorem State.moveTaken_region (s : State) (r : Nat) (R R2 : Region) : (s.moveTaken r R R2).region r = R2 := by
  have hregions : (s.moveTaken r R R2).regions = tset _ r R2 :=
    (foldl_keeps State.regions (fun u (x : Nat × Tile × Memory) => u.setTile_regions x.1 _) _ _).trans (State.fenceTiles_regions _ _ _ _)
  rw [State.region, hregions, tget_tset_self]

theorem State.moveFilled_dies (s : State) (r : Nat) (R R2 : Region) : (s.moveFilled r R R2).dies = (s.moveTaken r R R2).dies := by
  unfold State.moveFilled
  dsimp only
  split
  · exact State.imageIn_dies _ _ _
  · exact foldl_keeps State.dies (by exact fun _ _ => rfl) _ _

theorem State.moveFilled_regions (s : State) (r : Nat) (R R2 : Region) :
    (s.moveFilled r R R2).regions = (s.moveTaken r R R2).regions := by
  unfold State.moveFilled
  dsimp only
  split
  · exact State.imageIn_regions _ _ _
  · exact foldl_keeps State.regions (by exact fun _ _ => rfl) _ _

theorem State.moveFilled_tiles {s : State} {r : Nat} {R R2 : Region} (h : R.out = false) :
    (s.moveFilled r R R2).tiles = (s.moveTaken r R R2).tiles := by
  simp only [State.moveFilled, h, Bool.false_eq_true, if_false]
  exact foldl_keeps State.tiles (by exact fun _ _ => rfl) _ _

theorem State.moveTo_dies (s : State) (r : Nat) (R R2 : Region) : (s.moveTo r R R2).dies = s.dies := by
  rw [State.moveTo_eq, State.carryBars_dies, State.moveFilled_dies, State.moveTaken_dies]

theorem State.moveTo_region (s : State) (r : Nat) (R R2 : Region) : (s.moveTo r R R2).region r = R2 := by
  rw [State.region, State.moveTo_eq, State.carryBars_regions, State.moveFilled_regions]
  exact s.moveTaken_region r R R2

/-- Each tile of the new placement holds the scratchpad of the tile of the same index in the old one. -/
theorem State.moveTo_tile {s : State} {r : Nat} {R R2 : Region} (hin : R.out = false) (hnodup : R2.tiles.Nodup)
    (hlen : R.tiles.length = R2.tiles.length) {z : Nat × Nat} (hz : z ∈ R.tiles.zip R2.tiles) :
    ((s.moveTo r R R2).tile z.2).holding = ((s.tile z.1).scr, (s.tile z.1).scrTag, r) := by
  have htile : (s.moveTo r R R2).tile z.2 = (s.moveTaken r R R2).tile z.2 := by
    rw [State.tile, State.moveTo_eq, State.carryBars_tiles, State.moveFilled_tiles hin]
    rfl
  have hold : (R.tiles.map s.tile).zip (R.tiles.map fun k => (s.tile k).slot R.bank)
      = R.tiles.map fun k => (s.tile k, (s.tile k).slot R.bank) := List.zip_map' ..
  have hmem : (z.2, s.tile z.1, (s.tile z.1).slot R.bank)
      ∈ R2.tiles.zip ((R.tiles.map s.tile).zip (R.tiles.map fun k => (s.tile k).slot R.bank)) := by
    rw [hold, List.zip_map_right, ← List.zip_swap, List.map_map]
    exact List.mem_map.mpr ⟨z, hz, rfl⟩
  have hkeys : (R2.tiles.zip ((R.tiles.map s.tile).zip (R.tiles.map fun k => (s.tile k).slot R.bank))).map Prod.fst = R2.tiles :=
    List.map_fst_zip (by simp [hlen])
  have htaken := State.tile_foldl_setTile (key := Prod.fst) (f := fun (x : Nat × Tile × Memory) (t : Tile) => t.takeOver R R2 x.2.1 x.2.2)
    (s.moveFenced r R R2) (hkeys.symm ▸ hnodup) hmem
  have hrgn : ((s.moveFenced r R R2).tile z.2).rgn = r := State.fenceTiles_rgn _ r R2.bank hnodup (List.of_mem_zip hz).2
  rw [htile, State.moveTaken]
  refine (congrArg Tile.holding htaken).trans ?_
  rw [Tile.takeOver_holding, hrgn]

/-! ### The end of a move -/

/-- What one turn of `State.finish` does, at die d. -/
def State.finishAt (what key : Nat) (put : Nat → Nat) (s : State) (d : Nat) : State :=
  let c := (s.die d).sorrel
  if c.hold = some (what, key) then
    s.setDie d { s.die d with
      sorrel := { c.setS c.holdA ⟨BitVec.ofNat 64 (put (c.s c.holdA).bits.toNat), false⟩ with hold := none } }
  else s

theorem State.finish_eq (s : State) (what key : Nat) (put : Nat → Nat) :
    s.finish what key put = [0, 1, 2].foldl (State.finishAt what key put) s := rfl

/-- A turn ends the hold of its own die's word only. -/
theorem State.finishAt_hold {s : State} {what key d j : Nat} {put : Nat → Nat} :
    ((s.finishAt what key put d).die j).sorrel.hold =
      if j = d ∧ (s.die d).sorrel.hold = some (what, key) then none else (s.die j).sorrel.hold := by
  unfold State.finishAt
  dsimp only
  by_cases hheld : (s.die d).sorrel.hold = some (what, key)
  · obtain rfl | hj := eq_or_ne j d
    · rw [if_pos hheld, if_pos ⟨rfl, hheld⟩, State.die_setDie_self]
    · rw [if_pos hheld, if_neg (fun h => hj h.1), State.die_setDie_ne _ _ hj]
  · rw [if_neg hheld, if_neg (fun h => hheld h.2)]

/-- A Sorrel that holds its word for a completion goes on when it comes. -/
theorem State.finish_released (s : State) (what key : Nat) (put : Nat → Nat) {d : Nat} (hd : d < 3)
    (h : (s.die d).sorrel.hold = some (what, key)) : ((s.finish what key put).die d).sorrel.hold = none := by
  rw [State.finish_eq]
  simp only [List.foldl_cons, List.foldl_nil, State.finishAt_hold]
  interval_cases d <;> simp [h]

theorem State.finish_tiles (s : State) (what key : Nat) (put : Nat → Nat) : (s.finish what key put).tiles = s.tiles := by
  refine foldl_keeps State.tiles (fun s d => ?_) _ s
  dsimp only
  split <;> rfl

theorem State.finish_regions (s : State) (what key : Nat) (put : Nat → Nat) : (s.finish what key put).regions = s.regions := by
  refine foldl_keeps State.regions (fun s d => ?_) _ s
  dsimp only
  split <;> rfl

theorem State.finish_region (s : State) (what key : Nat) (put : Nat → Nat) (r : Nat) : (s.finish what key put).region r = s.region r := by
  rw [State.region, State.finish_regions]
  rfl

/-- A region's record once a move has completed. -/
def Region.moveDone (R : Region) : Region := { R with state := 7, out := false, savef := 0, move := none }

/-- The move goes to where the region stands, from its save area. -/
def Region.here (R : Region) (x : Nat × Nat × Nat × Nat) : Prop := x.1 = R.rot ∧ x.2.1 = R.ox ∧ x.2.2.1 = R.oy

/-- A move back leaves the region where it stands. -/
theorem State.moveBack_region (s : State) (r : Nat) :
    ((s.moveBack r).setRegion r ((s.moveBack r).region r).moveDone).region r = (s.region r).moveDone := by
  rw [State.region_setRegion_self, State.region, State.moveBack_regions]
  rfl

/-- The region's record at the placement of a move, once that has completed. -/
def Region.movedTo (R : Region) (x : Nat × Nat × Nat × Nat) : Region :=
  { R with rot := x.1, ox := x.2.1, oy := x.2.2.1, bank := x.2.2.2 }.moveDone

theorem Region.length_tiles_movedTo (R : Region) (x : Nat × Nat × Nat × Nat) : (R.movedTo x).tiles.length = R.tiles.length := by
  simp [Region.tiles, Region.movedTo, Region.moveDone]

section
variable {s : State} {rg : Nat} {x : Nat × Nat × Nat × Nat}

theorem regionMoveComplete_not (h : (s.region rg).state ≠ 8 ∨ (s.region rg).move = none) : exec (.regionMoveComplete rg) s = .next s := by
  show execRegionMoveComplete rg s = _
  unfold execRegionMoveComplete
  dsimp only
  split
  next => rfl
  next y hy => rw [if_pos (h.resolve_right (by simp [hy]))]

theorem regionMoveComplete_back (hstate : (s.region rg).state = 8) (hmove : (s.region rg).move = some x)
    (hhere : (s.region rg).here x) : exec (.regionMoveComplete rg) s =
      .next (((s.moveBack rg).setRegion rg ((s.moveBack rg).region rg).moveDone).finish 4 rg (statusIn 0)) := by
  show execRegionMoveComplete rg s = _
  simp only [Region.here] at hhere
  simp only [execRegionMoveComplete, hmove, hstate, hhere, ne_eq, not_true_eq_false, if_false, and_self, if_true]
  rfl

theorem regionMoveComplete_to (hstate : (s.region rg).state = 8) (hmove : (s.region rg).move = some x)
    (hhere : ¬ (s.region rg).here x) : exec (.regionMoveComplete rg) s =
      .next ((s.moveTo rg (s.region rg) ((s.region rg).movedTo x)).finish 4 rg (statusIn 0)) := by
  show execRegionMoveComplete rg s = _
  simp only [Region.here] at hhere
  simp only [execRegionMoveComplete, hmove, hstate, hhere, ne_eq, not_true_eq_false, if_false]
  rfl

end

end Sys2Proof.Machine
end

section
/-! The statements of 03_tile.md: a step (O4), predicates (O8), the frame of front-end words (O9), results and tokens (O26), regions (O49). -/

namespace Sys2Proof.Proofs

open Sys2Proof Sys2Proof.Machine

/-- Settles O4: each task of the agenda is taken by its own lemma, and a running tile's front end by what becomes of the word at its PC. -/
theorem stepRunsTheDecodedInstruction : Obligations.StepRunsTheDecodedInstruction := by
  unfold Obligations.StepRunsTheDecodedInstruction
  intro s k q l i w0 w1 u t D
  have step_task : ∀ {x : Task}, s.agenda = x :: l → step s = runTask x u := fun h => by simp only [step, h]; rfl
  refine ⟨?tile, ?head, ?sorrelLast, ?sorrelFirst, ?input⟩
  case tile =>
    intro hag hrun hwait hon hadj hwords hdec halign hhnd hsys
    have hfront : u.front k = _ := State.front_of_ready ⟨hadj, hwords, hdec, halign, hhnd, hsys⟩
    refine ⟨fun hq => ?_, fun hq hpred hroom hfwd => ⟨?_, u.dispatch_queue k i w0 w1⟩⟩
    · rw [if_neg (not_not.mpr hq)] at hfront
      exact (step_task hag).trans (State.feTurn_run hrun hwait hon hfront)
    · rw [if_pos hq, queueAct_room (t := u.tile k) w1 hpred hroom hfwd] at hfront
      exact (step_task hag).trans (State.feTurn_queue hrun hwait hon hfront)
  case head => exact fun hag hrun hissue e he => (step_task hag).trans (State.issueOf_head hrun hissue he)
  case sorrelLast =>
    intro hag hstate hhalt hhold hwin hwords hdec
    have hword : u.fetchSorrel k false = _ := State.fetchSorrel_decoded (s := u) hstate hhalt hhold hwin hwords hdec false
    refine (step_task hag).trans (hword.trans ?_)
    cases resetsDie i <;> rfl
  case sorrelFirst =>
    intro hag hstate hhalt hhold hwin hwords hdec
    have hword : u.fetchSorrel k true = _ := State.fetchSorrel_decoded (s := u) hstate hhalt hhold hwin hwords hdec true
    refine (step_task hag).trans (hword.trans ?_)
    cases resetsDie i <;> rfl
  case input =>
    intro hag r hin hfirst hout
    have hbetween : step s = s.between := by simp only [step, hag]
    rw [hbetween, State.between_first hin rfl hfirst, Input.apply, if_pos hout]

/-- Settles O8: each listed word is a front-end word of its predicate, whose gate a false or poisoned predicate does not pass; a queued word meets its
predicate before anything it would wait for. -/
theorem falsePredicates : Obligations.FalsePredicates := by
  unfold Obligations.FalsePredicates
  intro p h C S I V X M G F Y Z E s front tile calls queued sorrel counts bare
  have hfront : s.runsInFront p front := by
    simp only [front, State.runsInFront_cons, State.runsInFront_nil, and_true]
    and_intros
    all_goals exact ⟨_, rfl⟩
  have hcalls (hw : s.scalarWaits = false) : s.runsInFront p calls := by
    simp only [calls, State.runsInFront_cons, State.runsInFront_nil, and_true]
    exact ⟨⟨_, callWord_ready hw _⟩, ⟨_, callWord_ready hw _⟩⟩
  have htile (k : Nat) (hs : s.byTile k) : s.runsInFront p tile := by
    simp only [tile, State.runsInFront_cons, State.runsInFront_nil, and_true]
    have hnot : ¬ s.onSorrel = true := by rw [State.onSorrel_tile hs]; decide
    exact ⟨⟨_, if_neg hnot⟩, ⟨_, if_neg hnot⟩⟩
  have hsorrel (d : Nat) (hs : s.bySorrel d) : s.runsInFront p sorrel := by
    have hsv : ∀ i ∈ sorrel, ∃ body, exec i s = svWord p s body := by
      simp only [sorrel, List.forall_mem_cons, List.not_mem_nil, false_implies, implies_true, and_true]
      and_intros
      all_goals exact ⟨_, rfl⟩
    intro i hi
    obtain ⟨body, hbody⟩ := hsv i hi
    exact ⟨body, hbody.trans (svWord_eq_feWord hs body)⟩
  have hcounts (d : Nat) (hs : s.bySorrel d) (hb : bare) : s.runsInFront p counts := by
    simp only [counts, State.runsInFront_cons, State.runsInFront_nil, and_true]
    obtain ⟨hp, htok⟩ := hb
    and_intros
    all_goals exact ⟨_, syncWord_eq_feWord hs hp htok _ _⟩
  have hqueued (k : Nat) : ∀ i ∈ queued, exec i (s.underFalse k) = .next (pushDone h (issueHead h (s.underFalse k))) := by
    simp only [queued, List.forall_mem_cons, List.not_mem_nil, false_implies, implies_true, and_true]
    and_intros
    all_goals rfl
  refine ⟨fun hq => ⟨hfront.under_false hq, fun hw => (hcalls hw).under_false hq, fun k hs => (htile k hs).under_false hq⟩,
    fun hq => ⟨hfront.under_poison hq, fun hw => (hcalls hw).under_poison hq, fun k hs => (htile k hs).under_poison hq⟩,
    fun d hs => ⟨fun hq => ⟨(hsorrel d hs).under_false hq, fun hb => (hcounts d hs hb).under_false hq⟩,
      fun hq => ⟨(hsorrel d hs).under_poison hq, fun hb => (hcounts d hs hb).under_poison hq⟩⟩, fun k hs hp => ?_⟩
  have hall := hqueued k
  rwa [State.underFalse_eq hs hp] at hall

/-- Settles O9: each listed word is one that writes one scalar register, one predicate or one capability register of the front end. -/
theorem frontEndWordsWriteOneRegister : Obligations.FrontEndWordsWriteOneRegister := by
  unfold Obligations.FrontEndWordsWriteOneRegister
  intro p f g s hs c
  refine ⟨?scalar, ?immediate, fun hfree => ?predicate, fun howned => ?owned, ?capability,
    fun d n x hd hn => ⟨c.s_setS x hd hn, c.setS_frame d x⟩, fun d n x y => ⟨c.qv_setQ d n x y, c.setQ_frame d x y⟩,
    fun d n x => ⟨c.cap_setCap d n x, c.setCap_frame d x⟩, fun k c' hk => ?tile, fun d c' hd => ?sorrel⟩
  case scalar =>
    simp only [List.forall_mem_cons, List.not_mem_nil, false_implies, implies_true, and_true]
    and_intros
    all_goals exact ⟨_, feWord_step hs rfl⟩
  case immediate =>
    simp only [List.forall_mem_cons, List.not_mem_nil, false_implies, implies_true, and_true]
    exact ⟨⟨_, feWord_step hs rfl⟩, ⟨_, feWord_step hs rfl⟩, ⟨_, feWord_step hs rfl⟩⟩
  case predicate =>
    have hfree : ¬ s.core.owned f.d.toNat = true := Bool.eq_false_iff.mp hfree
    simp only [List.forall_mem_cons, List.not_mem_nil, false_implies, implies_true, and_true]
    and_intros
    all_goals exact ⟨_, _, feWord_step hs (if_neg hfree)⟩
  case owned =>
    simp only [List.forall_mem_cons, List.not_mem_nil, false_implies, implies_true, and_true]
    and_intros
    all_goals exact feWord_ill hs (if_pos howned)
  case capability =>
    simp only [List.forall_mem_cons, List.not_mem_nil, false_implies, implies_true, and_true]
    exact ⟨⟨_, feWord_step hs rfl⟩, ⟨_, feWord_step hs rfl⟩, ⟨_, feWord_step hs rfl⟩⟩
  case tile =>
    intro t
    have ht : t = s.setTile k _ := State.after_tile hk c'
    rw [ht]
    exact ⟨sameMemory_setTile s k rfl, onlyTile_setTile s k _, State.tile_setTile_self ..⟩
  case sorrel =>
    intro t
    have ht : t = s.setDie d _ := State.after_sorrel hd c'
    rw [ht]
    exact ⟨sameMemory_setDie s d rfl, rfl, fun e he => s.die_setDie_ne _ he, State.die_setDie_self ..⟩

/-- Settles O26: the head that issues changes its own tile's queue, tokens and records only; a result goes to its register and then to `y`; and the
pushes of a cycle are conserved whatever their order, each that stays having found its FIFO full or a push of its queue before it. -/
theorem resultsAndTokens : Obligations.ResultsAndTokens := by
  unfold Obligations.ResultsAndTokens
  refine ⟨?issue, ?write, ?push⟩
  case issue =>
    intro s k h lat dst y hs hq1 hq3 t u
    have hu : u = s.setTile k _ := State.issued_eq hs h lat dst y
    rw [hu, State.tile_setTile_self]
    let n := s.cur.seq
    refine ⟨sameMemory_setTile s k (t.headIssued_scr h _ n), onlyTile_setTile s k _, t.headIssued_core h _ n, t.headIssued_vreg h _ n,
      t.headIssued_j h _ n, t.headIssued_h h _ n, rfl, t.headIssued_queue_self h _ n,
      fun q hq hq' hne => t.headIssued_queue_ne h n ⟨hq, hq'⟩ ⟨hq1, hq3⟩ hne, fun hl hr => ?_, fun hl hr => ?_, fun hl hr => ?_⟩
    all_goals simp [t, Tile.headIssued_tok, Tile.popTokens, takeTok, hl, hr]
  case write =>
    intro t d r v act y hy u
    have hu : u = _ := Tile.land_vec t hy v act
    have hv : ∀ x, u.v x = if x = 0x48 + y then (t.v r).merge v act else if x = r then (t.v r).merge v act else t.v x := fun x => by
      rw [hu]
      simp only [Tile.v, tget_tset]
    refine ⟨fun n hn _ => ?_, fun _ => ?_, fun x hr hy => ?_, ?_⟩
    · rw [hv, if_pos rfl, ite_self, Vec.at_merge _ _ _ hn]
    · rw [hv, hv, if_pos rfl, if_pos rfl, ite_self]
    · rw [hv, if_neg hy, if_neg hr]
    · rw [hu]
      exact ⟨rfl, rfl, rfl⟩
  case push =>
    intro s k t held
    refine ⟨t.pushesMade, tokenPushWaitEnd_eq s k, rfl, rfl, rfl, rfl, rfl, fun f => ?_, pushAll_waiting (by simp), fun h => pushAll_le h,
      fun seq f h => Tile.pushesMade_single h⟩
    have hkept := pushAll_conserves t.pushes t.tok [] f
    rwa [List.nil_append, pushesTo_perm t.pushes_perm] at hkept

/-- Settles O49: each event by the state it leaves. A loop over a region's tiles does to each what one turn does to its own tile; what a step close
applies goes to no other step; and a move leaves the region's record at the new placement, whose tiles take over what the old ones held. -/
theorem regionEvents : Obligations.RegionEvents := by
  unfold Obligations.RegionEvents
  intro s rg col R ks
  refine ⟨regionColumnStart_not, ?column, regionStepClose_waits, fun hmid hnodup hrun hin harr => ?close, regionFreeze_mid,
    fun hmid hreq hstate => ?notRunning, fun hmid hreq hstate => ?held, fun hmid hreq hstate hdrained hidle hwire => ?saves,
    regionFreeze_stays, regionSaveComplete_saved, regionSaveComplete_not, regionResumeStart_not, regionResumeStart_all,
    fun x hstate hmove => ?move, regionMoveComplete_not⟩
  case column =>
    intro hstate hresume hstart hstep hcol hks
    have hready : ¬ (R.state ≠ 2 ∨ R.resume = true ∨ R.startIn ≠ 0 ∨ R.rstep ≠ col ∨ R.w ≤ col) := by
      simp [hstate, hresume, hstart, hstep, hcol]
    have hmem (k : Nat) : k ∈ s.columnTiles rg col ↔ k ∈ ks ∧ (s.tile k).tix % R.w = col := by
      simp only [State.columnTiles, List.mem_filter, Bool.and_eq_true, beq_iff_eq, hks, and_assoc, R]
    refine ⟨_, regionColumnStart_starts hready, ?_, fun k hk hcolumn => ?_, fun k hk => ?_⟩
    · rw [State.columnStarted_state, hstate]
    · rw [State.columnStarted_tile]
      have hfresh := State.startTiles_fresh rg s (.inl ((hmem k).mpr ⟨hk, hcolumn⟩))
      exact ⟨hfresh.live, hfresh.pc, hfresh.sreg, hfresh.halted, hfresh.step, hfresh.cyc⟩
    · rw [State.columnStarted_tile]
      exact State.startTiles_others rg s fun h => hk.elim (· ((hmem k).mp h).1) (· ((hmem k).mp h).2)
  case close =>
    obtain ⟨hrstep, hxsteps, hbetween⟩ := State.stepClosed_region (rg := rg) harr
    exact ⟨_, regionStepClose_closes hmid hrun hin, hrstep, hxsteps, hbetween, fun k hk hlive => State.stepClosed_tile harr hnodup hk hlive⟩
  case notRunning => rw [regionFreeze_held hmid hreq, if_pos hstate]
  case held => rw [regionFreeze_held hmid hreq, if_neg (not_not.mpr hstate)]
  case saves =>
    refine ⟨_, regionFreeze_saves hmid hreq hstate hdrained hidle hwire, ?_, ?_, fun k hk => State.saveTiles_live (.inl hk)⟩
    all_goals rw [State.region_setRegion_self]
  case move =>
    by_cases hhere : R.here x
    · obtain ⟨hrot, hox, hoy⟩ := id hhere
      refine ⟨_, regionMoveComplete_back hstate hmove hhere, ?_, ?_, ?_, ?_, ?_, ?_, fun d hd hhold => ?released,
        fun _ hnot => absurd hhere hnot⟩
      case released =>
        refine State.finish_released _ _ _ _ hd ?_
        rwa [State.die, State.setRegion_dies, State.moveBack_dies]
      all_goals simp only [State.finish_region, State.moveBack_region, hrot, hox, hoy]
      all_goals rfl
    · refine ⟨_, regionMoveComplete_to hstate hmove hhere, ?_, ?_, ?_, ?_, ?_, ?_, fun d hd hhold => ?released,
        fun hin _ hnodup z hz => ?carried⟩
      case released =>
        refine State.finish_released _ _ _ _ hd ?_
        rwa [State.die, State.moveTo_dies]
      case carried =>
        have htile := State.moveTo_tile (s := s) (r := rg) (R2 := R.movedTo x) hin hnodup (R.length_tiles_movedTo x).symm hz
        simp only [Tile.holding, Prod.mk.injEq] at htile
        rw [State.tile, State.finish_tiles]
        exact htile
      all_goals rw [State.finish_region, State.moveTo_region]
      all_goals rfl

end Sys2Proof.Proofs
end

section
/-! SUPPORT. The fields of a word (04_encoding.md R84, R85, R91, R93): its head above bit 48 and its format below, each written back from what
reads it and read back from what writes it. -/

namespace Sys2Proof

/-- A field reads as the bits that stand in its place. -/
theorem fld_eq {w lo n : Nat} {b : BitVec n} (h : w / 2 ^ lo % 2 ^ n = b.toNat) : fld w lo n = b :=
  BitVec.eq_of_toNat_eq (by rw [fld, BitVec.toNat_ofNat, h])

theorem toNat_fld (w lo n : Nat) : (fld w lo n).toNat = w / 2 ^ lo % 2 ^ n := by rw [fld, BitVec.toNat_ofNat]

theorem toNat_fld_zero (w n : Nat) : (fld w 0 n).toNat = w % 2 ^ n := by rw [toNat_fld, Nat.pow_zero, Nat.div_one]

/-- A field and all the bits below it. -/
theorem field_add_below (w lo n : Nat) : w / 2 ^ lo % 2 ^ n * 2 ^ lo + w % 2 ^ lo = w % 2 ^ (lo + n) := by
  rw [Nat.pow_add, Nat.mod_mul, Nat.mul_comm, Nat.add_comm]

/-- A one-bit field reads as the truth value that wrote it. -/
theorem beq_of_bit01 {n : Nat} {b : Bool} (h : n % 2 = bit01 b) : (n % 2 == 1) = b := by
  cases b <;> simp [h, bit01]

theorem bit01_beq (n : Nat) : bit01 (n % 2 == 1) = n % 2 ^ 1 := by
  rcases Nat.mod_two_eq_zero_or_one n with h | h <;> simp [h, bit01]

/-! ### The head: `CLS`, `OPC`, the token bits and the predicate (Table 34) -/

theorem clsOf_lt (w : Nat) : clsOf w < 8 := Nat.mod_lt _ (by decide)

/-- Word w carries no token bits, its head is c, o, p, and its bits [47:0] are x. -/
structure IsFront (w c o : Nat) (p : BitVec 4) (x : Nat) : Prop where
  lt : w < 2 ^ 64
  cls : clsOf w = c
  opc : opcOf w = o
  tok : tokOf w = 0
  pred : predOf w = p
  low : w % 2 ^ 48 = x

/-- The head of word w is c, o, h, and its bits [47:0] are x. -/
structure IsQueued (w c o : Nat) (h : Hdr) (x : Nat) : Prop where
  lt : w < 2 ^ 64
  cls : clsOf w = c
  opc : opcOf w = o
  hdr : hdrOf w = h
  low : w % 2 ^ 48 = x

theorem isFront_encP {c o x : Nat} (p : BitVec 4) (hc : c < 8) (ho : o < 32) (hx : x < 2 ^ 48) : IsFront (encP c o p + x) c o p x := by
  have hpred : predOf (encP c o p + x) = p := fld_eq (by simp only [encP, Nat.reducePow] at *; omega)
  refine ⟨Laws.encP_lt p hc ho hx, ?_, ?_, ?_, hpred, ?_⟩
  all_goals simp only [encP, clsOf, opcOf, tokOf, Nat.reducePow] at *; omega

theorem isQueued_encQ {c o x : Nat} (h : Hdr) (hc : c < 8) (ho : o < 32) (hx : x < 2 ^ 48) : IsQueued (encQ c o h + x) c o h x := by
  have hpopl := Laws.bit01_lt h.popl
  have hpopr := Laws.bit01_lt h.popr
  have hpshl := Laws.bit01_lt h.pshl
  have hpshr := Laws.bit01_lt h.pshr
  have hhdr : hdrOf (encQ c o h + x) = h := by
    rw [hdrOf, Hdr.mk.injEq]
    refine ⟨beq_of_bit01 ?_, beq_of_bit01 ?_, beq_of_bit01 ?_, beq_of_bit01 ?_, fld_eq ?_⟩
    all_goals simp only [encQ, Nat.reducePow] at *; omega
  refine ⟨Laws.encQ_lt h hc ho hx, ?_, ?_, hhdr, ?_⟩
  all_goals simp only [encQ, clsOf, opcOf, Nat.reducePow] at *; omega

/-- A word without token bits is its head and its low bits. -/
theorem encP_head {w : Nat} (hw : w < 2 ^ 64) (ht : tokOf w = 0) : encP (clsOf w) (opcOf w) (predOf w) + w % 2 ^ 48 = w := by
  simp only [encP, clsOf, opcOf, tokOf, predOf, toNat_fld, Nat.reducePow] at *
  omega

/-- A queued word is its head and its low bits. -/
theorem encQ_head {w : Nat} (hw : w < 2 ^ 64) : encQ (clsOf w) (opcOf w) (hdrOf w) + w % 2 ^ 48 = w := by
  simp only [encQ, clsOf, opcOf, hdrOf, predOf, bit01_beq, toNat_fld, Nat.reducePow] at *
  omega

/-! ### The formats (Table 38), written back: a format leaves out none of bits [47:0] -/

theorem encC_fmtC (w : Nat) : encC (fmtC w) = w % 2 ^ 48 := by
  simp only [encC, fmtC, toNat_fld, Nat.pow_zero, Nat.div_one, Nat.add_assoc, field_add_below, Nat.reduceAdd]

theorem encS_fmtS (w : Nat) : encS (fmtS w) = w % 2 ^ 48 := by
  simp only [encS, fmtS, toNat_fld, Nat.pow_zero, Nat.div_one, Nat.add_assoc, field_add_below, Nat.reduceAdd]

theorem encSI_fmtSI (w : Nat) : encSI (fmtSI w) = w % 2 ^ 48 := by
  simp only [encSI, fmtSI, toNat_fld, Nat.pow_zero, Nat.div_one, Nat.add_assoc, field_add_below, Nat.reduceAdd]

theorem encV_fmtV (w : Nat) : encV (fmtV w) = w % 2 ^ 48 := by
  simp only [encV, fmtV, toNat_fld, Nat.pow_zero, Nat.div_one, Nat.add_assoc, field_add_below, Nat.reduceAdd]

theorem encVX_fmtVX (w : Nat) : encVX (fmtVX w) = w % 2 ^ 48 := by
  simp only [encVX, fmtVX, toNat_fld, Nat.pow_zero, Nat.div_one, bit01_beq, Nat.add_assoc, field_add_below, Nat.reduceAdd]

theorem encM_fmtM (w : Nat) : encM (fmtM w) = w % 2 ^ 48 := by
  simp only [encM, fmtM, toNat_fld, Nat.pow_zero, Nat.div_one, Nat.add_assoc, field_add_below, Nat.reduceAdd]

theorem encMG_fmtMG (w : Nat) : encMG (fmtMG w) = w % 2 ^ 48 := by
  simp only [encMG, fmtMG, toNat_fld, Nat.pow_zero, Nat.div_one, Nat.add_assoc, field_add_below, Nat.reduceAdd]

theorem encF_fmtF (w : Nat) : encF (fmtF w) = w % 2 ^ 48 := by
  simp only [encF, fmtF, toNat_fld, Nat.pow_zero, Nat.div_one, Nat.add_assoc, field_add_below, Nat.reduceAdd]

theorem encY_fmtY (w : Nat) : encY (fmtY w) = w % 2 ^ 48 := by
  simp only [encY, fmtY, toNat_fld, Nat.pow_zero, Nat.div_one, Nat.add_assoc, field_add_below, Nat.reduceAdd]

theorem encZ_fmtZ (w : Nat) : encZ (fmtZ w) = w % 2 ^ 48 := by
  simp only [encZ, fmtZ, toNat_fld, Nat.pow_zero, Nat.div_one, Nat.add_assoc, field_add_below, Nat.reduceAdd]

theorem encE_fmtE (w w1 : Nat) : encE (fmtE w w1) = w % 2 ^ 48 := by
  simp only [encE, fmtE, toNat_fld, Nat.pow_zero, Nat.div_one, Nat.add_assoc, field_add_below, Nat.reduceAdd]

theorem toNat_fmtE_w1 (w : Nat) {w1 : Nat} (h : w1 < 2 ^ 64) : (fmtE w w1).w1.toNat = w1 := by
  rw [fmtE, toNat_fld_zero, Nat.mod_eq_of_lt h]

/-! ### The formats, read back -/

section
variable {w : Nat}

theorem fmtC_eq {f : FmtC} (h : w % 2 ^ 48 = encC f) : fmtC w = f := by
  rw [fmtC, FmtC.mk.injEq]
  refine ⟨fld_eq ?_, fld_eq ?_, fld_eq ?_, fld_eq ?_⟩
  all_goals simp only [encC, Nat.reducePow] at *; omega

theorem fmtS_eq {f : FmtS} (h : w % 2 ^ 48 = encS f) : fmtS w = f := by
  rw [fmtS, FmtS.mk.injEq]
  refine ⟨fld_eq ?_, fld_eq ?_, fld_eq ?_, fld_eq ?_, fld_eq ?_, fld_eq ?_, fld_eq ?_⟩
  all_goals simp only [encS, Nat.reducePow] at *; omega

theorem fmtSI_eq {f : FmtSI} (h : w % 2 ^ 48 = encSI f) : fmtSI w = f := by
  rw [fmtSI, FmtSI.mk.injEq]
  refine ⟨fld_eq ?_, fld_eq ?_, fld_eq ?_, fld_eq ?_⟩
  all_goals simp only [encSI, Nat.reducePow] at *; omega

theorem fmtV_eq {f : FmtV} (h : w % 2 ^ 48 = encV f) : fmtV w = f := by
  rw [fmtV, FmtV.mk.injEq]
  refine ⟨fld_eq ?_, fld_eq ?_, fld_eq ?_, fld_eq ?_, fld_eq ?_, fld_eq ?_, fld_eq ?_, fld_eq ?_, fld_eq ?_⟩
  all_goals simp only [encV, Nat.reducePow] at *; omega

theorem fmtVX_eq {f : FmtVX} (h : w % 2 ^ 48 = encVX f) : fmtVX w = f := by
  have hovp := Laws.bit01_lt f.ovp
  rw [fmtVX, FmtVX.mk.injEq]
  refine ⟨fld_eq ?_, fld_eq ?_, fld_eq ?_, fld_eq ?_, beq_of_bit01 ?_, fld_eq ?_, fld_eq ?_, fld_eq ?_, fld_eq ?_, fld_eq ?_, fld_eq ?_⟩
  all_goals simp only [encVX, Nat.reducePow] at *; omega

theorem fmtM_eq {f : FmtM} (h : w % 2 ^ 48 = encM f) : fmtM w = f := by
  rw [fmtM, FmtM.mk.injEq]
  refine ⟨fld_eq ?_, fld_eq ?_, fld_eq ?_, fld_eq ?_, fld_eq ?_, fld_eq ?_, fld_eq ?_⟩
  all_goals simp only [encM, Nat.reducePow] at *; omega

theorem fmtMG_eq {f : FmtMG} (h : w % 2 ^ 48 = encMG f) : fmtMG w = f := by
  rw [fmtMG, FmtMG.mk.injEq]
  refine ⟨fld_eq ?_, fld_eq ?_, fld_eq ?_, fld_eq ?_, fld_eq ?_⟩
  all_goals simp only [encMG, Nat.reducePow] at *; omega

theorem fmtF_eq {f : FmtF} (h : w % 2 ^ 48 = encF f) : fmtF w = f := by
  rw [fmtF, FmtF.mk.injEq]
  refine ⟨fld_eq ?_, fld_eq ?_, fld_eq ?_, fld_eq ?_, fld_eq ?_⟩
  all_goals simp only [encF, Nat.reducePow] at *; omega

theorem fmtY_eq {f : FmtY} (h : w % 2 ^ 48 = encY f) : fmtY w = f := by
  rw [fmtY, FmtY.mk.injEq]
  refine ⟨fld_eq ?_, fld_eq ?_, fld_eq ?_, fld_eq ?_, fld_eq ?_, fld_eq ?_⟩
  all_goals simp only [encY, Nat.reducePow] at *; omega

theorem fmtZ_eq {f : FmtZ} (h : w % 2 ^ 48 = encZ f) : fmtZ w = f := by
  rw [fmtZ, FmtZ.mk.injEq]
  refine ⟨fld_eq ?_, fld_eq ?_, fld_eq ?_, fld_eq ?_⟩
  all_goals simp only [encZ, Nat.reducePow] at *; omega

theorem fmtE_eq {f : FmtE} (h : w % 2 ^ 48 = encE f) : fmtE w f.w1.toNat = f := by
  rw [fmtE, FmtE.mk.injEq]
  refine ⟨fld_eq ?_, fld_eq ?_, fld_eq ?_, fld_eq ?_, fld_eq ?_, fld_eq ?_⟩
  all_goals simp only [encE, Nat.reducePow] at *; omega

/-! ### What selects a function within an opcode (Table 41) -/

theorem fnSOf_eq {f : FmtS} {k : BitVec 6} (h : w % 2 ^ 48 = encS f) (hk : f.fn = k) : fnSOf w = k.toNat := by
  rw [← hk, ← fmtS_eq h, fmtS, toNat_fld_zero]
  rfl

theorem fnVOf_eq {f : FmtV} {k : BitVec 3} (h : w % 2 ^ 48 = encV f) (hk : f.fn = k) : fnVOf w = k.toNat := by
  rw [← hk, ← fmtV_eq h, fmtV, toNat_fld_zero]
  rfl

theorem zopOf_eq {f : FmtZ} {k : BitVec 32} (h : w % 2 ^ 48 = encZ f) (hk : f.imm = k) : zopOf w = k.toNat := by
  rw [← hk, ← fmtZ_eq h, fmtZ, toNat_fld_zero]
  rfl

theorem zop3Of_eq {f : FmtZ} {k : BitVec 32} (h : w % 2 ^ 48 = encZ f) (hk : f.imm % 8 = k) : zop3Of w = k.toNat := by
  rw [← hk, ← fmtZ_eq h, BitVec.toNat_umod, fmtZ, toNat_fld_zero]
  exact (Nat.mod_mod_of_dvd w (by decide : 8 ∣ 2 ^ 32)).symm

end

end Sys2Proof
end

section
/-! SUPPORT. A word that selects a row is the first word of the row's instruction (04_encoding.md R92, R96, R97, R101). -/

namespace Sys2Proof

/-- A word is an instruction when it selects a row, carries token bits only in a queued word, and its fields hold what the row allows (R101). -/
theorem decode_eq_ok_iff {w0 w1 : Nat} {i : Instr} : decode w0 w1 = .ok i ↔ cand w0 w1 = some i ∧ tokensOk w0 = true ∧ i.wf = true := by
  unfold decode
  cases cand w0 w1 with
  | none => simp
  | some j =>
    by_cases ht : tokensOk w0 = true
    · by_cases hwf : j.wf = true
      · simp only [ht, hwf, if_true, Except.ok.injEq, Option.some.injEq, true_and]
        exact ⟨fun hj => ⟨hj, hj ▸ hwf⟩, And.left⟩
      · simp only [ht, hwf, if_true, Bool.false_eq_true, if_false, reduceCtorEq, Option.some.injEq, true_and, false_iff]
        exact fun ⟨hj, hi⟩ => hwf (hj ▸ hi)
    · simp [ht]

section
variable {w w1 : Nat} {i : Instr}

/-! ### The rows of each class (Table 40, Table 41)

The words of the row that is selected are its head, the bits that its format writes back, and its operand. -/

theorem candControl_words (h : candControl w = some i) : words i = some (encP 0 (opcOf w) (predOf w) + w % 2 ^ 48, 0) := by
  revert h
  fun_cases candControl w
  all_goals
    rintro ⟨⟩
    all_goals
      change some _ = _
      simp only [encC_fmtC, ‹opcOf w = _›]

theorem candScalar_words (h : candScalar w = some i) : words i = some (encP 1 (opcOf w) (predOf w) + w % 2 ^ 48, 0) := by
  revert h
  fun_cases candScalar w
  all_goals
    rintro ⟨⟩
    all_goals
      change some _ = _
      simp only [encS_fmtS, encSI_fmtSI, ‹opcOf w = _›]

theorem candVector_words (h : candVector w = some i) : words i = some (encQ 2 (opcOf w) (hdrOf w) + w % 2 ^ 48, 0) := by
  revert h
  fun_cases candVector w
  all_goals
    rintro ⟨⟩
    all_goals
      change some _ = _
      simp only [encV_fmtV, encVX_fmtVX, ‹opcOf w = _›]

theorem candLoad_words (h : candLoad w = some i) : words i = some (encQ 3 (opcOf w) (hdrOf w) + w % 2 ^ 48, 0) := by
  revert h
  fun_cases candLoad w
  all_goals
    rintro ⟨⟩
    all_goals
      change some _ = _
      simp only [encM_fmtM, encMG_fmtMG, encF_fmtF, ‹opcOf w = _›]

theorem candStore_words (h : candStore w = some i) : words i = some (encQ 4 (opcOf w) (hdrOf w) + w % 2 ^ 48, 0) := by
  revert h
  fun_cases candStore w
  all_goals
    rintro ⟨⟩
    all_goals
      change some _ = _
      simp only [encM_fmtM, encMG_fmtMG, encF_fmtF, ‹opcOf w = _›]

theorem candMatrix_words (hw1 : w1 < 2 ^ 64) (h : candMatrix w w1 = some i) :
    words i = some (encQ 5 (opcOf w) (hdrOf w) + w % 2 ^ 48, if 16 ≤ opcOf w then w1 else 0) := by
  revert h
  fun_cases candMatrix w w1
  all_goals
    rintro ⟨⟩
    all_goals
      change some _ = _
      simp [encV_fmtV, encE_fmtE, toNat_fmtE_w1 w hw1, ‹opcOf w = _›]

theorem candCopySync_words (hw1 : w1 < 2 ^ 64) (h : candCopySync w w1 = some i) :
    words i = some (encQ 6 (opcOf w) (hdrOf w) + w % 2 ^ 48, if 16 ≤ opcOf w then w1 else 0) := by
  revert h
  fun_cases candCopySync w w1
  all_goals
    rintro ⟨⟩
    all_goals
      change some _ = _
      simp [encY_fmtY, encE_fmtE, toNat_fmtE_w1 w hw1, ‹opcOf w = _›]

theorem candSystem_words (h : candSystem w = some i) : words i = some (encP 7 (opcOf w) (predOf w) + w % 2 ^ 48, 0) := by
  revert h
  fun_cases candSystem w
  all_goals
    rintro ⟨⟩
    all_goals
      change some _ = _
      simp only [encZ_fmtZ, ‹opcOf w = _›]

/-! ### The rows together -/

/-- A row without token bits takes in the whole word (R85). -/
theorem words_of_front {c : Nat} (hw : w < 2 ^ 64) (ht : tokensOk w = true) (hcls : clsOf w = c) (hc : c = 0 ∨ c = 1 ∨ c = 7)
    (h : words i = some (encP c (opcOf w) (predOf w) + w % 2 ^ 48, 0)) : words i = some (w, if isTwoWord w then w1 else 0) := by
  have htok : tokOf w = 0 := by
    rcases hc with rfl | rfl | rfl <;> simpa [tokensOk, hcls] using ht
  have htwo : isTwoWord w = false := by
    rcases hc with rfl | rfl | rfl <;> simp [isTwoWord, hcls]
  rw [h, ← hcls, encP_head hw htok, htwo, if_neg Bool.false_ne_true]

/-- So does a queued row of one word. -/
theorem words_of_queued {c : Nat} (hw : w < 2 ^ 64) (hcls : clsOf w = c) (hc : c ≠ 5 ∧ c ≠ 6)
    (h : words i = some (encQ c (opcOf w) (hdrOf w) + w % 2 ^ 48, 0)) : words i = some (w, if isTwoWord w then w1 else 0) := by
  have htwo : isTwoWord w = false := by simp [isTwoWord, hcls, hc]
  rw [h, ← hcls, encQ_head hw, htwo, if_neg Bool.false_ne_true]

/-- In the classes of the engines bit [60] says whether the row has an operand at PC + 8 (R93). -/
theorem words_of_engine {c : Nat} (hw : w < 2 ^ 64) (hcls : clsOf w = c) (hc : c = 5 ∨ c = 6)
    (h : words i = some (encQ c (opcOf w) (hdrOf w) + w % 2 ^ 48, if 16 ≤ opcOf w then w1 else 0)) :
    words i = some (w, if isTwoWord w then w1 else 0) := by
  have htwo : isTwoWord w = decide (16 ≤ opcOf w) := by
    rcases hc with rfl | rfl <;> simp [isTwoWord, hcls]
  rw [h, ← hcls, encQ_head hw, htwo]
  simp only [decide_eq_true_eq]

theorem words_of_cand (hw : w < 2 ^ 64) (hw1 : w1 < 2 ^ 64) (ht : tokensOk w = true) (h : cand w w1 = some i) :
    words i = some (w, if isTwoWord w then w1 else 0) := by
  revert h
  fun_cases cand w w1 with
  | case1 hcls => exact fun h => words_of_front hw ht hcls (by decide) (candControl_words h)
  | case2 hcls => exact fun h => words_of_front hw ht hcls (by decide) (candScalar_words h)
  | case3 hcls => exact fun h => words_of_queued hw hcls (by decide) (candVector_words h)
  | case4 hcls => exact fun h => words_of_queued hw hcls (by decide) (candLoad_words h)
  | case5 hcls => exact fun h => words_of_queued hw hcls (by decide) (candStore_words h)
  | case6 hcls => exact fun h => words_of_engine hw hcls (by decide) (candMatrix_words hw1 h)
  | case7 hcls => exact fun h => words_of_engine hw hcls (by decide) (candCopySync_words hw1 h)
  | case8 =>
    have hcls : clsOf w = 7 := by
      have hlt := clsOf_lt w
      simp only [imp_false] at *
      omega
    exact fun h => words_of_front hw ht hcls (by decide) (candSystem_words h)

end

end Sys2Proof
end

section
/-! SUPPORT. A well-formed instruction reads back from its words (04_encoding.md R84 to R93, R96, R97). -/

namespace Sys2Proof

/-- The words of the instruction fit in 64 bits and decode to it. An event has none. -/
def ReadsBack (i : Instr) : Prop := ∀ w ∈ words i, i.wf = true → w.1 < 2 ^ 64 ∧ w.2 < 2 ^ 64 ∧ decode w.1 w.2 = .ok i

/-! ### By the shape of the word: it reads back when it selects the instruction's row, its fields read -/

section
variable {i : Instr} {c o x : Nat}

theorem ReadsBack.front {p : BitVec 4} (e : words i = some (encP c o p + x, 0)) (hc : c < 8) (ho : o < 32) (hx : x < 2 ^ 48)
    (hrow : ∀ w, IsFront w c o p x → i.wf = true → cand w 0 = some i) : ReadsBack i := by
  intro w hw hwf
  rw [e] at hw
  obtain rfl := Option.some.inj hw
  have h := isFront_encP p hc ho hx
  have htok : tokensOk (encP c o p + x) = true := by simp [tokensOk, h.tok]
  exact ⟨h.lt, by simp, decode_eq_ok_iff.mpr ⟨hrow _ h hwf, htok, hwf⟩⟩

/-- Classes 010 to 110 may carry token bits (R85). -/
theorem tokensOk_of_queued {w : Nat} (h2 : 2 ≤ clsOf w) (h7 : clsOf w < 7) : tokensOk w = true := by
  have h0 : clsOf w ≠ 0 := by omega
  have h1 : clsOf w ≠ 1 := by omega
  have h7 : clsOf w ≠ 7 := by omega
  simp [tokensOk, h0, h1, h7]

/-- A queued word with its second word: the operand of an engine command, or 0. -/
theorem ReadsBack.of_encQ {h : Hdr} {w1 : Nat} (e : words i = some (encQ c o h + x, w1)) (hw1 : w1 < 2 ^ 64) (hc : 2 ≤ c ∧ c < 7) (ho : o < 32)
    (hx : x < 2 ^ 48) (hrow : ∀ w, IsQueued w c o h x → i.wf = true → cand w w1 = some i) : ReadsBack i := by
  intro w hw hwf
  rw [e] at hw
  obtain rfl := Option.some.inj hw
  have hword := isQueued_encQ h (by omega : c < 8) ho hx
  have htok : tokensOk (encQ c o h + x) = true := tokensOk_of_queued (by rw [hword.cls]; exact hc.1) (by rw [hword.cls]; exact hc.2)
  exact ⟨hword.lt, hw1, decode_eq_ok_iff.mpr ⟨hrow _ hword hwf, htok, hwf⟩⟩

theorem ReadsBack.queued {h : Hdr} (e : words i = some (encQ c o h + x, 0)) (hc : 2 ≤ c ∧ c < 7) (ho : o < 32) (hx : x < 2 ^ 48)
    (hrow : ∀ w, IsQueued w c o h x → i.wf = true → cand w 0 = some i) : ReadsBack i :=
  .of_encQ e (by simp) hc ho hx hrow

theorem ReadsBack.engine {h : Hdr} {f : FmtE} (e : words i = some (encQ c o h + encE f, f.w1.toNat)) (hc : 2 ≤ c ∧ c < 7) (ho : o < 32)
    (hrow : ∀ w, IsQueued w c o h (encE f) → cand w f.w1.toNat = some i) : ReadsBack i :=
  .of_encQ e f.w1.isLt hc ho (Laws.encE_lt f) fun w hw _ => hrow w hw

theorem ReadsBack.event (e : words i = none) : ReadsBack i := by
  intro w hw
  rw [e] at hw
  cases hw

end

/-! ### Row by row -/

section
variable {w w1 : Nat}

theorem cand_control (h : clsOf w = 0) : cand w w1 = candControl w := by simp only [cand, h]
theorem cand_scalar (h : clsOf w = 1) : cand w w1 = candScalar w := by simp only [cand, h]
theorem cand_vector (h : clsOf w = 2) : cand w w1 = candVector w := by simp only [cand, h]
theorem cand_load (h : clsOf w = 3) : cand w w1 = candLoad w := by simp only [cand, h]
theorem cand_store (h : clsOf w = 4) : cand w w1 = candStore w := by simp only [cand, h]
theorem cand_matrix (h : clsOf w = 5) : cand w w1 = candMatrix w w1 := by simp only [cand, h]
theorem cand_copySync (h : clsOf w = 6) : cand w w1 = candCopySync w w1 := by simp only [cand, h]
theorem cand_system (h : clsOf w = 7) : cand w w1 = candSystem w := by simp only [cand, h]

end

section
variable {n : Nat} {a b : Bool} {x k : BitVec n}

/-- The field that selects the function stands last among the checks of a row of format S or V. -/
theorem eq_of_and_beq (h : (a && x == k) = true) : x = k := eq_of_beq (Bool.and_elim_right h)

/-- In a row of format Z more checks follow. -/
theorem eq_of_and_beq_and (h : (a && x == k && b) = true) : x = k := eq_of_and_beq (Bool.and_elim_left h)

end

/-- `CLS`, `OPC` and the function of a row select it, and its format reads the operands. -/
theorem readsBack (i : Instr) : ReadsBack i := by
  cases i with
  | nop p f | bra p f | brp p f | jmpc p f | call p f | ret p f | loop p f | lend p f | lstg p f | lbrk p f | stepw p f | halt p f =>
    exact .front rfl (by decide) (by decide) (Laws.encC_lt f) fun w hw _ => by
      rw [cand_control hw.cls, candControl, hw.opc, hw.pred, fmtC_eq hw.low]
      rfl
  | add p f | sub p f | mul p f | mulhs p f | mulhu p f | divs p f | divu p f | rems p f | remu p f | and p f | or p f | xor p f | andn p f
  | shl p f | shr p f | sar p f | rotr p f | min p f | max p f | minu p f | maxu p f | popc p f | clz p f | ctz p f | bswp p f | pand p f
  | por p f | pxor p f | pnot p f =>
    exact .front rfl (by decide) (by decide) (Laws.encS_lt f) fun w hw hwf => by
      rw [cand_scalar hw.cls, candScalar, hw.opc, fnSOf_eq hw.low (eq_of_and_beq hwf), hw.pred, fmtS_eq hw.low]
      rfl
  | addi p f | li p f | lih p f | cmpi p f =>
    exact .front rfl (by decide) (by decide) (Laws.encSI_lt f) fun w hw _ => by
      rw [cand_scalar hw.cls, candScalar, hw.opc, hw.pred, fmtSI_eq hw.low]
      rfl
  | sel p f | cmp p f | extb p f | insb p f | mfsr p f | mtsr p f | rlr p f | cmov p f | cder p f | cseto p f | cinc p f | crgt p f
  | cget p f | cchk p f | cnul p f =>
    exact .front rfl (by decide) (by decide) (Laws.encS_lt f) fun w hw _ => by
      rw [cand_scalar hw.cls, candScalar, hw.opc, hw.pred, fmtS_eq hw.low]
      rfl
  | vadd h f | vsub h f | vmul h f | vfma h f | vfms h f | vfnma h f | vmin h f | vmax h f | vabs h f | vneg h f | vcps h f | vdp2 h f
  | vrcp h f | vrsq h f | vsqr h f | vdiv h f | vex2 h f | vlg2 h f | viadd h f | visub h f | vimul h f | vimad h f | vimulh h f | vimin h f
  | vimax h f | vdp4 h f | vadds h f | vsubs h f | vand h f | vor h f | vxor h f | vandn h f | vpopc h f | vclz h f | vshl h f | vshr h f
  | vsar h f | vpsn h f | vpid h f | vprep h f | jand h f | jor h f | jxor h f | jnot h f | jpopc h f | jffs h f =>
    exact .queued rfl (by decide) (by decide) (Laws.encV_lt f) fun w hw hwf => by
      rw [cand_vector hw.cls, candVector, hw.opc, fnVOf_eq hw.low (eq_of_and_beq hwf), hw.hdr, fmtV_eq hw.low]
      rfl
  | vcmp h f | vcls h f | vsel h f | vrnd h f | vmov h f | vsplat h f | viota h f | vext h f | vins h f | vperm h f | vshuf h f | vrot h f
  | vcmprs h f | vexpd h f | vred h f | vredx h f | vscan h f =>
    exact .queued rfl (by decide) (by decide) (Laws.encV_lt f) fun w hw _ => by
      rw [cand_vector hw.cls, candVector, hw.opc, hw.hdr, fmtV_eq hw.low]
      rfl
  | vcvt h f | vmqnt h f | vmdq h f | vscl h f | vlqd h f =>
    exact .queued rfl (by decide) (by decide) (Laws.encVX_lt f) fun w hw _ => by
      rw [cand_vector hw.cls, candVector, hw.opc, hw.hdr, fmtVX_eq hw.low]
      rfl
  | lds h f | ldv h f | ldvs h f | ldvb h f | ldo h f | ldc h f | rfl h f =>
    exact .queued rfl (by decide) (by decide) (Laws.encM_lt f) fun w hw _ => by
      rw [cand_load hw.cls, candLoad, hw.opc, hw.hdr, fmtM_eq hw.low]
      rfl
  | ldvg h f =>
    exact .queued rfl (by decide) (by decide) (Laws.encMG_lt f) fun w hw _ => by
      rw [cand_load hw.cls, candLoad, hw.opc, hw.hdr, fmtMG_eq hw.low]
      rfl
  | markL h f =>
    exact .queued rfl (by decide) (by decide) (Laws.encF_lt f) fun w hw _ => by
      rw [cand_load hw.cls, candLoad, hw.opc, hw.hdr, fmtF_eq hw.low]
      rfl
  | sts h f | stv h f | stvs h f | stc h f | spl h f =>
    exact .queued rfl (by decide) (by decide) (Laws.encM_lt f) fun w hw _ => by
      rw [cand_store hw.cls, candStore, hw.opc, hw.hdr, fmtM_eq hw.low]
      rfl
  | stvx h f =>
    exact .queued rfl (by decide) (by decide) (Laws.encMG_lt f) fun w hw _ => by
      rw [cand_store hw.cls, candStore, hw.opc, hw.hdr, fmtMG_eq hw.low]
      rfl
  | markS h f | feno h f | fenr h f | fenq h f =>
    exact .queued rfl (by decide) (by decide) (Laws.encF_lt f) fun w hw _ => by
      rw [cand_store hw.cls, candStore, hw.opc, hw.hdr, fmtF_eq hw.low]
      rfl
  | hset h f | hswp h f | hrd h f | mxrv h f | mxwv h f =>
    exact .queued rfl (by decide) (by decide) (Laws.encV_lt f) fun w hw _ => by
      rw [cand_matrix hw.cls, candMatrix, hw.opc, hw.hdr, fmtV_eq hw.low]
      rfl
  | mxla h f | mxlb h f | mxmma h f | mxz h f | mxprm h f | mxst h f | mxspl h f | mxfil h f | mxgng h f | mxrp h f =>
    exact .engine rfl (by decide) (by decide) fun w hw => by
      rw [cand_matrix hw.cls, candMatrix, hw.opc, hw.hdr, fmtE_eq hw.low]
      rfl
  | xpop h f | semw h f | sems h f | semr h f | semi h f | bara h f | barb h f | barw h f | barq h f =>
    exact .queued rfl (by decide) (by decide) (Laws.encY_lt f) fun w hw _ => by
      rw [cand_copySync hw.cls, candCopySync, hw.opc, hw.hdr, fmtY_eq hw.low]
      rfl
  | xcp h f | xc2 h f | xcg h f | xaw h f | xawr h f | xcas h f | xsig h f | xhsh h f | xopn h f | xsel h f | xfil h f =>
    exact .engine rfl (by decide) (by decide) fun w hw => by
      rw [cand_copySync hw.cls, candCopySync, hw.opc, hw.hdr, fmtE_eq hw.low]
      rfl
  | trap p f | tret p f | savc p f | rstc p f | rgpre p f | rcpt p f =>
    exact .front rfl (by decide) (by decide) (Laws.encZ_lt f) fun w hw _ => by
      rw [cand_system hw.cls, candSystem, hw.opc, hw.pred, fmtZ_eq hw.low]
      rfl
  | rgstaPlc p f | rgstaGo p f | rgstaRes p f | rgfrzHold p f | rgfrzRel p f | rgmovMov p f | rgmovOut p f | rgretRel p f | rgretAbt p f
  | rgretRd p f | otwrWr p f | otwrRd p f | otwrFpop p f | otwrFret p f | otwrFflt p f | otwrFrm p f | otwrGwr p f | otwrFcp p f
  | otwrQrd p f | smapWr p f | smapRd p f | smapAdj p f | bmapBind p f | bmapUnbind p f | bmapRd p f | bmapRst p f | lnkcUp p f
  | lnkcDown p f | lnkcRkey p f | lnkcAlgn p f | lnkcRun p f | lnkcQrl p f | lnkcDrst p f | lnkcDqrl p f | lnkqLnk p f | lnkqDie p f
  | lnkqDom p f | measExt p f | measRd p f | measSha p f | measNode p f | ksldLd p f | ksldRes p f | ksldEvc p f | ksldRd p f | csigAlc p f
  | csigFre p f | csigAdd p f | csigSet p f | csigRd p f =>
    exact .front rfl (by decide) (by decide) (Laws.encZ_lt f) fun w hw hwf => by
      rw [cand_system hw.cls, candSystem, hw.opc, zopOf_eq hw.low (eq_of_and_beq_and hwf), hw.pred, fmtZ_eq hw.low]
      rfl
  | xinvAll p f =>
    exact .front rfl (by decide) (by decide) (Laws.encZ_lt f) fun w hw hwf => by
      have hop := eq_of_and_beq_and (Bool.and_elim_left hwf)
      rw [cand_system hw.cls, candSystem, hw.opc, zop3Of_eq hw.low hop, hw.pred, fmtZ_eq hw.low]
      rfl
  | xinvCtx p f | xinvObj p f =>
    exact .front rfl (by decide) (by decide) (Laws.encZ_lt f) fun w hw hwf => by
      rw [cand_system hw.cls, candSystem, hw.opc, zop3Of_eq hw.low (eq_of_and_beq_and hwf), hw.pred, fmtZ_eq hw.low]
      rfl
  | xinvGfr p f =>
    exact .front rfl (by decide) (by decide) (Laws.encZ_lt f) fun w hw hwf => by
      have hop := eq_of_and_beq_and (Bool.and_elim_left (Bool.and_elim_left hwf))
      rw [cand_system hw.cls, candSystem, hw.opc, zop3Of_eq hw.low hop, hw.pred, fmtZ_eq hw.low]
      rfl
  | _ => exact .event rfl

end Sys2Proof
end

section
/-! SUPPORT. Supervisor words (04_encoding.md R100, 14_group.md R321): what a poisoned input comes to. -/

namespace Sys2Proof.Machine

/-- An input of a supervisor word is poisoned: `sA` or one of the k registers from `sB` (R321). -/
def State.inputPoisoned (f : FmtZ) (k : Nat) (s : State) : Bool :=
  (s.core.s f.a.toNat).tag || ((List.range k).map fun j => s.core.s (f.b.toNat + j)).any Scal.tag

theorem State.inputPoisoned_a {s : State} {f : FmtZ} (k : Nat) (h : (s.core.s f.a.toNat).tag = true) : s.inputPoisoned f k = true := by
  simp [State.inputPoisoned, h]

theorem State.inputPoisoned_b {s : State} {f : FmtZ} {j k : Nat} (hj : j < k) (h : (s.core.s (f.b.toNat + j)).tag = true) :
    s.inputPoisoned f k = true := by
  simp only [State.inputPoisoned, Bool.or_eq_true, List.any_map, List.any_eq_true, List.mem_range]
  exact .inr ⟨j, hj, h⟩

/-- A supervisor word that gives status 1 when an input is poisoned, and otherwise runs its body. -/
def svTested (p : BitVec 4) (f : FmtZ) (k : Nat) (s : State) (body : State → FRes) : Host.Outcome State Fault Refusal :=
  svWord p s fun s => if s.inputPoisoned f k then .step (s.putStatus f.a.toNat 1) else body s

section
variable {s : State} {p : BitVec 4} {f : FmtZ} {d : Nat} (hs : s.bySorrel d) (hp : s.goes p)
include hs hp

theorem svTested_poisoned {k : Nat} (hin : s.inputPoisoned f k = true) (body : State → FRes) :
    svTested p f k s body = .next (s.svDone f.a.toNat 1) := by
  simp only [svTested, svWord_sorrel hs hp, hin, if_true, State.svDone]

/-- `savc` and `rstc` take one register from `sB`, and their status has bit 2 as well (16_context.md R352). -/
theorem slotOp_poisoned (hin : s.inputPoisoned f 1 = true) (body : State → Nat → Region → Nat → State × Nat) :
    slotOp p f s body = .next (FRes.step (s.putReg f.a.toNat (s.reg f.a.toNat / 8 * 8 + 1))).state := by
  have htag : ((s.core.s f.a.toNat).tag || (s.core.s f.b.toNat).tag) = true := by simpa [State.inputPoisoned] using hin
  simp only [slotOp, svWord_sorrel hs hp, htag, if_true]
  rfl

theorem slotWords_poisoned (hin : s.inputPoisoned f 1 = true) :
    ∀ i ∈ [Instr.savc p f, .rstc p f], exec i s = .next (FRes.step (s.putReg f.a.toNat (s.reg f.a.toNat / 8 * 8 + 1))).state := by
  have hsavc : execSavc p f s = _ := slotOp_poisoned hs hp hin _
  have hrstc : execRstc p f s = _ := slotOp_poisoned hs hp hin _
  simpa only [List.forall_mem_cons, List.not_mem_nil, false_implies, implies_true, and_true] using ⟨hsavc, hrstc⟩

end

end Sys2Proof.Machine
end

section
/-! The statements of 04_encoding.md: words and instructions (O1, O6), supervisor words (O31). -/

namespace Sys2Proof.Proofs

open Sys2Proof Sys2Proof.Machine

/-- Settles O1: row by row, the head of a word selects the row and its format the operands. -/
theorem decodeReadsWhatEncodeWrites : Obligations.DecodeReadsWhatEncodeWrites := by
  unfold Obligations.DecodeReadsWhatEncodeWrites
  exact fun i w0 w1 hwords hwf => readsBack i (w0, w1) hwords hwf

/-- Settles O6: the row that a word selects has the word's head, and a format writes back all the bits it reads. -/
theorem encodeWritesWhatDecodeReads : Obligations.EncodeWritesWhatDecodeReads := by
  unfold Obligations.EncodeWritesWhatDecodeReads
  intro i w0 w1 hw0 hw1 hdec
  obtain ⟨hcand, htok, hwf⟩ := decode_eq_ok_iff.mp hdec
  exact ⟨hwf, words_of_cand hw0 hw1 htok hcand⟩

/-- Settles O31: each listed word is a supervisor word, and one that takes a status tests its inputs before all else. -/
theorem supervisorWordChecks : Obligations.SupervisorWordChecks := by
  unfold Obligations.SupervisorWordChecks
  refine ⟨fun p f s k hs => ?privileged, fun p f s d hs hp ha => ?poisonedA, fun p f s d hs hp ha => ?slotA,
    fun p f s d j hs hp hb => ⟨?poisonedB, fun hj => ?slotB⟩⟩
  case privileged =>
    suffices hsv : ∀ i ∈ _, ∃ body, exec i s = svWord p s body from fun i hi =>
      let ⟨body, hbody⟩ := hsv i hi
      hbody.trans (svWord_tile hs p body)
    simp only [List.forall_mem_cons, List.not_mem_nil, false_implies, implies_true, and_true]
    and_intros
    all_goals exact ⟨_, rfl⟩
  case poisonedA =>
    suffices hsv : ∀ i ∈ _, ∃ k body, exec i s = svTested p f k s body from fun i hi =>
      let ⟨k, body, hbody⟩ := hsv i hi
      hbody.trans (svTested_poisoned hs hp (State.inputPoisoned_a k ha) body)
    simp only [List.forall_mem_cons, List.not_mem_nil, false_implies, implies_true, and_true]
    and_intros
    all_goals exact ⟨_, _, rfl⟩
  case slotA => exact slotWords_poisoned hs hp (State.inputPoisoned_a 1 ha)
  case poisonedB =>
    suffices hsv : ∀ x : Instr × Nat, x ∈ _ → ∃ body, exec x.1 s = svTested p f x.2 s body from fun x hx hj =>
      let ⟨body, hbody⟩ := hsv x hx
      hbody.trans (svTested_poisoned hs hp (State.inputPoisoned_b hj hb) body)
    simp only [List.forall_mem_cons, List.not_mem_nil, false_implies, implies_true, and_true]
    and_intros
    all_goals exact ⟨_, rfl⟩
  case slotB => exact slotWords_poisoned hs hp (State.inputPoisoned_b (by omega) hb)

end Sys2Proof.Proofs
end

section
/-! SUPPORT. Elements of vector lanes (02_numbers.md R46, R49; 06_vector_arith.md R140): the smallest of several ids, the elements packed in a
lane, and what a packed lane holds. -/

namespace Sys2Proof.Machine

/-! ### The smallest id (R49) -/

theorem poisonMerge_cons {l : List Nat} (h : l ≠ []) (x : Nat) : poisonMerge (x :: l) = min x (poisonMerge l) := by
  cases l with
  | nil => exact absurd rfl h
  | cons y l => rfl

theorem poisonMerge_mem {l : List Nat} (h : l ≠ []) : poisonMerge l ∈ l := by
  induction l with
  | nil => exact absurd rfl h
  | cons x l ih =>
    by_cases hl : l = []
    · subst hl
      exact List.mem_singleton_self x
    · rw [poisonMerge_cons hl]
      rcases min_choice x (poisonMerge l) with hmin | hmin <;> rw [hmin]
      · exact List.mem_cons_self
      · exact List.mem_cons_of_mem x (ih hl)

theorem poisonMerge_le {l : List Nat} {x : Nat} (h : x ∈ l) : poisonMerge l ≤ x := by
  induction l with
  | nil => cases h
  | cons y l ih =>
    by_cases hl : l = []
    · subst hl
      exact (List.mem_singleton.mp h).ge
    · rw [poisonMerge_cons hl]
      rcases List.mem_cons.mp h with rfl | hx
      · exact min_le_left _ _
      · exact (min_le_right _ _).trans (ih hx)

theorem poisonMerge_append {l m : List Nat} (hl : l ≠ []) (hm : m ≠ []) : poisonMerge (l ++ m) = min (poisonMerge l) (poisonMerge m) := by
  have hne : l ++ m ≠ [] := List.append_ne_nil_of_left_ne_nil hl m
  refine le_antisymm (le_min ?_ ?_) ?_
  · exact poisonMerge_le (List.mem_append_left m (poisonMerge_mem hl))
  · exact poisonMerge_le (List.mem_append_right l (poisonMerge_mem hm))
  · rcases List.mem_append.mp (poisonMerge_mem hne) with h | h
    · exact (min_le_left _ _).trans (poisonMerge_le h)
    · exact (min_le_right _ _).trans (poisonMerge_le h)

/-- The id that several ids come to; none when there is none. -/
def mergeIds (ids : List Nat) : Option Nat := if ids = [] then none else some (poisonMerge ids)

@[simp] theorem mergeIds_nil : mergeIds [] = none := rfl
theorem mergeIds_of_ne {ids : List Nat} (h : ids ≠ []) : mergeIds ids = some (poisonMerge ids) := if_neg h
@[simp] theorem mergeIds_isSome (ids : List Nat) : (mergeIds ids).isSome = (ids != []) := by
  cases ids <;> rfl

theorem filterMap_mergeIds_eq_nil {α : Type} (f : α → List Nat) (l : List α) :
    l.filterMap (fun a => mergeIds (f a)) = [] ↔ l.flatMap f = [] := by
  simp only [List.filterMap_eq_nil_iff, List.flatMap_eq_nil_iff, mergeIds, ite_eq_left_iff, reduceCtorEq, imp_false, not_not]

/-- The smallest of the ids of all is the smallest of the smallest of each. -/
theorem poisonMerge_filterMap_mergeIds {α : Type} (f : α → List Nat) (l : List α) :
    poisonMerge (l.filterMap fun a => mergeIds (f a)) = poisonMerge (l.flatMap f) := by
  induction l with
  | nil => rfl
  | cons a l ih =>
    rw [List.flatMap_cons]
    by_cases ha : f a = []
    · have hskip : (a :: l).filterMap (fun a => mergeIds (f a)) = l.filterMap fun a => mergeIds (f a) :=
        List.filterMap_cons_none (by rw [ha, mergeIds_nil])
      rw [hskip, ih, ha, List.nil_append]
    · have hcons : (a :: l).filterMap (fun a => mergeIds (f a)) = poisonMerge (f a) :: l.filterMap fun a => mergeIds (f a) :=
        List.filterMap_cons_some (mergeIds_of_ne ha)
      rw [hcons]
      by_cases hl : l.flatMap f = []
      · rw [(filterMap_mergeIds_eq_nil f l).mpr hl, hl, List.append_nil]
        rfl
      · rw [poisonMerge_cons (mt (filterMap_mergeIds_eq_nil f l).mp hl), ih, poisonMerge_append ha hl]

/-! ### The result of an element -/

/-- The result of an element: its value, or poison with the smallest of its ids. -/
def Elt.of (ids : List Nat) (val : Nat) : Elt := if ids = [] then .val val else .pois (poisonMerge ids)

@[simp] theorem Elt.of_nil (val : Nat) : Elt.of [] val = .val val := rfl
@[simp] theorem Elt.of_singleton (id val : Nat) : Elt.of [id] val = .pois id := rfl
theorem Elt.of_ne {ids : List Nat} (h : ids ≠ []) (val : Nat) : Elt.of ids val = .pois (poisonMerge ids) := if_neg h

/-! ### Packing -/

theorem elems_mul_elemW (ty : Nat) : elemW ty * elems ty = 32 := by
  simp only [elemW, elems]
  split <;> rfl

theorem elems_pos (ty : Nat) : 0 < elems ty := by
  simp only [elems]
  split <;> decide

theorem packBits_lt (w : Nat) (l : List Nat) : packBits w l < 2 ^ (w * l.length) := by
  induction l with
  | nil => simp [packBits]
  | cons x l ih =>
    have hx : x % 2 ^ w < 2 ^ w := Nat.mod_lt x (Nat.two_pow_pos w)
    calc x % 2 ^ w + 2 ^ w * packBits w l < 2 ^ w + 2 ^ w * packBits w l := by omega
      _ = 2 ^ w * (packBits w l + 1) := by ring
      _ ≤ 2 ^ w * 2 ^ (w * l.length) := Nat.mul_le_mul_left _ ih
      _ = 2 ^ (w * (x :: l).length) := by rw [← pow_add, List.length_cons]; ring_nf

/-- The packed elements read back. -/
theorem packBits_digit (w : Nat) {l : List Nat} {e : Nat} (he : e < l.length) : packBits w l / 2 ^ (w * e) % 2 ^ w = l[e] % 2 ^ w := by
  induction l generalizing e with
  | nil => cases he
  | cons x l ih =>
    cases e with
    | zero => simp [packBits]
    | succ e =>
      have hx : x % 2 ^ w < 2 ^ w := Nat.mod_lt x (Nat.two_pow_pos w)
      have hrest : packBits w (x :: l) / 2 ^ w = packBits w l := by
        rw [packBits, Nat.add_mul_div_left _ _ (Nat.two_pow_pos w), Nat.div_eq_of_lt hx, Nat.zero_add]
      rw [Nat.mul_succ, Nat.add_comm, pow_add, ← Nat.div_div_eq_div_mul, hrest]
      exact ih (Nat.lt_of_succ_lt_succ he)

/-- An element of a lane packed from as many elements as its type has. -/
theorem elemBits_packBits (ty : Nat) (f : Nat → Nat) {e : Nat} (he : e < elems ty) :
    elemBits ty (BitVec.ofNat 32 (packBits (elemW ty) ((List.range (elems ty)).map f))) e = f e % 2 ^ elemW ty := by
  have hlt := packBits_lt (elemW ty) ((List.range (elems ty)).map f)
  rw [List.length_map, List.length_range, elems_mul_elemW] at hlt
  rw [elemBits, BitVec.toNat_ofNat, Nat.mod_eq_of_lt hlt, packBits_digit (elemW ty) (by simpa using he)]
  simp

theorem elemBits_zero_type (x : BitVec 32) : elemBits 0 x 0 = x.toNat := by
  have h : elemBits 0 x 0 = x.toNat / 2 ^ 0 % 2 ^ 32 := rfl
  rw [h, pow_zero, Nat.div_one, Nat.mod_eq_of_lt x.isLt]

theorem poison32_lt (id : Nat) : poison32 id < 2 ^ 32 :=
  Nat.or_lt_two_pow (by decide) ((Nat.mod_lt id (by decide)).trans (by decide))

/-- A floating lane has its tag when one of its elements is poison. -/
theorem packF_tag (ty : Nat) (ids : Nat → List Nat) (val : Nat → Nat) :
    (packF ty ((List.range (elems ty)).map fun e => Elt.of (ids e) (val e))).tag = true ↔ (List.range (elems ty)).flatMap ids ≠ [] := by
  by_cases hty : ty = 0
  · subst hty
    by_cases h : ids 0 = [] <;> simp [packF, elems, Elt.of, h]
  · simp only [packF, if_neg hty, List.any_map, List.any_eq_true, Function.comp_apply, ne_eq, List.flatMap_eq_nil_iff, not_forall]
    refine exists_congr fun e => ?_
    by_cases h : ids e = [] <;> simp [Elt.of, h]

/-- The elements of a floating lane: values, and the poison encoding of the type. -/
theorem elemBits_packF (ty : Nat) (ids : Nat → List Nat) (val : Nat → Nat) {e : Nat} (he : e < elems ty) :
    elemBits ty (packF ty ((List.range (elems ty)).map fun e => Elt.of (ids e) (val e))).bits e =
      if ids e = [] then val e % 2 ^ elemW ty
      else if ty = 0 then poison32 (poisonMerge (ids e)) else (fmtOfTy ty).marker % 2 ^ elemW ty := by
  by_cases hty : ty = 0
  · subst hty
    obtain rfl : e = 0 := Nat.lt_one_iff.mp he
    by_cases h : ids 0 = []
    · simp [packF, elems, Elt.of, h, elemBits_zero_type, elemW]
    · simpa [packF, elems, Elt.of, h, elemBits_zero_type] using poison32_lt (poisonMerge (ids 0))
  · simp only [packF, if_neg hty, List.map_map]
    rw [elemBits_packBits ty _ he]
    by_cases h : ids e = [] <;> simp [Elt.of, h]

/-- The id of a poisoned element, and the bits of one that is not. -/
def Elt.poisonId : Elt → Option Nat
  | .val _ => none
  | .pois id => some id
def Elt.bits : Elt → Nat
  | .val b => b
  | .pois _ => 0

theorem Elt.poisonId_of (ids : List Nat) (val : Nat) : (Elt.of ids val).poisonId = mergeIds ids := by
  cases ids <;> rfl
theorem Elt.bits_of_clean {ids : List Nat} (h : ids = []) (val : Nat) : (Elt.of ids val).bits = val := by
  subst h
  rfl

theorem packI_eq (ty : Nat) (els : List Elt) :
    packI ty els = if els.filterMap Elt.poisonId = [] then ⟨BitVec.ofNat 32 (packBits (elemW ty) (els.map Elt.bits)), false⟩
      else Lane.ipoison (poisonMerge (els.filterMap Elt.poisonId)) :=
  ite_not (p := els.filterMap Elt.poisonId = []) ..

/-- An integer lane: its elements, or poison with the smallest of their ids. -/
theorem packI_of (ty : Nat) (ids : Nat → List Nat) (val : Nat → Nat) :
    packI ty ((List.range (elems ty)).map fun e => Elt.of (ids e) (val e)) =
      if (List.range (elems ty)).flatMap ids = [] then
        ⟨BitVec.ofNat 32 (packBits (elemW ty) ((List.range (elems ty)).map val)), false⟩
      else Lane.ipoison (poisonMerge ((List.range (elems ty)).flatMap ids)) := by
  have hids : ((List.range (elems ty)).map fun e => Elt.of (ids e) (val e)).filterMap Elt.poisonId
      = (List.range (elems ty)).filterMap fun e => mergeIds (ids e) := by
    rw [List.filterMap_map]
    exact List.filterMap_congr fun e _ => Elt.poisonId_of (ids e) (val e)
  rw [packI_eq, hids, poisonMerge_filterMap_mergeIds]
  simp only [filterMap_mergeIds_eq_nil, List.map_map]
  refine if_ctx_congr Iff.rfl (fun hbad => ?_) fun _ => rfl
  refine congrArg (fun l => (⟨BitVec.ofNat 32 (packBits (elemW ty) l), false⟩ : Lane)) (List.map_congr_left fun e he => ?_)
  exact Elt.bits_of_clean (List.flatMap_eq_nil_iff.mp hbad e he) (val e)

/-- A result lane packed from elements holds them, and their poison (R46, R140, R153). -/
theorem packCvt_holds (ty o : Nat) (ids : Nat → List Nat) (val : Nat → Nat) :
    (packCvt ty ((List.range (elems ty)).map fun e => Elt.of (ids (o + e)) (val (o + e)))).holds ty o ids val := by
  by_cases hty : ty < 5
  · simp only [Lane.holds, packCvt, if_pos hty]
    refine ⟨packF_tag ty (fun e => ids (o + e)) _, fun e he => ?_⟩
    rw [elemBits_packF ty (fun e => ids (o + e)) (fun e => val (o + e)) he]
    exact ⟨fun h => if_pos h, fun h => if_neg h⟩
  · simp only [Lane.holds, packCvt, if_neg hty, packI_of ty (fun e => ids (o + e)) fun e => val (o + e)]
    refine ⟨fun h => ?_, fun h => if_neg h⟩
    rw [if_pos h]
    exact ⟨rfl, fun e he => elemBits_packBits ty _ he⟩

theorem packCvt_eq_packF {ty : Nat} (h : ty < 5) (els : List Elt) : packCvt ty els = packF ty els := if_pos h

end Sys2Proof.Machine
end

section
/-! SUPPORT. Poison origins (02_numbers.md R44 to R50, 16_context.md R354, R355): what an origin changes, and that it changes nothing a vector word
reads. -/

namespace Sys2Proof.Machine

/-! ### The log (R354) -/

section
variable (s : State) (o : OrgAt) (kind id cnt : Nat)

theorem State.logEntry_cases :
    (((s.ctx (s.rgnOf o.tile).ctx).pllen = 0 ∧ s.logEntry o kind id cnt = s)
      ∨ ((s.ctx (s.rgnOf o.tile).ctx).pllen ≠ 0 ∧ (s.ctx (s.rgnOf o.tile).ctx).plhead = (s.ctx (s.rgnOf o.tile).ctx).pllen
        ∧ s.logEntry o kind id cnt = s.setCtx (s.rgnOf o.tile).ctx { s.ctx (s.rgnOf o.tile).ctx with
            pldrop := min ((s.ctx (s.rgnOf o.tile).ctx).pldrop + 1) (2 ^ 32 - 1) }))
      ∨ ((s.ctx (s.rgnOf o.tile).ctx).pllen ≠ 0 ∧ (s.ctx (s.rgnOf o.tile).ctx).plhead ≠ (s.ctx (s.rgnOf o.tile).ctx).pllen
        ∧ s.logEntry o kind id cnt = (s.devWr ((s.ctx (s.rgnOf o.tile).ctx).plbase + 32 * (s.ctx (s.rgnOf o.tile).ctx).plhead)
            (leBytes 8 (kind + id * 2 ^ 8 + cnt * 2 ^ 32 + (s.tile o.tile).tix * 2 ^ 40) ++ leBytes 8 (o.pc % 2 ^ 32 + o.oid * 2 ^ 32)
              ++ leBytes 8 o.what ++ leBytes 8 (o.step % 2 ^ 40 + (s.rgnOf o.tile).launch.lseq % 2 ^ 24 * 2 ^ 40))).setCtx (s.rgnOf o.tile).ctx
            { s.ctx (s.rgnOf o.tile).ctx with plhead := (s.ctx (s.rgnOf o.tile).ctx).plhead + 1 }) := by
  unfold State.logEntry
  dsimp only
  split_ifs with hnone hfull
  · exact .inl (.inl ⟨hnone, rfl⟩)
  · exact .inl (.inr ⟨hnone, hfull, rfl⟩)
  · exact .inr ⟨hnone, hfull, rfl⟩

@[simp] theorem State.devWr_cur (a : Nat) (bs : List Byte) : (s.devWr a bs).cur = s.cur := by
  unfold State.devWr; split <;> rfl
@[simp] theorem State.devWr_tile (a : Nat) (bs : List Byte) (k : Nat) : (s.devWr a bs).tile k = s.tile k := by
  unfold State.devWr; split <;> rfl
@[simp] theorem State.devWr_region (a : Nat) (bs : List Byte) (r : Nat) : (s.devWr a bs).region r = s.region r := by
  unfold State.devWr; split <;> rfl
@[simp] theorem State.devWr_ctx (a : Nat) (bs : List Byte) (c : Nat) : (s.devWr a bs).ctx c = s.ctx c := by
  unfold State.devWr; split <;> rfl

@[simp] theorem State.logEntry_cur : (s.logEntry o kind id cnt).cur = s.cur := by
  obtain (⟨_, h⟩ | ⟨_, _, h⟩) | ⟨_, _, h⟩ := s.logEntry_cases o kind id cnt <;> simp [h]
@[simp] theorem State.logEntry_tile (k : Nat) : (s.logEntry o kind id cnt).tile k = s.tile k := by
  obtain (⟨_, h⟩ | ⟨_, _, h⟩) | ⟨_, _, h⟩ := s.logEntry_cases o kind id cnt <;> simp [h]
@[simp] theorem State.logEntry_region (r : Nat) : (s.logEntry o kind id cnt).region r = s.region r := by
  obtain (⟨_, h⟩ | ⟨_, _, h⟩) | ⟨_, _, h⟩ := s.logEntry_cases o kind id cnt <;> simp [h]
theorem State.logEntry_ctx_ne {c : Nat} (hc : c ≠ (s.rgnOf o.tile).ctx) : (s.logEntry o kind id cnt).ctx c = s.ctx c := by
  obtain (⟨_, h⟩ | ⟨_, _, h⟩) | ⟨_, _, h⟩ := s.logEntry_cases o kind id cnt <;> simp [h, State.ctx_setCtx_ne _ _ hc]
theorem State.logEntry_seed (c : Nat) : ((s.logEntry o kind id cnt).ctx c).seed = (s.ctx c).seed := by
  obtain rfl | hc := eq_or_ne c (s.rgnOf o.tile).ctx
  · obtain (⟨_, h⟩ | ⟨_, _, h⟩) | ⟨_, _, h⟩ := s.logEntry_cases o kind id cnt <;> simp [h]
  · rw [State.logEntry_ctx_ne s o kind id cnt hc]

end

/-! ### What an origin changes (R45, R355) -/

/-- The number of the next origin of a place (R44). -/
def State.nextId (s : State) (o : OrgAt) : Nat :=
  2 ^ 21 + (s.tile o.tile).tix % 2 ^ 11 * 2 ^ 10 + o.src * 2 ^ 7 + tget 0 (s.tile o.tile).psnc o.src

/-- The state with the next origin of a place numbered and counted in its launch's summary, before its log entry. -/
def State.counted (s : State) (o : OrgAt) : State :=
  let t := s.tile o.tile
  let R := s.region t.rgn
  (s.setTile o.tile { t with psnc := tset t.psnc o.src (min (tget 0 t.psnc o.src + 1) 127) }).setRegion t.rgn
    { R with
      origins := min (R.origins + 1) (2 ^ 32 - 1)
      minid := if R.origins = 0 then s.nextId o else min R.minid (s.nextId o) }

theorem State.newOrigin_eq (s : State) (o : OrgAt) (kind : Nat) :
    s.newOrigin o kind = ((s.counted o).logEntry o kind (s.nextId o) 0, s.nextId o) := rfl

section
variable (s : State) (o : OrgAt)

theorem State.counted_tile_self : (s.counted o).tile o.tile =
    { s.tile o.tile with psnc := tset (s.tile o.tile).psnc o.src (min (tget 0 (s.tile o.tile).psnc o.src + 1) 127) } := by
  simp [State.counted]
theorem State.counted_tile_ne {k : Nat} (h : k ≠ o.tile) : (s.counted o).tile k = s.tile k := by
  simp [State.counted, State.tile_setTile_ne _ _ h]
theorem State.counted_region_self : (s.counted o).region (s.tile o.tile).rgn =
    { s.region (s.tile o.tile).rgn with
      origins := min ((s.region (s.tile o.tile).rgn).origins + 1) (2 ^ 32 - 1)
      minid := if (s.region (s.tile o.tile).rgn).origins = 0 then s.nextId o else min (s.region (s.tile o.tile).rgn).minid (s.nextId o) } := by
  simp [State.counted]
theorem State.counted_region_ne {r : Nat} (h : r ≠ (s.tile o.tile).rgn) : (s.counted o).region r = s.region r := by
  simp [State.counted, State.region_setRegion_ne _ _ h]
@[simp] theorem State.counted_ctx (c : Nat) : (s.counted o).ctx c = s.ctx c := rfl
@[simp] theorem State.counted_dram : (s.counted o).dram = s.dram := rfl
@[simp] theorem State.counted_cur : (s.counted o).cur = s.cur := rfl

theorem State.counted_rgnOf : (s.counted o).rgnOf o.tile = (s.counted o).region (s.tile o.tile).rgn := by
  rw [State.rgnOf, State.counted_tile_self]

end

/-! ### What a vector word reads stays -/

/-- Nothing differs but the numbers of origins, the summaries of launches and what the log changes: a word reads the same. -/
structure State.SameWords (s t : State) : Prop where
  cur : t.cur = s.cur
  tile : ∀ k, t.tile k = { s.tile k with psnc := (t.tile k).psnc }
  ctx : ∀ r, (t.region r).ctx = (s.region r).ctx
  seed : ∀ c, (t.ctx c).seed = (s.ctx c).seed

namespace State.SameWords

theorem refl (s : State) : s.SameWords s := ⟨rfl, fun _ => rfl, fun _ => rfl, fun _ => rfl⟩

theorem trans {s t u : State} (h : s.SameWords t) (g : t.SameWords u) : s.SameWords u :=
  ⟨g.cur.trans h.cur, fun k => by rw [g.tile k, h.tile k], fun r => (g.ctx r).trans (h.ctx r), fun c => (g.seed c).trans (h.seed c)⟩

theorem logEntry (s : State) (o : OrgAt) (kind id cnt : Nat) : s.SameWords (s.logEntry o kind id cnt) where
  cur := s.logEntry_cur o kind id cnt
  tile k := by rw [State.logEntry_tile]
  ctx r := by rw [State.logEntry_region]
  seed := s.logEntry_seed o kind id cnt

theorem counted (s : State) (o : OrgAt) : s.SameWords (s.counted o) where
  cur := rfl
  tile k := by
    obtain rfl | hk := eq_or_ne k o.tile
    · rw [State.counted_tile_self]
    · rw [State.counted_tile_ne s o hk]
  ctx r := by
    obtain rfl | hr := eq_or_ne r (s.tile o.tile).rgn
    · rw [State.counted_region_self]
    · rw [State.counted_region_ne s o hr]
  seed _ := rfl

theorem newOrigin (s : State) (o : OrgAt) (kind : Nat) : s.SameWords (s.newOrigin o kind).1 := by
  rw [State.newOrigin_eq]
  exact (counted s o).trans (logEntry _ o kind _ 0)

theorem taking (s : State) (kinds : List Nat) : s.SameWords (s.taking kinds) := by
  induction kinds generalizing s with
  | nil => exact refl s
  | cons kind kinds ih => exact (newOrigin s s.orgC kind).trans (ih _)

section
variable {s t : State} (h : s.SameWords t)
include h

theorem me : t.me = s.me := by rw [State.me, State.me, h.cur]
theorem myTile : t.myTile = { s.myTile with psnc := t.myTile.psnc } := by
  rw [State.myTile, h.me]
  exact h.tile s.me
theorem vreg : t.myTile.vreg = s.myTile.vreg := by rw [h.myTile]
theorem step : t.myTile.step = s.myTile.step := by rw [h.myTile]
theorem cyc : t.myTile.cyc = s.myTile.cyc := by rw [h.myTile]
theorem tix : t.myTile.tix = s.myTile.tix := by rw [h.myTile]
theorem v (r : Nat) : t.myTile.v r = s.myTile.v r := by rw [Tile.v, h.vreg]; rfl
theorem orgC : t.orgC = s.orgC := by simp only [State.orgC, h.me, h.cur, h.step]
theorem ctxNo (k : Nat) : t.ctxNo k = s.ctxNo k := by rw [State.ctxNo, State.rgnOf, h.ctx, h.tile k]; rfl
theorem modeAt (rm : BitVec 3) : t.modeAt rm = s.modeAt rm := by
  funext i e
  simp only [State.modeAt, h.me, h.ctxNo, h.seed, h.cur, h.step, h.cyc, h.tix]

end
end State.SameWords

/-! ### Origins taken one after the other -/

@[simp] theorem State.taking_nil (s : State) : s.taking [] = s := rfl
@[simp] theorem State.taking_cons (s : State) (kind : Nat) (kinds : List Nat) :
    s.taking (kind :: kinds) = (s.newOrigin s.orgC kind).1.taking kinds := rfl
theorem State.taking_append (s : State) (k l : List Nat) : s.taking (k ++ l) = (s.taking k).taking l := List.foldl_append ..
@[simp] theorem State.taking_orgC (s : State) (kinds : List Nat) : (s.taking kinds).orgC = s.orgC := (State.SameWords.taking s kinds).orgC
@[simp] theorem State.newOrigin_orgC (s : State) (o : OrgAt) (kind : Nat) : (s.newOrigin o kind).1.orgC = s.orgC :=
  (State.SameWords.newOrigin s o kind).orgC

section
variable (s : State) (act : BitVec 64) (w : Nat) (kinds : Nat → Nat → List Nat)

/-- The word reads the same wherever in its elements it has come. -/
theorem State.SameWords.upTo (n e : Nat) : s.SameWords (s.upTo act w kinds n e) := State.SameWords.taking s _

@[simp] theorem State.upTo_zero : s.upTo act w kinds 0 0 = s := rfl

theorem State.upTo_next_element (n e : Nat) : s.upTo act w kinds n (e + 1) = (s.upTo act w kinds n e).taking (kinds n e) := by
  simp only [State.upTo, ← State.taking_append, List.range_succ, List.flatMap_append, List.flatMap_singleton, List.append_assoc]

theorem State.upTo_next_lane {n : Nat} (h : activeL act n = true) : s.upTo act w kinds (n + 1) 0 = s.upTo act w kinds n w := by
  simp [State.upTo, List.range_succ, List.filter_append, h]

theorem State.upTo_idle_lane {n : Nat} (h : activeL act n = false) : s.upTo act w kinds (n + 1) 0 = s.upTo act w kinds n 0 := by
  simp [State.upTo, List.range_succ, List.filter_append, h]

end

/-- Elements that make no origin leave the state as it was. -/
theorem State.upTo_eq_self {s : State} {act : BitVec 64} {w : Nat} {kinds : Nat → Nat → List Nat} {n e : Nat}
    (h : ∀ i j, i < n → activeL act i = true → j < w → kinds i j = []) (he : ∀ j, j < e → kinds n j = []) :
    s.upTo act w kinds n e = s := by
  have hlanes : ((List.range n).filter (activeL act)).flatMap (fun i => (List.range w).flatMap (kinds i)) = [] := by
    simp only [List.flatMap_eq_nil_iff, List.mem_filter, List.mem_range, and_imp]
    exact fun i hi hact j hj => h i j hi hact hj
  have hlast : (List.range e).flatMap (kinds n) = [] := by
    simp only [List.flatMap_eq_nil_iff, List.mem_range]
    exact he
  rw [State.upTo, hlanes, hlast]
  rfl

/-! ### One element (R47 to R50) -/

theorem State.idsOf_cons (s : State) (x : FV) (l : List FV) :
    s.idsOf (x :: l) = s.idsOf [x] ++ (s.taking x.takes).idsOf l := by
  cases x <;> rfl

/-- Consuming sources makes the origins of their elements, and gives the ids of all of them. -/
theorem consume_eq (s : State) (xs : List FV) : consume s s.orgC xs = (s.taking (xs.flatMap FV.takes), s.idsOf xs) := by
  induction xs generalizing s with
  | nil => rfl
  | cons x xs ih =>
    cases x with
    | fin => exact ih s
    | inf => exact ih s
    | poison id => simp only [consume, ih s]; rfl
    | quiet =>
      have hrest := ih (s.newOrigin s.orgC okFOREIGN).1
      rw [State.newOrigin_orgC] at hrest
      simp only [consume, hrest]
      rfl
    | signalling =>
      have hrest := ih (s.newOrigin s.orgC okSNAN).1
      rw [State.newOrigin_orgC] at hrest
      simp only [consume, hrest]
      rfl

/-- Sources give no id exactly when they are all numbers or infinities. -/
theorem State.idsOf_eq_nil (s : State) (xs : List FV) : s.idsOf xs = [] ↔ xs.all FV.ordinary = true := by
  induction xs generalizing s with
  | nil => simp [State.idsOf]
  | cons x xs ih => cases x <;> simp [State.idsOf, FV.takes, FV.ordinary, ih]

theorem eltKinds_ordinary {xs : List FV} (h : xs.all FV.ordinary = true) (own : Option Nat) : eltKinds xs own = own.toList := if_pos h
theorem eltKinds_poisoned {xs : List FV} (h : ¬ xs.all FV.ordinary = true) (own : Option Nat) : eltKinds xs own = xs.flatMap FV.takes := if_neg h
theorem State.eltIds_ordinary (s : State) {xs : List FV} (h : xs.all FV.ordinary = true) (own : Option Nat) :
    s.eltIds xs own = own.toList.map fun k => (s.newOrigin s.orgC k).2 := if_pos h
theorem State.eltIds_poisoned (s : State) {xs : List FV} (h : ¬ xs.all FV.ordinary = true) (own : Option Nat) : s.eltIds xs own = s.idsOf xs :=
  if_neg h

theorem FV.takes_ordinary {x : FV} (h : x.ordinary = true) : x.takes = [] := by
  cases x <;> simp_all [FV.takes, FV.ordinary]

theorem flatMap_takes_ordinary {xs : List FV} (h : xs.all FV.ordinary = true) : xs.flatMap FV.takes = [] :=
  List.flatMap_eq_nil_iff.mpr fun x hx => FV.takes_ordinary (List.all_eq_true.mp h x hx)

theorem eltKinds_none (xs : List FV) : eltKinds xs none = xs.flatMap FV.takes := by
  by_cases h : xs.all FV.ordinary = true
  · rw [eltKinds_ordinary h, flatMap_takes_ordinary h]
    rfl
  · exact eltKinds_poisoned h none

theorem State.eltIds_none (s : State) (xs : List FV) : s.eltIds xs none = s.idsOf xs := by
  by_cases h : xs.all FV.ordinary = true
  · rw [s.eltIds_ordinary h, (s.idsOf_eq_nil xs).mpr h]
    rfl
  · exact s.eltIds_poisoned h none

/-- The rule for a word that returns bits of its sources. -/
theorem arithBits_eq (s : State) (xs : List FV) (bits : Nat) :
    arithBits s s.orgC xs bits = (s.taking (eltKinds xs none), Elt.of (s.eltIds xs none) bits) := by
  rw [arithBits, consume_eq, eltKinds_none, State.eltIds_none]
  by_cases h : s.idsOf xs = [] <;> simp [Elt.of, h]

/-- The rule of R47 and R50: the sources' poison, or else an INV origin, or else one rounding. -/
theorem arith_eq (s : State) (f : Fmt) (md : Mode) (xs : List FV) (ex : Ex) :
    arith s s.orgC f md xs ex = (s.taking (eltKinds xs ex.own), Elt.of (s.eltIds xs ex.own) (roundEx f md ex).1) := by
  unfold arith
  rw [consume_eq]
  by_cases h : xs.all FV.ordinary = true
  · have hids := (s.idsOf_eq_nil xs).mpr h
    rw [eltKinds_ordinary h, s.eltIds_ordinary h, flatMap_takes_ordinary h]
    cases ex <;> simp [hids, Ex.own]
  · have hids := mt (s.idsOf_eq_nil xs).mp h
    rw [eltKinds_poisoned h, s.eltIds_poisoned h, Elt.of_ne hids]
    exact if_pos hids

end Sys2Proof.Machine
end

section
/-! SUPPORT. Vector words lane by lane (06_vector_arith.md R139 to R143): the state goes through the elements of the active lanes in order, and each
lane holds what its elements came to. -/

namespace Sys2Proof.Machine

/-! ### A state that goes through a list -/

/-- The results of a list, each from the state that those before it left. -/
def threadM {α : Type} (g : State → Nat → State × α) : List Nat → State → State × List α
  | [], s => (s, [])
  | i :: l, s => ((threadM g l (g s i).1).1, (g s i).2 :: (threadM g l (g s i).1).2)

theorem eltsM_eq_threadM (g : State → Nat → State × Elt) (l : List Nat) (s : State) : eltsM g l s = threadM g l s := by
  induction l generalizing s with
  | nil => rfl
  | cons i l ih => simp only [eltsM, threadM, ih]

theorem lanesM_eq_threadM (act : BitVec 64) (g : State → Nat → State × Lane) (l : List Nat) (s : State) :
    lanesM act g l s = threadM (fun s i => if activeL act i then g s i else (s, Lane.zero)) l s := by
  induction l generalizing s with
  | nil => rfl
  | cons i l ih => simp only [lanesM, threadM, ih]

theorem rowsM_eq_threadM (act : BitVec 64) (g : State → Nat → State × List Lane) (l : List Nat) (s : State) :
    rowsM act g l s = threadM (fun s i => if activeL act i then g s i else (s, [])) l s := by
  induction l generalizing s with
  | nil => rfl
  | cons i l ih => simp only [rowsM, threadM, ih]

theorem blocksM_eq_threadM (g : State → Nat → State × (List Lane × Lane)) (l : List Nat) (s : State) :
    blocksM g l s = threadM g l s := by
  induction l generalizing s with
  | nil => rfl
  | cons i l ih => simp only [blocksM, threadM, ih]

theorem threadM_range' {α : Type} {g : State → Nat → State × α} {S : Nat → State} {r : Nat → α} {a n : Nat}
    (h : ∀ i, a ≤ i → i < a + n → g (S i) i = (S (i + 1), r i)) :
    threadM g (List.range' a n) (S a) = (S (a + n), (List.range' a n).map r) := by
  induction n generalizing a with
  | zero => rfl
  | succ n ih =>
    have hrest := ih (a := a + 1) fun i hi hn => h i (by omega) (by omega)
    rw [List.range'_succ, threadM, h a le_rfl (by omega), hrest, List.map_cons, Nat.add_right_comm, Nat.add_assoc]

/-- A loop over 0, 1 and on comes through the states S 0, S 1 and on when each turn goes from one to the next. -/
theorem threadM_range {α : Type} {g : State → Nat → State × α} {S : Nat → State} {r : Nat → α} {n : Nat}
    (h : ∀ i, i < n → g (S i) i = (S (i + 1), r i)) : threadM g (List.range n) (S 0) = (S n, (List.range n).map r) := by
  have hall := threadM_range' (g := g) (S := S) (r := r) (a := 0) (n := n) fun i _ hi => h i (by omega)
  rwa [Nat.zero_add, ← List.range_eq_range'] at hall

theorem mkVec_at (f : Nat → Lane) {n : Nat} (hn : n < 64) : (mkVec f).at n = f n := by
  simp [mkVec, Vec.at, hn]

section
variable {s : State} {act : BitVec 64} {w : Nat} {kinds : Nat → Nat → List Nat}

/-- The elements of a lane, each from the state in which it is reached. -/
theorem eltsM_upTo {n : Nat} {g : State → Nat → State × Elt} {r : Nat → Elt}
    (h : ∀ e, e < w → g (s.upTo act w kinds n e) e = ((s.upTo act w kinds n e).taking (kinds n e), r e)) :
    eltsM g (List.range w) (s.upTo act w kinds n 0) = (s.upTo act w kinds n w, (List.range w).map r) := by
  rw [eltsM_eq_threadM]
  refine threadM_range (S := s.upTo act w kinds n) fun e he => ?_
  rw [h e he, State.upTo_next_element]

/-- The active lanes, each from the state in which it is reached. -/
theorem threadM_upTo {α : Type} {n : Nat} {g : State → Nat → State × α} {L : Nat → α} {z : α}
    (h : ∀ i, i < n → activeL act i = true → g (s.upTo act w kinds i 0) i = (s.upTo act w kinds i w, L i)) :
    threadM (fun s i => if activeL act i then g s i else (s, z)) (List.range n) s
      = (s.upTo act w kinds n 0, (List.range n).map fun i => if activeL act i then L i else z) := by
  refine threadM_range (S := fun i => s.upTo act w kinds i 0) fun i hi => ?_
  by_cases hact : activeL act i = true
  · simp only [hact, if_true, h i hi hact, State.upTo_next_lane s act w kinds hact]
  · simp only [if_neg hact, State.upTo_idle_lane s act w kinds (Bool.eq_false_iff.mpr hact)]

end

/-! ### The issue of a word -/

/-- A queued word whose body gives a result issues with it. -/
theorem qWord_result {s s' : State} {k : Nat} (hs : s.issues k) {h : Hdr} {body : State → QRes} {lat : Nat} {dst : List Dest}
    {y : Option (Nat × Nat)} (hb : body s = .result s' lat dst y none) : qWord h s body = .next (s'.issued h lat dst y) := by
  rw [qWord_issues hs, hb]
  rfl

/-- The lanes L in the active lanes. -/
def activeVec (act : BitVec 64) (L : Nat → Lane) : Vec := mkVec fun n => if activeL act n then L n else Lane.zero

theorem activeVec_at {act : BitVec 64} (L : Nat → Lane) {n : Nat} (hn : n < 64) (hact : activeL act n = true) : (activeVec act L).at n = L n := by
  rw [activeVec, mkVec_at _ hn, if_pos hact]

/-- A word computed lane by lane issues, from the state that its elements leave, with their lanes. -/
theorem vWord_upTo {s : State} {k : Nat} (hs : s.issues k) {h : Hdr} {r : BitVec 8} {mask : BitVec 3} {lat y w : Nat}
    {kinds : Nat → Nat → List Nat} {g : State → Nat → State × Lane} {L : Nat → Lane}
    (hg : ∀ n, n < 64 → activeL (s.myTile.mask mask.toNat) n = true →
      g (s.upTo (s.myTile.mask mask.toNat) w kinds n 0) n = (s.upTo (s.myTile.mask mask.toNat) w kinds n w, L n)) :
    vWord h s r mask lat y g = .next ((s.upTo (s.myTile.mask mask.toNat) w kinds 64 0).issued h lat
      [.vec r.toNat (activeVec (s.myTile.mask mask.toNat) L) (s.myTile.mask mask.toNat)] (some (y, r.toNat))) := by
  have hlanes : lanes64 (s.myTile.mask mask.toNat) g s = _ := (lanesM_eq_threadM _ g _ s).trans (threadM_upTo hg)
  refine qWord_result hs ?_
  simp only [hlanes]
  rfl

/-- A word whose lanes make no origins. -/
theorem vWord_pure {s : State} {k : Nat} (hs : s.issues k) (h : Hdr) (r : BitVec 8) (mask : BitVec 3) (lat y : Nat) (L : Nat → Lane) :
    vWord h s r mask lat y (fun st n => (st, L n)) = .next (s.issued h lat
      [.vec r.toNat (activeVec (s.myTile.mask mask.toNat) L) (s.myTile.mask mask.toNat)] (some (y, r.toNat))) := by
  have hall := vWord_upTo hs (h := h) (r := r) (mask := mask) (lat := lat) (y := y) (w := 0) (kinds := fun _ _ => [])
    (g := fun st n => (st, L n)) (L := L) fun _ _ _ => rfl
  rwa [State.upTo_eq_self (fun _ _ _ _ _ => rfl) fun _ _ => rfl] at hall

/-- A group of registers holds the elements of each active lane when each of its lanes is packed from them. -/
theorem State.grouped_of_lanes {s : State} {i : Instr} {h : Hdr} {lat vd k ty w : Nat} {act : BitVec 64} {kinds ids : Nat → Nat → List Nat}
    {val : Nat → Nat → Nat} {vs : Nat → Vec}
    (hex : exec i s = .next ((s.upTo act w kinds 64 0).issued h lat ((List.range k).map fun j => .vec (vd + j) (vs j) act) (some (1, vd + k - 1))))
    (hlane : ∀ n j, n < 64 → activeL act n = true → j < k → (vs j).at n =
      packCvt ty ((List.range (elems ty)).map fun e => Elt.of (ids n (j * elems ty + e)) (val n (j * elems ty + e)))) :
    s.grouped i h lat vd k ty w act kinds ids val := by
  refine ⟨vs, hex, fun n j hn hact hj => ?_⟩
  rw [hlane n j hn hact hj]
  exact packCvt_holds ty (j * elems ty) (ids n) (val n)

/-! ### Floating words (R143) -/

/-- Element e of lane n: the poison of its sources, or of its own origin, or else its value. -/
def State.eltAt (s : State) (act : BitVec 64) (w : Nat) (srcs : Nat → Nat → List FV) (own : Nat → Nat → Option Nat) (val : Nat → Nat → Nat)
    (n e : Nat) : Elt :=
  Elt.of ((s.upTo act w (fun n e => eltKinds (srcs n e) (own n e)) n e).eltIds (srcs n e) (own n e)) (val n e)

/-- The outcome of a floating word: the lanes of `act` hold its elements, of type `ty`, and the word issues from the state with their origins. -/
def State.floats (s : State) (out : Out) (h : Hdr) (lat vd ty : Nat) (act : BitVec 64) (srcs : Nat → Nat → List FV)
    (own : Nat → Nat → Option Nat) (val : Nat → Nat → Nat) : Prop :=
  out = .next ((s.upTo act (elems ty) (fun n e => eltKinds (srcs n e) (own n e)) 64 0).issued h lat
    [.vec vd (activeVec act fun n => packF ty ((List.range (elems ty)).map (s.eltAt act (elems ty) srcs own val n))) act] (some (1, vd)))

/-- A word whose lanes go through their elements is a floating word. -/
theorem vWord_floats {s : State} {k : Nat} (hs : s.issues k) {h : Hdr} {r : BitVec 8} {mask : BitVec 3} {lat ty : Nat}
    {srcs : Nat → Nat → List FV} {own : Nat → Nat → Option Nat} {val : Nat → Nat → Nat} {cell : State → Nat → Nat → State × Elt}
    (hcell : ∀ t : State, s.SameWords t → ∀ n e, cell t n e = (t.taking (eltKinds (srcs n e) (own n e)),
      Elt.of (t.eltIds (srcs n e) (own n e)) (val n e))) :
    s.floats (vWord h s r mask lat 1 fun st n =>
        ((eltsM (fun st e => cell st n e) (List.range (elems ty)) st).1, packF ty (eltsM (fun st e => cell st n e) (List.range (elems ty)) st).2))
      h lat r.toNat ty (s.myTile.mask mask.toNat) srcs own val := by
  refine vWord_upTo hs fun n _ _ => ?_
  rw [eltsM_upTo fun e _ => hcell _ (State.SameWords.upTo s _ _ _ n e) n e]
  rfl

/-- A word with one FP32 element in each lane. -/
theorem vWord_floats_one {s : State} {k : Nat} (hs : s.issues k) {h : Hdr} {r : BitVec 8} {mask : BitVec 3} {lat : Nat}
    {srcs : Nat → List FV} {own : Nat → Option Nat} {val : Nat → Nat} {g : State → Nat → State × Lane}
    (hg : ∀ t : State, s.SameWords t → ∀ n, g t n = (t.taking (eltKinds (srcs n) (own n)), packF 0 [Elt.of (t.eltIds (srcs n) (own n)) (val n)])) :
    s.floats (vWord h s r mask lat 1 g) h lat r.toNat 0 (s.myTile.mask mask.toNat) (fun n _ => srcs n) (fun n _ => own n) (fun n _ => val n) := by
  refine vWord_upTo hs fun n _ _ => ?_
  rw [hg _ (State.SameWords.upTo s _ _ _ n 0) n]
  exact congrArg (·, _) (State.upTo_next_element s _ 1 (fun n _ => eltKinds (srcs n) (own n)) n 0).symm

theorem eltKinds_congr {xs : List FV} {own own' : Option Nat} (h : xs.all FV.ordinary = true → own = own') :
    eltKinds xs own = eltKinds xs own' := if_ctx_congr Iff.rfl (fun hord => by rw [h hord]) fun _ => rfl
theorem State.eltIds_congr (s : State) {xs : List FV} {own own' : Option Nat} (h : xs.all FV.ordinary = true → own = own') :
    s.eltIds xs own = s.eltIds xs own' := if_ctx_congr Iff.rfl (fun hord => by rw [h hord]) fun _ => rfl

namespace State.floats

variable {s : State} {i : Instr} {h : Hdr} {lat ty : Nat} {srcs : Nat → Nat → List FV} {own : Nat → Nat → Option Nat}
  {val : Nat → Nat → Nat}

/-- What an element's own origin would be matters only where its sources start no poison. -/
theorem congr_own {out : Out} {vd : Nat} {act : BitVec 64} {own' : Nat → Nat → Option Nat} (H : s.floats out h lat vd ty act srcs own val)
    (hown : ∀ n e, (srcs n e).all FV.ordinary = true → own n e = own' n e) : s.floats out h lat vd ty act srcs own' val := by
  have hkinds : (fun n e => eltKinds (srcs n e) (own n e)) = fun n e => eltKinds (srcs n e) (own' n e) :=
    funext fun n => funext fun e => eltKinds_congr (hown n e)
  have helt : s.eltAt act (elems ty) srcs own val = s.eltAt act (elems ty) srcs own' val := by
    funext n e
    rw [State.eltAt, State.eltAt, hkinds, State.eltIds_congr _ (hown n e)]
  rwa [State.floats, hkinds, helt] at H

theorem consumes {vd : Nat} {act : BitVec 64} (H : s.floats (exec i s) h lat vd ty act srcs own val) (hty : ty < 5) :
    s.consumes i h lat vd 1 ty (elems ty) act srcs own val := by
  refine State.grouped_of_lanes (vs := fun _ => _) H fun n j hn hact hj => ?_
  obtain rfl : j = 0 := Nat.lt_one_iff.mp hj
  rw [activeVec_at _ hn hact, packCvt_eq_packF hty]
  simp only [Nat.zero_mul, Nat.zero_add]
  rfl

/-- Without poison and origins of its own, a floating word writes its values. -/
theorem clean {vd : Nat} {act : BitVec 64} (H : s.floats (exec i s) h lat vd ty act srcs own val)
    (hord : ∀ n e, n < 64 → activeL act n = true → e < elems ty → (srcs n e).all FV.ordinary = true ∧ own n e = none) :
    ∃ v, exec i s = .next (s.issued h lat [.vec vd v act] (some (1, vd)))
      ∧ ∀ n e, n < 64 → activeL act n = true → e < elems ty → elemBits ty (v.at n).bits e = val n e % 2 ^ elemW ty := by
  have hkinds : ∀ n e, n < 64 → activeL act n = true → e < elems ty → eltKinds (srcs n e) (own n e) = [] := fun n e hn hact he => by
    rw [eltKinds_ordinary (hord n e hn hact he).1, (hord n e hn hact he).2]
    rfl
  rw [State.floats, State.upTo_eq_self hkinds fun _ hj => absurd hj (Nat.not_lt_zero _)] at H
  refine ⟨_, H, fun n e hn hact he => ?_⟩
  rw [activeVec_at _ hn hact]
  refine (elemBits_packF ty _ (val n) he).trans (if_pos ?_)
  rw [State.eltIds_ordinary _ (hord n e hn hact he).1, (hord n e hn hact he).2]
  rfl

theorem rounds {f : FmtV} {ex : Nat → Nat → Ex}
    (H : s.floats (exec i s) h lat f.vd.toNat f.ty.toNat (s.myTile.mask f.mask.toNat) srcs (fun n e => (ex n e).own)
      fun n e => (roundEx (fmtOfTy f.ty.toNat) (s.modeAt f.rm n e) (ex n e)).1) : s.rounds i h f lat srcs ex := by
  intro hord
  obtain ⟨v, hv, hbits⟩ := H.clean fun n e hn hact he => by
    obtain ⟨hsrcs, hex⟩ := hord n e ⟨hn, hact⟩ he
    exact ⟨List.all_eq_true.mpr hsrcs, by cases hx : ex n e <;> simp_all [Ex.own]⟩
  exact ⟨v, hv, fun n e hn he => hbits n e hn.1 hn.2 he⟩

end State.floats

section
variable {s : State} {k : Nat} (hs : s.issues k) (h : Hdr) (f : FmtV) (lat : Nat)
include hs

/-- A word that rounds the exact result of its sources once, the sources given as functions of the lane. -/
theorem fpWord_floats (srcs : (Nat → Lane) → (Nat → Lane) → (Nat → Lane) → List (Nat → Lane)) (op : Mode → List FV → Ex) :
    let vs := fun n e => (srcs (srcA s f) (opndB s f) fun n => (s.myTile.v f.vc.toNat).at n).map fun g => fElem f.ty.toNat (g n) e
    let ex := fun n e => op (s.modeAt f.rm n e) (vs n e)
    s.floats (fpWord h f s lat srcs op) h lat f.vd.toNat f.ty.toNat (s.myTile.mask f.mask.toNat) vs (fun n e => (ex n e).own)
      fun n e => (roundEx (fmtOfTy f.ty.toNat) (s.modeAt f.rm n e) (ex n e)).1 := by
  refine vWord_floats hs fun t ht n e => ?_
  rw [arith_eq, ht.modeAt]
  rfl

theorem fp1_floats (op : FV → Ex) :
    let a := fun n e => fElem f.ty.toNat (srcA s f n) e
    s.floats (fp1 h f s lat op) h lat f.vd.toNat f.ty.toNat (s.myTile.mask f.mask.toNat) (fun n e => [a n e]) (fun n e => (op (a n e)).own)
      fun n e => (roundEx (fmtOfTy f.ty.toNat) (s.modeAt f.rm n e) (op (a n e))).1 :=
  fpWord_floats hs h f lat _ _

theorem fp2_floats (op : Mode → FV → FV → Ex) :
    let a := fun n e => fElem f.ty.toNat (srcA s f n) e
    let b := fun n e => fElem f.ty.toNat (opndB s f n) e
    let ex := fun n e => op (s.modeAt f.rm n e) (a n e) (b n e)
    s.floats (fp2 h f s lat op) h lat f.vd.toNat f.ty.toNat (s.myTile.mask f.mask.toNat) (fun n e => [a n e, b n e]) (fun n e => (ex n e).own)
      fun n e => (roundEx (fmtOfTy f.ty.toNat) (s.modeAt f.rm n e) (ex n e)).1 :=
  fpWord_floats hs h f lat _ _

theorem fp3_floats (op : Mode → FV → FV → FV → Ex) :
    let a := fun n e => fElem f.ty.toNat (srcA s f n) e
    let b := fun n e => fElem f.ty.toNat (opndB s f n) e
    let c := fun n e => fElem f.ty.toNat ((s.myTile.v f.vc.toNat).at n) e
    let ex := fun n e => op (s.modeAt f.rm n e) (a n e) (b n e) (c n e)
    s.floats (fp3 h f s lat op) h lat f.vd.toNat f.ty.toNat (s.myTile.mask f.mask.toNat) (fun n e => [a n e, b n e, c n e])
      (fun n e => (ex n e).own) fun n e => (roundEx (fmtOfTy f.ty.toNat) (s.modeAt f.rm n e) (ex n e)).1 :=
  fpWord_floats hs h f lat _ _

/-- A word that returns bits of its first source, or of one of two. -/
theorem fpBits_floats (two : Bool) (op : FV → FV → Nat → Nat → Nat) :
    let a := fun n e => fElem f.ty.toNat (srcA s f n) e
    let b := fun n e => fElem f.ty.toNat (opndB s f n) e
    s.floats (fpBits h f s two op) h 4 f.vd.toNat f.ty.toNat (s.myTile.mask f.mask.toNat) (fun n e => if two then [a n e, b n e] else [a n e])
      (fun _ _ => none)
      fun n e => op (a n e) (b n e) (elemBits f.ty.toNat (srcA s f n).bits e) (elemBits f.ty.toNat (opndB s f n).bits e) := by
  refine vWord_floats hs fun t ht n e => ?_
  rw [arithBits_eq]
  rfl

end

end Sys2Proof.Machine
end

section
/-! SUPPORT. Integer and bitwise words (06_vector_arith.md R147): what their lanes hold, with the poison of tagged source lanes (R49). -/

namespace Sys2Proof.Machine

/-- A count of bits is the count of the places that hold one. -/
theorem popN_eq_length (n x : Nat) : popN n x = ((List.range n).filter fun i => x.testBit i).length := by
  induction n generalizing x with
  | zero => rfl
  | succ n ih =>
    have hshift : (fun i => x.testBit i) ∘ Nat.succ = fun i => (x / 2).testBit i := funext fun i => Nat.testBit_succ x i
    rw [popN, ih, List.range_succ_eq_map, List.filter_cons, List.filter_map, hshift]
    by_cases hx : x % 2 = 1
    · simp [Nat.testBit_zero, hx, Nat.add_comm]
    · simp [Nat.testBit_zero, Nat.mod_two_ne_one.mp hx]

theorem wrapN_mod (w : Nat) (x : Int) : ((wrapN w x % 2 ^ w : Nat) : Int) = x % 2 ^ w := by
  have hpos : (0 : Int) < 2 ^ w := by positivity
  rw [wrapN, Int.natCast_mod, Int.toNat_of_nonneg (Int.emod_nonneg x hpos.ne')]
  push_cast
  exact Int.emod_emod x _

theorem lanePois_eq_nil (l : List Lane) : lanePois l = [] ↔ (l.all fun x => !x.tag) = true := by
  simp [lanePois]

/-- An integer lane without poison has its tag clear and holds its elements modulo their width. -/
theorem packI_vals (ty : Nat) (val : Nat → Nat) :
    (packI ty ((List.range (elems ty)).map fun e => .val (val e))).tag = false
      ∧ ∀ e, e < elems ty → elemBits ty (packI ty ((List.range (elems ty)).map fun e => .val (val e))).bits e = val e % 2 ^ elemW ty := by
  have hpack := packI_of ty (fun _ => []) val
  rw [if_pos (by simp)] at hpack
  simp only [Elt.of_nil] at hpack
  rw [hpack]
  exact ⟨rfl, fun e he => elemBits_packBits ty val he⟩

/-- A word whose lanes merge the poison of their sources, or else hold values modulo the width of the type. -/
theorem State.integers_of_lanes {s : State} {k : Nat} (hs : s.issues k) {i : Instr} {h : Hdr} {f : FmtV} {srcs : Nat → List Lane}
    {val : Nat → Nat → Nat} {el : Nat → Nat → Int}
    (hex : exec i s = vWord h s f.vd f.mask 2 0 fun st n => (st, if lanePois (srcs n) ≠ [] then Lane.ipoison (poisonMerge (lanePois (srcs n)))
      else packI f.ty.toNat ((List.range (elems f.ty.toNat)).map fun e => .val (val n e))))
    (hval : ∀ n e, ((val n e % 2 ^ elemW f.ty.toNat : Nat) : Int) = el n e % 2 ^ elemW f.ty.toNat) : s.integers i h f srcs el := by
  refine ⟨_, hex.trans (vWord_pure hs h f.vd f.mask 2 0 _), fun n hn => ?_⟩
  rw [activeVec_at _ hn.1 hn.2]
  refine ⟨fun hclean => ?_, fun hpois => if_pos fun hnil => ?_⟩
  case refine_2 => exact Bool.false_ne_true (hpois.symm.trans ((lanePois_eq_nil _).mp hnil))
  rw [if_neg (not_not.mpr ((lanePois_eq_nil _).mpr hclean))]
  obtain ⟨htag, hbits⟩ := packI_vals f.ty.toNat (val n)
  exact ⟨htag, fun e he => by rw [hbits e he, hval]⟩

section
variable {s : State} {k : Nat} (hs : s.issues k) {i : Instr} {h : Hdr} {f : FmtV}
include hs

/-- An integer word with `srcs` sources. -/
theorem intWord_integers (srcs : Nat) (op : Nat → Int → Int → Int → Int) (hex : exec i s = intWord h f s srcs op) :
    s.integers i h f (fun n => [srcA s f n, opndB s f n, (s.myTile.v f.vc.toNat).at n].take srcs)
      fun n e => op (elemW f.ty.toNat) (iElem f.ty.toNat (srcA s f n).bits e) (iElem f.ty.toNat (opndB s f n).bits e)
        (iElem f.ty.toNat ((s.myTile.v f.vc.toNat).at n).bits e) :=
  State.integers_of_lanes hs hex fun _ _ => wrapN_mod _ _

/-- A shift. -/
theorem shiftWord_integers (op : Nat → Nat → Nat → Nat) {el : Nat → Nat → Int} (hex : exec i s = shiftWord h f s op)
    (hel : ∀ n e, ((op (elemW f.ty.toNat) (elemBits f.ty.toNat (srcA s f n).bits e)
        (elemBits f.ty.toNat (opndB s f n).bits e % elemW f.ty.toNat) % 2 ^ elemW f.ty.toNat : Nat) : Int) = el n e % 2 ^ elemW f.ty.toNat) :
    s.integers i h f (fun n => [srcA s f n, opndB s f n]) el :=
  State.integers_of_lanes hs hex hel

/-- A bitwise word: whole lanes, and the poison of its sources. -/
theorem bitWord_lanes (srcs : Nat) (op : BitVec 32 → BitVec 32 → BitVec 32) (hex : exec i s = bitWord h f s srcs op) :
    ∃ v, s.gives i h f 2 0 v ∧ ∀ n, s.laneOn f.mask n →
      let ids := lanePois ([srcA s f n, opndB s f n].take srcs)
      (ids = [] → v.at n = ⟨op (srcA s f n).bits (opndB s f n).bits, false⟩) ∧ (ids ≠ [] → v.at n = Lane.ipoison (poisonMerge ids)) := by
  refine ⟨_, hex.trans (vWord_pure hs h f.vd f.mask 2 0 _), fun n hn => ?_⟩
  rw [activeVec_at _ hn.1 hn.2]
  exact ⟨fun hclean => if_neg (not_not.mpr hclean), fun hpois => if_pos hpois⟩

end

end Sys2Proof.Machine
end

section
/-! SUPPORT. Floating words beside the arithmetic of R143: those that return bits or lanes of their sources, the compare (R148), and what one origin
changes (02_numbers.md R45, 16_context.md R354, R355). -/

namespace Sys2Proof.Machine

/-! ### Bits and lanes of the sources -/

section
variable {s : State} {k : Nat} (hs : s.issues k) {i : Instr} {h : Hdr} {f : FmtV}
include hs

/-- A word that returns bits of its sources, on elements that start no poison. -/
theorem fpBits_clean (two : Bool) (op : FV → FV → Nat → Nat → Nat) (hex : exec i s = fpBits h f s two op) :
    let a := fun n e => fElem f.ty.toNat (srcA s f n) e
    let b := fun n e => fElem f.ty.toNat (opndB s f n) e
    (∀ n e, s.laneOn f.mask n → e < elems f.ty.toNat → (a n e).ordinary = true ∧ (two = true → (b n e).ordinary = true)) →
      ∃ v, s.gives i h f 4 1 v ∧ ∀ n e, s.laneOn f.mask n → e < elems f.ty.toNat → elemBits f.ty.toNat (v.at n).bits e =
        op (a n e) (b n e) (elemBits f.ty.toNat (srcA s f n).bits e) (elemBits f.ty.toNat (opndB s f n).bits e) % 2 ^ elemW f.ty.toNat := by
  intro a b hord
  have H := fpBits_floats hs h f two op
  rw [← hex] at H
  obtain ⟨v, hv, hbits⟩ := H.clean fun n e hn hact he => by
    obtain ⟨ha, hb⟩ := hord n e ⟨hn, hact⟩ he
    cases two with
    | false => exact ⟨by simpa using ha, rfl⟩
    | true => exact ⟨by simpa using ⟨ha, hb rfl⟩, rfl⟩
  exact ⟨v, hv, fun n e hn he => hbits n e hn.1 hn.2 he⟩

/-- A word that puts a lane in each active lane. -/
theorem moves_of_lanes (g : Nat → Lane) (hex : exec i s = vWord h s f.vd f.mask 2 0 fun st n => (st, g n)) : s.moves i h f g :=
  ⟨_, hex.trans (vWord_pure hs h f.vd f.mask 2 0 g), fun _ hn => activeVec_at g hn.1 hn.2⟩

end

/-! ### The compare (R148) -/

/-- The bits of a lane mask, gathered lane by lane. -/
def maskStep (act : BitVec 64) (g : State → Nat → State × Bool) (x : State × Nat) (i : Nat) : State × Nat :=
  if activeL act i then ((g x.1 i).1, x.2 + if (g x.1 i).2 then 2 ^ i else 0) else x

theorem foldl_maskStep {s : State} {act : BitVec 64} {w : Nat} {kinds : Nat → Nat → List Nat} {g : State → Nat → State × Bool} {p : Nat → Bool}
    (hg : ∀ i, activeL act i = true → g (s.upTo act w kinds i 0) i = (s.upTo act w kinds i w, p i)) (n : Nat) :
    ∃ m, (List.range n).foldl (maskStep act g) (s, 0) = (s.upTo act w kinds n 0, m) ∧ m < 2 ^ n
      ∧ ∀ i, i < n → m.testBit i = (activeL act i && p i) := by
  induction n with
  | zero => exact ⟨0, rfl, by decide, fun _ hi => absurd hi (Nat.not_lt_zero _)⟩
  | succ n ih =>
    obtain ⟨m, hfold, hlt, hbits⟩ := ih
    have hdouble : 2 ^ (n + 1) = 2 ^ n + 2 ^ n := by ring
    have hlow : m.testBit n = false := Nat.testBit_lt_two_pow hlt
    rw [List.range_succ, List.foldl_append, hfold, List.foldl_cons, List.foldl_nil, maskStep]
    by_cases hact : activeL act n = true
    · rw [if_pos hact, hg n hact, ← State.upTo_next_lane s act w kinds hact]
      by_cases hp : p n = true
      · refine ⟨m + 2 ^ n, by simp [hp], by omega, fun i hi => ?_⟩
        rw [Nat.add_comm]
        obtain hi | rfl := Nat.lt_succ_iff_lt_or_eq.mp hi
        · rw [Nat.testBit_two_pow_add_gt hi, hbits i hi]
        · rw [Nat.testBit_two_pow_add_eq, hlow, hact, hp]
          rfl
      · refine ⟨m, by simp [hp], by omega, fun i hi => ?_⟩
        obtain hi | rfl := Nat.lt_succ_iff_lt_or_eq.mp hi
        · exact hbits i hi
        · rw [hlow, Bool.eq_false_iff.mpr hp, Bool.and_false]
    · rw [if_neg hact, ← State.upTo_idle_lane s act w kinds (Bool.eq_false_iff.mpr hact)]
      refine ⟨m, rfl, by omega, fun i hi => ?_⟩
      obtain hi | rfl := Nat.lt_succ_iff_lt_or_eq.mp hi
      · exact hbits i hi
      · rw [hlow, Bool.eq_false_iff.mpr hact, Bool.false_and]

/-- A word that writes a lane mask issues, from the state that its lanes leave, with a bit of each active lane. -/
theorem jWord_upTo {s : State} {k : Nat} (hs : s.issues k) {h : Hdr} {jd : BitVec 8} {act : BitVec 64} {w : Nat} {kinds : Nat → Nat → List Nat}
    {g : State → Nat → State × Bool} {out : Out} (hout : out = jWord h s jd act g) (p : Nat → Bool)
    (hg : ∀ i, activeL act i = true → g (s.upTo act w kinds i 0) i = (s.upTo act w kinds i w, p i)) :
    ∃ v : BitVec 64, out = .next ((s.upTo act w kinds 64 0).issued h 2 [.mask jd.toNat v act] none)
      ∧ ∀ n, n < 64 → activeL act n = true → v.getLsbD n = p n := by
  obtain ⟨m, hfold, -, hbits⟩ := foldl_maskStep hg 64
  have hfold' : (List.range 64).foldl (fun (x : State × Nat) i =>
      if activeL act i then let y := g x.1 i; (y.1, x.2 + if y.2 then 2 ^ i else 0) else x) (s, 0) = _ := hfold
  refine ⟨BitVec.ofNat 64 m, hout.trans (qWord_result hs ?_), fun n hn hact => ?_⟩
  · simp only [hfold']
  · rw [BitVec.getLsbD_ofNat, hbits n hn, hact, decide_eq_true hn, Bool.true_and, Bool.true_and]

/-- Table 62, by the three relations. -/
theorem condVec_eq : ∀ fn, fn < 8 → ∀ lt eq ord : Bool, condVec fn lt eq (!ord) =
    [ord && eq, !ord || !eq, ord && lt, ord && (lt || eq), ord && !(lt || eq), ord && !lt, !ord, ord].getD fn false := by
  decide

/-- `vcmp` of f32. -/
theorem vcmp_f32 {s : State} {k : Nat} (hs : s.issues k) (h : Hdr) {f : FmtV} (hty : f.ty.toNat = 0) :
    let act := s.myTile.mask f.mask.toNat
    let x := fun n => fElem 0 (srcA s f n) 0
    let y := fun n => fElem 0 (opndB s f n) 0
    ∃ v, exec (.vcmp h f) s = .next ((s.upTo act 1 (fun n _ => eltKinds [x n, y n] none) 64 0).issued h 2 [.mask f.vd.toNat v act] none)
      ∧ ∀ n, s.laneOn f.mask n → v.getLsbD n =
        condVec f.fn.toNat (fLess (x n) (y n) && !fEq (x n) (y n)) (fEq (x n) (y n)) (!((x n).ordinary && (y n).ordinary)) := by
  intro act x y
  have hun (t : State) (n : Nat) : (t.idsOf [x n, y n] != []) = !((x n).ordinary && (y n).ordinary) := by
    have hnil := t.idsOf_eq_nil [x n, y n]
    simp only [List.all_cons, List.all_nil, Bool.and_true] at hnil
    rw [Bool.eq_iff_iff, bne_iff_ne, ne_eq, hnil, Bool.not_eq_true']
    exact iff_of_eq (Bool.not_eq_true _)
  have hex : execVcmp h f s = jWord h s f.vd act fun st n => ((consume st st.orgC [x n, y n]).1,
      condVec f.fn.toNat (fLess (x n) (y n) && !fEq (x n) (y n)) (fEq (x n) (y n)) ((consume st st.orgC [x n, y n]).2 != [])) := by
    simp only [execVcmp, if_pos hty]
    rfl
  obtain ⟨v, hv, hbits⟩ := jWord_upTo hs hex (w := 1) (kinds := fun n _ => eltKinds [x n, y n] none)
    (fun n => condVec f.fn.toNat (fLess (x n) (y n) && !fEq (x n) (y n)) (fEq (x n) (y n)) (!((x n).ordinary && (y n).ordinary))) fun n _ => by
    simp only [consume_eq, hun, State.upTo_next_element, eltKinds_none]
  exact ⟨v, hv, fun n hn => hbits n hn.1 hn.2⟩

/-! ### One origin -/

theorem any_of_tget {α : Type} {p : α → Bool} {d : α} {t : Tab α} {k : Nat} (hd : p d = false) (h : p (tget d t k) = true) :
    (t.any fun x => p x.2) = true := by
  induction t with
  | nil => exact absurd h (Bool.eq_false_iff.mp hd)
  | cons x t ih =>
    obtain ⟨j, u⟩ := x
    by_cases hj : j = k
    · simp_all [tget]
    · simp_all [tget]

/-- Some value of a table is as asked for, when the key rewritten keeps what it says. -/
theorem any_tset {α : Type} {p : α → Bool} {d v : α} {t : Tab α} {k : Nat} (hd : p d = false) (hv : p v = p (tget d t k)) :
    ((tset t k v).any fun x => p x.2) = t.any fun x => p x.2 := by
  induction t with
  | nil => simpa [tset, tget, hd] using hv
  | cons x t ih =>
    obtain ⟨j, u⟩ := x
    simp only [tset]
    split_ifs with hlt heq
    · rw [List.any_cons, hv]
      refine Bool.eq_iff_iff.mpr ⟨fun h => ?_, fun h => by rw [h, Bool.or_true]⟩
      exact (Bool.or_eq_true _ _ ▸ h).elim (any_of_tget hd) id
    · subst heq
      simp_all [tget]
    · have hj : (j == k) = false := beq_false_of_ne (Ne.symm heq)
      simp only [tget, hj, Bool.false_eq_true, if_false] at hv
      simp only [List.any_cons, ih hv]

/-- A region whose summary has counted an origin holds the frames that it held. -/
theorem State.counted_inBound (s : State) (o : OrgAt) (a n : Nat) : (s.counted o).inBound a n = s.inBound a n := by
  have hframes (u : State) : u.inBound a n = ((u.ctxs.any fun c => (c.2.slots.flatMap fun x => slotFrames x.2).any fun f =>
      a < (f + 1) * frameB && f * frameB < a + n) || u.regions.any fun r => (regionFrames r.2).any fun f => a < (f + 1) * frameB && f * frameB < a + n) := by
    simp only [State.inBound, State.boundFrames, List.any_append, List.any_flatMap]
  rw [hframes, hframes]
  refine congrArg _ (any_tset (p := fun R => (regionFrames R).any fun f => a < (f + 1) * frameB && f * frameB < a + n) (d := ({} : Region)) rfl ?_)
  rfl

section
variable (s : State) (o : OrgAt) (kind : Nat)

theorem State.newOrigin_tile_self : (s.newOrigin o kind).1.tile o.tile =
    { s.tile o.tile with psnc := tset (s.tile o.tile).psnc o.src (min (tget 0 (s.tile o.tile).psnc o.src + 1) 127) } := by
  rw [State.newOrigin_eq, State.logEntry_tile, State.counted_tile_self]
theorem State.newOrigin_tile_ne {k : Nat} (hk : k ≠ o.tile) : (s.newOrigin o kind).1.tile k = s.tile k := by
  rw [State.newOrigin_eq, State.logEntry_tile, State.counted_tile_ne s o hk]
theorem State.newOrigin_region_self : (s.newOrigin o kind).1.region (s.tile o.tile).rgn = (s.counted o).region (s.tile o.tile).rgn := by
  rw [State.newOrigin_eq, State.logEntry_region]
theorem State.newOrigin_region_ne {r : Nat} (hr : r ≠ (s.tile o.tile).rgn) : (s.newOrigin o kind).1.region r = s.region r := by
  rw [State.newOrigin_eq, State.logEntry_region, State.counted_region_ne s o hr]

theorem State.counted_logCtx : ((s.counted o).rgnOf o.tile).ctx = (s.rgnOf o.tile).ctx := by
  rw [State.counted_rgnOf, State.counted_region_self]
  rfl

theorem State.newOrigin_ctx_ne {c : Nat} (hc : c ≠ (s.rgnOf o.tile).ctx) : (s.newOrigin o kind).1.ctx c = s.ctx c := by
  rw [State.newOrigin_eq, State.logEntry_ctx_ne _ o kind _ 0 (by rwa [State.counted_logCtx]), State.counted_ctx]

@[simp] theorem State.dramWr_dram (a : Nat) (bs : List Byte) : (s.dramWr a bs).dram = mwrite s.dram a bs := rfl

/-- The log entry of an origin (R354). -/
def State.originEntry : List Byte :=
  leBytes 8 (kind + s.nextId o * 2 ^ 8 + (s.tile o.tile).tix * 2 ^ 40) ++ leBytes 8 (o.pc % 2 ^ 32 + o.oid * 2 ^ 32) ++ leBytes 8 o.what
    ++ leBytes 8 (o.step % 2 ^ 40 + (s.rgnOf o.tile).launch.lseq % 2 ^ 24 * 2 ^ 40)

theorem State.originEntry_length : (s.originEntry o kind).length = 32 := by simp [State.originEntry]

/-- Without a log an origin leaves the context as it was; in a full log it counts as dropped; else it is written at the head. -/
theorem State.newOrigin_cases :
    let C := s.ctx (s.rgnOf o.tile).ctx
    let c := (s.rgnOf o.tile).ctx
    (C.pllen = 0 ∧ (s.newOrigin o kind).1 = s.counted o)
      ∨ (C.pllen ≠ 0 ∧ C.plhead = C.pllen ∧ (s.newOrigin o kind).1 = (s.counted o).setCtx c { C with pldrop := min (C.pldrop + 1) (2 ^ 32 - 1) })
      ∨ (C.pllen ≠ 0 ∧ C.plhead ≠ C.pllen ∧ (s.newOrigin o kind).1 =
          ((s.counted o).devWr (C.plbase + 32 * C.plhead) (s.originEntry o kind)).setCtx c { C with plhead := C.plhead + 1 }) := by
  have hlog := (s.counted o).logEntry_cases o kind (s.nextId o) 0
  have hlaunch : ((s.counted o).rgnOf o.tile).launch = (s.rgnOf o.tile).launch := by
    rw [State.counted_rgnOf, State.counted_region_self]
    rfl
  have htix : ((s.counted o).tile o.tile).tix = (s.tile o.tile).tix := by rw [State.counted_tile_self]
  simp only [State.counted_logCtx, State.counted_ctx, hlaunch, htix, Nat.zero_mul, Nat.add_zero] at hlog
  rw [or_assoc] at hlog
  simp only [State.originEntry, State.newOrigin_eq]
  exact hlog

theorem State.newOrigin_noLog (hnone : (s.ctx (s.rgnOf o.tile).ctx).pllen = 0) : (s.newOrigin o kind).1 = s.counted o :=
  (s.newOrigin_cases o kind).elim And.right fun h => absurd hnone (h.elim And.left And.left)

theorem State.newOrigin_fullLog (hlen : (s.ctx (s.rgnOf o.tile).ctx).pllen ≠ 0)
    (hfull : (s.ctx (s.rgnOf o.tile).ctx).plhead = (s.ctx (s.rgnOf o.tile).ctx).pllen) :
    let C := s.ctx (s.rgnOf o.tile).ctx
    (s.newOrigin o kind).1 = (s.counted o).setCtx (s.rgnOf o.tile).ctx { C with pldrop := min (C.pldrop + 1) (2 ^ 32 - 1) } :=
  ((s.newOrigin_cases o kind).resolve_left fun h => hlen h.1).elim (fun h => h.2.2) fun h => absurd hfull h.2.1

section
variable (hlen : (s.ctx (s.rgnOf o.tile).ctx).pllen ≠ 0) (hroom : (s.ctx (s.rgnOf o.tile).ctx).plhead ≠ (s.ctx (s.rgnOf o.tile).ctx).pllen)
include hlen hroom

theorem State.newOrigin_logged :
    let C := s.ctx (s.rgnOf o.tile).ctx
    (s.newOrigin o kind).1 = ((s.counted o).devWr (C.plbase + 32 * C.plhead) (s.originEntry o kind)).setCtx (s.rgnOf o.tile).ctx
      { C with plhead := C.plhead + 1 } :=
  (((s.newOrigin_cases o kind).resolve_left fun h => hlen h.1).resolve_left fun h => hroom h.2.1).2.2

/-- The bytes of DRAM that an entry leaves: it is lost in a bound frame (R297). -/
theorem State.newOrigin_dram :
    let C := s.ctx (s.rgnOf o.tile).ctx
    (s.newOrigin o kind).1.dram = if s.inBound (C.plbase + 32 * C.plhead) 32 then s.dram
      else mwrite s.dram (C.plbase + 32 * C.plhead) (s.originEntry o kind) := by
  simp only [s.newOrigin_logged o kind hlen hroom, State.setCtx_dram, State.devWr, State.originEntry_length, State.counted_inBound]
  split_ifs
  · exact State.counted_dram s o
  · rw [State.dramWr_dram, State.counted_dram]

end

end

end Sys2Proof.Machine
end

section
/-! SUPPORT. Vector words with results of their own shape, lane by lane (06_vector_arith.md R144, R145, R154; 07_vector_data.md R170 to R174): the
dot products, rounding to an integer, the scaled sum, LQ2 and the poison words. -/

namespace Sys2Proof.Machine

/-! ### Origins of the listed kinds -/

/-- The kinds of origins that a vector word makes. -/
def vectorKinds : List Nat := [okINV, okSNAN, okFOREIGN, okOVF, okSOFT]

/-- State t has come from s by origins of a vector word. -/
def State.Originates (s t : State) : Prop := ∃ kinds : List Nat, (∀ x ∈ kinds, x ∈ vectorKinds) ∧ t = s.taking kinds

namespace State.Originates

theorem refl (s : State) : s.Originates s := ⟨[], fun _ hx => absurd hx List.not_mem_nil, rfl⟩

theorem trans {s t u : State} (h : s.Originates t) (g : t.Originates u) : s.Originates u := by
  obtain ⟨k, hk, rfl⟩ := h
  obtain ⟨l, hl, rfl⟩ := g
  exact ⟨k ++ l, List.forall_mem_append.mpr ⟨hk, hl⟩, (s.taking_append k l).symm⟩

theorem newOrigin (s : State) {kind : Nat} (h : kind ∈ vectorKinds) : s.Originates (s.newOrigin s.orgC kind).1 :=
  ⟨[kind], List.forall_mem_singleton.mpr h, rfl⟩

theorem mem_takes {x : FV} {kind : Nat} (h : kind ∈ x.takes) : kind ∈ vectorKinds := by
  cases x <;> simp_all [FV.takes, vectorKinds]

theorem mem_eltKinds {xs : List FV} {own : Option Nat} (hown : ∀ kind ∈ own, kind ∈ vectorKinds) {kind : Nat} (h : kind ∈ eltKinds xs own) :
    kind ∈ vectorKinds := by
  by_cases hord : xs.all FV.ordinary = true
  · rw [eltKinds_ordinary hord] at h
    exact hown kind (Option.mem_toList.mp h)
  · rw [eltKinds_poisoned hord] at h
    obtain ⟨x, -, hx⟩ := List.mem_flatMap.mp h
    exact mem_takes hx

theorem own_mem (ex : Ex) : ∀ kind ∈ ex.own, kind ∈ vectorKinds := by
  cases ex <;> simp [Ex.own, vectorKinds]

theorem arith (s : State) (f : Fmt) (md : Mode) (xs : List FV) (ex : Ex) : s.Originates (arith s s.orgC f md xs ex).1 := by
  rw [arith_eq]
  exact ⟨_, fun _ => mem_eltKinds (own_mem ex), rfl⟩

theorem arithBits (s : State) (xs : List FV) (bits : Nat) : s.Originates (arithBits s s.orgC xs bits).1 := by
  rw [arithBits_eq]
  exact ⟨_, fun _ => mem_eltKinds fun _ h => (Option.not_mem_none _ h).elim, rfl⟩

theorem consume (s : State) (xs : List FV) : s.Originates (consume s s.orgC xs).1 := by
  rw [consume_eq, ← eltKinds_none]
  exact ⟨_, fun _ => mem_eltKinds fun _ h => (Option.not_mem_none _ h).elim, rfl⟩

theorem upTo (s : State) (act : BitVec 64) (w : Nat) {kinds : Nat → Nat → List Nat} (h : ∀ n e, ∀ x ∈ kinds n e, x ∈ vectorKinds) (n e : Nat) :
    s.Originates (s.upTo act w kinds n e) := by
  refine ⟨_, fun x hx => ?_, rfl⟩
  rcases List.mem_append.mp hx with hx | hx
  · obtain ⟨i, -, hi⟩ := List.mem_flatMap.mp hx
    obtain ⟨j, -, hj⟩ := List.mem_flatMap.mp hi
    exact h i j x hj
  · obtain ⟨j, -, hj⟩ := List.mem_flatMap.mp hx
    exact h n j x hj

theorem threadM {α : Type} {g : State → Nat → State × α} (hg : ∀ (t : State) i, t.Originates (g t i).1) (l : List Nat) (s : State) :
    s.Originates (threadM g l s).1 := by
  induction l generalizing s with
  | nil => exact refl s
  | cons i l ih => exact (hg s i).trans (ih _)

theorem eltsM {g : State → Nat → State × Elt} (hg : ∀ (t : State) i, t.Originates (g t i).1) (l : List Nat) (s : State) : s.Originates (eltsM g l s).1 := by
  rw [eltsM_eq_threadM]
  exact threadM hg l s

theorem foldl {β : Type} {g : State × β → Nat → State × β} (hg : ∀ (p : State × β) i, p.1.Originates (g p i).1) (l : List Nat) (p : State × β) :
    p.1.Originates (l.foldl g p).1 := by
  induction l generalizing p with
  | nil => exact refl p.1
  | cons i l ih => exact (hg p i).trans (ih _)

theorem sameWords {s t : State} (h : s.Originates t) : s.SameWords t := by
  obtain ⟨kinds, -, rfl⟩ := h
  exact State.SameWords.taking s kinds

end State.Originates

/-- The register of a vector result. -/
def Dest.vreg (d : Dest) : Nat := match d with
  | .vec r _ _ => r
  | _ => 0xFF

/-- A word issues, from a state its origins have led to, with results in a list of registers. -/
def State.shaped (s : State) (out : Out) (h : Hdr) (lat : Nat) (regs : List Nat) (y : Nat) : Prop :=
  ∃ (s' : State) (d : List Dest), out = .next (s'.issued h lat d (some (y, regs.getLast?.getD 0))) ∧ d.map Dest.vreg = regs ∧ s.Originates s'

theorem State.floats.shaped {s : State} {out : Out} {h : Hdr} {lat vd ty : Nat} {act : BitVec 64} {srcs : Nat → Nat → List FV}
    {own : Nat → Nat → Option Nat} {val : Nat → Nat → Nat} (H : s.floats out h lat vd ty act srcs own val)
    (hown : ∀ n e, ∀ kind ∈ own n e, kind ∈ vectorKinds) : s.shaped out h lat [vd] 1 :=
  ⟨_, _, H, rfl, State.Originates.upTo s _ _ (fun n e _ => State.Originates.mem_eltKinds (hown n e)) 64 0⟩

/-- A word that makes no origins. -/
theorem State.shaped_pure {s : State} {out : Out} {h : Hdr} {lat y : Nat} {d : List Dest} {r : Nat} (hout : out = .next (s.issued h lat d (some (y, r))))
    {regs : List Nat} (hregs : d.map Dest.vreg = regs) (hlast : regs.getLast?.getD 0 = r) : s.shaped out h lat regs y :=
  ⟨s, d, by rw [hlast, hout], hregs, State.Originates.refl s⟩

/-! ### Dot products (R144, R145) -/

/-- The exact sum of R144 for the lanes of the three sources. -/
def dp2Ex (md : Mode) (a b c : Lane) : Ex :=
  match fProd (fElem 1 a 0) (fElem 1 b 0), fProd (fElem 1 a 1) (fElem 1 b 1) with
  | some p, some q => fAdd3 md (fElem 0 c 0) p q
  | _, _ => .invalid

/-! ### Rounding to an integer (R154) -/

theorem exDyadic_zero (neg : Bool) (e : Int) : exDyadic neg 0 e = .zero neg := rfl

theorem exDyadic_of_ne {m : Nat} (hm : m ≠ 0) (neg : Bool) (e : Int) :
    exDyadic neg m e = .num neg (m * 2 ^ e.toNat) (2 ^ (-e).toNat) false := by
  rw [exDyadic, if_neg hm]
  split_ifs with he
  · rw [Int.toNat_of_nonpos (by omega : -e ≤ 0), pow_zero]
  · rw [Int.toNat_of_nonpos (by omega : e ≤ 0), pow_zero, Nat.mul_one]

/-- Whether the mode takes the larger of the two integers about (lo × D + r) / D (Table 17). -/
def Mode.up (md : Mode) (neg : Bool) (lo r D : Nat) : Bool :=
  match md.code with
  | 0 => D < 2 * r || (2 * r == D && lo % 2 == 1)
  | 1 => false
  | 2 => !neg
  | 3 => neg
  | 4 => D ≤ 2 * r
  | _ => md.rnd < 2 ^ 32 * r / D

theorem roundAt_zero (md : Mode) (neg : Bool) (N D : Nat) :
    roundAt md neg N D false 0 = if N % D ≠ 0 ∧ md.up neg (N / D) (N % D) D = true then N / D + 1 else N / D := by
  have hstep : roundAt md neg N D false 0 =
      if (N % (D * 2 ^ 0) = 0 && !false) = true then N / (D * 2 ^ 0)
      else if md.up neg (N / (D * 2 ^ 0)) (N % (D * 2 ^ 0)) (D * 2 ^ 0) = true then N / (D * 2 ^ 0) + 1 else N / (D * 2 ^ 0) := rfl
  rw [hstep, pow_zero, Nat.mul_one]
  by_cases hr : N % D = 0 <;> simp [hr]

/-- The value of `vrnd`: the integral magnitude that the mode names. -/
theorem fRnd_fin (md : Mode) (neg : Bool) (m : Nat) (x : Int) :
    let N := m * 2 ^ x.toNat
    let D := 2 ^ (-x).toNat
    let q := if N % D ≠ 0 ∧ md.up neg (N / D) (N % D) D = true then N / D + 1 else N / D
    fRnd md (.fin neg m x) = if q = 0 then .zero neg else .num neg q 1 false := by
  intro N D q
  by_cases hm : m = 0
  · have hq : q = 0 := by simp [q, N, hm]
    rw [if_pos hq, hm, fRnd, exDyadic_zero]
  · have hround : fRnd md (.fin neg m x) = exDyadic neg q 0 := by
      rw [fRnd, exDyadic_of_ne hm]
      exact congrArg (exDyadic neg · 0) (roundAt_zero md neg N D)
    rw [hround]
    split_ifs with hq
    · rw [hq, exDyadic_zero]
    · rw [exDyadic_of_ne hq]
      simp

theorem fRnd_own {md : Mode} {x : FV} (hx : x.ordinary = true) : (fRnd md x).own = none := by
  cases x with
  | fin neg m e =>
    rw [fRnd_fin]
    split_ifs <;> rfl
  | inf neg => rfl
  | poison => cases hx
  | quiet => cases hx
  | signalling => cases hx

theorem State.modeAt_code (s : State) (rm : BitVec 3) (i e : Nat) : (s.modeAt rm i e).code = rm.toNat := by
  rw [State.modeAt]
  split_ifs with h
  · rw [h]
    rfl
  · rfl

/-- The modes of Table 17 one by one. -/
theorem State.modeAt_up (s : State) {rm : BitVec 3} (hrm : rm.toNat < 6) (n e : Nat) (neg : Bool) (lo r D : Nat) :
    (s.modeAt rm n e).up neg lo r D = true ↔ rm = 0 ∧ (D < 2 * r ∨ 2 * r = D ∧ lo % 2 = 1) ∨ rm = 2 ∧ neg = false ∨ rm = 3 ∧ neg = true
      ∨ rm = 4 ∧ D ≤ 2 * r ∨ rm = 5 ∧ (s.modeAt rm n e).rnd < 2 ^ 32 * r / D := by
  rw [Mode.up, State.modeAt_code]
  have hrm' : rm = 0 ∨ rm = 1 ∨ rm = 2 ∨ rm = 3 ∨ rm = 4 ∨ rm = 5 := by
    simp only [← BitVec.toNat_inj]
    change _ = 0 ∨ _ = 1 ∨ _ = 2 ∨ _ = 3 ∨ _ = 4 ∨ _ = 5
    omega
  obtain rfl | rfl | rfl | rfl | rfl | rfl := hrm' <;> simp

section
variable {s : State} {k : Nat} (hs : s.issues k) (h : Hdr) (f : FmtV)
include hs

theorem vdp2_floats :
    let A := srcA s f
    let B := opndB s f
    let C := fun n => (s.myTile.v f.vc.toNat).at n
    let dot := fun n => dp2Ex (s.modeAt f.rm n 0) (A n) (B n) (C n)
    s.floats (exec (.vdp2 h f) s) h 4 f.vd.toNat 0 (s.myTile.mask f.mask.toNat)
      (fun n _ => [fElem 1 (A n) 0, fElem 1 (B n) 0, fElem 1 (A n) 1, fElem 1 (B n) 1, fElem 0 (C n) 0]) (fun n _ => (dot n).own)
      fun n _ => (roundEx fFP32 (s.modeAt f.rm n 0) (dot n)).1 := by
  refine vWord_floats_one hs fun t ht n => ?_
  dsimp only
  rw [arith_eq, ht.modeAt]
  rfl

theorem vdp4_lanes :
    let A := srcA s f
    let B := opndB s f
    let C := fun n => (s.myTile.v f.vc.toNat).at n
    let p := fun n e => iElem f.ty.toNat (A n).bits e * iElem f.ty.toNat (B n).bits e
    let bad := fun n => lanePois [A n, B n, C n]
    exec (.vdp4 h f) s = .next (s.issued h 4 [.vec f.vd.toNat (activeVec (s.myTile.mask f.mask.toNat) fun n =>
        if bad n ≠ [] then Lane.ipoison (poisonMerge (bad n))
        else ⟨BitVec.ofInt 32 ((C n).bits.toNat + p n 0 + p n 1 + p n 2 + p n 3), false⟩) (s.myTile.mask f.mask.toNat)] (some (1, f.vd.toNat))) :=
  vWord_pure hs h f.vd f.mask 4 1 _

theorem vrnd_floats :
    let a := fun n e => fElem f.ty.toNat (srcA s f n) e
    s.floats (exec (.vrnd h f) s) h 4 f.vd.toNat f.ty.toNat (s.myTile.mask f.mask.toNat) (fun n e => [a n e]) (fun _ _ => none)
      fun n e => (roundEx (fmtOfTy f.ty.toNat) (s.modeAt f.rm n e) (fRnd (s.modeAt f.rm n e) (a n e))).1 := by
  have H := fpWord_floats hs h f 4 (fun a _ _ => [a]) fun md vs => match vs with
    | [v] => fRnd md v
    | _ => .invalid
  exact H.congr_own fun n e hord => fRnd_own (List.all_eq_true.mp hord _ (List.mem_singleton_self _))

end

/-! ### The scaled sum (R170) -/

theorem State.idsOf_append (s : State) (xs ys : List FV) : s.idsOf (xs ++ ys) = s.idsOf xs ++ (s.taking (xs.flatMap FV.takes)).idsOf ys := by
  induction xs generalizing s with
  | nil => rfl
  | cons x xs ih =>
    rw [List.cons_append, State.idsOf_cons s x (xs ++ ys), State.idsOf_cons s x xs, ih, List.flatMap_cons, State.taking_append, List.append_assoc]

/-- A scale lane is consumed as the source it stands for (R166). -/
theorem scaleIds_eq (s : State) (l : Lane) : scaleIds s l = (s.taking (scaleFV l).takes, s.idsOf [scaleFV l]) := by
  rw [scaleIds, scaleFV]
  cases scaleOf l <;> rfl

/-- Two sources and two scale lanes, consumed one after another, are the four sources of one element (R170). -/
theorem arith_scaled (t : State) (f : Fmt) (md : Mode) (acc a : FV) (sa sb : Lane) (ex : Ex) :
    let r := consume t t.orgC [acc, a]
    let ra := scaleIds r.1 sa
    let rb := scaleIds ra.1 sb
    let ids := r.2 ++ ra.2 ++ rb.2
    (if ids ≠ [] then (rb.1, Elt.pois (poisonMerge ids)) else arith rb.1 t.orgC f md [] ex)
      = arith t t.orgC f md [acc, a, scaleFV sa, scaleFV sb] ex := by
  intro r ra rb ids
  have hids : t.idsOf [acc, a, scaleFV sa, scaleFV sb] = ids := by
    have happ := t.idsOf_append [acc, a] [scaleFV sa, scaleFV sb]
    rw [State.idsOf_cons _ (scaleFV sa), ← List.append_assoc] at happ
    simp only [ids, rb, ra, r, consume_eq, scaleIds_eq]
    exact happ
  have hstate : rb.1 = t.taking ([acc, a, scaleFV sa, scaleFV sb].flatMap FV.takes) := by
    simp only [rb, ra, r, consume_eq, scaleIds_eq, ← State.taking_append]
    simp
  unfold arith
  rw [consume_eq, hids, ← hstate]
  by_cases h : ids = []
  · rw [if_neg (not_not.mpr h), if_neg (not_not.mpr h), consume, if_neg (not_not.mpr rfl)]
  · rw [if_pos h, if_pos h]

theorem vscl_floats {s : State} {k : Nat} (hs : s.issues k) (h : Hdr) (g : FmtVX) :
    let A := fun n => (s.myTile.v g.va.toNat).at n
    let B := fun n => (s.myTile.v g.vb.toNat).at n
    let B1 := fun n => (s.myTile.v (g.vb.toNat + 1)).at n
    let D := fun n => (s.myTile.v g.vd.toNat).at n
    let sum := fun n => fAdd (s.modeAt g.rm n 0) (fElem 0 (D n) 0)
      ((fElem 0 (A n) 0).scale ((B n).bits.toNat % 256 + (B1 n).bits.toNat % 256 - 254))
    s.floats (exec (.vscl h g) s) h 6 g.vd.toNat 0 (s.myTile.mask g.mask.toNat)
      (fun n _ => [fElem 0 (D n) 0, fElem 0 (A n) 0, scaleFV (B n), scaleFV (B1 n)]) (fun n _ => (sum n).own)
      fun n _ => (roundEx fFP32 (s.modeAt g.rm n 0) (sum n)).1 := by
  intro A B B1 D sum
  have hscale (n : Nat) : fAdd (s.modeAt g.rm n 0) (fElem 0 (D n) 0) ((fElem 0 (A n) 0).scale
      (((B n).bits.toNat % 256 : Nat) + ((B1 n).bits.toNat % 256 : Nat) - 254)) = sum n := by
    simp only [sum]
    push_cast
    rfl
  refine vWord_floats_one hs fun t ht n => ?_
  have hlane := arith_scaled t fFP32 (s.modeAt g.rm n 0) (fElem 0 (D n) 0) (fElem 0 (A n) 0) (B n) (B1 n) (sum n)
  rw [arith_eq] at hlane
  simp only [ht.v, ht.modeAt]
  refine Eq.trans ?_ (congrArg (fun x : State × Elt => (x.1, packF 0 [x.2])) hlane)
  refine Eq.trans ?_ (apply_ite (fun x : State × Elt => (x.1, packF 0 [x.2])) _ _ _).symm
  rw [← hscale]

/-! ### LQ2 (R171) -/

/-- The magnitudes of LQ2, in quarters, and their signs are exact in E4M3. -/
theorem e4m3_of_quarters : ∀ m, m < 16 → ∀ odd neg : Bool,
    let q := if odd = true ∧ m ≤ 7 then 2 * m + 1 else 2 * m
    let x := (roundEx fE4M3 ⟨0, 0⟩ (exDyadic neg q (-2))).1
    x < 2 ^ 8 ∧ fEq (decodeF fE4M3 x) (.fin neg q (-2)) = true ∧ bitN x 7 = neg := by
  decide +kernel

theorem bitN_eq_testBit (x i : Nat) : bitN x i = x.testBit i := by
  rw [bitN, Nat.testBit_eq_decide_div_mod_eq]
  rfl

/-- The sign of the last element of a codeword: the parity of the seven others (R36). -/
theorem lq2_parity (w : Nat) :
    (popN 7 (w / 256) % 2 == 1) = decide (((List.range 7).filter fun j => bitN w (8 + j)).length % 2 = 1) := by
  have hbits : (fun i => (w / 256).testBit i) = fun j => bitN w (8 + j) := by
    funext j
    rw [bitN_eq_testBit, Nat.add_comm, ← Nat.testBit_div_two_pow]
  rw [popN_eq_length, hbits]
  rfl

/-- Element i of a codeword in E4M3 (R36, R171). -/
theorem lq2E4M3_spec (mag : List (BitVec 32)) (w i : Nat) :
    let m := (mag.getD (w % 256) 0).toNat / 2 ^ (4 * i) % 16
    let q := if bitN w 15 = true ∧ m ≤ 7 then 2 * m + 1 else 2 * m
    let neg := if i < 7 then bitN w (8 + i) else decide (((List.range 7).filter fun j => bitN w (8 + j)).length % 2 = 1)
    lq2E4M3 mag w i < 2 ^ 8 ∧ fEq (decodeF fE4M3 (lq2E4M3 mag w i)) (.fin neg q (-2)) = true ∧ bitN (lq2E4M3 mag w i) 7 = neg := by
  intro m q neg
  have helem : lq2Elem mag w i = (neg, q) := by
    simp only [lq2Elem, lq2_parity, q, m, neg, Bool.and_eq_true, decide_eq_true_eq]
  have hexact := e4m3_of_quarters m (Nat.mod_lt _ (by decide)) (bitN w 15) neg
  rw [lq2E4M3, helem]
  exact hexact

/-- Lane n of register r of the group that `vlqd` writes. -/
def lq2Lane (mag : List (BitVec 32)) (src : Vec) (r n : Nat) : Lane :=
  let l := src.at (16 * r + n / 4)
  let w := l.bits.toNat / 2 ^ (16 * (n % 4 / 2)) % 2 ^ 16
  if l.tag then ⟨0x7F7F7F7F, true⟩
  else ⟨BitVec.ofNat 32 (packBits 8 ((List.range 4).map fun e => lq2E4M3 mag w (4 * (n % 2) + e))), false⟩

/-- The elements of a lane without poison. -/
theorem lq2Lane_elem (mag : List (BitVec 32)) {src : Vec} {r n e : Nat} (htag : (src.at (16 * r + n / 4)).tag = false) (he : e < 4) :
    (lq2Lane mag src r n).tag = false ∧ elemBits 3 (lq2Lane mag src r n).bits e
      = lq2E4M3 mag ((src.at (16 * r + n / 4)).bits.toNat / 2 ^ (16 * (n % 4 / 2)) % 2 ^ 16) (4 * (n % 2) + e) := by
  rw [lq2Lane, if_neg (Bool.eq_false_iff.mp htag)]
  exact ⟨rfl, (elemBits_packBits 3 (fun e => lq2E4M3 mag _ (4 * (n % 2) + e)) he).trans (Nat.mod_eq_of_lt (lq2E4M3_spec mag _ _).1)⟩

theorem vlqd_lanes {s : State} {k : Nat} (hs : s.issues k) (h : Hdr) (g : FmtVX) :
    exec (.vlqd h g) s = .next (s.issued h 6
      ((List.range 4).map fun r => .vec (g.vd.toNat + r) (mkVec (lq2Lane s.myTile.mag (s.myTile.v g.va.toNat) r)) (BitVec.allOnes 64))
      (some (1, g.vd.toNat + 3))) := by
  change execVlqd h g s = _
  exact qWord_result hs rfl

/-! ### Poison words (R172 to R174) -/

theorem eltLane_pois (ty id : Nat) : eltLane ty (.pois id) = poisLane ty id := by
  rw [eltLane, poisLane]
  split_ifs <;> rfl

section
variable {s : State} {k : Nat} (hs : s.issues k) (h : Hdr) (f : FmtV)
include hs

theorem vpsn_idle (hact : s.myTile.mask f.mask.toNat = 0) : exec (.vpsn h f) s = .next (s.issued h 2 [.vec f.vd.toNat [] 0] (some (0, f.vd.toNat))) := by
  change execVpsn h f s = _
  refine qWord_result hs ?_
  simp only [hact, if_true]
  rfl

theorem vpsn_active (hact : s.myTile.mask f.mask.toNat ≠ 0) :
    exec (.vpsn h f) s = .next ((s.newOrigin s.orgC okSOFT).1.issued h 2
      [.vec f.vd.toNat (mkVec fun _ => poisLane f.ty.toNat (s.newOrigin s.orgC okSOFT).2) (s.myTile.mask f.mask.toNat)] (some (0, f.vd.toNat))) := by
  change execVpsn h f s = _
  refine qWord_result hs ?_
  simp only [if_neg hact, eltLane_pois]
  rfl

end

/-- The id of an element that is poison. -/
def FV.poisonId : FV → Option Nat
  | .poison id => some id
  | _ => none

/-- The ids of a lane that `vprep` looks at (R174). -/
def prepIds (ty : Nat) (l : Lane) : List Nat :=
  if ty = 12 then (if l.tag then [l.id] else [])
  else (laneFV ty l).flatMap fun v => match v with
    | .poison id => [id]
    | .quiet | .signalling => if ty = 0 then [anonId] else []
    | _ => []

theorem laneFV_zero (l : Lane) : laneFV 0 l = if l.tag then [.poison l.id] else [decodeF fFP32 l.bits.toNat] := by
  have hbits : elemBits 0 l.bits 0 = l.bits.toNat := elemBits_zero_type l.bits
  cases htag : l.tag <;> simp [laneFV, elems, htag, hbits, fmtOfTy]

/-- The poison that `vpid` reads of a lane is the smallest of its ids. -/
theorem laneId_eq (ty : Nat) (l : Lane) : laneId ty l = mergeIds (if ty = 12 then (if l.tag then [l.id] else [])
    else (laneFV ty l).filterMap FV.poisonId) := by
  rw [laneId]
  split_ifs <;> rfl

theorem prepId_eq (ty : Nat) (l : Lane) : prepId ty l = mergeIds (prepIds ty l) := by
  by_cases hz : ty = 0
  · subst hz
    rw [prepId, laneId_eq, prepIds, laneFV_zero]
    by_cases htag : l.tag = true
    · simp [htag, FV.poisonId, mergeIds, poisonMerge]
    · cases hx : decodeF fFP32 l.bits.toNat <;> simp [htag, FV.poisonId, mergeIds, poisonMerge]
  · have hids : prepIds ty l = if ty = 12 then (if l.tag then [l.id] else []) else (laneFV ty l).filterMap FV.poisonId := by
      rw [prepIds]
      refine if_ctx_congr Iff.rfl (fun _ => rfl) fun _ => ?_
      rw [List.filterMap_eq_flatMap_toList]
      refine List.flatMap_congr fun v _ => ?_
      cases v <;> simp [FV.poisonId, hz]
    rw [prepId, laneId_eq, hids]
    cases mergeIds _ <;> simp [hz]

/-- The active lanes that `vprep` replaces. -/
def prepHits (s : State) (f : FmtV) : List Nat :=
  (List.range 64).filter fun n => activeL (s.myTile.mask f.mask.toNat) n && (prepIds f.ty.toNat (srcA s f n) != [])

theorem mem_prepHits {s : State} {f : FmtV} {n : Nat} (hn : s.laneOn f.mask n) : n ∈ prepHits s f ↔ prepIds f.ty.toNat (srcA s f n) ≠ [] := by
  simp [prepHits, hn.1, hn.2]

section
variable {s : State} {k : Nat} (hs : s.issues k) (h : Hdr) (f : FmtV)
include hs

theorem vprep_off (hpclr : (s.ctx (s.ctxNo s.me)).pclr = false) : exec (.vprep h f) s = .next (s.issued h 2
    [.vec f.vd.toNat (mkVec (srcA s f)) (s.myTile.mask f.mask.toNat)] (some (0, f.vd.toNat))) := by
  change execVprep h f s = _
  refine qWord_result hs ?_
  simp only [hpclr, Bool.not_false, if_true]
  rfl

/-- Where `PCLR` holds, the lanes with poison become the second operand's, counted in one CLEAR entry. -/
theorem vprep_on (hpclr : (s.ctx (s.ctxNo s.me)).pclr = true) :
    let hit := prepHits s f
    let u := if hit = [] then s
      else s.logEntry s.orgC okCLEAR (poisonMerge (hit.flatMap fun n => prepIds f.ty.toNat (srcA s f n))) hit.length
    exec (.vprep h f) s = .next (u.issued h 2
      [.vec f.vd.toNat (mkVec fun n => if hit.contains n then opndB s f n else srcA s f n) (s.myTile.mask f.mask.toNat)] (some (0, f.vd.toNat))) := by
  have hhit : (List.range 64).filter (fun n => activeL (s.myTile.mask f.mask.toNat) n && (mergeIds (prepIds f.ty.toNat (srcA s f n))).isSome)
      = prepHits s f := by
    simp only [mergeIds_isSome, prepHits]
  change execVprep h f s = _
  refine qWord_result hs ?_
  simp only [hpclr, Bool.not_true, Bool.false_eq_true, if_false, prepId_eq, hhit, poisonMerge_filterMap_mergeIds]
  by_cases hnil : prepHits s f = []
  · simp only [if_pos hnil]
    rfl
  · simp only [if_neg hnil]
    rfl

end

end Sys2Proof.Machine
end

section
/-! SUPPORT. Words with groups of result registers (06_vector_arith.md R151 to R153, 07_vector_data.md R166 to R169): conversion, dequantisation and
quantisation. -/

namespace Sys2Proof.Machine

/-! ### Groups of registers -/

/-- The elements of one of several result lanes. -/
theorem take_drop_range {α : Type} (E : Nat → α) {m a n : Nat} (h : a + n ≤ m) :
    (((List.range m).map E).drop a).take n = (List.range n).map fun e => E (a + e) := by
  apply List.ext_getElem
  · simp
    omega
  · intro i hi hi'
    simp

/-- Lane n of register j of a group. -/
theorem groupLane_at (act : BitVec 64) (row : Nat → List Lane) {n j : Nat} (hn : n < 64) (hact : activeL act n = true) :
    Vec.at (((List.range 64).map fun i => if activeL act i then row i else []).map fun r => r.getD j Lane.zero) n = (row n).getD j Lane.zero := by
  simp [Vec.at, hn, hact]

/-! ### Conversion (R151 to R153) -/

/-- The exact value of an element to convert. -/
def cvtEx (st : Nat) (fv : FV) (iv : Int) : Ex := if isIntTy st then exInt iv else fExact fv

/-- What an element to convert is taken as: a float, or an integer of a poisoned lane. -/
def cvtSrcs (st : Nat) (fv : FV) (l : Lane) : List FV := if isIntTy st then (if l.tag then [.poison l.id] else []) else [fv]

/-- The origin of an overflow (R42, R153). -/
def cvtOwn (st dt : Nat) (ovp : Bool) (md : Mode) (fv : FV) (iv : Int) : Option Nat :=
  if isIntTy dt = false ∧ ovp = true ∧ (roundEx (fmtOfTy dt) md (cvtEx st fv iv)).2 = true then some okOVF else none

/-- The integer that an element converts to, before it is clamped. -/
def cvtInt (st : Nat) (md : Mode) (fv : FV) (iv : Int) : Int :=
  if isIntTy st then iv else match fv with
    | .inf neg => if neg then -(2 ^ 40) else 2 ^ 40
    | v => (roundInt md (fExact v)).getD 0

/-- The bits that an element converts to. -/
def cvtVal (st dt : Nat) (md : Mode) (fv : FV) (iv : Int) : Nat :=
  if isIntTy dt then wrapN (elemW dt) (clampTy dt (cvtInt st md fv iv)) else (roundEx (fmtOfTy dt) md (cvtEx st fv iv)).1

/-- The rounded value, or the origin of its overflow. -/
theorem overflow_eq (s : State) (f : Fmt) (ovp : Bool) (md : Mode) (ex : Ex) {xs : List FV} (h : xs.all FV.ordinary = true) :
    (if (roundEx f md ex).2 && ovp then ((s.newOrigin s.orgC okOVF).1, Elt.pois (s.newOrigin s.orgC okOVF).2) else (s, .val (roundEx f md ex).1))
      = (s.taking (eltKinds xs (if ovp = true ∧ (roundEx f md ex).2 = true then some okOVF else none)),
        Elt.of (s.eltIds xs (if ovp = true ∧ (roundEx f md ex).2 = true then some okOVF else none)) (roundEx f md ex).1) := by
  rw [eltKinds_ordinary h, s.eltIds_ordinary h]
  cases ovp <;> cases (roundEx f md ex).2 <;> simp

theorem cvtElem_eq (s : State) (st dt : Nat) (ovp : Bool) (md : Mode) (fv : FV) (iv : Int) (l : Lane) :
    cvtElem s st dt ovp md fv iv (if l.tag then some l.id else none) = (s.taking (eltKinds (cvtSrcs st fv l) (cvtOwn st dt ovp md fv iv)),
      Elt.of (s.eltIds (cvtSrcs st fv l) (cvtOwn st dt ovp md fv iv)) (cvtVal st dt md fv iv)) := by
  by_cases hst : isIntTy st = true
  · by_cases htag : l.tag = true
    · have hpois : ¬ [FV.poison l.id].all FV.ordinary = true := by simp [FV.ordinary]
      simp only [cvtElem, cvtSrcs, hst, htag, if_true, eltKinds_poisoned hpois, State.eltIds_poisoned _ hpois]
      rfl
    · simp only [cvtElem, cvtSrcs, hst, htag, if_true, Bool.false_eq_true, if_false]
      by_cases hdt : isIntTy dt = true
      · simp [hdt, cvtOwn, cvtVal, cvtInt, hst, eltKinds, State.eltIds]
      · simpa [hdt, cvtOwn, cvtVal, cvtEx, hst] using overflow_eq s (fmtOfTy dt) ovp md (exInt iv) (xs := []) rfl
  · have hsrcs : cvtSrcs st fv l = [fv] := if_neg hst
    rw [hsrcs]
    unfold cvtElem
    rw [if_neg hst, consume_eq]
    by_cases hord : [fv].all FV.ordinary = true
    · have hids := (s.idsOf_eq_nil [fv]).mpr hord
      by_cases hdt : isIntTy dt = true
      · have hown : cvtOwn st dt ovp md fv iv = none := if_neg (by simp [hdt])
        rw [hown, eltKinds_ordinary hord, s.eltIds_ordinary hord]
        cases fv with
        | fin => simp [hids, hdt, cvtVal, cvtInt, hst]
        | inf neg => simp [hids, hdt, cvtVal, cvtInt, hst]
        | poison => cases hord
        | quiet => cases hord
        | signalling => cases hord
      · have hround := overflow_eq s (fmtOfTy dt) ovp md (fExact fv) hord
        simpa [hids, hdt, cvtOwn, cvtVal, cvtEx, hst] using hround
    · have hids := mt (s.idsOf_eq_nil [fv]).mp hord
      rw [eltKinds_poisoned hord, s.eltIds_poisoned hord, Elt.of_ne hids]
      exact if_pos hids

/-- A word computed lane by lane into k registers. -/
theorem grouped_of_rows {s : State} {t : Nat} (hs : s.issues t) {i : Instr} {h : Hdr} {lat vd k ty w : Nat} {act : BitVec 64}
    {kinds ids : Nat → Nat → List Nat} {val : Nat → Nat → Nat} {body : State → QRes} (hex : exec i s = qWord h s body)
    {row : State → Nat → State × List Lane}
    (hbody : body s = groupRes (rowsM act row (List.range 64) s).1 lat vd k act (rowsM act row (List.range 64) s).2)
    (hrow : ∀ n, n < 64 → activeL act n = true → row (s.upTo act w kinds n 0) n = (s.upTo act w kinds n w, (List.range k).map fun j =>
      packCvt ty ((List.range (elems ty)).map fun e => Elt.of (ids n (j * elems ty + e)) (val n (j * elems ty + e))))) :
    s.grouped i h lat vd k ty w act kinds ids val := by
  have hrows := (rowsM_eq_threadM act row (List.range 64) s).trans (threadM_upTo hrow)
  simp only [hrows] at hbody
  refine State.grouped_of_lanes (hex.trans (qWord_result hs hbody)) fun n j hn hact hj => (groupLane_at act _ hn hact).trans ?_
  simp [hj]

section
variable (s : State) (g : FmtVX)

/-- The source lane of element e that a conversion reaches in lane n, and the element as a float and as an integer. -/
def cvtSrcLane (n e : Nat) : Lane := (s.myTile.v (g.va.toNat + e / elems g.ty.toNat)).at n
def cvtFV (n e : Nat) : FV := fElem g.ty.toNat (cvtSrcLane s g n e) (e % elems g.ty.toNat)
def cvtIV (n e : Nat) : Int := iElem g.ty.toNat (cvtSrcLane s g n e).bits (e % elems g.ty.toNat)

def cvtSrcsAt (n e : Nat) : List FV := cvtSrcs g.ty.toNat (cvtFV s g n e) (cvtSrcLane s g n e)
def cvtOwnAt (n e : Nat) : Option Nat := cvtOwn g.ty.toNat g.dty.toNat g.ovp (s.modeAt g.rm n e) (cvtFV s g n e) (cvtIV s g n e)
def cvtValAt (n e : Nat) : Nat := cvtVal g.ty.toNat g.dty.toNat (s.modeAt g.rm n e) (cvtFV s g n e) (cvtIV s g n e)

end

/-- Elements that a lane converts, counted through the registers of the wider side. -/
def cvtWidth (g : FmtVX) : Nat := max (elems g.ty.toNat) (elems g.dty.toNat)

theorem cvtOf_eq {s t : State} (ht : s.SameWords t) (g : FmtVX) (n e : Nat) :
    cvtOf t g n e (cvtSrcLane s g n e) (e % elems g.ty.toNat) = (t.taking (eltKinds (cvtSrcsAt s g n e) (cvtOwnAt s g n e)),
      Elt.of (t.eltIds (cvtSrcsAt s g n e) (cvtOwnAt s g n e)) (cvtValAt s g n e)) := by
  rw [cvtOf, ht.modeAt, cvtElem_eq]
  rfl

/-- A lane of a conversion goes through its elements and packs them by registers. -/
theorem cvtLane_eq (s : State) (g : FmtVX) (act : BitVec 64) (n : Nat) :
    let kinds := fun n e => eltKinds (cvtSrcsAt s g n e) (cvtOwnAt s g n e)
    cvtLane (s.upTo act (cvtWidth g) kinds n 0) g n = (s.upTo act (cvtWidth g) kinds n (cvtWidth g),
      (List.range (max 1 (elems g.ty.toNat / elems g.dty.toNat))).map fun j => packCvt g.dty.toNat ((List.range (elems g.dty.toNat)).map fun e =>
        s.eltAt act (cvtWidth g) (cvtSrcsAt s g) (cvtOwnAt s g) (cvtValAt s g) n (j * elems g.dty.toNat + e))) := by
  intro kinds
  have hsame (e : Nat) := State.SameWords.upTo s act (cvtWidth g) kinds n e
  have hcell (e : Nat) := cvtOf_eq (hsame e) g n e
  by_cases hlt : elems g.dty.toNat < elems g.ty.toNat
  · have hwidth : cvtWidth g = elems g.ty.toNat := max_eq_left hlt.le
    have hregs : max 1 (elems g.ty.toNat / elems g.dty.toNat) = elems g.ty.toNat / elems g.dty.toNat :=
      max_eq_right (Nat.div_pos hlt.le (elems_pos _))
    have helts := eltsM_upTo (s := s) (act := act) (w := cvtWidth g) (kinds := kinds) (n := n)
      (g := fun t e => cvtOf t g n e ((s.myTile.v g.va.toNat).at n) e) fun e he => by
        have hsrc := hcell e
        rwa [cvtSrcLane, Nat.div_eq_of_lt (hwidth ▸ he), Nat.mod_eq_of_lt (hwidth ▸ he), Nat.add_zero] at hsrc
    have hrange : List.range (elems g.ty.toNat) = List.range (cvtWidth g) := by rw [hwidth]
    simp only [cvtLane, if_pos hlt, (hsame 0).v, Nat.add_zero, hrange, helts, hregs]
    refine congrArg (Prod.mk _) (List.map_congr_left fun j hj => congrArg (packCvt _) (take_drop_range _ ?_))
    calc j * elems g.dty.toNat + elems g.dty.toNat = (j + 1) * elems g.dty.toNat := by ring
      _ ≤ elems g.ty.toNat / elems g.dty.toNat * elems g.dty.toNat := Nat.mul_le_mul_right _ (List.mem_range.mp hj)
      _ ≤ elems g.ty.toNat := Nat.div_mul_le_self _ _
      _ = cvtWidth g := hwidth.symm
  · have hwidth : cvtWidth g = elems g.dty.toNat := max_eq_right (not_lt.mp hlt)
    have hregs : max 1 (elems g.ty.toNat / elems g.dty.toNat) = 1 :=
      max_eq_left ((Nat.div_le_div_right (not_lt.mp hlt)).trans (Nat.div_self (elems_pos _)).le)
    have helts := eltsM_upTo (s := s) (act := act) (w := cvtWidth g) (kinds := kinds) (n := n)
      (g := fun t e => cvtOf t g n e (cvtSrcLane s g n e) (e % elems g.ty.toNat)) fun e _ => hcell e
    simp only [cvtSrcLane] at helts
    have hrange : List.range (elems g.dty.toNat) = List.range (cvtWidth g) := by rw [hwidth]
    simp only [cvtLane, if_neg hlt, (hsame 0).v, hrange, helts, hregs, List.range_one, List.map_cons, List.map_nil, Nat.zero_mul, Nat.zero_add]
    rfl

section
variable {s : State} {k : Nat} (hs : s.issues k) (h : Hdr) (g : FmtVX)
include hs

/-- The group of registers that a conversion writes, through all its elements. -/
theorem vcvt_consumes :
    s.consumes (.vcvt h g) h 4 g.vd.toNat (max 1 (elems g.ty.toNat / elems g.dty.toNat)) g.dty.toNat (cvtWidth g) (s.myTile.mask g.mask.toNat)
      (cvtSrcsAt s g) (cvtOwnAt s g) (cvtValAt s g) :=
  grouped_of_rows hs (body := _) (show execVcvt h g s = _ from rfl) rfl fun n _ _ => cvtLane_eq s g _ n

end

end Sys2Proof.Machine
end

section
/-! SUPPORT. Dequantisation (07_vector_data.md R166, R169): blocks under a code, a poison block, and a foreign poison block with one origin for all of
its elements. -/

namespace Sys2Proof.Machine

/-- The states within a lane. -/
theorem State.upTo_in_lane (s : State) (act : BitVec 64) (w : Nat) (kinds : Nat → Nat → List Nat) (n e : Nat) :
    s.upTo act w kinds n e = (s.upTo act w kinds n 0).taking ((List.range e).flatMap (kinds n)) := by
  rw [State.upTo, State.upTo, ← State.taking_append, List.range_zero, List.flatMap_nil, List.append_nil]

theorem activeL_allOnes {n : Nat} (h : n < 64) : activeL (BitVec.allOnes 64) n = true := by
  rw [activeL, BitVec.getLsbD_allOnes]
  exact decide_eq_true h

/-- A list at the first of several elements is the whole of it. -/
theorem flatMap_first (p : Prop) [Decidable p] (l : List Nat) {w : Nat} (hw : 0 < w) :
    (List.range w).flatMap (fun e => if p ∧ e = 0 then l else []) = if p then l else [] := by
  obtain ⟨w, rfl⟩ := Nat.exists_eq_succ_of_ne_zero hw.ne'
  rw [List.range_succ_eq_map, List.flatMap_cons, List.flatMap_map]
  simp

theorem FV.scale_ordinary {v : FV} (h : v.ordinary = true) (k : Int) : (fExact (v.scale k)).own = none := by
  cases v with
  | fin neg m e =>
    simp only [FV.scale, fExact, exDyadic]
    split_ifs <;> rfl
  | inf neg => rfl
  | poison => cases h
  | quiet => cases h
  | signalling => cases h

theorem elems_of_small {ty : Nat} (h : ty = 3 ∨ ty = 5) : elems ty = 4 ∨ elems ty = 8 := by
  rcases h with rfl | rfl <;> decide

section
variable (s : State) (g : FmtVX)

/-- The source lane n of a dequantisation, and the scale of its block. -/
def dqSrc (n : Nat) : Lane := (s.myTile.v g.va.toNat).at n
def dqScale (n : Nat) : Scale := scaleOf ((s.myTile.v g.vb.toNat).at (n * elems g.ty.toNat / 32))

/-- The origins that element e of lane n makes: a foreign poison block makes one, at its first element. -/
def dqKinds (n e : Nat) : List Nat :=
  match dqScale s g n with
  | .foreign => if n * elems g.ty.toNat % 32 = 0 ∧ e = 0 then [okFOREIGN] else []
  | .pois _ => []
  | .code _ => eltKinds [fElem g.ty.toNat (dqSrc s g n) e] none

/-- The state in which an element is reached. -/
abbrev dqState (n e : Nat) : State := s.upTo (BitVec.allOnes 64) (elems g.ty.toNat) (dqKinds s g) n e

/-- The id of the origin that block b makes when it is foreign. -/
def dqBlockId (b : Nat) : Nat :=
  ((dqState s g (b * 32 / elems g.ty.toNat) 0).newOrigin (dqState s g (b * 32 / elems g.ty.toNat) 0).orgC okFOREIGN).2

/-- The ids of an element, and its value. -/
def dqIds (n e : Nat) : List Nat :=
  match dqScale s g n with
  | .foreign => [dqBlockId s g (n * elems g.ty.toNat / 32)]
  | .pois id => [id]
  | .code _ => (dqState s g n e).eltIds [fElem g.ty.toNat (dqSrc s g n) e] none
def dqVal (n e : Nat) : Nat :=
  match dqScale s g n with
  | .code c => (roundEx (fmtOfTy g.dty.toNat) (s.modeAt g.rm n e) (fExact ((fElem g.ty.toNat (dqSrc s g n) e).scale ((c : Int) - 127)))).1
  | _ => 0

/-- The elements of lane n. -/
def dqElts (n : Nat) : List Elt := (List.range (elems g.ty.toNat)).map fun e => Elt.of (dqIds s g n e) (dqVal s g n e)

/-- The foreign block met last when lane n is reached: one that has begun; and that of lane n itself when it is within one. -/
structure DqMet (n : Nat) (fb : Option (Nat × Nat)) : Prop where
  begun : ∀ x ∈ fb, 32 * x.1 < n * elems g.ty.toNat
  within : n * elems g.ty.toNat % 32 ≠ 0 → dqScale s g n = .foreign →
    fb = some (n * elems g.ty.toNat / 32, dqBlockId s g (n * elems g.ty.toNat / 32))

end

theorem DqMet.mono {s : State} {g : FmtVX} {n : Nat} {fb : Option (Nat × Nat)} (h : DqMet s g n fb) :
    ∀ x ∈ fb, 32 * x.1 < (n + 1) * elems g.ty.toNat := fun x hx =>
  (h.begun x hx).trans_le (Nat.mul_le_mul_right _ (Nat.le_succ n))

section
variable {s : State} {g : FmtVX} (hsc : elems g.ty.toNat = 4 ∨ elems g.ty.toNat = 8) {n : Nat}
include hsc

/-- Lanes of one block have one scale. -/
theorem dqScale_succ (h : (n + 1) * elems g.ty.toNat % 32 ≠ 0) : (n + 1) * elems g.ty.toNat / 32 = n * elems g.ty.toNat / 32 := by
  rcases hsc with hsc | hsc <;> rw [hsc] at h ⊢ <;> omega

theorem dqBlock_first (h : n * elems g.ty.toNat % 32 = 0) : n * elems g.ty.toNat / 32 * 32 / elems g.ty.toNat = n := by
  rcases hsc with hsc | hsc <;> rw [hsc] at h ⊢ <;> omega

/-- What has been met stays met, and within its block a foreign one is the last. -/
theorem DqMet.succ {fb' : Option (Nat × Nat)} (hbegun : ∀ x ∈ fb', 32 * x.1 < (n + 1) * elems g.ty.toNat)
    (hwithin : dqScale s g n = .foreign → fb' = some (n * elems g.ty.toNat / 32, dqBlockId s g (n * elems g.ty.toNat / 32))) :
    DqMet s g (n + 1) fb' := by
  refine ⟨hbegun, fun hin hscale => ?_⟩
  rw [dqScale_succ hsc hin]
  refine hwithin ?_
  rwa [dqScale, dqScale_succ hsc hin] at hscale

/-- One lane: its elements, from the state in which it is reached, and the foreign block met last after it. -/
theorem dqLane_eq (hn : n < 64) {fb : Option (Nat × Nat)} (hfb : DqMet s g n fb) :
    ∃ fb', dqLane g (dqState s g n 0) n fb = (dqState s g (n + 1) 0, dqElts s g n, fb') ∧ DqMet s g (n + 1) fb' := by
  have hsame (e : Nat) := State.SameWords.upTo s (BitVec.allOnes 64) (elems g.ty.toNat) (dqKinds s g) n e
  have hlane : dqState s g (n + 1) 0 = dqState s g n (elems g.ty.toNat) := State.upTo_next_lane s _ _ _ (activeL_allOnes hn)
  have hkept (e : Nat) : dqState s g n e = (dqState s g n 0).taking ((List.range e).flatMap (dqKinds s g n)) := State.upTo_in_lane s _ _ _ n e
  cases hscale : dqScale s g n with
  | pois id =>
    have hkinds : (List.range (elems g.ty.toNat)).flatMap (dqKinds s g n) = [] :=
      List.flatMap_eq_nil_iff.mpr fun e _ => by rw [dqKinds, hscale]
    have helts : dqElts s g n = List.replicate (elems g.ty.toNat) (.pois id) := by simp [dqElts, dqIds, hscale]
    refine ⟨fb, ?_, DqMet.succ hsc hfb.mono fun hf => absurd (hscale.symm.trans hf) (by simp)⟩
    rw [hlane, hkept (elems g.ty.toNat), hkinds, State.taking_nil, helts]
    rw [dqScale] at hscale
    simp only [dqLane, (hsame 0).v, hscale]
  | foreign =>
    have helts : dqElts s g n = List.replicate (elems g.ty.toNat) (.pois (dqBlockId s g (n * elems g.ty.toNat / 32))) := by
      simp [dqElts, dqIds, hscale]
    have hkinds : dqKinds s g n = fun e => if n * elems g.ty.toNat % 32 = 0 ∧ e = 0 then [okFOREIGN] else [] :=
      funext fun e => by rw [dqKinds, hscale]
    rw [hlane, hkept (elems g.ty.toNat), hkinds, flatMap_first _ _ (elems_pos _), helts]
    have hscale' := hscale
    rw [dqScale] at hscale'
    by_cases hfirst : n * elems g.ty.toNat % 32 = 0
    · have hid : dqBlockId s g (n * elems g.ty.toNat / 32) = ((dqState s g n 0).newOrigin (dqState s g n 0).orgC okFOREIGN).2 := by
        rw [dqBlockId, dqBlock_first hsc hfirst]
      refine ⟨some (n * elems g.ty.toNat / 32, dqBlockId s g (n * elems g.ty.toNat / 32)), ?_,
        DqMet.succ hsc (fun x hx => ?_) fun _ => rfl⟩
      · rw [if_pos hfirst, hid]
        cases fb with
        | none => simp only [dqLane, (hsame 0).v, hscale']; rfl
        | some x =>
          have hne : ¬ x.1 = n * elems g.ty.toNat / 32 := by have := hfb.begun x rfl; omega
          simp only [dqLane, (hsame 0).v, hscale', if_neg hne]
          rfl
      · obtain rfl := Option.mem_some_iff.mp hx
        have hpos := elems_pos g.ty.toNat
        have hsucc := Nat.add_one_mul n (elems g.ty.toNat)
        dsimp only
        omega
    · refine ⟨fb, ?_, DqMet.succ hsc hfb.mono fun hf => hfb.within hfirst hf⟩
      rw [if_neg hfirst, State.taking_nil, hfb.within hfirst hscale]
      simp only [dqLane, (hsame 0).v, hscale', if_true]
  | code c =>
    refine ⟨fb, ?_, DqMet.succ hsc hfb.mono fun hf => absurd (hscale.symm.trans hf) (by simp)⟩
    have helts := eltsM_upTo (s := s) (act := BitVec.allOnes 64) (w := elems g.ty.toNat) (kinds := dqKinds s g) (n := n)
      (g := fun t e => arith t t.orgC (fmtOfTy g.dty.toNat) (t.modeAt g.rm n e) [fElem g.ty.toNat (dqSrc s g n) e]
        (fExact ((fElem g.ty.toNat (dqSrc s g n) e).scale ((c : Int) - 127))))
      (r := fun e => Elt.of (dqIds s g n e) (dqVal s g n e)) fun e _ => by
        have hown (hord : [fElem g.ty.toNat (dqSrc s g n) e].all FV.ordinary = true) :
            (fExact ((fElem g.ty.toNat (dqSrc s g n) e).scale ((c : Int) - 127))).own = none :=
          FV.scale_ordinary (by simpa using hord) _
        rw [arith_eq, (hsame e).modeAt, eltKinds_congr hown, State.eltIds_congr _ hown]
        simp only [dqKinds, dqIds, dqVal, hscale]
    rw [hlane]
    rw [dqScale] at hscale
    simp only [dqLane, (hsame 0).v, hscale]
    exact congrArg (fun x : State × List Elt => (x.1, x.2, fb)) helts

/-- The registers' lanes that a lane of elements fills. -/
def dqRow (s : State) (g : FmtVX) (n : Nat) : List Lane :=
  (List.range (elems g.ty.toNat / elems g.dty.toNat)).map fun j =>
    packCvt g.dty.toNat (((dqElts s g n).drop (j * elems g.dty.toNat)).take (elems g.dty.toNat))

/-- One turn of the loop over the lanes. -/
def dqStep (g : FmtVX) (x : State × List (List Lane) × Option (Nat × Nat)) (n : Nat) : State × List (List Lane) × Option (Nat × Nat) :=
  let y := dqLane g x.1 n x.2.2
  (y.1, x.2.1 ++ [(List.range (elems g.ty.toNat / elems g.dty.toNat)).map fun j =>
    packCvt g.dty.toNat ((y.2.1.drop (j * elems g.dty.toNat)).take (elems g.dty.toNat))], y.2.2)

theorem foldl_dqStep {m : Nat} (hm : m ≤ 64) :
    ∃ fb, (List.range m).foldl (dqStep g) (s, [], none) = (dqState s g m 0, (List.range m).map (dqRow s g), fb) ∧ DqMet s g m fb := by
  induction m with
  | zero => exact ⟨none, rfl, fun _ hx => absurd hx (Option.not_mem_none _), fun h => absurd (by simp) h⟩
  | succ m ih =>
    obtain ⟨fb, hfold, hfb⟩ := ih (by omega)
    obtain ⟨fb', hlane, hfb'⟩ := dqLane_eq hsc (n := m) hm hfb
    refine ⟨fb', ?_, hfb'⟩
    rw [List.range_succ, List.foldl_append, hfold, List.map_append, List.foldl_cons, List.foldl_nil, dqStep]
    simp only [hlane]
    rfl

omit hsc in
theorem dqLane_slice {n j : Nat} (hj : j < elems g.ty.toNat / elems g.dty.toNat) :
    (dqRow s g n).getD j Lane.zero = packCvt g.dty.toNat ((List.range (elems g.dty.toNat)).map fun e =>
      Elt.of (dqIds s g n (j * elems g.dty.toNat + e)) (dqVal s g n (j * elems g.dty.toNat + e))) := by
  have hfit : j * elems g.dty.toNat + elems g.dty.toNat ≤ elems g.ty.toNat :=
    calc j * elems g.dty.toNat + elems g.dty.toNat = (j + 1) * elems g.dty.toNat := by ring
      _ ≤ elems g.ty.toNat / elems g.dty.toNat * elems g.dty.toNat := Nat.mul_le_mul_right _ hj
      _ ≤ elems g.ty.toNat := Nat.div_mul_le_self _ _
  rw [← take_drop_range (fun e => Elt.of (dqIds s g n e) (dqVal s g n e)) hfit]
  simp [dqRow, hj, dqElts]

omit hsc in
/-- The word issues from the state that its loop leaves, with the rows of its lanes. -/
theorem vmdq_of_loop {k : Nat} (hs : s.issues k) (h : Hdr) {r : State × List (List Lane) × Option (Nat × Nat)}
    (hloop : (List.range 64).foldl (dqStep g) (s, [], none) = r) :
    exec (.vmdq h g) s = .next (r.1.issued h 6 ((List.range (elems g.ty.toNat / elems g.dty.toNat)).map fun j =>
      .vec (g.vd.toNat + j) (r.2.1.map fun row => row.getD j Lane.zero) (BitVec.allOnes 64))
      (some (1, g.vd.toNat + elems g.ty.toNat / elems g.dty.toNat - 1))) := by
  have hturns : (List.range 64).foldl (fun (x : State × List (List Lane) × Option (Nat × Nat)) i =>
      let y := dqLane g x.1 i x.2.2
      (y.1, x.2.1 ++ [(List.range (elems g.ty.toNat / elems g.dty.toNat)).map fun j =>
        packCvt g.dty.toNat ((y.2.1.drop (j * elems g.dty.toNat)).take (elems g.dty.toNat))], y.2.2)) (s, [], none) = r := hloop
  change execVmdq h g s = _
  refine qWord_result hs ?_
  simp only [hturns]
  rfl

theorem vmdq_grouped {k : Nat} (hs : s.issues k) (h : Hdr) :
    s.grouped (.vmdq h g) h 6 g.vd.toNat (elems g.ty.toNat / elems g.dty.toNat) g.dty.toNat (elems g.ty.toNat) (BitVec.allOnes 64)
      (dqKinds s g) (dqIds s g) (dqVal s g) := by
  obtain ⟨fb, hloop, -⟩ := foldl_dqStep (s := s) hsc (m := 64) le_rfl
  have hex := vmdq_of_loop hs h hloop
  refine State.grouped_of_lanes hex fun n j hn hact hj => Eq.trans ?_ (dqLane_slice hj)
  simp [Vec.at, hn]

end

end Sys2Proof.Machine
end

section
/-! SUPPORT. Quantisation (07_vector_data.md R168): the code of a block, its elements, and its poison. -/

namespace Sys2Proof.Machine

/-! ### The code of a block -/

theorem fitsCode_eq_under (neg : Bool) (m : Nat) (e : Int) (maxf c : Nat) : fitsCode m e maxf c = (FV.fin neg m e).under maxf (127 - c) := by
  have hexp : e + 127 - (c : Int) = e + (127 - c) := by ring
  rw [fitsCode, FV.under, hexp]
  split_ifs with h
  · rw [Int.toNat_of_nonpos (by omega : -(e + (127 - (c : Int))) ≤ 0), pow_zero, Nat.mul_one]
  · rw [Int.toNat_of_nonpos (by omega : e + (127 - (c : Int)) ≤ 0), pow_zero, Nat.mul_one]

/-- A value within the range stays within it when scaled down. -/
theorem FV.under_of_le {maxf : Nat} {v : FV} {j k : Int} (hjk : j ≤ k) (h : v.under maxf k = true) : v.under maxf j = true := by
  cases v with
  | fin neg m e =>
    simp only [FV.under, decide_eq_true_eq] at h ⊢
    have hup : (e + j).toNat ≤ (e + k).toNat := Int.toNat_le_toNat (by omega)
    have hdown : (-(e + k)).toNat ≤ (-(e + j)).toNat := Int.toNat_le_toNat (by omega)
    calc m * 2 ^ (e + j).toNat ≤ m * 2 ^ (e + k).toNat := by gcongr; decide
      _ ≤ maxf * 2 ^ (-(e + k)).toNat := h
      _ ≤ maxf * 2 ^ (-(e + j)).toNat := by gcongr; decide
  | inf => cases h
  | poison => cases h
  | quiet => cases h
  | signalling => cases h

/-- Every element of a block is within the range under a code. -/
def codeFits (maxf : Nat) (vs : List FV) (c : Nat) : Bool := vs.all fun v => v.under maxf (127 - c)

theorem codeFits_mono {maxf : Nat} {vs : List FV} {c d : Nat} (hcd : c ≤ d) (h : codeFits maxf vs c = true) : codeFits maxf vs d = true :=
  List.all_eq_true.mpr fun v hv => FV.under_of_le (by omega) (List.all_eq_true.mp h v hv)

theorem blockCode_eq (maxf : Nat) (vs : List FV) : blockCode maxf vs = ((List.range 255).find? (codeFits maxf vs)).getD 254 := by
  refine congrArg (fun p => ((List.range 255).find? p).getD 254) (funext fun c => ?_)
  refine congrArg vs.all (funext fun v => ?_)
  cases v with
  | fin neg m e => exact fitsCode_eq_under neg m e maxf c
  | inf => rfl
  | poison => rfl
  | quiet => rfl
  | signalling => rfl

/-- The code is the smallest that fits, and 254 when none does. -/
theorem blockCode_spec (maxf : Nat) (vs : List FV) :
    blockCode maxf vs ≤ 254 ∧ (codeFits maxf vs (blockCode maxf vs) = true ∨ blockCode maxf vs = 254)
      ∧ ∀ z, z < blockCode maxf vs → codeFits maxf vs z = false := by
  rw [blockCode_eq]
  cases hfind : (List.range 255).find? (codeFits maxf vs) with
  | none =>
    rw [List.find?_eq_none] at hfind
    refine ⟨le_rfl, .inr rfl, fun z hz => ?_⟩
    exact Bool.eq_false_iff.mpr (hfind z (List.mem_range.mpr (Nat.lt_succ_of_lt hz)))
  | some c =>
    obtain ⟨hfits, hc, hbelow⟩ := List.find?_range_eq_some.mp hfind
    refine ⟨Nat.le_of_lt_succ (List.mem_range.mp hc), .inl hfits, fun z hz => ?_⟩
    simpa using hbelow z hz

/-- An element is out of range under the block's code exactly when one is under 254. -/
theorem codeFits_blockCode (maxf : Nat) (vs : List FV) : codeFits maxf vs (blockCode maxf vs) = codeFits maxf vs 254 := by
  obtain ⟨hle, hfits, -⟩ := blockCode_spec maxf vs
  rcases hfits with hfits | hlast
  · rw [hfits, codeFits_mono hle hfits]
  · rw [hlast]

/-! ### An element -/

theorem quantElem_clamped (dt : Nat) (md : Mode) (c : Nat) {v : FV} (hv : v.ordinary = true) :
    (quantElem dt md c v).2 = !v.under (maxfOf dt) (127 - c) := by
  cases v with
  | fin neg m e =>
    rw [quantElem, ← fitsCode_eq_under]
    cases hfits : fitsCode m e (maxfOf dt) c <;> simp
  | inf => rfl
  | poison => cases hv
  | quiet => cases hv
  | signalling => cases hv

/-- The value of an element: rounded when it is within the range, or else the largest. -/
theorem quantElem_val (dt : Nat) (md : Mode) (c : Nat) {v : FV} (hv : v.ordinary = true) :
    (quantElem dt md c v).1 = if v.under (maxfOf dt) (127 - c) then (roundEx (fmtOfTy dt) md (fExact (v.scale (127 - c)))).1
      else (fmtOfTy dt).maxBits v.isNeg := by
  cases v with
  | fin neg m e =>
    have hexp : e + 127 - (c : Int) = e + (127 - c) := by ring
    rw [quantElem, fitsCode_eq_under neg, hexp, FV.scale, fExact, FV.isNeg]
    split_ifs <;> rfl
  | inf neg => rfl
  | poison => cases hv
  | quiet => cases hv
  | signalling => cases hv

/-- The largest magnitude of the element types, with a sign. -/
theorem maxBits_mod {dt : Nat} (hdt : dt = 3 ∨ dt = 5) (neg : Bool) :
    (fmtOfTy dt).maxBits neg % 2 ^ elemW dt = if dt = 3 then 0x7E + (if neg then 0x80 else 0) else 7 + if neg then 8 else 0 := by
  obtain rfl | rfl := hdt <;> cases neg <;> rfl

/-! ### A block -/

section
variable (s : State) (g : FmtVX)

/-- Element n of block b. -/
def qSrc (b n : Nat) : FV :=
  fElem g.ty.toNat ((s.myTile.v (g.va.toNat + n % elems g.dty.toNat / elems g.ty.toNat)).at (b * (32 / elems g.dty.toNat) + n / elems g.dty.toNat))
    (n % elems g.dty.toNat % elems g.ty.toNat)

/-- No element of the block starts poison; one is clamped where that is an overflow. -/
def qClean (b : Nat) : Bool := (List.range 32).all fun n => (qSrc s g b n).ordinary
def qClamps (b : Nat) : Bool := g.ovp && (List.range 32).any fun n => !(qSrc s g b n).under (maxfOf g.dty.toNat) (-127)

/-- The origins of a block: those of its elements, or one for its overflow. -/
def qKinds (b n : Nat) : List Nat :=
  if qClean s g b then (if n = 31 ∧ qClamps s g b = true then [okOVF] else []) else (qSrc s g b n).takes

/-- The state in which an element of a block is reached. -/
abbrev qState (b n : Nat) : State := s.upTo (BitVec.allOnes 64) 32 (qKinds s g) b n

/-- The ids of a block. -/
def qIds (b : Nat) : List Nat :=
  if qClean s g b then (if qClamps s g b then [((qState s g b 31).newOrigin (qState s g b 31).orgC okOVF).2] else [])
  else (qState s g b 0).idsOf ((List.range 32).map (qSrc s g b))

/-- The code of a block without poison. -/
def qCode (b : Nat) : Nat := blockCode (maxfOf g.dty.toNat) ((List.range 32).map (qSrc s g b))

/-- Element n of a block without poison, as bits and whether it was clamped. -/
def qElem (b n : Nat) : Nat × Bool :=
  quantElem g.dty.toNat (s.modeAt g.rm (b * (32 / elems g.dty.toNat) + n / elems g.dty.toNat) (n % elems g.dty.toNat)) (qCode s g b) (qSrc s g b n)

/-- The element lanes and the scale lane of block b. -/
def qBlock (b : Nat) : List Lane × Lane :=
  if qIds s g b = [] then
    ((List.range (32 / elems g.dty.toNat)).map fun j => ⟨BitVec.ofNat 32 (packBits (elemW g.dty.toNat)
        (((((List.range 32).map (qElem s g b)).map Prod.fst).drop (j * elems g.dty.toNat)).take (elems g.dty.toNat))), false⟩,
      ⟨BitVec.ofNat 32 (qCode s g b), false⟩)
  else poisonBlock (32 / elems g.dty.toNat) (poisonMerge (qIds s g b))

end

section
variable {s : State} {g : FmtVX} {b : Nat}

theorem qSrc_ordinary (h : qClean s g b = true) {n : Nat} (hn : n < 32) : (qSrc s g b n).ordinary = true :=
  List.all_eq_true.mp h n (List.mem_range.mpr hn)

/-- Some element was clamped: under the block's code as under 254. -/
theorem qElem_any (h : qClean s g b = true) :
    ((List.range 32).map (qElem s g b)).any Prod.snd = (List.range 32).any fun n => !(qSrc s g b n).under (maxfOf g.dty.toNat) (-127) := by
  have hall (c : Nat) : (List.range 32).any (fun n => !(qSrc s g b n).under (maxfOf g.dty.toNat) (127 - c))
      = !codeFits (maxfOf g.dty.toNat) ((List.range 32).map (qSrc s g b)) c := by
    rw [codeFits, List.all_map, List.not_all_eq_any_not]
    rfl
  have hcode : ((List.range 32).map (qElem s g b)).any Prod.snd
      = (List.range 32).any fun n => !(qSrc s g b n).under (maxfOf g.dty.toNat) (127 - (qCode s g b : Nat)) := by
    rw [List.any_map]
    refine Bool.eq_iff_iff.mpr ?_
    simp only [List.any_eq_true, List.mem_range, Function.comp_apply]
    refine exists_congr fun n => and_congr_right fun hn => ?_
    rw [qElem, quantElem_clamped _ _ _ (qSrc_ordinary h hn)]
  rw [hcode, hall, qCode, codeFits_blockCode, ← hall]
  rfl

theorem qState_succ (hb : b < 64) : qState s g (b + 1) 0 = (qState s g b 0).taking ((List.range 32).flatMap (qKinds s g b)) :=
  (State.upTo_next_lane s _ _ _ (activeL_allOnes hb)).trans (State.upTo_in_lane s _ _ _ b 32)

/-- A block that starts no poison makes its origin at its last element. -/
theorem qState_clean (h : qClean s g b = true) : qState s g b 31 = qState s g b 0 := by
  have hnone : (List.range 31).flatMap (qKinds s g b) = [] := by
    refine List.flatMap_eq_nil_iff.mpr fun n hn => ?_
    have hne : n ≠ 31 := (List.mem_range.mp hn).ne
    rw [qKinds, if_pos h, if_neg fun hlast => hne hlast.1]
  rw [qState, State.upTo_in_lane, hnone]
  rfl

theorem qKinds_clean (h : qClean s g b = true) :
    (List.range 32).flatMap (qKinds s g b) = if qClamps s g b = true then [okOVF] else [] := by
  have hkinds : qKinds s g b = fun n => if n = 31 ∧ qClamps s g b = true then [okOVF] else [] := funext fun n => if_pos h
  rw [hkinds]
  cases qClamps s g b <;> rfl

/-- One block: its lanes, from the state in which it is reached. -/
theorem quantBlock_eq (hb : b < 64) : quantBlock g (qState s g b 0) b = (qState s g (b + 1) 0, qBlock s g b) := by
  have hsame := State.SameWords.upTo s (BitVec.allOnes 64) 32 (qKinds s g) b 0
  have hsrc (n : Nat) : fElem g.ty.toNat (((qState s g b 0).myTile.v (g.va.toNat + n % elems g.dty.toNat / elems g.ty.toNat)).at
      (b * (32 / elems g.dty.toNat) + n / elems g.dty.toNat)) (n % elems g.dty.toNat % elems g.ty.toNat) = qSrc s g b n := by
    rw [hsame.v]
    rfl
  have hordinary : ((List.range 32).map (qSrc s g b)).all FV.ordinary = qClean s g b := List.all_map
  unfold quantBlock
  simp only [hsrc, consume_eq]
  by_cases hclean : qClean s g b = true
  · have hids : (qState s g b 0).idsOf ((List.range 32).map (qSrc s g b)) = [] := ((qState s g b 0).idsOf_eq_nil _).mpr (hordinary.trans hclean)
    have htakes := flatMap_takes_ordinary (hordinary.trans hclean)
    have hq : (List.range 32).map (fun n => quantElem g.dty.toNat ((qState s g b 0).modeAt g.rm (b * (32 / elems g.dty.toNat) + n / elems g.dty.toNat)
        (n % elems g.dty.toNat)) (blockCode (maxfOf g.dty.toNat) ((List.range 32).map (qSrc s g b))) (qSrc s g b n)) = (List.range 32).map (qElem s g b) := by
      simp only [hsame.modeAt]
      rfl
    have hcells : (((List.range 32).map (qElem s g b)).any Prod.snd && g.ovp) = qClamps s g b := by
      rw [qElem_any hclean, Bool.and_comm, qClamps]
    have hmine : qIds s g b = if qClamps s g b = true then [((qState s g b 0).newOrigin (qState s g b 0).orgC okOVF).2] else [] := by
      rw [qIds, if_pos hclean, qState_clean hclean]
    rw [hids, htakes, State.taking_nil, if_neg (not_not.mpr rfl), qState_succ hb, qKinds_clean hclean, qBlock, hmine]
    simp only [hq, hcells]
    by_cases hclamps : qClamps s g b = true
    · simp only [if_pos hclamps]
      rfl
    · simp only [if_neg hclamps]
      rfl
  · have hids := mt ((qState s g b 0).idsOf_eq_nil ((List.range 32).map (qSrc s g b))).mp (by rwa [hordinary])
    have hmine : qIds s g b = (qState s g b 0).idsOf ((List.range 32).map (qSrc s g b)) := if_neg hclean
    have hkinds : qKinds s g b = fun n => (qSrc s g b n).takes := funext fun n => if_neg hclean
    rw [if_pos hids, qState_succ hb, hkinds, qBlock, hmine, if_neg hids, List.flatMap_map]

end

/-! ### All blocks -/

theorem length_flatMap_range {α : Type} {B : Nat → List α} {w : Nat} (h : ∀ b, (B b).length = w) (m : Nat) :
    ((List.range m).flatMap B).length = m * w := by
  simp [List.length_flatMap, h]

/-- An entry of blocks of one length, by block and place. -/
theorem getD_flatMap_range {α : Type} {B : Nat → List α} {w : Nat} (h : ∀ b, (B b).length = w) {m b j : Nat} (hb : b < m) (hj : j < w) (d : α) :
    ((List.range m).flatMap B).getD (b * w + j) d = (B b).getD j d := by
  induction m with
  | zero => exact absurd hb (Nat.not_lt_zero b)
  | succ m ih =>
    have hlen := length_flatMap_range h m
    rw [List.range_succ, List.flatMap_append, List.flatMap_singleton]
    obtain hlt | rfl := Nat.lt_succ_iff_lt_or_eq.mp hb
    · have hfit : b * w + j < m * w :=
        calc b * w + j < (b + 1) * w := by rw [Nat.add_one_mul]; omega
          _ ≤ m * w := Nat.mul_le_mul_right w hlt
      rw [List.getD_append _ _ _ _ (hlen ▸ hfit), ih hlt]
    · rw [List.getD_append_right _ _ _ _ (by omega), hlen, Nat.add_sub_cancel_left]

section
variable (s : State) (g : FmtVX)

/-- The element lanes and the scale lanes. -/
def qElemVec : Vec := mkVec fun i => ((List.range (2 * elems g.dty.toNat)).flatMap fun b => (qBlock s g b).1).getD i Lane.zero
def qScaleVec : Vec := mkVec fun i => ((List.range (2 * elems g.dty.toNat)).map fun b => (qBlock s g b).2).getD i Lane.zero

theorem qBlock_length (b : Nat) : (qBlock s g b).1.length = 32 / elems g.dty.toNat := by
  have hpos : 0 < 32 / elems g.dty.toNat := Nat.pos_of_ne_zero fun h => by
    have hmul := elems_mul_elemW g.dty.toNat
    rw [elemW, h] at hmul
    omega
  rw [qBlock]
  split_ifs
  · rw [List.length_map, List.length_range]
  · rw [poisonBlock, List.length_cons, List.length_replicate, Nat.sub_add_cancel hpos]

variable {s g}

theorem elems_le_eight (ty : Nat) : elems ty ≤ 8 := by
  simp only [elems]
  split <;> decide

theorem vmqnt_blocks {k : Nat} (hs : s.issues k) (h : Hdr) : exec (.vmqnt h g) s = .next ((qState s g (2 * elems g.dty.toNat) 0).issued h 6
    [.vec g.vd.toNat (qElemVec s g) (BitVec.allOnes 64), .vec (g.vd.toNat + 1) (qScaleVec s g) (BitVec.allOnes 64)]
    (some (1, g.vd.toNat + 1))) := by
  have hcount : 64 * elems g.dty.toNat / 32 = 2 * elems g.dty.toNat := by omega
  have hblocks : blocksM (quantBlock g) (List.range (64 * elems g.dty.toNat / 32)) s
      = (qState s g (2 * elems g.dty.toNat) 0, (List.range (2 * elems g.dty.toNat)).map (qBlock s g)) := by
    rw [blocksM_eq_threadM, hcount]
    refine threadM_range (S := fun b => qState s g b 0) fun b hb => quantBlock_eq ?_
    have hle := elems_le_eight g.dty.toNat
    omega
  change execVmqnt h g s = _
  refine qWord_result hs ?_
  simp only [hblocks, List.flatMap_map, List.map_map]
  rfl

/-- The lanes of a block. -/
theorem qElemVec_at {b j : Nat} (hb : b < 2 * elems g.dty.toNat) (hj : j < 32 / elems g.dty.toNat) :
    (qElemVec s g).at (b * (32 / elems g.dty.toNat) + j) = (qBlock s g b).1.getD j Lane.zero := by
  have hlane : b * (32 / elems g.dty.toNat) + j < 64 :=
    calc b * (32 / elems g.dty.toNat) + j < (b + 1) * (32 / elems g.dty.toNat) := by rw [Nat.add_one_mul]; omega
      _ ≤ 2 * elems g.dty.toNat * (32 / elems g.dty.toNat) := Nat.mul_le_mul_right _ hb
      _ = 2 * (elemW g.dty.toNat * elems g.dty.toNat) := by rw [elemW]; ring
      _ = 64 := by rw [elems_mul_elemW]
  rw [qElemVec, mkVec_at _ hlane, getD_flatMap_range (qBlock_length s g) hb hj]

theorem qScaleVec_at {b : Nat} (hb : b < 2 * elems g.dty.toNat) : (qScaleVec s g).at b = (qBlock s g b).2 := by
  have hle := elems_le_eight g.dty.toNat
  rw [qScaleVec, mkVec_at _ (by omega)]
  simp [hb]

theorem qScaleVec_rest {n : Nat} (hn : 2 * elems g.dty.toNat ≤ n) (hn64 : n < 64) : (qScaleVec s g).at n = Lane.zero := by
  rw [qScaleVec, mkVec_at _ hn64]
  exact List.getD_eq_default _ _ (by simpa using hn)

/-! ### A block without poison, and a poison block -/

theorem qClean_of_ids {b : Nat} (h : qIds s g b = []) : qClean s g b = true := by
  by_contra hclean
  have hids : (qState s g b 0).idsOf ((List.range 32).map (qSrc s g b)) = [] := (if_neg hclean).symm.trans h
  rw [State.idsOf_eq_nil, List.all_map] at hids
  exact hclean hids

/-- The code of a block: the smallest under which all of its elements are within the range. -/
theorem qCode_least (b : Nat) : qCode s g b ≤ 254
    ∧ ((∀ n, n < 32 → (qSrc s g b n).under (maxfOf g.dty.toNat) (127 - qCode s g b) = true) ∨ qCode s g b = 254)
    ∧ ∀ z, z < qCode s g b → ∃ n, n < 32 ∧ (qSrc s g b n).under (maxfOf g.dty.toNat) (127 - z) = false := by
  have hfits (c : Nat) : codeFits (maxfOf g.dty.toNat) ((List.range 32).map (qSrc s g b)) c = true
      ↔ ∀ n, n < 32 → (qSrc s g b n).under (maxfOf g.dty.toNat) (127 - c) = true := by
    simp [codeFits]
  obtain ⟨hle, hfit, hbelow⟩ := blockCode_spec (maxfOf g.dty.toNat) ((List.range 32).map (qSrc s g b))
  refine ⟨hle, hfit.imp_left (hfits _).mp, fun z hz => ?_⟩
  have hmiss := mt (hfits z).mpr (Bool.eq_false_iff.mp (hbelow z hz))
  simpa using hmiss

/-- The bits of an element without poison: its value rounded, or the largest of the type. -/
theorem qElem_bits (hdt : g.dty.toNat = 3 ∨ g.dty.toNat = 5) {b j e : Nat} (h : qIds s g b = []) (hj : j < 32 / elems g.dty.toNat)
    (he : e < elems g.dty.toNat) :
    let x := qSrc s g b (j * elems g.dty.toNat + e)
    (qElem s g b (j * elems g.dty.toNat + e)).1 % 2 ^ elemW g.dty.toNat =
      if x.under (maxfOf g.dty.toNat) (127 - qCode s g b) then (roundEx (fmtOfTy g.dty.toNat) (s.modeAt g.rm (b * (32 / elems g.dty.toNat) + j) e)
        (fExact (x.scale (127 - qCode s g b)))).1 % 2 ^ elemW g.dty.toNat
      else if g.dty.toNat = 3 then 0x7E + (if x.isNeg then 0x80 else 0) else 7 + if x.isNeg then 8 else 0 := by
  intro x
  have hdiv : (j * elems g.dty.toNat + e) / elems g.dty.toNat = j := by
    rw [Nat.mul_comm, Nat.mul_add_div (elems_pos _), Nat.div_eq_of_lt he, Nat.add_zero]
  have hmod : (j * elems g.dty.toNat + e) % elems g.dty.toNat = e := by rw [Nat.mul_comm, Nat.mul_add_mod, Nat.mod_eq_of_lt he]
  have hfit : j * elems g.dty.toNat + e < 32 :=
    calc j * elems g.dty.toNat + e < (j + 1) * elems g.dty.toNat := by rw [Nat.add_one_mul]; omega
      _ ≤ elemW g.dty.toNat * elems g.dty.toNat := Nat.mul_le_mul_right _ hj
      _ = 32 := elems_mul_elemW _
  rw [qElem, hdiv, hmod, quantElem_val _ _ _ (qSrc_ordinary (qClean_of_ids h) hfit)]
  by_cases hin : x.under (maxfOf g.dty.toNat) (127 - qCode s g b) = true
  · rw [if_pos hin, if_pos hin]
  · rw [if_neg hin, if_neg hin]
    exact maxBits_mod hdt x.isNeg

section
variable {b : Nat} (hb : b < 2 * elems g.dty.toNat)
include hb

/-- The code and the elements of a block without poison. -/
theorem qBlock_values (h : qIds s g b = []) :
    (qScaleVec s g).at b = ⟨BitVec.ofNat 32 (qCode s g b), false⟩
      ∧ ∀ j e, j < 32 / elems g.dty.toNat → e < elems g.dty.toNat →
        ((qElemVec s g).at (b * (32 / elems g.dty.toNat) + j)).tag = false
          ∧ elemBits g.dty.toNat ((qElemVec s g).at (b * (32 / elems g.dty.toNat) + j)).bits e
            = (qElem s g b (j * elems g.dty.toNat + e)).1 % 2 ^ elemW g.dty.toNat := by
  rw [qScaleVec_at hb, qBlock, if_pos h]
  refine ⟨rfl, fun j e hj he => ?_⟩
  have hfit : j * elems g.dty.toNat + elems g.dty.toNat ≤ 32 :=
    calc j * elems g.dty.toNat + elems g.dty.toNat = (j + 1) * elems g.dty.toNat := by ring
      _ ≤ elemW g.dty.toNat * elems g.dty.toNat := Nat.mul_le_mul_right _ hj
      _ = 32 := elems_mul_elemW _
  have hlane : (qBlock s g b).1.getD j Lane.zero = ⟨BitVec.ofNat 32 (packBits (elemW g.dty.toNat) ((List.range (elems g.dty.toNat)).map fun e =>
      (qElem s g b (j * elems g.dty.toNat + e)).1)), false⟩ := by
    rw [qBlock, if_pos h, ← take_drop_range (fun n => (qElem s g b n).1) hfit]
    simp [hj]
    rfl
  rw [qElemVec_at hb hj, hlane]
  exact ⟨rfl, elemBits_packBits _ _ he⟩

theorem qBlock_poison (h : qIds s g b ≠ []) :
    (qScaleVec s g).at b = ⟨BitVec.ofNat 32 (0xFF + poisonMerge (qIds s g b) % 2 ^ 22 * 2 ^ 8), true⟩
      ∧ (qElemVec s g).at (b * (32 / elems g.dty.toNat)) = Lane.ipoison (poisonMerge (qIds s g b))
      ∧ ∀ j, 0 < j → j < 32 / elems g.dty.toNat → (qElemVec s g).at (b * (32 / elems g.dty.toNat) + j) = ⟨0, true⟩ := by
  have hblock : qBlock s g b = poisonBlock (32 / elems g.dty.toNat) (poisonMerge (qIds s g b)) := if_neg h
  have hpos : 0 < 32 / elems g.dty.toNat := qBlock_length s g b ▸ by rw [hblock]; exact Nat.succ_pos _
  refine ⟨by rw [qScaleVec_at hb, hblock]; rfl, (qElemVec_at hb hpos).trans (by rw [hblock]; rfl), fun j hj0 hj => ?_⟩
  obtain ⟨i, rfl⟩ := Nat.exists_eq_succ_of_ne_zero hj0.ne'
  rw [qElemVec_at hb hj, hblock, poisonBlock]
  simp [show i < 32 / elems g.dty.toNat - 1 by omega]

end

end

end Sys2Proof.Machine
end

section
/-! SUPPORT. The shape of reductions and scans (07_vector_data.md R160 to R165): the lanes that enter them, the tree of R52 and the levels of R164. -/

namespace Sys2Proof.Machine

/-! ### The entries (R161, R165) -/

/-- What a lane enters a reduction as. -/
def redSrc (ty : Nat) (l : Lane) : List FV := if ty = 0 then [fElem 0 l 0] else if l.tag then [.poison l.id] else []

theorem laneFV_zero_singleton (l : Lane) : laneFV 0 l = [fElem 0 l 0] := by
  rw [fElem, laneFV_zero]
  split_ifs <;> rfl

theorem adopt_eq (ty : Nat) (s : State) (l : Lane) :
    adopt ty s l = (s.taking (eltKinds (redSrc ty l) none), Elt.of (s.eltIds (redSrc ty l) none) l.bits.toNat) := by
  rw [adopt, redSrc]
  by_cases hty : ty = 0
  · rw [if_pos hty, if_pos hty, laneFV_zero_singleton, arithBits_eq]
  · rw [if_neg hty, if_neg hty, eltKinds_none, State.eltIds_none]
    cases l.tag <;> rfl

section
variable (s : State) (ty : Nat) (act : BitVec 64) (v : Vec)

/-- The state in which lane n is adopted, and its ids. -/
abbrev redState (n : Nat) : State := s.upTo act 1 (fun n _ => eltKinds (redSrc ty (v.at n)) none) n 0
def redIds (n : Nat) : List Nat := (redState s ty act v n).eltIds (redSrc ty (v.at n)) none

/-- The entry of lane n: an active lane adopted, or the identity. -/
def redEntry (ident n : Nat) : Elt := if activeL act n then Elt.of (redIds s ty act v n) (v.at n).bits.toNat else .val ident

theorem entries_eq (ident : Nat) :
    entries ty ident act v s = (redState s ty act v 64, (List.range 64).map (redEntry s ty act v ident)) := by
  rw [entries, eltsM_eq_threadM]
  refine threadM_upTo fun n _ _ => ?_
  rw [adopt_eq, State.upTo_next_element]
  rfl

variable {s ty act v}

/-- Lanes that are numbers or infinities enter as they are, and start nothing. -/
theorem redEntry_ordinary (h : ∀ n, n < 64 → activeL act n = true → (redSrc ty (v.at n)).all FV.ordinary = true) {n : Nat} (hn : n < 64) (ident : Nat) :
    redEntry s ty act v ident n = .val (if activeL act n then (v.at n).bits.toNat else ident) := by
  rw [redEntry]
  split_ifs with hact
  · rw [redIds, State.eltIds_ordinary _ (h n hn hact)]
    rfl
  · rfl

theorem redState_ordinary (h : ∀ n, n < 64 → activeL act n = true → (redSrc ty (v.at n)).all FV.ordinary = true) : redState s ty act v 64 = s :=
  State.upTo_eq_self (fun n _ hn hact _ => by rw [eltKinds_ordinary (h n hn hact)]; rfl) fun _ hj => absurd hj (Nat.not_lt_zero _)

end

/-! ### The tree (R52) -/

theorem pairLevel_map {α : Type} {g : State → α → α → State × α} {s : State} {x y : Nat → α} {a m : Nat}
    (h : ∀ i, i < m → g s (x (a + 2 * i)) (x (a + 2 * i + 1)) = (s, y i)) :
    pairLevel g ((List.range' a (2 * m)).map x) s = (s, (List.range m).map y) := by
  induction m generalizing a y with
  | zero => rfl
  | succ m ih =>
    have hrest := ih (a := a + 2) (y := fun i => y (i + 1)) fun i hi => by
      have hnext := h (i + 1) (by omega)
      rwa [show a + 2 * (i + 1) = a + 2 + 2 * i by ring] at hnext
    have hfirst : g s (x a) (x (a + 1)) = (s, y 0) := h 0 m.succ_pos
    rw [show 2 * (m + 1) = 2 * m + 1 + 1 by ring, List.range'_succ, List.range'_succ, List.map_cons, List.map_cons, pairLevel, hfirst, hrest,
      List.range_succ_eq_map, List.map_cons, List.map_map]
    rfl

/-- A tree whose nodes are X, none of which changes the state. -/
theorem treeOf_nodes {α : Type} {g : State → α → α → State × α} {s : State} {N : Nat} {X : Nat → Nat → α}
    (h : ∀ n i, n < N → i < 2 ^ (N - (n + 1)) → g s (X n (2 * i)) (X n (2 * i + 1)) = (s, X (n + 1) i)) :
    treeOf g N ((List.range (2 ^ N)).map (X 0)) s = (s, [X N 0]) := by
  induction N generalizing X with
  | zero => rfl
  | succ N ih =>
    have hlevel : pairLevel g ((List.range (2 ^ (N + 1))).map (X 0)) s = (s, (List.range (2 ^ N)).map (X 1)) := by
      rw [List.range_eq_range', Nat.pow_succ']
      refine pairLevel_map fun i hi => ?_
      rw [Nat.zero_add]
      exact h 0 i N.succ_pos hi
    rw [treeOf, hlevel]
    refine ih (X := fun n => X (n + 1)) fun n i hn hi => h (n + 1) i (by omega) ?_
    rwa [show N + 1 - (n + 1 + 1) = N - (n + 1) by omega]

/-- The nodes of the tree of c over the lanes x. -/
def redNode {α : Type} (c : α → α → α) (x : Nat → α) : Nat → Nat → α
  | 0, i => x i
  | n + 1, i => c (redNode c x n (2 * i)) (redNode c x n (2 * i + 1))

theorem treeOf_redNode {α : Type} {g : State → α → α → State × α} {s : State} {c : α → α → α} (h : ∀ a b, g s a b = (s, c a b)) (x : Nat → α) :
    treeOf g 6 ((List.range 64).map x) s = (s, [redNode c x 6 0]) :=
  treeOf_nodes (X := redNode c x) fun _ _ _ _ => h _ _

/-! ### The levels of a scan (R164) -/

theorem scanLevel_map {g : State → Elt → Elt → State × Elt} {s : State} {d : Nat} {x y : Nat → Elt}
    (h : ∀ i, i < 64 → d ≤ i → g s (x (i - d)) (x i) = (s, y i)) :
    scanLevel g d ((List.range 64).map x) s = (s, (List.range 64).map fun i => if i < d then x i else y i) := by
  have hget (i : Nat) (hi : i < 64) : ((List.range 64).map x).getD i (.val 0) = x i := by simp [hi]
  rw [scanLevel, eltsM_eq_threadM]
  refine threadM_range (S := fun _ => s) fun i hi => ?_
  by_cases hd : i < d
  · rw [if_pos hd, if_pos hd, hget i hi]
  · rw [if_neg hd, if_neg hd, hget i hi, hget (i - d) (by omega), h i hi (by omega)]

/-- The lanes of a scan of c after n levels. -/
def scanNode (c : Elt → Elt → Elt) (x : Nat → Elt) : Nat → Nat → Elt
  | 0, i => x i
  | n + 1, i => if i < 2 ^ n then scanNode c x n i else c (scanNode c x n (i - 2 ^ n)) (scanNode c x n i)

theorem foldl_scanLevel {g : State → Elt → Elt → State × Elt} {s : State} {c : Elt → Elt → Elt} (h : ∀ a b, g s a b = (s, c a b)) (x : Nat → Elt)
    (n : Nat) : ((List.range n).map (2 ^ ·)).foldl (fun p d => scanLevel g d p.2 p.1) (s, (List.range 64).map x)
      = (s, (List.range 64).map (scanNode c x n)) := by
  induction n with
  | zero => rfl
  | succ n ih =>
    rw [List.range_succ (n := n), List.map_append, List.foldl_append, ih]
    exact scanLevel_map fun i _ _ => h _ _

/-! ### What a node covers -/

section
variable {α : Type} {P : Nat → Nat → α → Prop} {c : α → α → α}

/-- A property of the lanes from a on, n of them, that neighbours join. -/
def Joins (P : Nat → Nat → α → Prop) (c : α → α → α) : Prop :=
  ∀ a n m x y, P a n x → P (a + n) m y → a + n + m ≤ 64 → P a (n + m) (c x y)

theorem redNode_covers {x : Nat → α} (hx : ∀ i, i < 64 → P i 1 (x i)) (hc : Joins P c) {n i : Nat} (hi : 2 ^ n * (i + 1) ≤ 64) :
    P (2 ^ n * i) (2 ^ n) (redNode c x n i) := by
  induction n generalizing i with
  | zero => simpa [redNode] using hx i (by simpa using hi)
  | succ n ih =>
    have hpow : 2 ^ (n + 1) = 2 ^ n + 2 ^ n := by ring
    have hnodes : 2 ^ (n + 1) * (i + 1) = 2 ^ n * (2 * i + 1 + 1) := by ring
    have hmid : 2 ^ n * (2 * i + 1) = 2 ^ n * (2 * i) + 2 ^ n := by ring
    have hend : 2 ^ n * (2 * i + 1 + 1) = 2 ^ n * (2 * i) + 2 ^ n + 2 ^ n := by ring
    have hpos : 0 < 2 ^ n := Nat.two_pow_pos n
    have hleft := ih (i := 2 * i) (by omega)
    have hright := ih (i := 2 * i + 1) (by omega)
    rw [hmid] at hright
    rw [show 2 ^ (n + 1) * i = 2 ^ n * (2 * i) by ring, hpow]
    exact hc _ _ _ _ _ hleft hright (by omega)

end

theorem scanNode_covers {P : Nat → Nat → Elt → Prop} {c : Elt → Elt → Elt} {x : Nat → Elt} (hx : ∀ i, i < 64 → P i 1 (x i)) (hc : Joins P c)
    {n i : Nat} (hi : i < 64) : P (i + 1 - 2 ^ n) (i + 1 - (i + 1 - 2 ^ n)) (scanNode c x n i) := by
  induction n generalizing i with
  | zero => simpa [scanNode] using hx i hi
  | succ n ih =>
    rw [scanNode, show 2 ^ (n + 1) = 2 ^ n + 2 ^ n by ring]
    generalize 2 ^ n = d at ih
    split_ifs with hlt
    · have hsame := ih hi
      rwa [show i + 1 - (d + d) = i + 1 - d by omega]
    · have hleft := ih (i := i - d) (by omega)
      have hright := ih hi
      have hmid : i - d + 1 - d = i + 1 - (d + d) := by omega
      have hstart : i + 1 - d = i + 1 - (d + d) + (i - d + 1 - (i + 1 - (d + d))) := by omega
      have hlen : i + 1 - (i + 1 - (d + d)) = i - d + 1 - (i + 1 - (d + d)) + (i + 1 - (i + 1 - d)) := by omega
      rw [hmid] at hleft
      rw [hlen]
      exact hc _ _ _ _ _ hleft (hstart ▸ hright) (by omega)

end Sys2Proof.Machine
end

section
/-! SUPPORT. What a reduction comes to (07_vector_data.md R160 to R163, Tables 69 and 70): the order of a type, and the value of several lanes from
the values of parts of them. -/

namespace Sys2Proof.Machine

/-! ### The order of numbers (R143) -/

/-- Beyond the magnitude of every number of FP32, in units of 2^-149. -/
def fpTop : Nat := 2 ^ 277

/-- A number or an infinity as an integer, in units of 2^-149, −0 below +0. -/
def FV.ordKey : FV → Int
  | .fin neg m e => if neg then -((m * 2 ^ (e + 149).toNat : Nat) : Int) - 1 else (m * 2 ^ (e + 149).toNat : Nat)
  | .inf neg => if neg then -(fpTop : Int) - 1 else fpTop
  | _ => 0

/-- The numbers and infinities of FP32. -/
def FV.inRange : FV → Prop
  | .fin _ m e => -149 ≤ e ∧ m * 2 ^ (e + 149).toNat < fpTop
  | .inf _ => True
  | _ => False

theorem fLess_iff {x y : FV} (hx : x.inRange) (hy : y.inRange) : fLess x y = true ↔ x.ordKey < y.ordKey := by
  cases x with
  | fin n1 m1 e1 =>
    obtain ⟨he1, hm1⟩ := hx
    cases y with
    | fin n2 m2 e2 =>
      obtain ⟨he2, hm2⟩ := hy
      have hscale (m : Nat) {e : Int} (he : min e1 e2 ≤ e) :
          m * 2 ^ (e + 149).toNat = m * 2 ^ (e - min e1 e2).toNat * 2 ^ (min e1 e2 + 149).toNat := by
        rw [Nat.mul_assoc, ← pow_add]
        congr 2
        omega
      have hpos := Nat.two_pow_pos (min e1 e2 + 149).toNat
      simp only [fLess, FV.ordKey, hscale m1 (min_le_left e1 e2), hscale m2 (min_le_right e1 e2)]
      generalize m1 * 2 ^ (e1 - min e1 e2).toNat = a
      generalize m2 * 2 ^ (e2 - min e1 e2).toNat = b
      have hlt (u v : Nat) : u * 2 ^ (min e1 e2 + 149).toNat < v * 2 ^ (min e1 e2 + 149).toNat ↔ u < v := Nat.mul_lt_mul_right hpos
      have hab := hlt a b
      have hba := hlt b a
      generalize a * 2 ^ (min e1 e2 + 149).toNat = a' at *
      generalize b * 2 ^ (min e1 e2 + 149).toNat = b' at *
      cases n1 <;> cases n2 <;> simp <;> omega
    | inf n2 =>
      simp only [fLess, FV.ordKey]
      generalize m1 * 2 ^ (e1 + 149).toNat = a at *
      cases n1 <;> cases n2 <;> simp <;> omega
    | poison => cases hy
    | quiet => cases hy
    | signalling => cases hy
  | inf n1 =>
    cases y with
    | fin n2 m2 e2 =>
      obtain ⟨he2, hm2⟩ := hy
      simp only [fLess, FV.ordKey]
      generalize m2 * 2 ^ (e2 + 149).toNat = b at *
      cases n1 <;> cases n2 <;> simp <;> omega
    | inf n2 =>
      simp only [fLess, FV.ordKey]
      cases n1 <;> cases n2 <;> simp
      omega
    | poison => cases hy
    | quiet => cases hy
    | signalling => cases hy
  | poison => cases hx
  | quiet => cases hx
  | signalling => cases hx

theorem decodeF_fp32 (x : Nat) : decodeF fFP32 x =
    if x / 2 ^ 23 % 2 ^ 8 = 255 then
      if x % 2 ^ 23 = 0 then .inf (bitN x 31) else if x % 2 ^ 23 < 2 ^ 22 then .signalling
      else if !bitN x 31 && bitN (x % 2 ^ 23) 21 then .poison (x % 2 ^ 23 % 2 ^ 22) else .quiet
    else if x / 2 ^ 23 % 2 ^ 8 = 0 then .fin (bitN x 31) (x % 2 ^ 23) (-149)
    else .fin (bitN x 31) (2 ^ 23 + x % 2 ^ 23) (((x / 2 ^ 23 % 2 ^ 8 : Nat) : Int) - 127 - 23) := by
  unfold decodeF
  simp only [fFP32, Fmt.width, Fmt.ulpMin, Bool.true_and, beq_iff_eq]
  simp
  rfl

/-- An encoding that is not of a NaN is one of an infinity or of a number. -/
theorem decodeF_ordinary {x : Nat} (h : (decodeF fFP32 x).ordinary = true) :
    (x / 2 ^ 23 % 2 ^ 8 = 255 ∧ x % 2 ^ 23 = 0 ∧ decodeF fFP32 x = .inf (bitN x 31))
      ∨ ∃ m e, decodeF fFP32 x = .fin (bitN x 31) m e ∧ -149 ≤ e ∧ e ≤ 104 ∧ m < 2 ^ 24 := by
  have hfr : x % 2 ^ 23 < 2 ^ 23 := Nat.mod_lt _ (by decide)
  have hef : x / 2 ^ 23 % 2 ^ 8 < 2 ^ 8 := Nat.mod_lt _ (by decide)
  rw [decodeF_fp32] at h ⊢
  by_cases hmax : x / 2 ^ 23 % 2 ^ 8 = 255
  · rw [if_pos hmax] at h ⊢
    refine .inl ⟨hmax, ?_⟩
    by_cases hfr0 : x % 2 ^ 23 = 0
    · exact ⟨hfr0, if_pos hfr0⟩
    · rw [if_neg hfr0] at h
      split_ifs at h <;> cases h
  · rw [if_neg hmax]
    refine .inr ?_
    by_cases hef0 : x / 2 ^ 23 % 2 ^ 8 = 0
    · exact ⟨_, _, if_pos hef0, by omega, by omega, by omega⟩
    · exact ⟨_, _, if_neg hef0, by omega, by omega, by omega⟩

theorem FV.inRange_of_decodeF {x : Nat} (h : (decodeF fFP32 x).ordinary = true) : (decodeF fFP32 x).inRange := by
  obtain ⟨-, -, hx⟩ | ⟨m, e, hx, hlo, hhi, hm⟩ := decodeF_ordinary h <;> rw [hx]
  · trivial
  · refine ⟨hlo, ?_⟩
    calc m * 2 ^ (e + 149).toNat < 2 ^ 24 * 2 ^ (e + 149).toNat := Nat.mul_lt_mul_of_pos_right hm (Nat.two_pow_pos _)
      _ ≤ 2 ^ 24 * 2 ^ 253 := Nat.mul_le_mul_left _ (Nat.pow_le_pow_right (by decide) (by omega))
      _ = fpTop := by rw [fpTop, ← pow_add]

/-! ### The order of a type -/

/-- A lane without poison. -/
def Clean (ty : Nat) (x : BitVec 32) : Prop := ty = 0 → (decodeF fFP32 x.toNat).ordinary = true

/-- x is better than y: smaller, or larger where the largest is wanted (R163). -/
def better (mx : Bool) (ty : Nat) (x y : BitVec 32) : Bool := if mx then tyLess ty y.toNat x.toNat else tyLess ty x.toNat y.toNat

/-- The rank of a lane of a type: the better, the smaller. -/
def tyKey (ty : Nat) (x : BitVec 32) : Int :=
  if ty = 0 then (decodeF fFP32 x.toNat).ordKey else if ty = 6 then sextN 32 x.toNat else x.toNat
def rank (mx : Bool) (ty : Nat) (x : BitVec 32) : Int := if mx then -tyKey ty x else tyKey ty x

theorem tyLess_iff {ty : Nat} {x y : BitVec 32} (hx : Clean ty x) (hy : Clean ty y) : tyLess ty x.toNat y.toNat = true ↔ tyKey ty x < tyKey ty y := by
  by_cases h0 : ty = 0
  · rw [tyLess, tyKey, tyKey, if_pos h0, if_pos h0, if_pos h0]
    exact fLess_iff (FV.inRange_of_decodeF (hx h0)) (FV.inRange_of_decodeF (hy h0))
  · rw [tyLess, tyKey, tyKey, if_neg h0, if_neg h0, if_neg h0]
    split_ifs
    · exact decide_eq_true_iff
    · exact decide_eq_true_iff.trans Int.ofNat_lt.symm

theorem better_iff {mx : Bool} {ty : Nat} {x y : BitVec 32} (hx : Clean ty x) (hy : Clean ty y) :
    better mx ty x y = true ↔ rank mx ty x < rank mx ty y := by
  cases mx with
  | false => exact tyLess_iff hx hy
  | true => exact (tyLess_iff hy hx).trans (neg_lt_neg_iff).symm

theorem not_better_iff {mx : Bool} {ty : Nat} {x y : BitVec 32} (hx : Clean ty x) (hy : Clean ty y) :
    better mx ty x y = false ↔ rank mx ty y ≤ rank mx ty x := by
  rw [← not_lt, ← better_iff hx hy, Bool.not_eq_true]

/-- The identity of min or max (Table 70). -/
def worst (mx : Bool) (ty : Nat) : BitVec 32 := BitVec.ofNat 32 (redIdent (if mx then .max else .min) ty)

theorem redIdent_lt (op : RedOp) (ty : Nat) : redIdent op ty < 2 ^ 32 := by
  cases op with
  | min =>
    simp only [redIdent]
    split_ifs <;> decide
  | max =>
    simp only [redIdent]
    split_ifs <;> decide
  | _ => simp [redIdent]

theorem worst_toNat (mx : Bool) (ty : Nat) : (worst mx ty).toNat = redIdent (if mx then .max else .min) ty := by
  rw [worst, BitVec.toNat_ofNat, Nat.mod_eq_of_lt (redIdent_lt _ _)]

theorem clean_worst (mx : Bool) (ty : Nat) : Clean ty (worst mx ty) := by
  rintro rfl
  cases mx <;> decide

theorem FV.ordKey_bounds {v : FV} (h : v.inRange) : -(fpTop : Int) - 1 ≤ v.ordKey ∧ v.ordKey ≤ fpTop
    ∧ (v.ordKey = fpTop → v = .inf false) ∧ (v.ordKey = -(fpTop : Int) - 1 → v = .inf true) := by
  cases v with
  | fin neg m e =>
    obtain ⟨-, hm⟩ := h
    simp only [FV.ordKey]
    generalize m * 2 ^ (e + 149).toNat = a at *
    cases neg <;> simp <;> omega
  | inf neg =>
    simp only [FV.ordKey]
    cases neg <;> simp
    all_goals omega
  | poison => cases h
  | quiet => cases h
  | signalling => cases h

/-- The encodings of the infinities. -/
theorem eq_of_decodeF_inf {x : BitVec 32} {neg : Bool} (h : decodeF fFP32 x.toNat = .inf neg) : x = if neg then 0xFF800000 else 0x7F800000 := by
  have hx := x.isLt
  obtain ⟨hef, hfr, hinf⟩ | ⟨m, e, hfin, -⟩ := decodeF_ordinary (x := x.toNat) (by rw [h]; rfl)
  · obtain rfl : bitN x.toNat 31 = neg := FV.inf.inj (hinf.symm.trans h)
    refine BitVec.eq_of_toNat_eq ?_
    by_cases hneg : bitN x.toNat 31 = true
    · rw [if_pos hneg]
      change x.toNat = 0xFF800000
      simp only [bitN, beq_iff_eq] at hneg
      omega
    · rw [if_neg hneg]
      change x.toNat = 0x7F800000
      simp only [bitN, beq_iff_eq] at hneg
      omega
  · rw [h] at hfin
    cases hfin

/-- No lane ranks after the identity, and the identity alone with it. -/
theorem rank_le_worst {mx : Bool} {ty : Nat} {x : BitVec 32} (hx : Clean ty x) :
    rank mx ty x ≤ rank mx ty (worst mx ty) ∧ (rank mx ty x = rank mx ty (worst mx ty) → x = worst mx ty) := by
  have hlt := x.isLt
  by_cases h0 : ty = 0
  · subst h0
    obtain ⟨hlo, hhi, hpos, hneg⟩ := FV.ordKey_bounds (FV.inRange_of_decodeF (hx rfl))
    cases mx with
    | false =>
      have hworst : rank false 0 (worst false 0) = fpTop := rfl
      rw [hworst]
      exact ⟨hhi, fun h => eq_of_decodeF_inf (hpos h)⟩
    | true =>
      have hworst : rank true 0 (worst true 0) = -(-(fpTop : Int) - 1) := rfl
      rw [hworst]
      exact ⟨neg_le_neg hlo, fun h => eq_of_decodeF_inf (hneg (neg_inj.mp h))⟩
  · by_cases h6 : ty = 6
    · subst h6
      have heq : x = worst mx 6 ↔ x.toNat = redIdent (if mx then .max else .min) 6 := by rw [← worst_toNat, BitVec.toNat_inj]
      rw [heq]
      cases mx with
      | false =>
        simp [rank, tyKey, sextN, worst, redIdent]
        omega
      | true =>
        simp [rank, tyKey, sextN, worst, redIdent]
        omega
    · have heq : x = worst mx ty ↔ x.toNat = redIdent (if mx then .max else .min) ty := by rw [← worst_toNat, BitVec.toNat_inj]
      rw [heq]
      cases mx with
      | false =>
        simp [rank, tyKey, worst, redIdent, h0, h6]
        omega
      | true => simp [rank, tyKey, worst, redIdent, h0, h6]

/-! ### The values of reductions -/

/-- The result of a combine of two values (Table 69). -/
def redBits (op : RedOp) (ty : Nat) (x y : BitVec 32) : BitVec 32 :=
  match op with
  | .add => x + y
  | .min => if better false ty y x then y else x
  | .max => if better true ty y x then y else x
  | .and => x &&& y
  | .or => x ||| y
  | .xor => x ^^^ y

theorem combine_val {op : RedOp} {ty : Nat} (h : ty ≠ 0 ∨ op ≠ .add) (md : Mode) (s : State) (x y : BitVec 32) :
    combine op ty md s (.val x.toNat) (.val y.toNat) = (s, .val (redBits op ty x y).toNat) := by
  cases op with
  | add =>
    rw [combine, if_neg (h.resolve_right (not_not.mpr rfl)), redBits, BitVec.toNat_add]
  | min =>
    simp only [combine, redBits, apply_ite BitVec.toNat]
    rfl
  | max =>
    simp only [combine, redBits, apply_ite BitVec.toNat]
    rfl
  | and => rfl
  | or => rfl
  | xor => rfl

section
variable {mx : Bool} {ty : Nat} {x : Nat → BitVec 32} {J K : List Nat}

/-- r is the best of the lanes J, the identity when there is none. -/
def Extremal (mx : Bool) (ty : Nat) (J : List Nat) (x : Nat → BitVec 32) (r : BitVec 32) : Prop :=
  (J = [] → r = worst mx ty) ∧ (J ≠ [] → (∃ j ∈ J, r = x j) ∧ ∀ j ∈ J, better mx ty (x j) r = false)

theorem Extremal.clean {r : BitVec 32} (h : Extremal mx ty J x r) (hJ : ∀ j ∈ J, Clean ty (x j)) : Clean ty r := by
  obtain rfl | hne := eq_or_ne J []
  · rw [h.1 rfl]
    exact clean_worst mx ty
  · obtain ⟨⟨j, hj, rfl⟩, -⟩ := h.2 hne
    exact hJ j hj

theorem Extremal.append {r t : BitVec 32} (hr : Extremal mx ty J x r) (ht : Extremal mx ty K x t) (hJ : ∀ j ∈ J, Clean ty (x j))
    (hK : ∀ j ∈ K, Clean ty (x j)) : Extremal mx ty (J ++ K) x (if better mx ty t r then t else r) := by
  have hrc := hr.clean hJ
  have htc := ht.clean hK
  have hrJ (j : Nat) (hj : j ∈ J) : rank mx ty r ≤ rank mx ty (x j) :=
    (not_better_iff (hJ j hj) hrc).mp ((hr.2 (List.ne_nil_of_mem hj)).2 j hj)
  have htK (j : Nat) (hj : j ∈ K) : rank mx ty t ≤ rank mx ty (x j) :=
    (not_better_iff (hK j hj) htc).mp ((ht.2 (List.ne_nil_of_mem hj)).2 j hj)
  by_cases hbetter : better mx ty t r = true
  · have hlt := (better_iff htc hrc).mp hbetter
    have hKne : K ≠ [] := fun hnil => by
      have hworst := (rank_le_worst (mx := mx) hrc).1
      rw [ht.1 hnil] at hlt
      omega
    obtain ⟨⟨i, hi, hti⟩, -⟩ := ht.2 hKne
    rw [if_pos hbetter]
    refine ⟨fun hnil => absurd (List.append_eq_nil_iff.mp hnil).2 hKne, fun _ => ⟨⟨i, List.mem_append_right J hi, hti⟩, fun j hj => ?_⟩⟩
    rcases List.mem_append.mp hj with hj | hj
    · exact (not_better_iff (hJ j hj) htc).mpr (hlt.le.trans (hrJ j hj))
    · exact (not_better_iff (hK j hj) htc).mpr (htK j hj)
  · have hle := (not_better_iff htc hrc).mp (Bool.eq_false_iff.mpr hbetter)
    rw [if_neg hbetter]
    refine ⟨fun hnil => hr.1 (List.append_eq_nil_iff.mp hnil).1, fun hne => ⟨?_, fun j hj => ?_⟩⟩
    · obtain hJnil | hJne := eq_or_ne J []
      · have hKne : K ≠ [] := fun hnil => hne (by rw [hJnil, hnil]; rfl)
        obtain ⟨⟨i, hi, hti⟩, -⟩ := ht.2 hKne
        have hworst := rank_le_worst (mx := mx) htc
        rw [hr.1 hJnil] at hle ⊢
        exact ⟨i, List.mem_append_right J hi, (hworst.2 (le_antisymm hworst.1 hle)).symm.trans hti⟩
      · obtain ⟨⟨i, hi, hri⟩, -⟩ := hr.2 hJne
        exact ⟨i, List.mem_append_left K hi, hri⟩
    · rcases List.mem_append.mp hj with hj | hj
      · exact (not_better_iff (hJ j hj) hrc).mpr (hrJ j hj)
      · exact (not_better_iff (hK j hj) hrc).mpr (hle.trans (htK j hj))

theorem Extremal.singleton (j : Nat) (hj : Clean ty (x j)) : Extremal mx ty [j] x (x j) := by
  refine ⟨fun hnil => absurd hnil (List.cons_ne_nil _ _), fun _ => ⟨⟨j, List.mem_singleton_self j, rfl⟩, fun i hi => ?_⟩⟩
  obtain rfl := List.mem_singleton.mp hi
  exact (not_better_iff hj hj).mpr le_rfl

theorem Extremal.nil : Extremal mx ty [] x (worst mx ty) := ⟨fun _ => rfl, fun hne => absurd rfl hne⟩

/-- The clauses of min and max. -/
theorem extremal_iff (mx : Bool) (r : BitVec 32) : Extremal mx ty J x r ↔ (J = [] → r.toNat = redIdent (if mx then .max else .min) ty)
    ∧ (J ≠ [] → (∃ j ∈ J, r = x j) ∧ ∀ j ∈ J, better mx ty (x j) r = false) := by
  rw [Extremal, ← worst_toNat, BitVec.toNat_inj]

theorem reduced_iff (fn : Nat) (r : BitVec 32) : reduced fn ty J x r ↔
    (fn = 0 → r = BitVec.ofNat 32 (J.map fun j => (x j).toNat).sum) ∧ (fn = 1 → Extremal false ty J x r) ∧ (fn = 2 → Extremal true ty J x r)
      ∧ (fn = 3 → ∀ b, b < 32 → (r.getLsbD b = true ↔ ∀ j ∈ J, (x j).getLsbD b = true))
      ∧ (fn = 4 → ∀ b, b < 32 → (r.getLsbD b = true ↔ ∃ j ∈ J, (x j).getLsbD b = true))
      ∧ (5 ≤ fn → ∀ b, b < 32 → (r.getLsbD b = true ↔ (J.filter fun j => (x j).getLsbD b).length % 2 = 1)) := by
  rw [extremal_iff, extremal_iff]
  rfl

theorem redOp_xor {fn : Nat} (h : 5 ≤ fn) : redOp fn = .xor := by
  obtain ⟨n, rfl⟩ := Nat.exists_eq_add_of_le' h
  rfl

theorem reduced_nil (fn : Nat) : reduced fn ty [] x (BitVec.ofNat 32 (redIdent (redOp fn) ty)) := by
  refine (reduced_iff fn _).mpr ⟨?_, ?_, ?_, ?_, ?_, fun h b _ => ?_⟩
  · rintro rfl
    rfl
  · rintro rfl
    exact Extremal.nil
  · rintro rfl
    exact Extremal.nil
  · rintro rfl b hb
    have hones : BitVec.ofNat 32 (redIdent (redOp 3) ty) = BitVec.allOnes 32 := rfl
    rw [hones, BitVec.getLsbD_allOnes]
    simp [hb]
  · rintro rfl b -
    have hzero : BitVec.ofNat 32 (redIdent (redOp 4) ty) = 0#32 := rfl
    simp [hzero]
  · rw [redOp_xor h]
    simp [redIdent]

theorem reduced_singleton (fn : Nat) {j : Nat} (hj : Clean ty (x j)) : reduced fn ty [j] x (x j) := by
  refine (reduced_iff fn _).mpr ⟨fun _ => ?_, fun _ => Extremal.singleton j hj, fun _ => Extremal.singleton j hj, fun _ b _ => ?_, fun _ b _ => ?_,
    fun _ b _ => ?_⟩
  · simp
  · simp
  · simp
  · cases hb : (x j).getLsbD b <;> simp [hb]

theorem reduced_append {fn : Nat} {r t : BitVec 32} (hr : reduced fn ty J x r) (ht : reduced fn ty K x t) (hJ : ∀ j ∈ J, Clean ty (x j))
    (hK : ∀ j ∈ K, Clean ty (x j)) : reduced fn ty (J ++ K) x (redBits (redOp fn) ty r t) := by
  obtain ⟨hradd, hrmin, hrmax, hrand, hror, hrxor⟩ := (reduced_iff fn r).mp hr
  obtain ⟨htadd, htmin, htmax, htand, htor, htxor⟩ := (reduced_iff fn t).mp ht
  refine (reduced_iff fn _).mpr ⟨?_, ?_, ?_, ?_, ?_, fun h b hb => ?_⟩
  · rintro rfl
    rw [hradd rfl, htadd rfl, List.map_append, List.sum_append, BitVec.ofNat_add]
    rfl
  · rintro rfl
    exact (hrmin rfl).append (htmin rfl) hJ hK
  · rintro rfl
    exact (hrmax rfl).append (htmax rfl) hJ hK
  · rintro rfl b hb
    change (r &&& t).getLsbD b = true ↔ _
    rw [BitVec.getLsbD_and, Bool.and_eq_true, hrand rfl b hb, htand rfl b hb, List.forall_mem_append]
  · rintro rfl b hb
    change (r ||| t).getLsbD b = true ↔ _
    rw [BitVec.getLsbD_or, Bool.or_eq_true, hror rfl b hb, htor rfl b hb]
    simp only [List.mem_append, or_and_right, exists_or]
  · have hrb := hrxor h b hb
    have htb := htxor h b hb
    rw [redOp_xor h, redBits, BitVec.getLsbD_xor, List.filter_append, List.length_append]
    cases hrv : r.getLsbD b <;> cases htv : t.getLsbD b <;> simp only [hrv, htv] at hrb htb <;> simp at hrb htb ⊢ <;> omega

end

end Sys2Proof.Machine
end

section
/-! SUPPORT. Reductions and scans (07_vector_data.md R160 to R165): what `vred`, `vredx` and `vscan` leave in their lanes. -/

namespace Sys2Proof.Machine

/-! ### The active lanes of a stretch -/

/-- The active lanes of the n lanes from a on. -/
def activeFrom (act : BitVec 64) (a n : Nat) : List Nat := (List.range' a n).filter (activeL act)

theorem activeFrom_append (act : BitVec 64) (a n m : Nat) : activeFrom act a (n + m) = activeFrom act a n ++ activeFrom act (a + n) m := by
  rw [activeFrom, activeFrom, activeFrom, ← List.filter_append, List.range'_append_1]

theorem activeFrom_zero (act : BitVec 64) (n : Nat) : activeFrom act 0 n = (List.range n).filter (activeL act) := by
  rw [activeFrom, List.range_eq_range']

theorem activeFrom_one (act : BitVec 64) (i : Nat) : activeFrom act i 1 = if activeL act i then [i] else [] := by
  rw [activeFrom, List.range'_one, List.filter_singleton, Bool.cond_eq_ite]

theorem mem_activeFrom {act : BitVec 64} {a n j : Nat} : j ∈ activeFrom act a n ↔ (a ≤ j ∧ j < a + n) ∧ activeL act j = true := by
  rw [activeFrom, List.mem_filter, List.mem_range'_1]

/-! ### One value, or the smallest id -/

/-- The element of the lanes J: their smallest id, or a value with property Q when they have none. -/
def RedHolds (ids : Nat → List Nat) (Q : List Nat → BitVec 32 → Prop) (J : List Nat) (a : Elt) : Prop :=
  (J.flatMap ids = [] → ∃ r : BitVec 32, a = .val r.toNat ∧ Q J r) ∧ (J.flatMap ids ≠ [] → a = .pois (poisonMerge (J.flatMap ids)))

theorem combine_state {op : RedOp} {ty : Nat} (h : ty ≠ 0 ∨ op ≠ .add) (md : Mode) (s : State) (a b : Elt) : (combine op ty md s a b).1 = s := by
  cases a with
  | pois i => cases b <;> rfl
  | val x =>
    cases b with
    | pois j => rfl
    | val y =>
      cases op with
      | add => rw [combine, if_neg (h.resolve_right (not_not.mpr rfl))]
      | _ => rfl

section
variable {ids : Nat → List Nat} {ty : Nat} {x : Nat → BitVec 32} {J K : List Nat}

/-- Neighbouring stretches of lanes combine (R162). -/
theorem RedHolds.append {fn : Nat} (hop : ty ≠ 0 ∨ redOp fn ≠ .add) (hids : ∀ j, ids j = [] → Clean ty (x j)) {a b : Elt}
    (ha : RedHolds ids (fun J r => reduced fn ty J x r) J a) (hb : RedHolds ids (fun J r => reduced fn ty J x r) K b) (md : Mode) (s : State) :
    RedHolds ids (fun J r => reduced fn ty J x r) (J ++ K) (combine (redOp fn) ty md s a b).2 := by
  have hclean {L : List Nat} (hL : L.flatMap ids = []) (j : Nat) (hj : j ∈ L) : Clean ty (x j) := hids j (List.flatMap_eq_nil_iff.mp hL j hj)
  rw [RedHolds, List.flatMap_append]
  by_cases hJ : J.flatMap ids = []
  · obtain ⟨r, rfl, hr⟩ := ha.1 hJ
    by_cases hK : K.flatMap ids = []
    · obtain ⟨t, rfl, ht⟩ := hb.1 hK
      rw [combine_val hop, hJ, hK]
      exact ⟨fun _ => ⟨_, rfl, reduced_append hr ht (hclean hJ) (hclean hK)⟩, fun hne => absurd rfl hne⟩
    · rw [hb.2 hK, hJ, List.nil_append]
      exact ⟨fun hnil => absurd hnil hK, fun _ => rfl⟩
  · rw [ha.2 hJ]
    by_cases hK : K.flatMap ids = []
    · obtain ⟨t, rfl, -⟩ := hb.1 hK
      rw [hK, List.append_nil]
      exact ⟨fun hnil => absurd hnil hJ, fun _ => rfl⟩
    · rw [hb.2 hK]
      exact ⟨fun hnil => absurd (List.append_eq_nil_iff.mp hnil).1 hJ, fun _ => by rw [poisonMerge_append hJ hK]; rfl⟩

end

section
variable {s : State} {ty : Nat} {act : BitVec 64} {v : Vec}

/-- A lane that starts no poison is a number or an infinity. -/
theorem clean_of_redIds {n : Nat} (h : redIds s ty act v n = []) : Clean ty (v.at n).bits := by
  rintro rfl
  rw [redIds, State.eltIds_none, State.idsOf_eq_nil] at h
  have hord : (fElem 0 (v.at n) 0).ordinary = true := by simpa [redSrc] using h
  rw [fElem, laneFV_zero] at hord
  split_ifs at hord with htag
  · cases hord
  · exact hord

/-- The entry of one lane. -/
theorem redEntry_holds (fn n : Nat) : RedHolds (redIds s ty act v) (fun J r => reduced fn ty J (fun n => (v.at n).bits) r) (activeFrom act n 1)
    (redEntry s ty act v (redIdent (redOp fn) ty) n) := by
  rw [activeFrom_one, redEntry]
  split_ifs with hact
  · rw [RedHolds, List.flatMap_singleton]
    refine ⟨fun hnil => ⟨(v.at n).bits, by rw [hnil, Elt.of_nil], ?_⟩, fun hne => Elt.of_ne hne _⟩
    exact reduced_singleton (x := fun n => (v.at n).bits) fn (clean_of_redIds hnil)
  · refine ⟨fun _ => ⟨_, ?_, reduced_nil fn⟩, fun hne => absurd rfl hne⟩
    rw [BitVec.toNat_ofNat, Nat.mod_eq_of_lt (redIdent_lt _ _)]

theorem redHolds_joins {fn : Nat} (hop : ty ≠ 0 ∨ redOp fn ≠ .add) (md : Mode) (t : State) :
    Joins (fun a n y => RedHolds (redIds s ty act v) (fun J r => reduced fn ty J (fun n => (v.at n).bits) r) (activeFrom act a n) y)
      fun a b => (combine (redOp fn) ty md t a b).2 := by
  intro a n m x y hx hy _
  rw [activeFrom_append]
  exact hx.append hop (fun j => clean_of_redIds) hy md t

end

/-! ### Result lanes -/

theorem eltLane_val {ty : Nat} (h : elems ty = 1) (r : BitVec 32) : eltLane ty (.val r.toNat) = ⟨r, false⟩ := by
  rw [eltLane]
  split_ifs
  · simp [packF]
  · have hw : elemW ty = 32 := by rw [elemW, h]
    simp only [packI, List.map_cons, List.map_nil, packBits, hw, Nat.mul_zero, Nat.add_zero, Nat.mod_eq_of_lt r.isLt, BitVec.ofNat_toNat]
    simp

/-- A result lane holds the value, or the smallest id. -/
theorem RedHolds.lane {ids : Nat → List Nat} {Q : List Nat → BitVec 32 → Prop} {J : List Nat} {a : Elt} (h : RedHolds ids Q J a) {ty : Nat}
    (hone : elems ty = 1) : (J.flatMap ids = [] → (eltLane ty a).tag = false ∧ Q J (eltLane ty a).bits)
      ∧ (J.flatMap ids ≠ [] → eltLane ty a = poisLane ty (poisonMerge (J.flatMap ids))) := by
  refine ⟨fun hnil => ?_, fun hne => by rw [h.2 hne, eltLane_pois]⟩
  obtain ⟨r, rfl, hr⟩ := h.1 hnil
  rw [eltLane_val hone]
  exact ⟨rfl, hr⟩

/-! ### `vred` (R162) -/

section
variable {s : State} {k : Nat} (hs : s.issues k) (h : Hdr) (f : FmtV)
include hs

/-- The word issues with the root of its tree in every lane. -/
theorem vred_of_tree {t : State} {r : Elt}
    (htree : treeOf (combine (redOp f.fn.toNat) f.ty.toNat ⟨f.rm.toNat, 0⟩) 6
        ((List.range 64).map (redEntry s f.ty.toNat (s.myTile.mask f.mask.toNat) (s.myTile.v f.va.toNat) (redIdent (redOp f.fn.toNat) f.ty.toNat)))
        (redState s f.ty.toNat (s.myTile.mask f.mask.toNat) (s.myTile.v f.va.toNat) 64) = (t, [r])) :
    exec (.vred h f) s = .next (t.issued h 8 [.vec f.vd.toNat (mkVec fun _ => eltLane f.ty.toNat r) (BitVec.allOnes 64)] (some (1, f.vd.toNat))) := by
  change execVred h f s = _
  refine qWord_result hs ?_
  simp only [entries_eq]
  have htree' : treeOf (fun s a b => combine (redOp f.fn.toNat) f.ty.toNat ⟨f.rm.toNat, 0⟩ s a b) 6 _ _ = (t, [r]) := htree
  simp only [htree']
  rfl

/-- The reductions that combine without a rounding. -/
theorem vred_holds (hop : f.ty.toNat ≠ 0 ∨ redOp f.fn.toNat ≠ .add) :
    let act := s.myTile.mask f.mask.toNat
    let v := s.myTile.v f.va.toNat
    ∃ a, exec (.vred h f) s = .next ((redState s f.ty.toNat act v 64).issued h 8
        [.vec f.vd.toNat (mkVec fun _ => eltLane f.ty.toNat a) (BitVec.allOnes 64)] (some (1, f.vd.toNat)))
      ∧ RedHolds (redIds s f.ty.toNat act v) (fun J r => reduced f.fn.toNat f.ty.toNat J (fun n => (v.at n).bits) r)
        ((List.range 64).filter (activeL act)) a := by
  intro act v
  have htree := treeOf_redNode (s := redState s f.ty.toNat act v 64)
    (g := combine (redOp f.fn.toNat) f.ty.toNat ⟨f.rm.toNat, 0⟩)
    (fun a b => Prod.ext (combine_state hop _ _ a b) rfl)
    (redEntry s f.ty.toNat act v (redIdent (redOp f.fn.toNat) f.ty.toNat))
  refine ⟨_, vred_of_tree hs h f htree, ?_⟩
  rw [← activeFrom_zero]
  exact redNode_covers (n := 6) (i := 0) (fun i _ => redEntry_holds f.fn.toNat i) (redHolds_joins hop _ _) (by decide)

end

/-! ### Sums of f32 (R52) -/

theorem combine_addR {md : Mode} {x y z : Nat} (h : addR md x y = some z) (s : State) : combine .add 0 md s (.val x) (.val y) = (s, .val z) := by
  rw [combine, if_pos rfl, arith_eq]
  rw [addR] at h
  cases hex : fAdd md (decodeF fFP32 x) (decodeF fFP32 y) with
  | invalid => simp [hex] at h
  | zero neg => simp_all [eltKinds, State.eltIds, Ex.own]
  | num neg n d more => simp_all [eltKinds, State.eltIds, Ex.own]
  | inf neg => simp_all [eltKinds, State.eltIds, Ex.own]

/-- A node of the tree with a value has parts with values. -/
theorem redTree_parts {g : Nat → Nat → Option Nat} {x : Nat → Nat} {n i y : Nat} (h : redTree g x (n + 1) i = some y) :
    ∃ a b, redTree g x n (2 * i) = some a ∧ redTree g x n (2 * i + 1) = some b ∧ g a b = some y := by
  rw [redTree] at h
  obtain ⟨a, ha, h⟩ := Option.bind_eq_some_iff.mp h
  obtain ⟨b, hb, h⟩ := Option.bind_eq_some_iff.mp h
  exact ⟨a, b, ha, hb, h⟩

/-- When the root has a value every node has. -/
theorem redTree_some {g : Nat → Nat → Option Nat} {x : Nat → Nat} {N y : Nat} (h : redTree g x N 0 = some y) {k n i : Nat} (hk : n + k = N)
    (hi : i < 2 ^ k) : ∃ z, redTree g x n i = some z := by
  induction k generalizing n i with
  | zero =>
    obtain rfl : i = 0 := by simpa using hi
    obtain rfl : n = N := hk
    exact ⟨y, h⟩
  | succ k ih =>
    obtain ⟨z, hz⟩ := ih (n := n + 1) (i := i / 2) (by omega) (by rw [pow_succ] at hi; omega)
    obtain ⟨a, b, ha, hb, -⟩ := redTree_parts hz
    obtain heven | hodd := Nat.mod_two_eq_zero_or_one i
    · exact ⟨a, by rwa [show i = 2 * (i / 2) by omega]⟩
    · exact ⟨b, by rwa [show i = 2 * (i / 2) + 1 by omega]⟩

/-- A tree of sums that are all valid. -/
theorem treeOf_redTree {md : Mode} {x : Nat → Nat} {y : Nat} (h : redTree (addR md) x 6 0 = some y) (s : State) :
    treeOf (combine .add 0 md) 6 ((List.range 64).map fun n => .val (x n)) s = (s, [.val y]) := by
  have hnodes := treeOf_nodes (s := s) (g := combine .add 0 md) (N := 6) (X := fun n i => .val ((redTree (addR md) x n i).getD 0)) fun n i hn hi => by
    obtain ⟨z, hz⟩ := redTree_some h (k := 6 - (n + 1)) (n := n + 1) (i := i) (by omega) hi
    obtain ⟨a, b, ha, hb, hab⟩ := redTree_parts hz
    rw [hz, ha, hb]
    exact combine_addR hab s
  simp only [h] at hnodes
  exact hnodes

theorem redSrc_ordinary {l : Lane} (h : (fElem 0 l 0).ordinary = true) : (redSrc 0 l).all FV.ordinary = true := by
  simpa [redSrc] using h

section
variable {s : State} {k : Nat} (hs : s.issues k) (h : Hdr) (f : FmtV)
include hs

theorem vred_sum (hty : f.ty.toNat = 0) (hfn : f.fn.toNat = 0)
    (hord : ∀ n, n < 64 → activeL (s.myTile.mask f.mask.toNat) n = true → (fElem 0 ((s.myTile.v f.va.toNat).at n) 0).ordinary = true) {y : Nat}
    (hy : redTree (addR ⟨f.rm.toNat, 0⟩)
      (fun n => if activeL (s.myTile.mask f.mask.toNat) n then ((s.myTile.v f.va.toNat).at n).bits.toNat else 0) 6 0 = some y) :
    exec (.vred h f) s = .next (s.issued h 8 [.vec f.vd.toNat (mkVec fun _ => ⟨BitVec.ofNat 32 y, false⟩) (BitVec.allOnes 64)]
      (some (1, f.vd.toNat))) := by
  have hsrcs (n : Nat) (hn : n < 64) (hact : activeL (s.myTile.mask f.mask.toNat) n = true) := redSrc_ordinary (hord n hn hact)
  have htree := vred_of_tree hs h f (t := s) (r := .val y)
  rw [hty, hfn, redState_ordinary hsrcs] at htree
  refine htree ?_
  rw [← treeOf_redTree hy]
  exact congrArg (treeOf _ 6 · s) (List.map_congr_left fun n hn => redEntry_ordinary hsrcs (List.mem_range.mp hn) _)

end

/-! ### `vscan` (R164) -/

theorem bitVec_beq {w : Nat} (x y : BitVec w) : ((x == y) = true) = (x.toNat = y.toNat) := by
  rw [beq_iff_eq, BitVec.toNat_inj]

/-- The operation of a scan: an exclusive one sums. -/
def scanFn (fn : Nat) : Nat := if fn = 3 then 0 else fn

/-- Lane n of a scan whose inclusive lanes are Z. -/
def scanOut (fn ty : Nat) (Z : Nat → Elt) (n : Nat) : Elt :=
  if fn = 3 then (if n = 0 then .val (redIdent (redOp (scanFn fn)) ty) else Z (n - 1)) else Z n

/-- The register that a scan writes. -/
def scanVec (fn ty : Nat) (Z : Nat → Elt) : Vec :=
  mkVec fun n => eltLane ty ((if fn = 3 then .val (redIdent (redOp (scanFn fn)) ty) :: (List.range 64).map Z else (List.range 64).map Z).getD n
    (.val (redIdent (redOp (scanFn fn)) ty)))

theorem scanVec_at (fn ty : Nat) (Z : Nat → Elt) {n : Nat} (hn : n < 64) : (scanVec fn ty Z).at n = eltLane ty (scanOut fn ty Z n) := by
  rw [scanVec, mkVec_at _ hn, scanOut]
  split_ifs with hex hzero
  · rw [hzero, List.getD_cons_zero]
  · obtain ⟨m, rfl⟩ := Nat.exists_eq_succ_of_ne_zero hzero
    have hm : m < 64 := by omega
    rw [List.getD_cons_succ]
    simp [hm]
  · simp [hn]

theorem vscan_of_levels {s : State} {k : Nat} (hs : s.issues k) (h : Hdr) (f : FmtV) {t : State} {Z : Nat → Elt}
    (hlevels : [1, 2, 4, 8, 16, 32].foldl
        (fun (p : State × List Elt) d => scanLevel (combine (redOp (scanFn f.fn.toNat)) f.ty.toNat ⟨f.rm.toNat, 0⟩) d p.2 p.1)
        (redState s f.ty.toNat (s.myTile.mask f.mask.toNat) (s.myTile.v f.va.toNat) 64, (List.range 64).map
          (redEntry s f.ty.toNat (s.myTile.mask f.mask.toNat) (s.myTile.v f.va.toNat) (redIdent (redOp (scanFn f.fn.toNat)) f.ty.toNat)))
      = (t, (List.range 64).map Z)) :
    exec (.vscan h f) s = .next (t.issued h 8 [.vec f.vd.toNat (scanVec f.fn.toNat f.ty.toNat Z) (s.myTile.mask f.mask.toNat)]
      (some (1, f.vd.toNat))) := by
  have hexcl : ((f.fn == 3) = true) = (f.fn.toNat = 3) := bitVec_beq f.fn 3
  have hop : (if f.fn.toNat = 3 then RedOp.add else redOp f.fn.toNat) = redOp (scanFn f.fn.toNat) := by
    rw [scanFn, apply_ite redOp]
    rfl
  change execVscan h f s = _
  refine qWord_result hs ?_
  simp only [hexcl, hop, entries_eq, hlevels]
  rfl

/-- The scans that combine without a rounding. -/
theorem vscan_holds {s : State} {k : Nat} (hs : s.issues k) (h : Hdr) (f : FmtV) (hop : f.ty.toNat ≠ 0 ∨ redOp (scanFn f.fn.toNat) ≠ .add) :
    let act := s.myTile.mask f.mask.toNat
    let v := s.myTile.v f.va.toNat
    ∃ Z, exec (.vscan h f) s = .next ((redState s f.ty.toNat act v 64).issued h 8 [.vec f.vd.toNat (scanVec f.fn.toNat f.ty.toNat Z) act]
        (some (1, f.vd.toNat)))
      ∧ ∀ n, n < 64 → RedHolds (redIds s f.ty.toNat act v) (fun J r => reduced (scanFn f.fn.toNat) f.ty.toNat J (fun n => (v.at n).bits) r)
        ((List.range (if f.fn.toNat = 3 then n else n + 1)).filter (activeL act)) (scanOut f.fn.toNat f.ty.toNat Z n) := by
  intro act v
  have hlevels := foldl_scanLevel (s := redState s f.ty.toNat act v 64) (g := combine (redOp (scanFn f.fn.toNat)) f.ty.toNat ⟨f.rm.toNat, 0⟩)
    (fun a b => Prod.ext (combine_state hop _ _ a b) rfl) (redEntry s f.ty.toNat act v (redIdent (redOp (scanFn f.fn.toNat)) f.ty.toNat)) 6
  refine ⟨_, vscan_of_levels hs h f hlevels, fun n hn => ?_⟩
  have hincl (i : Nat) (hi : i < 64) := scanNode_covers (n := 6) (fun i _ => redEntry_holds (s := s) (ty := f.ty.toNat) (act := act) (v := v)
    (scanFn f.fn.toNat) i) (redHolds_joins hop ⟨f.rm.toNat, 0⟩ (redState s f.ty.toNat act v 64)) hi
  have hfull (i : Nat) (hi : i < 64) : i + 1 - 2 ^ 6 = 0 := Nat.sub_eq_zero_of_le hi
  rw [scanOut]
  by_cases hex : f.fn.toNat = 3
  · rw [if_pos hex, if_pos hex]
    by_cases hzero : n = 0
    · subst hzero
      rw [if_pos rfl]
      refine ⟨fun _ => ⟨_, ?_, reduced_nil _⟩, fun hne => absurd rfl hne⟩
      rw [BitVec.toNat_ofNat, Nat.mod_eq_of_lt (redIdent_lt _ _)]
    · have hprev := hincl (n - 1) (by omega)
      rw [hfull (n - 1) (by omega), Nat.sub_zero, Nat.sub_add_cancel (Nat.pos_of_ne_zero hzero), activeFrom_zero] at hprev
      rw [if_neg hzero]
      exact hprev
  · have hthis := hincl n hn
    rw [hfull n hn, Nat.sub_zero, activeFrom_zero] at hthis
    rw [if_neg hex, if_neg hex]
    exact hthis

/-- One level of a scan on lanes that may have no value. -/
def scanStep (g : Nat → Nat → Option Nat) (d : Nat) (x : Nat → Option Nat) (i : Nat) : Option Nat :=
  if i < d then x i else (x (i - d)).bind fun a => (x i).bind fun b => g a b

/-- A lane with a value after a level has parts with values. -/
theorem scanStep_parts {g : Nat → Nat → Option Nat} {d : Nat} {x : Nat → Option Nat} {i z : Nat} (hd : d ≤ i) (h : scanStep g d x i = some z) :
    ∃ a b, x (i - d) = some a ∧ x i = some b ∧ g a b = some z := by
  rw [scanStep, if_neg (Nat.not_lt.mpr hd)] at h
  obtain ⟨a, ha, h⟩ := Option.bind_eq_some_iff.mp h
  obtain ⟨b, hb, h⟩ := Option.bind_eq_some_iff.mp h
  exact ⟨a, b, ha, hb, h⟩

/-- When the lanes of a scan all end with values, they have values at every level. -/
theorem scanTree_some {g : Nat → Nat → Option Nat} {l : List Nat} {x : Nat → Option Nat}
    (h : ∀ n, n < 64 → (scanTree g l x n).isSome = true) {n : Nat} (hn : n < 64) : ∃ z, x n = some z := by
  induction l generalizing x with
  | nil => exact Option.isSome_iff_exists.mp (h n hn)
  | cons d l ih =>
    obtain ⟨z, hz⟩ := ih (x := scanStep g d x) h
    by_cases hd : n < d
    · exact ⟨z, (if_pos hd).symm.trans hz⟩
    · obtain ⟨a, b, -, hb, -⟩ := scanStep_parts (Nat.not_lt.mp hd) hz
      exact ⟨b, hb⟩

/-- A scan whose sums are all valid. -/
theorem foldl_scanTree {md : Mode} {l : List Nat} {x : Nat → Option Nat} (h : ∀ n, n < 64 → (scanTree (addR md) l x n).isSome = true) (s : State) :
    l.foldl (fun p d => scanLevel (combine .add 0 md) d p.2 p.1) (s, (List.range 64).map fun n => .val ((x n).getD 0))
      = (s, (List.range 64).map fun n => .val ((scanTree (addR md) l x n).getD 0)) := by
  induction l generalizing x with
  | nil => rfl
  | cons d l ih =>
    have hlevel := scanLevel_map (g := combine .add 0 md) (s := s) (d := d) (x := fun n => .val ((x n).getD 0))
      (y := fun n => .val ((scanStep (addR md) d x n).getD 0)) fun n hn hd => by
        obtain ⟨z, hz⟩ := scanTree_some (x := scanStep (addR md) d x) h hn
        obtain ⟨a, b, ha, hb, hab⟩ := scanStep_parts hd hz
        simp only [ha, hb, hz]
        exact combine_addR hab s
    have hmerge : (fun n => if n < d then Elt.val ((x n).getD 0) else .val ((scanStep (addR md) d x n).getD 0))
        = fun n => .val ((scanStep (addR md) d x n).getD 0) := by
      funext n
      split_ifs with hd
      · rw [scanStep, if_pos hd]
      · rfl
    rw [List.foldl_cons, hlevel, hmerge]
    exact ih (x := scanStep (addR md) d x) h

theorem vscan_sum {s : State} {k : Nat} (hs : s.issues k) (h : Hdr) (f : FmtV) (hty : f.ty.toNat = 0) (hfn : scanFn f.fn.toNat = 0)
    (hord : ∀ n, n < 64 → activeL (s.myTile.mask f.mask.toNat) n = true → (fElem 0 ((s.myTile.v f.va.toNat).at n) 0).ordinary = true) :
    let x := fun n => some (if activeL (s.myTile.mask f.mask.toNat) n then ((s.myTile.v f.va.toNat).at n).bits.toNat else 0)
    let z := scanTree (addR ⟨f.rm.toNat, 0⟩) [1, 2, 4, 8, 16, 32] x
    (∀ n, n < 64 → (z n).isSome = true) → exec (.vscan h f) s = .next (s.issued h 8
      [.vec f.vd.toNat (scanVec f.fn.toNat 0 fun n => .val ((z n).getD 0)) (s.myTile.mask f.mask.toNat)] (some (1, f.vd.toNat))) := by
  intro x z hz
  have hsrcs (n : Nat) (hn : n < 64) (hact : activeL (s.myTile.mask f.mask.toNat) n = true) := redSrc_ordinary (hord n hn hact)
  have hlevels := vscan_of_levels hs h f (t := s) (Z := fun n => .val ((z n).getD 0))
  rw [hty, hfn, redState_ordinary hsrcs] at hlevels
  refine hlevels ?_
  rw [← foldl_scanTree hz]
  refine congrArg (fun l => List.foldl _ (s, l) _) (List.map_congr_left fun n hn => ?_)
  exact redEntry_ordinary hsrcs (List.mem_range.mp hn) _

end Sys2Proof.Machine
end

section
/-! SUPPORT. `vredx` (07_vector_data.md R163): the best active lane and its index, or the smallest id and the first lane that has it. -/

namespace Sys2Proof.Machine

section
variable {mx : Bool} {ty : Nat} {x : Nat → BitVec 32} {J K : List Nat}

/-- r is the best of the lanes J, and i the first of the lanes that are no worse; the identity and 0xFFFF when there is none. -/
def FirstBest (mx : Bool) (ty : Nat) (x : Nat → BitVec 32) (J : List Nat) (r : BitVec 32) (i : Nat) : Prop :=
  (J = [] → i = 0xFFFF ∧ r = worst mx ty)
    ∧ (J ≠ [] → i ∈ J ∧ r = x i ∧ ∀ n ∈ J, better mx ty (x n) r = false ∧ (n < i → better mx ty r (x n) = true))

theorem FirstBest.clean {r : BitVec 32} {i : Nat} (h : FirstBest mx ty x J r i) (hJ : ∀ j ∈ J, Clean ty (x j)) : Clean ty r := by
  obtain rfl | hne := eq_or_ne J []
  · rw [(h.1 rfl).2]
    exact clean_worst mx ty
  · obtain ⟨hi, rfl, -⟩ := h.2 hne
    exact hJ i hi

/-- The better of two, and at a tie the one of smaller index. -/
def pickFirst (mx : Bool) (ty : Nat) (a b : BitVec 32 × Nat) : BitVec 32 × Nat :=
  if better mx ty b.1 a.1 then b else if better mx ty a.1 b.1 then a else if a.2 ≤ b.2 then a else b

theorem xcombine_val (a b : BitVec 32 × Nat) : xcombine mx ty (.val a.1.toNat, a.2) (.val b.1.toNat, b.2)
    = (.val (pickFirst mx ty a b).1.toNat, (pickFirst mx ty a b).2) := by
  have hpush (p : Prop) [Decidable p] (u v : BitVec 32 × Nat) :
      ((Elt.val (if p then u else v).1.toNat, (if p then u else v).2) : Elt × Nat) = if p then (.val u.1.toNat, u.2) else (.val v.1.toNat, v.2) := by
    split_ifs <;> rfl
  simp only [pickFirst, hpush]
  rfl

/-- One that is first in order of rank and index. -/
theorem pickFirst_of {r t : BitVec 32} {i j : Nat} (hr : Clean ty r) (ht : Clean ty t) :
    (pickFirst mx ty (r, i) (t, j) = (r, i) ∧ (rank mx ty r < rank mx ty t ∨ rank mx ty r = rank mx ty t ∧ i ≤ j))
      ∨ (pickFirst mx ty (r, i) (t, j) = (t, j) ∧ (rank mx ty t < rank mx ty r ∨ rank mx ty t = rank mx ty r ∧ j < i)) := by
  rw [pickFirst]
  dsimp only
  split_ifs with htr hrt hij
  · exact .inr ⟨rfl, .inl ((better_iff ht hr).mp htr)⟩
  · exact .inl ⟨rfl, .inl ((better_iff hr ht).mp hrt)⟩
  all_goals
    have hle := (not_better_iff ht hr).mp (Bool.eq_false_iff.mpr htr)
    have hge := (not_better_iff hr ht).mp (Bool.eq_false_iff.mpr hrt)
  · exact .inl ⟨rfl, .inr ⟨le_antisymm hle hge, hij⟩⟩
  · exact .inr ⟨rfl, .inr ⟨le_antisymm hge hle, Nat.lt_of_not_le hij⟩⟩

/-- The lanes of either part in order of rank and index. -/
theorem FirstBest.first {r : BitVec 32} {i n : Nat} (h : FirstBest mx ty x J r i) (hJ : ∀ j ∈ J, Clean ty (x j)) (hn : n ∈ J) :
    rank mx ty r < rank mx ty (x n) ∨ rank mx ty r = rank mx ty (x n) ∧ i ≤ n := by
  obtain ⟨hbest, hfirst⟩ := (h.2 (List.ne_nil_of_mem hn)).2.2 n hn
  have hle := (not_better_iff (hJ n hn) (h.clean hJ)).mp hbest
  obtain hlt | heq := lt_or_eq_of_le hle
  · exact .inl hlt
  · refine .inr ⟨heq, Nat.le_of_not_lt fun hlt => ?_⟩
    have hstrict := (better_iff (h.clean hJ) (hJ n hn)).mp (hfirst hlt)
    omega

theorem firstBest_of_first {r : BitVec 32} {i : Nat} (hne : J ≠ []) (hi : i ∈ J) (hr : r = x i) (hJ : ∀ j ∈ J, Clean ty (x j))
    (h : ∀ n ∈ J, rank mx ty r < rank mx ty (x n) ∨ rank mx ty r = rank mx ty (x n) ∧ i ≤ n) : FirstBest mx ty x J r i := by
  have hrc : Clean ty r := hr ▸ hJ i hi
  refine ⟨fun hnil => absurd hnil hne, fun _ => ⟨hi, hr, fun n hn => ⟨?_, fun hlt => ?_⟩⟩⟩
  · refine (not_better_iff (hJ n hn) hrc).mpr ?_
    have hfirst := h n hn
    omega
  · refine (better_iff hrc (hJ n hn)).mpr ?_
    have hfirst := h n hn
    omega

theorem FirstBest.append {r t : BitVec 32} {i j : Nat} (hr : FirstBest mx ty x J r i) (ht : FirstBest mx ty x K t j)
    (hJ : ∀ j ∈ J, Clean ty (x j)) (hK : ∀ j ∈ K, Clean ty (x j)) (hlanes : ∀ n ∈ J ++ K, n < 64) :
    FirstBest mx ty x (J ++ K) (pickFirst mx ty (r, i) (t, j)).1 (pickFirst mx ty (r, i) (t, j)).2 := by
  have hrc := hr.clean hJ
  have htc := ht.clean hK
  have hall : ∀ n ∈ J ++ K, Clean ty (x n) := List.forall_mem_append.mpr ⟨hJ, hK⟩
  have hrworst := (rank_le_worst (mx := mx) hrc).1
  have htworst := (rank_le_worst (mx := mx) htc).1
  obtain rfl | hJne := eq_or_ne J []
  · obtain ⟨rfl, rfl⟩ := hr.1 rfl
    obtain rfl | hKne := eq_or_ne K []
    · obtain ⟨rfl, rfl⟩ := ht.1 rfl
      obtain ⟨hpick, -⟩ | ⟨hpick, -⟩ := pickFirst_of (mx := mx) (i := 0xFFFF) (j := 0xFFFF) hrc htc <;> rw [hpick] <;> exact hr
    · have hj := hlanes j (ht.2 hKne).1
      obtain ⟨-, hfirst⟩ | ⟨hpick, -⟩ := pickFirst_of (mx := mx) (i := 0xFFFF) (j := j) hrc htc
      · omega
      · rw [hpick]
        exact ht
  · obtain ⟨hi, hri, -⟩ := hr.2 hJne
    have hne : J ++ K ≠ [] := List.append_ne_nil_of_left_ne_nil hJne K
    obtain ⟨hpick, hfirst⟩ | ⟨hpick, hfirst⟩ := pickFirst_of (mx := mx) (i := i) (j := j) hrc htc
    · rw [hpick]
      refine firstBest_of_first hne (List.mem_append_left K hi) hri hall fun n hn => ?_
      rcases List.mem_append.mp hn with hn | hn
      · exact hr.first hJ hn
      · have hn' := ht.first hK hn
        dsimp only
        omega
    · have hKne : K ≠ [] := by
        rintro rfl
        obtain ⟨rfl, rfl⟩ := ht.1 rfl
        have hi64 := hlanes i (List.mem_append_left [] hi)
        omega
      obtain ⟨hj, htj, -⟩ := ht.2 hKne
      rw [hpick]
      refine firstBest_of_first hne (List.mem_append_right J hj) htj hall fun n hn => ?_
      rcases List.mem_append.mp hn with hn | hn
      · have hn' := hr.first hJ hn
        dsimp only
        omega
      · exact ht.first hK hn

/-- The pair of the lanes J: the best of them and its index, or their smallest id and the first lane that has it. -/
def XredHolds (mx : Bool) (ty : Nat) (x : Nat → BitVec 32) (ids : Nat → List Nat) (J : List Nat) (p : Elt × Nat) : Prop :=
  (J.flatMap ids = [] → ∃ r : BitVec 32, p.1 = .val r.toNat ∧ FirstBest mx ty x J r p.2)
    ∧ (J.flatMap ids ≠ [] → p.1 = .pois (poisonMerge (J.flatMap ids)) ∧ p.2 ∈ J ∧ poisonMerge (J.flatMap ids) ∈ ids p.2
      ∧ ∀ n ∈ J, n < p.2 → poisonMerge (J.flatMap ids) ∉ ids n)

theorem xcombine_pois (p q i j : Nat) :
    xcombine mx ty (.pois p, i) (.pois q, j) = if p ≤ q then (.pois p, i) else (.pois q, j) := by
  have hmin : xcombine mx ty (.pois p, i) (.pois q, j) = (.pois (min p q), if p ≤ q then i else j) := rfl
  rw [hmin]
  split_ifs with hle
  · rw [min_eq_left hle]
  · rw [min_eq_right (Nat.le_of_not_le hle)]

/-- Neighbouring stretches of lanes combine. -/
theorem XredHolds.append {ids : Nat → List Nat} (hids : ∀ j, ids j = [] → Clean ty (x j)) {a b : Elt × Nat} (ha : XredHolds mx ty x ids J a)
    (hb : XredHolds mx ty x ids K b) (hJK : ∀ i ∈ J, ∀ j ∈ K, i < j) (hlanes : ∀ n ∈ J ++ K, n < 64) :
    XredHolds mx ty x ids (J ++ K) (xcombine mx ty a b) := by
  have hclean {L : List Nat} (hL : L.flatMap ids = []) (j : Nat) (hj : j ∈ L) : Clean ty (x j) := hids j (List.flatMap_eq_nil_iff.mp hL j hj)
  have hbelow {L : List Nat} {n p : Nat} (hn : n ∈ L) (hp : p ∈ ids n) : poisonMerge (L.flatMap ids) ≤ p :=
    poisonMerge_le (List.mem_flatMap.mpr ⟨n, hn, hp⟩)
  obtain ⟨a, i⟩ := a
  obtain ⟨b, j⟩ := b
  rw [XredHolds, List.flatMap_append]
  by_cases hJ : J.flatMap ids = []
  · obtain ⟨r, rfl, hr⟩ := ha.1 hJ
    by_cases hK : K.flatMap ids = []
    · obtain ⟨t, rfl, ht⟩ := hb.1 hK
      rw [hJ, hK, xcombine_val (r, i) (t, j)]
      exact ⟨fun _ => ⟨_, rfl, hr.append ht (hclean hJ) (hclean hK) hlanes⟩, fun hne => absurd rfl hne⟩
    · obtain ⟨rfl, hj, hjid, hfirst⟩ := hb.2 hK
      rw [hJ, List.nil_append]
      refine ⟨fun hnil => absurd hnil hK, fun _ => ⟨rfl, List.mem_append_right J hj, hjid, fun n hn hlt => ?_⟩⟩
      rcases List.mem_append.mp hn with hn | hn
      · rw [List.flatMap_eq_nil_iff.mp hJ n hn]
        exact List.not_mem_nil
      · exact hfirst n hn hlt
  · obtain ⟨rfl, hi, hiid, hfirst⟩ := ha.2 hJ
    have hne : ¬ J.flatMap ids ++ K.flatMap ids = [] := fun hnil => hJ (List.append_eq_nil_iff.mp hnil).1
    refine ⟨fun hnil => absurd hnil hne, fun _ => ?_⟩
    by_cases hK : K.flatMap ids = []
    · obtain ⟨t, rfl, -⟩ := hb.1 hK
      rw [hK, List.append_nil]
      refine ⟨rfl, List.mem_append_left K hi, hiid, fun n hn hlt => ?_⟩
      rcases List.mem_append.mp hn with hn | hn
      · exact hfirst n hn hlt
      · exact absurd (hJK i hi n hn) (by dsimp only [xcombine] at hlt; omega)
    · obtain ⟨rfl, hj, hjid, hfirst'⟩ := hb.2 hK
      rw [poisonMerge_append hJ hK]
      by_cases hle : poisonMerge (J.flatMap ids) ≤ poisonMerge (K.flatMap ids)
      · rw [min_eq_left hle, xcombine_pois, if_pos hle]
        refine ⟨rfl, List.mem_append_left K hi, hiid, fun n hn hlt => ?_⟩
        rcases List.mem_append.mp hn with hn | hn
        · exact hfirst n hn hlt
        · exact absurd (hJK i hi n hn) (by dsimp only at hlt; omega)
      · rw [min_eq_right (Nat.le_of_not_le hle), xcombine_pois, if_neg hle]
        refine ⟨rfl, List.mem_append_right J hj, hjid, fun n hn hlt => ?_⟩
        rcases List.mem_append.mp hn with hn | hn
        · exact fun hmem => hle (hbelow hn hmem)
        · exact hfirst' n hn hlt

end

section
variable {s : State} {ty : Nat} {act : BitVec 64} {v : Vec}

/-- The pair of lane n: an active lane with its index, or the identity with 0xFFFF. -/
def xredEntry (s : State) (ty : Nat) (act : BitVec 64) (v : Vec) (mx : Bool) (n : Nat) : Elt × Nat :=
  (redEntry s ty act v (redIdent (if mx then .max else .min) ty) n, if activeL act n then n else 0xFFFF)

theorem xredEntry_holds (mx : Bool) (n : Nat) :
    XredHolds mx ty (fun n => (v.at n).bits) (redIds s ty act v) (activeFrom act n 1) (xredEntry s ty act v mx n) := by
  rw [activeFrom_one, xredEntry, redEntry]
  by_cases hact : activeL act n = true
  · simp only [if_pos hact]
    rw [XredHolds, List.flatMap_singleton]
    refine ⟨fun hnil => ⟨(v.at n).bits, by rw [hnil, Elt.of_nil], ?_⟩, fun hne => ?_⟩
    · have hclean : Clean ty (v.at n).bits := clean_of_redIds hnil
      refine firstBest_of_first (List.cons_ne_nil _ _) (List.mem_singleton_self n) rfl (List.forall_mem_singleton.mpr hclean) fun i hi => ?_
      obtain rfl := List.mem_singleton.mp hi
      exact .inr ⟨rfl, le_rfl⟩
    · refine ⟨Elt.of_ne hne _, List.mem_singleton_self n, poisonMerge_mem hne, fun i hi hlt => ?_⟩
      exact absurd (List.mem_singleton.mp hi) hlt.ne
  · simp only [if_neg hact]
    refine ⟨fun _ => ⟨worst mx ty, ?_, fun _ => ⟨rfl, rfl⟩, fun hne => absurd rfl hne⟩, fun hne => absurd rfl hne⟩
    rw [worst_toNat]

theorem xredHolds_joins (mx : Bool) :
    Joins (fun a n p => XredHolds mx ty (fun n => (v.at n).bits) (redIds s ty act v) (activeFrom act a n) p) (xcombine mx ty) := by
  intro a n m x y hx hy hfit
  rw [activeFrom_append]
  refine hx.append (fun j => clean_of_redIds) hy (fun i hi j hj => ?_) fun i hi => ?_
  · have hilt := (mem_activeFrom.mp hi).1.2
    have hjge := (mem_activeFrom.mp hj).1.1
    omega
  · rw [← activeFrom_append] at hi
    have hilt := (mem_activeFrom.mp hi).1.2
    omega

end

theorem zipIdx_map_range {α β : Type} (x : Nat → α) (f : α × Nat → β) (m : Nat) :
    ((List.range m).map x).zipIdx.map f = (List.range m).map fun i => f (x i, i) := by
  apply List.ext_getElem
  · simp
  · intro i hi hi'
    simp

theorem vredx_holds {s : State} {k : Nat} (hs : s.issues k) (h : Hdr) (f : FmtV) :
    let act := s.myTile.mask f.mask.toNat
    let v := s.myTile.v f.va.toNat
    let all := BitVec.allOnes 64
    ∃ p : Elt × Nat, exec (.vredx h f) s = .next ((redState s f.ty.toNat act v 64).issued h 8
        [.vec f.vd.toNat (mkVec fun _ => eltLane f.ty.toNat p.1) all, .vec (f.vd.toNat + 1) (mkVec fun _ => ⟨BitVec.ofNat 32 p.2, false⟩) all]
        (some (1, f.vd.toNat + 1)))
      ∧ XredHolds (f.fn == 1) f.ty.toNat (fun n => (v.at n).bits) (redIds s f.ty.toNat act v) ((List.range 64).filter (activeL act)) p := by
  intro act v all
  have htree : treeOf (fun s a b => (s, xcombine (f.fn == 1) f.ty.toNat a b)) 6 ((List.range 64).map (xredEntry s f.ty.toNat act v (f.fn == 1)))
      (redState s f.ty.toNat act v 64) = _ := treeOf_redNode (fun _ _ => rfl) _
  refine ⟨redNode (xcombine (f.fn == 1) f.ty.toNat) (xredEntry s f.ty.toNat act v (f.fn == 1)) 6 0, ?_, ?_⟩
  · change execVredx h f s = _
    refine qWord_result hs ?_
    simp only [entries_eq, zipIdx_map_range]
    have hroot : treeOf (fun s a b => (s, xcombine (f.fn == 1) f.ty.toNat a b)) 6 ((List.range 64).map fun i =>
      (redEntry s f.ty.toNat (s.myTile.mask f.mask.toNat) (s.myTile.v f.va.toNat) (redIdent (if (f.fn == 1) = true then .max else .min) f.ty.toNat) i,
        if activeL (s.myTile.mask f.mask.toNat) i = true then i else 0xFFFF))
      (redState s f.ty.toNat (s.myTile.mask f.mask.toNat) (s.myTile.v f.va.toNat) 64) = _ := htree
    simp only [hroot]
    rfl
  · rw [← activeFrom_zero]
    exact redNode_covers (n := 6) (i := 0) (fun i _ => xredEntry_holds (f.fn == 1) i) (xredHolds_joins (f.fn == 1)) (by decide)

end Sys2Proof.Machine
end

section
/-! SUPPORT. The registers that words with results of their own shape write, and the origins that they leave (07_vector_data.md R160 to R169): the
words of which nothing else is said for every type. -/

namespace Sys2Proof.Machine

namespace State.Originates

theorem combine (s : State) (op : RedOp) (ty : Nat) (md : Mode) (a b : Elt) : s.Originates (combine op ty md s a b).1 := by
  by_cases hsum : ty = 0 ∧ op = .add
  · obtain ⟨rfl, rfl⟩ := hsum
    cases a with
    | pois i => cases b <;> exact refl s
    | val x =>
      cases b with
      | pois j => exact refl s
      | val y => exact arith s fFP32 md [] _
  · rw [combine_state (by tauto)]
    exact refl s

theorem pairLevel {α : Type} {g : State → α → α → State × α} (hg : ∀ (t : State) a b, t.Originates (g t a b).1) (l : List α) (s : State) :
    s.Originates (pairLevel g l s).1 := by
  induction l using List.twoStepInduction generalizing s with
  | nil => exact refl s
  | singleton a => exact refl s
  | cons_cons a b l ih => exact (hg s a b).trans (ih _)

theorem treeOf {α : Type} {g : State → α → α → State × α} (hg : ∀ (t : State) a b, t.Originates (g t a b).1) (n : Nat) (l : List α) (s : State) :
    s.Originates (treeOf g n l s).1 := by
  induction n generalizing l s with
  | zero => exact refl s
  | succ n ih => exact (pairLevel hg l s).trans (ih _ _)

theorem scanLevel {g : State → Elt → Elt → State × Elt} (hg : ∀ (t : State) a b, t.Originates (g t a b).1) (d : Nat) (l : List Elt) (s : State) :
    s.Originates (scanLevel g d l s).1 := by
  refine eltsM (fun t i => ?_) _ s
  split_ifs
  · exact refl t
  · exact hg t _ _

theorem redState (s : State) (ty : Nat) (act : BitVec 64) (v : Vec) (n : Nat) : s.Originates (redState s ty act v n) :=
  upTo s act 1 (fun _ _ _ => mem_eltKinds fun _ h => (Option.not_mem_none _ h).elim) n 0

theorem entries (s : State) (ty ident : Nat) (act : BitVec 64) (v : Vec) : s.Originates (entries ty ident act v s).1 := by
  rw [entries_eq]
  exact redState s ty act v 64

theorem dqLane (s : State) (g : FmtVX) (n : Nat) (fb : Option (Nat × Nat)) : s.Originates (dqLane g s n fb).1 := by
  have hforeign : s.Originates (s.newOrigin s.orgC okFOREIGN).1 := newOrigin s (by decide)
  unfold Machine.dqLane
  dsimp only
  cases scaleOf ((s.myTile.v g.vb.toNat).at (n * elems g.ty.toNat / 32)) with
  | pois id => exact refl s
  | foreign =>
    cases fb with
    | none => exact hforeign
    | some x =>
      dsimp only
      split_ifs
      · exact refl s
      · exact hforeign
  | code c => exact eltsM (fun t e => arith t _ _ _ _) _ s

end State.Originates

theorem mem_qKinds {s : State} {g : FmtVX} {b n kind : Nat} (h : kind ∈ qKinds s g b n) : kind ∈ vectorKinds := by
  rw [qKinds] at h
  split_ifs at h
  · rw [List.mem_singleton.mp h]
    decide
  · exact absurd h List.not_mem_nil
  · exact State.Originates.mem_takes h

theorem cvtOwn_mem {s : State} (g : FmtVX) (n e : Nat) : ∀ kind ∈ cvtOwnAt s g n e, kind ∈ vectorKinds := by
  intro kind hkind
  rw [cvtOwnAt, cvtOwn] at hkind
  split_ifs at hkind
  · obtain rfl := Option.mem_some_iff.mp hkind
    decide
  · exact absurd hkind (Option.not_mem_none _)

/-- A word that writes a group of registers. -/
theorem State.shaped_group {s t : State} {out : Out} {h : Hdr} {lat vd k : Nat} {vs : Nat → Vec} {act : BitVec 64} (hk : 1 ≤ k)
    (hout : out = .next (t.issued h lat ((List.range k).map fun j => .vec (vd + j) (vs j) act) (some (1, vd + k - 1)))) (ht : s.Originates t) :
    s.shaped out h lat ((List.range k).map (vd + ·)) 1 := by
  have hlast : ((List.range k).map (vd + ·)).getLast?.getD 0 = vd + k - 1 := by
    obtain ⟨k, rfl⟩ := Nat.exists_eq_add_of_le' hk
    rw [List.range_succ, List.map_append]
    simp
  exact ⟨t, _, by rw [hlast, hout], by rw [List.map_map]; rfl, ht⟩

section
variable {s : State} {k : Nat} (hs : s.issues k) (h : Hdr)
include hs

theorem vred_shaped (f : FmtV) : s.shaped (exec (.vred h f) s) h 8 [f.vd.toNat] 1 := by
  change s.shaped (execVred h f s) h 8 _ 1
  exact ⟨_, _, qWord_result hs rfl, rfl, (State.Originates.entries ..).trans (.treeOf (fun t => .combine t _ _ _) _ _ _)⟩

theorem vredx_shaped (f : FmtV) : s.shaped (exec (.vredx h f) s) h 8 [f.vd.toNat, f.vd.toNat + 1] 1 := by
  obtain ⟨p, hp, -⟩ := vredx_holds hs h f
  exact ⟨_, _, hp, rfl, .redState ..⟩

theorem vscan_shaped (f : FmtV) : s.shaped (exec (.vscan h f) s) h 8 [f.vd.toNat] 1 := by
  change s.shaped (execVscan h f s) h 8 _ 1
  exact ⟨_, _, qWord_result hs rfl, rfl, (State.Originates.entries ..).trans (.foldl (fun p d => .scanLevel (fun t => .combine t _ _ _) _ _ _) _ _)⟩

theorem vmqnt_shaped (g : FmtVX) : s.shaped (exec (.vmqnt h g) s) h 6 [g.vd.toNat, g.vd.toNat + 1] 1 :=
  ⟨_, _, vmqnt_blocks hs h, rfl, .upTo s _ _ (fun _ _ _ => mem_qKinds) _ _⟩

theorem vmdq_shaped (g : FmtVX) (hk : 1 ≤ elems g.ty.toNat / elems g.dty.toNat) :
    s.shaped (exec (.vmdq h g) s) h 6 ((List.range (elems g.ty.toNat / elems g.dty.toNat)).map (g.vd.toNat + ·)) 1 := by
  have hlanes := State.Originates.foldl (g := dqStep g) (fun p n => State.Originates.dqLane p.1 g n p.2.2) (List.range 64) (s, [], none)
  exact State.shaped_group (vs := fun _ => _) hk (vmdq_of_loop hs h rfl) hlanes

theorem vcvt_shaped (g : FmtVX) :
    s.shaped (exec (.vcvt h g) s) h 4 ((List.range (max 1 (elems g.ty.toNat / elems g.dty.toNat))).map (g.vd.toNat + ·)) 1 := by
  obtain ⟨vs, hex, -⟩ := vcvt_consumes hs h g
  exact State.shaped_group (le_max_left _ _) hex (.upTo s _ _ (fun n e _ => State.Originates.mem_eltKinds (cvtOwn_mem g n e)) _ _)

theorem vlqd_shaped (g : FmtVX) : s.shaped (exec (.vlqd h g) s) h 6 ((List.range 4).map (g.vd.toNat + ·)) 1 :=
  State.shaped_group (by decide) (vlqd_lanes hs h g) (.refl s)

theorem vpsn_shaped (f : FmtV) : s.shaped (exec (.vpsn h f) s) h 2 [f.vd.toNat] 0 := by
  by_cases hact : s.myTile.mask f.mask.toNat = 0
  · exact State.shaped_pure (vpsn_idle hs h f hact) rfl rfl
  · exact ⟨_, _, vpsn_active hs h f hact, rfl, .newOrigin s (by decide)⟩

end

/-- What a word of these leaves: its results in its registers, and a state with its origins, or with the CLEAR entry of a `vprep`. -/
def State.leaves (s : State) (out : Out) (h : Hdr) (f : FmtV) (i : Instr) (lat : Nat) (regs : List Nat) (y : Nat) : Prop :=
  ∃ (s' : State) (d : List Dest), out = .next (s'.issued h lat d (some (y, regs.getLast?.getD 0))) ∧ d.map Dest.vreg = regs
    ∧ s'.myTile.vreg = s.myTile.vreg ∧ s'.cur = s.cur
    ∧ ((∃ kinds : List Nat, (∀ x ∈ kinds, x ∈ vectorKinds) ∧ s' = s.taking kinds)
      ∨ ∃ id cnt, i = .vprep h f ∧ s' = s.logEntry s.orgC okCLEAR id cnt)

theorem State.shaped.leaves {s : State} {out : Out} {h : Hdr} {lat y : Nat} {regs : List Nat} (H : s.shaped out h lat regs y) (f : FmtV) (i : Instr) :
    s.leaves out h f i lat regs y := by
  obtain ⟨s', d, hout, hregs, horigins⟩ := H
  exact ⟨s', d, hout, hregs, horigins.sameWords.vreg, horigins.sameWords.cur, .inl horigins⟩

theorem vprep_leaves {s : State} {k : Nat} (hs : s.issues k) (h : Hdr) (f : FmtV) : s.leaves (exec (.vprep h f) s) h f (.vprep h f) 2 [f.vd.toNat] 0 := by
  cases hpclr : (s.ctx (s.ctxNo s.me)).pclr with
  | false => exact (State.shaped_pure (vprep_off hs h f hpclr) rfl rfl).leaves f _
  | true =>
    have hex := vprep_on hs h f hpclr
    by_cases hnil : prepHits s f = []
    · simp only [if_pos hnil] at hex
      exact (State.shaped_pure hex rfl rfl).leaves f _
    · simp only [if_neg hnil] at hex
      have hsame := State.SameWords.logEntry s s.orgC okCLEAR (poisonMerge ((prepHits s f).flatMap fun n => prepIds f.ty.toNat (srcA s f n)))
        (prepHits s f).length
      exact ⟨_, _, hex, rfl, hsame.vreg, hsame.cur, .inr ⟨_, _, rfl, rfl⟩⟩

end Sys2Proof.Machine
end

section
/-! SUPPORT. The clauses about reductions and scans (07_vector_data.md R161 to R165), from what their lanes hold. -/

namespace Sys2Proof.Machine

theorem sum_filter_eq (p : Nat → Bool) (x : Nat → Nat) (l : List Nat) :
    ((l.filter p).map x).sum = (l.map fun j => if p j then x j else 0).sum := by
  induction l with
  | nil => rfl
  | cons j l ih => cases hj : p j <;> simp [hj, ih]

section
variable {s : State} {k : Nat} (hs : s.issues k) (h : Hdr) (f : FmtV)
include hs

/-- The integer sum over lanes without poison (R161, R162). -/
theorem vred_intSum (hfn : f.fn = 0) (hty : f.ty.toNat = 6 ∨ f.ty.toNat = 7) (htag : ∀ n, s.laneOn f.mask n → (srcA s f n).tag = false) :
    ∃ v, exec (.vred h f) s = .next (s.issued h 8 [.vec f.vd.toNat v (BitVec.allOnes 64)] (some (1, f.vd.toNat)))
      ∧ ∀ n, n < 64 → v.at n = ⟨BitVec.ofNat 32 (((List.range 64).map fun j =>
          if activeL (s.myTile.mask f.mask.toNat) j then (srcA s f j).bits.toNat else 0).sum), false⟩ := by
  have hone : elems f.ty.toNat = 1 := by rcases hty with hty | hty <;> rw [hty] <;> rfl
  have hty0 : f.ty.toNat ≠ 0 := by omega
  have hsrc (n : Nat) (hn : n < 64) (hact : activeL (s.myTile.mask f.mask.toNat) n = true) :
      redSrc f.ty.toNat ((s.myTile.v f.va.toNat).at n) = [] := by
    rw [redSrc, if_neg hty0]
    exact if_neg (Bool.eq_false_iff.mp (htag n ⟨hn, hact⟩))
  have hids : ((List.range 64).filter (activeL (s.myTile.mask f.mask.toNat))).flatMap
      (redIds s f.ty.toNat (s.myTile.mask f.mask.toNat) (s.myTile.v f.va.toNat)) = [] := by
    refine List.flatMap_eq_nil_iff.mpr fun n hn => ?_
    obtain ⟨hn, hact⟩ := List.mem_filter.mp hn
    rw [redIds, hsrc n (List.mem_range.mp hn) hact]
    rfl
  obtain ⟨a, hex, ha⟩ := vred_holds hs h f (.inl hty0)
  rw [redState_ordinary fun n hn hact => by rw [hsrc n hn hact]; rfl] at hex
  obtain ⟨htagged, hsum, -⟩ := (ha.lane hone).1 hids
  have hfn0 : f.fn.toNat = 0 := by rw [hfn]; rfl
  refine ⟨_, hex, fun n hn => (mkVec_at _ hn).trans ?_⟩
  have hbits := hsum hfn0
  rw [sum_filter_eq] at hbits
  exact congrArg₂ Lane.mk hbits htagged

end

theorem redOp_ne_add {fn : Nat} (h : fn = 1 ∨ fn = 2) : redOp fn ≠ .add := by
  rcases h with rfl | rfl <;> decide

theorem scanFn_of_min_max {fn : Nat} (h : fn = 1 ∨ fn = 2) : scanFn fn = fn := by
  rcases h with rfl | rfl <;> rfl

theorem scanFn_of_sum {fn : Nat} (h : fn = 0 ∨ fn = 3) : scanFn fn = 0 := by
  rcases h with rfl | rfl <;> rfl

/-- A lane of a scan of f32 sums. -/
theorem scanOut_sum {fn : Nat} (h : fn = 0 ∨ fn = 3) (z : Nat → Option Nat) (n : Nat) :
    eltLane 0 (scanOut fn 0 (fun n => .val ((z n).getD 0)) n)
      = ⟨BitVec.ofNat 32 (if fn = 3 ∧ n = 0 then 0 else (z (if fn = 3 then n - 1 else n)).getD 0), false⟩ := by
  rcases h with rfl | rfl
  · rfl
  · by_cases hn : n = 0
    · rw [hn]
      rfl
    · simp only [scanOut, hn, and_false, if_false]
      rfl

/-- The operation of `vredx` (R163). -/
theorem better_vredx (f : FmtV) (x y : BitVec 32) : better (f.fn == 1) f.ty.toNat x y
    = if f.fn.toNat = 1 then tyLess f.ty.toNat y.toNat x.toNat else tyLess f.ty.toNat x.toNat y.toNat := by
  have hone : ((f.fn == 1) = true) = (f.fn.toNat = 1) := bitVec_beq f.fn 1
  simp only [better, hone]

theorem worst_vredx (f : FmtV) :
    worst (f.fn == 1) f.ty.toNat = BitVec.ofNat 32 (redIdent (redOp (if f.fn.toNat = 1 then 2 else 1)) f.ty.toNat) := by
  have hone : ((f.fn == 1) = true) = (f.fn.toNat = 1) := bitVec_beq f.fn 1
  simp only [worst, hone]
  split_ifs <;> rfl

end Sys2Proof.Machine
end

section
/-! The statements of 06_vector_arith.md: floating words (O18), integer words (O19), words with results of their own shape (O21). -/

namespace Sys2Proof.Proofs

open Sys2Proof Sys2Proof.Machine

/-- Settles O18: each word is a floating word of its sources, whole or without poison; the compare gathers a bit of each lane; and one origin is
numbered, counted and logged. -/
theorem floatingWords : Obligations.FloatingWords := by
  unfold Obligations.FloatingWords
  refine ⟨fun h f s k hs => ?rounded, fun h f s k hs => ?bits, fun h f s k hs hty => ?whole, fun h f s k hs hty => ?compare,
    fun s o kind => ?origin⟩
  case rounded =>
    exact ⟨(fp2_floats hs h f 4 fAdd).rounds (i := .vadd h f), (fp2_floats hs h f 4 fun md a b => fAdd md a (fNeg b)).rounds (i := .vsub h f),
      (fp2_floats hs h f 4 fun _ a b => fMul a b).rounds (i := .vmul h f), (fp3_floats hs h f 4 fFma).rounds (i := .vfma h f),
      (fp3_floats hs h f 4 fun md a b c => fFma md a b (fNeg c)).rounds (i := .vfms h f),
      (fp3_floats hs h f 4 fun md a b c => fFma md (fNeg a) b c).rounds (i := .vfnma h f),
      (fp1_floats hs h f 12 fun a => fDiv (.fin false 1 0) a).rounds (i := .vrcp h f), (fp1_floats hs h f 12 fRsqrt).rounds (i := .vrsq h f),
      (fp1_floats hs h f 24 fSqrt).rounds (i := .vsqr h f), (fp2_floats hs h f 24 fun _ a b => fDiv a b).rounds (i := .vdiv h f),
      (fp1_floats hs h f 12 fExp2).rounds (i := .vex2 h f), (fp1_floats hs h f 12 fLog2).rounds (i := .vlg2 h f)⟩
  case bits =>
    exact ⟨fpBits_clean hs true (fun x y a b => if fLess y x then b else a) rfl, fpBits_clean hs true (fun x y a b => if fLess x y then b else a) rfl,
      fpBits_clean hs false (fun _ _ a _ => a % signW f.ty.toNat) rfl,
      fpBits_clean hs false (fun _ _ a _ => (a + signW f.ty.toNat) % (2 * signW f.ty.toNat)) rfl,
      fpBits_clean hs true (fun _ _ a b => a % signW f.ty.toNat + b / signW f.ty.toNat * signW f.ty.toNat) rfl,
      moves_of_lanes hs _ rfl, moves_of_lanes hs _ rfl⟩
  case whole =>
    exact ⟨(fp2_floats hs h f 4 fAdd).consumes (i := .vadd h f) hty,
      (fp2_floats hs h f 4 fun md a b => fAdd md a (fNeg b)).consumes (i := .vsub h f) hty,
      (fp2_floats hs h f 4 fun _ a b => fMul a b).consumes (i := .vmul h f) hty, (fp3_floats hs h f 4 fFma).consumes (i := .vfma h f) hty,
      (fp3_floats hs h f 4 fun md a b c => fFma md a b (fNeg c)).consumes (i := .vfms h f) hty,
      (fp3_floats hs h f 4 fun md a b c => fFma md (fNeg a) b c).consumes (i := .vfnma h f) hty,
      (fp1_floats hs h f 12 fun a => fDiv (.fin false 1 0) a).consumes (i := .vrcp h f) hty,
      (fp1_floats hs h f 12 fRsqrt).consumes (i := .vrsq h f) hty, (fp1_floats hs h f 24 fSqrt).consumes (i := .vsqr h f) hty,
      (fp2_floats hs h f 24 fun _ a b => fDiv a b).consumes (i := .vdiv h f) hty, (fp1_floats hs h f 12 fExp2).consumes (i := .vex2 h f) hty,
      (fp1_floats hs h f 12 fLog2).consumes (i := .vlg2 h f) hty,
      (fpBits_floats hs h f true fun x y a b => if fLess y x then b else a).consumes (i := .vmin h f) hty,
      (fpBits_floats hs h f true fun x y a b => if fLess x y then b else a).consumes (i := .vmax h f) hty,
      (fpBits_floats hs h f false fun _ _ a _ => a % signW f.ty.toNat).consumes (i := .vabs h f) hty,
      (fpBits_floats hs h f false fun _ _ a _ => (a + signW f.ty.toNat) % (2 * signW f.ty.toNat)).consumes (i := .vneg h f) hty,
      (fpBits_floats hs h f true fun _ _ a b => a % signW f.ty.toNat + b / signW f.ty.toNat * signW f.ty.toNat).consumes (i := .vcps h f) hty⟩
  case compare =>
    obtain ⟨v, hv, hbits⟩ := vcmp_f32 hs h hty
    exact ⟨v, hv, fun n hn => (hbits n hn).trans (condVec_eq f.fn.toNat f.fn.isLt _ _ _)⟩
  case origin =>
    refine ⟨rfl, State.newOrigin_tile_self s o kind, fun k hk => State.newOrigin_tile_ne s o kind hk,
      (State.newOrigin_region_self s o kind).trans (State.counted_region_self s o), fun r hr => State.newOrigin_region_ne s o kind hr,
      fun c hc => State.newOrigin_ctx_ne s o kind hc, fun hnone => ?none, fun hlen hfull => ?full, fun hlen hroom => ?room⟩
    case none =>
      rw [State.newOrigin_noLog s o kind hnone]
      exact ⟨rfl, rfl⟩
    case full =>
      rw [State.newOrigin_fullLog s o kind hlen hfull]
      exact ⟨State.ctx_setCtx_self .., rfl⟩
    case room =>
      have hdram := State.newOrigin_dram s o kind hlen hroom
      refine ⟨?ctx, fun a ha => ?frame, fun hbound => hdram.trans (if_pos hbound), fun hbound hwf => ?entry⟩
      case ctx =>
        rw [State.newOrigin_logged s o kind hlen hroom]
        exact State.ctx_setCtx_self ..
      case frame =>
        rw [hdram]
        split_ifs
        · rfl
        · exact mget_mwrite_out _ (by rwa [State.originEntry_length])
      case entry =>
        have hread := mread_mwrite (s.originEntry o kind) (m := s.dram) ((s.ctx (s.rgnOf o.tile).ctx).plbase + 32 * (s.ctx (s.rgnOf o.tile).ctx).plhead) hwf
        rw [State.originEntry_length] at hread
        rw [hdram.trans (if_neg (ne_true_of_eq_false hbound))]
        exact hread

/-- Settles O19: an integer word is the lane shape of its operation, a shift one of natural numbers, and a bitwise word one of whole lanes. -/
theorem integerWords : Obligations.IntegerWords := by
  unfold Obligations.IntegerWords
  refine ⟨fun h f s k hs => ?elements, fun h f s k hs => ?bitwise⟩
  case elements =>
    have hmod (n w : Nat) : ((n % 2 ^ w : Nat) : Int) = (n : Int) % 2 ^ w := by push_cast; rfl
    refine ⟨intWord_integers hs 2 (fun _ a b _ => a + b) rfl, intWord_integers hs 2 (fun _ a b _ => a - b) rfl,
      intWord_integers hs 2 (fun _ a b _ => a * b) rfl, intWord_integers hs 3 (fun _ a b c => a * b + c) rfl, ?high,
      intWord_integers hs 2 (fun _ a b _ => min a b) rfl, intWord_integers hs 2 (fun _ a b _ => max a b) rfl,
      intWord_integers hs 2 (fun _ a b _ => clampTy f.ty.toNat (a + b)) rfl, intWord_integers hs 2 (fun _ a b _ => clampTy f.ty.toNat (a - b)) rfl,
      shiftWord_integers hs (fun w a n => a * 2 ^ n % 2 ^ w) rfl fun n e => ?left, shiftWord_integers hs (fun _ a n => a / 2 ^ n) rfl fun n e => hmod _ _,
      shiftWord_integers hs (fun w a n => wrapN w (sextN w a / (2 ^ n : Nat))) rfl fun n e => ?arith⟩
    case high =>
      have hhigh := intWord_integers hs (i := .vimulh h f) 2 (fun w a b _ => a * b / (2 ^ w : Nat)) rfl
      exact_mod_cast hhigh
    case left =>
      rw [Nat.mod_mod]
      exact hmod _ _
    case arith =>
      rw [wrapN_mod]
      push_cast
      rfl
  case bitwise =>
    have hones (n : Nat) : popN 32 (srcA s f n).bits.toNat = ((List.range 32).filter fun i => (srcA s f n).bits.getLsbD i).length :=
      popN_eq_length 32 _
    refine ⟨bitWord_lanes hs 2 (fun a b => a &&& b) rfl, bitWord_lanes hs 2 (fun a b => a ||| b) rfl, bitWord_lanes hs 2 (fun a b => a ^^^ b) rfl,
      bitWord_lanes hs 2 (fun a b => a &&& ~~~b) rfl, ?count, bitWord_lanes hs 1 (fun a _ => BitVec.ofNat 32 (clzN 32 a.toNat)) rfl⟩
    obtain ⟨v, hv, hlanes⟩ := bitWord_lanes hs (i := .vpopc h f) 1 (fun a _ => BitVec.ofNat 32 (popN 32 a.toNat)) rfl
    refine ⟨v, hv, fun n hn => ?_⟩
    dsimp only
    rw [← hones]
    exact hlanes n hn

/-- Settles O21: the words element by element as those of O18, each with the registers and the origins it leaves; a reduction by the lanes that each
node of its tree covers, and a scan by those that each level does. -/
theorem groupedWords : Obligations.GroupedWords := by
  unfold Obligations.GroupedWords
  refine ⟨fun h f g s k hs => ?shape, fun h f s k hs hfn hty htag => ?intSum, fun h f s k hs => ?lanes, fun h f s k hs hone => ?reductions,
    fun h g s k hs => vcvt_consumes hs h g, fun l => ?scale, fun h g s k hs => ?blocks⟩
  case shape =>
    have hgives {i : Instr} {lat y : Nat} {regs : List Nat} (hshape : s.shaped (exec i s) h lat regs y) := hshape.leaves f i
    exact ⟨hgives ((vdp2_floats hs h f).shaped fun _ _ => State.Originates.own_mem _), hgives (State.shaped_pure (vdp4_lanes hs h f) rfl rfl),
      hgives ((vrnd_floats hs h f).shaped fun _ _ _ hnone => absurd hnone (Option.not_mem_none _)), hgives (vcvt_shaped hs h g),
      hgives (vred_shaped hs h f), hgives (vredx_shaped hs h f), hgives (vscan_shaped hs h f), hgives (vmqnt_shaped hs h g),
      fun hk => hgives (vmdq_shaped hs h g hk), hgives ((vscl_floats hs h g).shaped fun _ _ => State.Originates.own_mem _),
      hgives (vlqd_shaped hs h g), hgives (vpsn_shaped hs h f), vprep_leaves hs h f⟩
  case intSum => exact vred_intSum hs h f hfn hty htag
  case reductions =>
    have hactive {n : Nat} (hn : n < 64) (hact : activeL (s.myTile.mask f.mask.toNat) n = true) :
        n ∈ (List.range 64).filter (activeL (s.myTile.mask f.mask.toNat)) := List.mem_filter.mpr ⟨List.mem_range.mpr hn, hact⟩
    refine ⟨fun hop => ?tree, fun hty hfn hord y hy => ?treeSum, ?index, fun hfn => ⟨fun hop => ?scan, fun hty hfn' hord hsome => ?scanSum⟩⟩
    case tree =>
      obtain ⟨a, hex, ha⟩ := vred_holds hs h f (hop.imp_right redOp_ne_add)
      exact ⟨_, _, hex, fun n hn => mkVec_at _ hn, ha.lane hone⟩
    case treeSum =>
      exact ⟨_, vred_sum hs h f hty hfn (fun n hn hact => hord n (hactive hn hact)) hy, fun n hn => mkVec_at _ hn⟩
    case index =>
      obtain ⟨p, hex, hval, hpois⟩ := vredx_holds hs h f
      refine ⟨_, _, _, p.2, hex, fun n hn => mkVec_at _ hn, fun n hn => mkVec_at _ hn, fun hnil => ?_, fun hne hids => ?_, fun hids => ?_⟩
      · obtain ⟨r, hr, hfirst⟩ := hval (by rw [hnil]; rfl)
        obtain ⟨hp, rfl⟩ := hfirst.1 hnil
        rw [hr, eltLane_val hone, hnil, worst_vredx]
        exact ⟨hp, rfl, reduced_nil _⟩
      · obtain ⟨r, hr, hfirst⟩ := hval hids
        obtain ⟨hp, hrp, hbest⟩ := hfirst.2 hne
        rw [hr, eltLane_val hone]
        refine ⟨hp, by rw [hrp]; rfl, fun n hn => ?_⟩
        simp only [better_vredx] at hbest
        exact hbest n hn
      · obtain ⟨hr, hp, hmem, hfirst⟩ := hpois hids
        rw [hr, eltLane_pois]
        exact ⟨hp, rfl, hmem, hfirst⟩
    case scan =>
      obtain ⟨Z, hex, hZ⟩ := vscan_holds hs h f (hop.imp_right fun hfn' => scanFn_of_min_max hfn' ▸ redOp_ne_add hfn')
      refine ⟨_, hex, fun n hn => ?_⟩
      rw [scanVec_at _ _ _ hn.1]
      exact (hZ n hn.1).lane hone
    case scanSum =>
      have hfull := vscan_sum hs h f hty (scanFn_of_sum hfn') (fun n hn hact => hord n (hactive hn hact)) hsome
      exact ⟨_, hfull, fun n hn => (scanVec_at _ _ _ hn.1).trans (scanOut_sum hfn' _ n)⟩
  case lanes =>
    refine ⟨(vdp2_floats hs h f).consumes (by decide), fun hty => (vrnd_floats hs h f).consumes hty, fun hrm n e neg m x hx => ?integral,
      ⟨_, vdp4_lanes hs h f, fun n hn => ?dot⟩, fun hact => ⟨_, vpsn_idle hs h f hact⟩,
      fun hact => ⟨_, vpsn_active hs h f hact, fun n hn => mkVec_at _ hn.1⟩,
      fun hpclr => ⟨_, vprep_off hs h f hpclr, fun n hn => mkVec_at _ hn.1⟩,
      fun hpclr => ⟨_, _, vprep_on hs h f hpclr, fun n hn => ?prep, fun hnil => if_pos hnil, fun hne => if_neg hne⟩⟩
    case integral =>
      simp only [hx, ne_eq, ← State.modeAt_up s hrm n e]
      exact fRnd_fin _ neg m x
    case dot =>
      dsimp only
      rw [activeVec_at _ hn.1 hn.2]
      exact ⟨fun hbad => if_neg (not_not.mpr hbad), fun hbad => if_pos hbad⟩
    case prep =>
      refine (mkVec_at _ hn.1).trans ?_
      simp only [List.contains_iff_mem, mem_prepHits hn]
      exact ite_not ..
  case scale =>
    dsimp only
    refine ⟨fun hff htag hid => ?_, fun hff hforeign => ?_, fun hff htag => ?_, fun hff htag => ?_⟩
    · simp [scaleOf, hff, htag, hid]
    · rcases hforeign with h | h <;> simp [scaleOf, hff, h]
    · simp [scaleOf, hff, htag]
    · simp [scaleOf, hff, htag]
  case blocks =>
    refine ⟨(vscl_floats hs h g).consumes (by decide), fun hst _ => vmdq_grouped (elems_of_small hst) hs h,
      ⟨_, vlqd_lanes hs h g, fun r n hr hn => ⟨fun htag => ?lqPoison, fun htag => ?lqValue⟩⟩,
      fun hdt _ => ⟨_, _, qCode s g, vmqnt_blocks hs h, fun n => qScaleVec_rest, fun b hb =>
        ⟨fun hids => ?values, fun hids => qBlock_poison hb hids⟩⟩⟩
    case lqPoison => exact (mkVec_at _ hn).trans (if_pos htag)
    case lqValue =>
      dsimp only
      rw [mkVec_at _ hn]
      refine ⟨(lq2Lane_elem _ htag (by decide : 0 < 4)).1, fun e he => ?_⟩
      rw [(lq2Lane_elem _ htag he).2]
      exact (lq2E4M3_spec _ _ _).2
    case values =>
      obtain ⟨hcode, helems⟩ := qBlock_values hb hids
      obtain ⟨hle, hfit, hleast⟩ := qCode_least (s := s) (g := g) b
      refine ⟨hcode, hle, hfit, hleast, fun j e hj he => ?_⟩
      obtain ⟨htag, hbits⟩ := helems j e hj he
      exact ⟨htag, hbits.trans (qElem_bits hdt hids hj he)⟩

end Sys2Proof.Proofs
end

section
/-! SUPPORT. Words that move lanes (07_vector_data.md R157 to R159) and words that write lane masks (R175; the integer compare of
06_vector_arith.md R148): what they issue with. -/

namespace Sys2Proof.Machine

/-! ### Moves by an index or a mask -/

section
variable {s : State} {k : Nat} (hs : s.issues k) (h : Hdr) (f : FmtV)
include hs

section
variable {x : Nat} (hx : opndIdx s f = .inl x)
include hx

theorem vext_moves : s.moves (.vext h f) h f fun _ => srcA s f x := by
  have hex : execVext h f s = mvWord h f s fun _ => srcA s f x := by simp only [execVext, hx]
  exact moves_of_lanes hs _ hex

theorem vrot_moves : s.moves (.vrot h f) h f fun n => srcA s f ((n + x) % 64) := by
  have hex : execVrot h f s = mvWord h f s fun n => srcA s f ((n + x) % 64) := by simp only [execVrot, hx]
  exact moves_of_lanes hs _ hex

/-- `vins` offers lane 0 of its source to one lane, which its mask may leave out. -/
theorem vins_issues : exec (.vins h f) s = .next (s.issued h 2
    [.vec f.vd.toNat (mkVec fun _ => srcA s f 0) (s.myTile.mask f.mask.toNat &&& BitVec.ofNat 64 (2 ^ x))] (some (0, f.vd.toNat))) := by
  change execVins h f s = _
  refine qWord_result hs ?_
  simp only [hx]
  rfl

end

/-- `vcmprs` fills the lowest lanes, as many as its mask selects (R159). -/
theorem vcmprs_issues : exec (.vcmprs h f) s = .next (s.issued h 2
    [.vec f.vd.toNat (mkVec fun n => srcA s f ((setLanes (s.myTile.mask f.mask.toNat)).getD n 0))
      (lowMask (setLanes (s.myTile.mask f.mask.toNat)).length)] (some (0, f.vd.toNat))) := by
  change execVcmprs h f s = _
  exact qWord_result hs rfl

/-- `vexpd` gives each active lane the source lane of its rank among the active lanes (R159). -/
theorem vexpd_moves : s.moves (.vexpd h f) h f fun n => srcA s f ((List.range n).filter (activeL (s.myTile.mask f.mask.toNat))).length := by
  have hex : execVexpd h f s = _ := qWord_result hs rfl
  exact ⟨_, hex, fun _ hn => mkVec_at _ hn.1⟩

/-- `jpopc` counts the set bits of its mask. -/
theorem jpopc_moves : s.moves (.jpopc h f) h f fun _ =>
    ⟨BitVec.ofNat 32 ((List.range 64).filter fun i => (s.myTile.mask f.va.toNat).getLsbD i).length, false⟩ := by
  have hcount : popN 64 (s.myTile.mask f.va.toNat).toNat = ((List.range 64).filter fun i => (s.myTile.mask f.va.toNat).getLsbD i).length :=
    popN_eq_length 64 _
  rw [← hcount]
  exact moves_of_lanes hs _ rfl

/-! ### Lane masks -/

/-- A word that computes a whole lane mask writes it in all 64 lanes, with no `y` register (R175). -/
theorem jmWord_issues (op : BitVec 64 → BitVec 64 → BitVec 64) : jmWord h f s op = .next (s.issued h 2
    [.mask f.vd.toNat (op (s.myTile.mask f.va.toNat) (s.myTile.mask f.vb.toNat)) (BitVec.allOnes 64)] none) :=
  qWord_result hs rfl

/-- A word that writes a lane mask and makes no origins issues with a bit of each active lane. -/
theorem jWord_pure {jd : BitVec 8} {act : BitVec 64} {p : Nat → Bool} {out : Out} (hout : out = jWord h s jd act fun st n => (st, p n)) :
    ∃ v : BitVec 64, out = .next (s.issued h 2 [.mask jd.toNat v act] none)
      ∧ ∀ n, n < 64 → activeL act n = true → v.getLsbD n = p n := by
  have hall := jWord_upTo hs (w := 0) (kinds := fun _ _ => []) hout p fun _ _ => rfl
  rwa [State.upTo_eq_self (fun _ _ _ _ _ => rfl) fun _ _ => rfl] at hall

/-- `vcmp` of integers: a lane with a tagged source is unordered (R148). -/
theorem vcmp_int (hty : f.ty.toNat ≠ 0) :
    let act := s.myTile.mask f.mask.toNat
    let x := fun n => iElem f.ty.toNat (srcA s f n).bits 0
    let y := fun n => iElem f.ty.toNat (opndB s f n).bits 0
    ∃ v, exec (.vcmp h f) s = .next (s.issued h 2 [.mask f.vd.toNat v act] none)
      ∧ ∀ n, s.laneOn f.mask n → v.getLsbD n = condVec f.fn.toNat (x n < y n) (x n == y n) ((srcA s f n).tag || (opndB s f n).tag) := by
  intro act x y
  have hex : execVcmp h f s = jWord h s f.vd act fun st n =>
      (st, condVec f.fn.toNat (x n < y n) (x n == y n) ((srcA s f n).tag || (opndB s f n).tag)) := by
    simp only [execVcmp, if_neg hty]
    rfl
  obtain ⟨v, hv, hbits⟩ := jWord_pure hs h hex
  exact ⟨v, hv, fun n hn => hbits n hn.1 hn.2⟩

end

/-- Table 62 of two integers in order. -/
theorem condVec_ordered {fn : Nat} (hfn : fn < 6) (a b : Int) : condVec fn (a < b) (a == b) false =
    [decide (a = b), decide (a ≠ b), decide (a < b), decide (a ≤ b), decide (b < a), decide (b ≤ a)].getD fn false := by
  have hle : decide (a ≤ b) = (decide (a < b) || a == b) := by rw [beq_eq_decide, ← Bool.decide_or, decide_eq_decide, le_iff_lt_or_eq]
  have hgt : decide (b < a) = !decide (a ≤ b) := by rw [← decide_not, decide_eq_decide, not_le]
  have hge : decide (b ≤ a) = !decide (a < b) := by rw [← decide_not, decide_eq_decide, not_lt]
  have hne : decide (a ≠ b) = !(a == b) := decide_not
  rw [hge, hgt, hle, hne]
  interval_cases fn <;> rfl

end Sys2Proof.Machine
end

section
/-! The statement of 07_vector_data.md: words that move lanes and words that write lane masks (O20). -/

namespace Sys2Proof.Proofs

open Sys2Proof Sys2Proof.Machine

/-- Settles O20: a move is the lanes that it puts in the active lanes; a mask word writes its mask whole, and the integer compare a bit of each
active lane. -/
theorem moveAndMaskWords : Obligations.MoveAndMaskWords := by
  unfold Obligations.MoveAndMaskWords
  refine ⟨fun h f s k hs => ?moves, fun h f s k hs => ?masks⟩
  case moves =>
    refine ⟨moves_of_lanes hs _ rfl, moves_of_lanes hs _ rfl, moves_of_lanes hs _ rfl, fun x hx => ?index, moves_of_lanes hs _ rfl,
      moves_of_lanes hs _ rfl, vexpd_moves hs h f, ⟨_, vcmprs_issues hs h f, fun n hn => mkVec_at _ hn⟩, moves_of_lanes hs _ rfl,
      jpopc_moves hs h f, moves_of_lanes hs _ rfl⟩
    case index => exact ⟨vext_moves hs h f hx, vrot_moves hs h f hx, _, vins_issues hs h f hx, fun n hn => mkVec_at _ hn⟩
  case masks =>
    refine ⟨jmWord_issues hs h f _, jmWord_issues hs h f _, jmWord_issues hs h f _, jmWord_issues hs h f fun x _ => ~~~x, fun hty => ?compare⟩
    case compare =>
      obtain ⟨v, hv, hbits⟩ := vcmp_int hs h f hty
      refine ⟨v, hv, fun n hn htagA htagB hfn => ?_⟩
      have hbit := hbits n hn
      rw [htagA, htagB, Bool.or_false, condVec_ordered hfn] at hbit
      rw [hbit]

end Sys2Proof.Proofs
end

section
/-! SUPPORT. The canonical form of the memories (`State.canonical`): its parts, a state that keeps them, and writing one part.
A lemma `State.canonical.f` says that the operation `f` keeps the form. -/

namespace Sys2Proof.Machine

/-! ### The parts that hold memory -/

/-- The memories of a tile are in their canonical form. -/
def Tile.canonical (t : Tile) : Prop := Memory.wf t.scr = true ∧ Memory.wf t.slot0 = true ∧ Memory.wf t.slot1 = true
def Pool.canonical (p : Pool) : Prop := Memory.wf p.mem = true
def Die.canonical (d : Die) : Prop := Memory.wf d.sram = true
def Region.canonical (r : Region) : Prop := Memory.wf r.image = true

/-- Whatever state an outcome gives has canonical memories. -/
def Out.canonical : Out → Prop
  | .next t => t.canonical
  | _ => True
def FRes.canonical : FRes → Prop
  | .step s | .goto s _ | .stay s | .trap s _ => s.canonical
def QRes.canonical : QRes → Prop
  | .wait => True
  | .trap s _ | .done s | .held s | .result s _ _ _ _ => s.canonical

/-- The memories of a tile. -/
def Tile.memories (t : Tile) : Memory × Memory × Memory := (t.scr, t.slot0, t.slot1)

/-- The fields of a state that hold memory. -/
def State.memories (s : State) : Memory × Memory × Tab Tile × Tab Pool × Tab Die × Tab Region :=
  (s.dram, s.hostMem, s.tiles, s.pools, s.dies, s.regions)

theorem Tile.canonical.frame {t u : Tile} (h : t.canonical) (hmem : u.memories = t.memories) : u.canonical := by
  obtain ⟨hscr, h0, h1⟩ : u.scr = t.scr ∧ u.slot0 = t.slot0 ∧ u.slot1 = t.slot1 := by simpa [Tile.memories] using hmem
  unfold Tile.canonical
  rw [hscr, h0, h1]
  exact h

theorem Tile.canonical.ite {t u : Tile} {c : Prop} [Decidable c] (ht : t.canonical) (hu : u.canonical) :
    (if c then t else u).canonical := by
  split
  · exact ht
  · exact hu

theorem Tile.canonical.foldl {α : Type} {f : Tile → α → Tile} {l : List α} {t : Tile} (h : t.canonical)
    (hf : ∀ (t : Tile) (x : α), t.canonical → (f t x).canonical) : (l.foldl f t).canonical := by
  induction l generalizing t with
  | nil => exact h
  | cons x l ih => exact ih (hf t x h)

theorem Die.canonical.frame {D E : Die} (h : D.canonical) (hsram : E.sram = D.sram) : E.canonical := by
  unfold Die.canonical
  rw [hsram]
  exact h

theorem Die.canonical.ite {D E : Die} {c : Prop} [Decidable c] (hD : D.canonical) (hE : E.canonical) : (if c then D else E).canonical := by
  split
  · exact hD
  · exact hE

theorem Die.canonical.foldl {α : Type} {f : Die → α → Die} {l : List α} {D : Die} (h : D.canonical)
    (hf : ∀ (D : Die) (x : α), D.canonical → (f D x).canonical) : (l.foldl f D).canonical := by
  induction l generalizing D with
  | nil => exact h
  | cons x l ih => exact ih (hf D x h)

theorem Pool.canonical.frame {P Q : Pool} (h : P.canonical) (hmem : Q.mem = P.mem) : Q.canonical := by
  unfold Pool.canonical
  rw [hmem]
  exact h

theorem Region.canonical.frame {R Q : Region} (h : R.canonical) (himage : Q.image = R.image) : Q.canonical := by
  unfold Region.canonical
  rw [himage]
  exact h

theorem Region.canonical.ite {R Q : Region} {c : Prop} [Decidable c] (hR : R.canonical) (hQ : Q.canonical) : (if c then R else Q).canonical := by
  split
  · exact hR
  · exact hQ

theorem Out.canonical.ite {o u : Out} {c : Prop} [Decidable c] (ho : Out.canonical o) (hu : Out.canonical u) :
    Out.canonical (if c then o else u) := by
  split
  · exact ho
  · exact hu

theorem FRes.canonical.ite {r u : FRes} {c : Prop} [Decidable c] (hr : r.canonical) (hu : u.canonical) : (if c then r else u).canonical := by
  split
  · exact hr
  · exact hu

theorem QRes.canonical.ite {r u : QRes} {c : Prop} [Decidable c] (hr : r.canonical) (hu : u.canonical) : (if c then r else u).canonical := by
  split
  · exact hr
  · exact hu

theorem Tile.canonical_empty : ({} : Tile).canonical := ⟨rfl, rfl, rfl⟩

namespace State.canonical
variable {s t : State}
theorem dram (h : s.canonical) : Memory.wf s.dram = true := h.1
theorem hostMem (h : s.canonical) : Memory.wf s.hostMem = true := h.2.1
theorem tile (h : s.canonical) (k : Nat) : (s.tile k).canonical := h.2.2.1 k
theorem pool (h : s.canonical) (c : Nat) : (s.pool c).canonical := h.2.2.2.1 c
theorem die (h : s.canonical) (d : Nat) : (s.die d).canonical := h.2.2.2.2.1 d
theorem region (h : s.canonical) (r : Nat) : (s.region r).canonical := h.2.2.2.2.2 r

/-- A state whose memories are all those of a canonical one. -/
theorem frame (h : s.canonical) (hmem : t.memories = s.memories) : t.canonical := by
  obtain ⟨hdram, hhost, htiles, hpools, hdies, hregions⟩ : t.dram = s.dram ∧ t.hostMem = s.hostMem ∧ t.tiles = s.tiles ∧ t.pools = s.pools
    ∧ t.dies = s.dies ∧ t.regions = s.regions := by simpa [State.memories] using hmem
  unfold canonical State.tile State.pool State.die State.region
  rw [hdram, hhost, htiles, hpools, hdies, hregions]
  exact h

theorem ite {c : Prop} [Decidable c] (hs : s.canonical) (ht : t.canonical) : (if c then s else t).canonical := by
  split
  · exact hs
  · exact ht

theorem foldl_mem {α : Type} {f : State → α → State} {l : List α} (h : s.canonical)
    (hf : ∀ x ∈ l, ∀ s : State, s.canonical → (f s x).canonical) : (l.foldl f s).canonical := by
  induction l generalizing s with
  | nil => exact h
  | cons x l ih =>
    obtain ⟨hx, hl⟩ := List.forall_mem_cons.mp hf
    exact ih (hx s h) hl

theorem foldl {α : Type} {f : State → α → State} {l : List α} (h : s.canonical)
    (hf : ∀ (s : State) (x : α), s.canonical → (f s x).canonical) : (l.foldl f s).canonical :=
  h.foldl_mem fun x _ s => hf s x

/-- A loop that carries a value beside the state. -/
theorem foldl_fst {α β : Type} {f : State × β → α → State × β} {l : List α} {x : State × β} (h : x.1.canonical)
    (hf : ∀ (x : State × β) (a : α), x.1.canonical → (f x a).1.canonical) : (l.foldl f x).1.canonical := by
  induction l generalizing x with
  | nil => exact h
  | cons a l ih => exact ih (hf x a h)

/-! ### Writing a part -/

theorem setTile (h : s.canonical) {k : Nat} {T : Tile} (hT : T.canonical) : (s.setTile k T).canonical := by
  refine ⟨h.dram, h.hostMem, fun j => ?_, h.pool, h.die, h.region⟩
  obtain rfl | hj := eq_or_ne j k
  · rw [State.tile_setTile_self]; exact hT
  · rw [State.tile_setTile_ne _ _ hj]; exact h.tile j

theorem setDie (h : s.canonical) {d : Nat} {D : Die} (hD : D.canonical) : (s.setDie d D).canonical := by
  refine ⟨h.dram, h.hostMem, h.tile, h.pool, fun j => ?_, h.region⟩
  obtain rfl | hj := eq_or_ne j d
  · rw [State.die_setDie_self]; exact hD
  · rw [State.die_setDie_ne _ _ hj]; exact h.die j

theorem setRegion (h : s.canonical) {r : Nat} {R : Region} (hR : R.canonical) : (s.setRegion r R).canonical := by
  refine ⟨h.dram, h.hostMem, h.tile, h.pool, h.die, fun j => ?_⟩
  obtain rfl | hj := eq_or_ne j r
  · rw [State.region_setRegion_self]; exact hR
  · rw [State.region_setRegion_ne _ _ hj]; exact h.region j

theorem setPool (h : s.canonical) {c : Nat} {P : Pool} (hP : P.canonical) : (s.setPool c P).canonical := by
  refine ⟨h.dram, h.hostMem, h.tile, fun j => ?_, h.die, h.region⟩
  obtain rfl | hj := eq_or_ne j c
  · rw [State.pool_setPool_self]; exact hP
  · rw [State.pool_setPool_ne _ _ hj]; exact h.pool j

theorem setCtx (h : s.canonical) {c : Nat} {x : Ctx} : (s.setCtx c x).canonical := h
theorem setFn (h : s.canonical) {v : Nat} {x : Fn} : (s.setFn v x).canonical := h

/-! A part written with its memories as they were. -/

theorem withTile (h : s.canonical) {k : Nat} {T : Tile} (hmem : T.memories = (s.tile k).memories) : (s.setTile k T).canonical :=
  h.setTile ((h.tile k).frame hmem)

theorem withDie (h : s.canonical) {d : Nat} {D : Die} (hsram : D.sram = (s.die d).sram) : (s.setDie d D).canonical :=
  h.setDie ((h.die d).frame hsram)

theorem withRegion (h : s.canonical) {r : Nat} {R : Region} (himage : R.image = (s.region r).image) :
    (s.setRegion r R).canonical :=
  h.setRegion ((h.region r).frame himage)

theorem withPool (h : s.canonical) {c : Nat} {P : Pool} (hmem : P.mem = (s.pool c).mem) : (s.setPool c P).canonical :=
  h.setPool ((h.pool c).frame hmem)

/-! ### Writing bytes -/

theorem dramWr (h : s.canonical) {a : Nat} {bs : List Byte} : (s.dramWr a bs).canonical :=
  ⟨State.wf_dramWr a bs h.dram, h.hostMem, h.tile, h.pool, h.die, h.region⟩

theorem hostWr (h : s.canonical) {a : Nat} {bs : List Byte} : (s.hostWr a bs).canonical :=
  ⟨h.dram, Memory.wf_mwrite bs a h.hostMem, h.tile, h.pool, h.die, h.region⟩

theorem wr (h : s.canonical) {sp : Space} {a : Nat} {bs : List Byte} : (s.wr sp a bs).canonical := by
  unfold State.wr
  split
  · exact h.setTile ⟨Memory.wf_mwrite bs a (h.tile _).1, (h.tile _).2⟩
  · exact h.setPool (Memory.wf_mwrite bs a (h.pool _))
  · exact h.dramWr

/-! ### Taking a trap -/

theorem tel (h : s.canonical) {o : Nat} : (s.tel o).canonical := h
end State.canonical

end Sys2Proof.Machine
end

section
/-! SUPPORT. Every step keeps the canonical form of the memories (08_memory_order.md R187): the operations that all words share. -/

namespace Sys2Proof.Machine

/-! ### The package -/

theorem State.canonical.send {s : State} {kind : String} {args : List Nat} (h : s.canonical) : (s.send kind args).canonical := h

theorem State.canonical.leadSem {s : State} {e : Nat} (h : s.canonical) : (s.leadSem e).canonical := by
  unfold State.leadSem
  dsimp only
  split
  · exact h
  · exact h.withDie (by rfl)

theorem State.canonical.free {s : State} (h : s.canonical) : s.free.2.canonical := h

theorem State.canonical.delay {s : State} (h : s.canonical) : s.delay.2.canonical := h

theorem State.canonical.clearUE {s : State} {sp : Space} {rs : List (Nat × Nat)} (h : s.canonical) : (s.clearUE sp rs).canonical := by
  unfold State.clearUE
  dsimp only
  split
  · exact h.withTile (by rfl)
  · exact h.withPool (by rfl)
  · exact h

theorem State.canonical.setTag {s : State} {sp : Space} {a : Nat} {b : Bool} (h : s.canonical) : (s.setTag sp a b).canonical := by
  unfold State.setTag
  dsimp only
  split
  · exact h.withTile (by rfl)
  · exact h.withPool (by rfl)
  · exact h

theorem State.canonical.markUE {s : State} {sp : Space} {g : Nat} (h : s.canonical) : (s.markUE sp g).canonical := by
  unfold State.markUE
  dsimp only
  split
  · exact h.withTile (by rfl)
  · exact h.withPool (by rfl)
  · exact h

/-! ### The executing agent -/

theorem State.canonical.setCore {s : State} {c : Core} (h : s.canonical) : (s.setCore c).canonical := by
  unfold State.setCore
  dsimp only
  split
  · exact h.withTile (by rfl)
  · exact h.withDie (by rfl)
  · exact h

theorem State.canonical.setMyTile {s : State} {t : Tile} (h : s.canonical) (ht : t.canonical) : (s.setMyTile t).canonical := h.setTile ht

/-! ### Frames that the device refuses elsewhere (13_kernel.md R297, 14_group.md R316) -/

theorem State.canonical.devWr {s : State} {a : Nat} {bs : List Byte} (h : s.canonical) : (s.devWr a bs).canonical := .ite h h.dramWr

/-! ### Poison origins and their log (02_numbers.md R44 R45, 16_context.md R354 R355) -/

theorem State.canonical.logEntry {s : State} {o : OrgAt} {kind id cnt : Nat} (h : s.canonical) : (s.logEntry o kind id cnt).canonical :=
  .ite h (.ite h.setCtx h.devWr.setCtx)

theorem State.canonical.newOrigin {s : State} {o : OrgAt} {kind : Nat} (h : s.canonical) : (s.newOrigin o kind).1.canonical :=
  ((h.withTile (by rfl)).withRegion (by rfl)).logEntry

/-! ### Traps (16_context.md R343 to R350) -/

theorem State.canonical.endBy {s : State} {k srca pc : Nat} {nest : Bool} {t : TrapInfo} (h : s.canonical) : (s.endBy k srca pc nest t).canonical :=
  (h.withTile (by rfl)).withRegion (by rfl)

theorem State.canonical.enterHandler {s : State} {k q pc seq : Nat} {t : TrapInfo} (h : s.canonical) : (s.enterHandler k q pc seq t).canonical :=
  (h.withTile (by rfl)).withRegion (by rfl)

theorem State.canonical.trapTile {s : State} {k q pc seq : Nat} {t : TrapInfo} (h : s.canonical) : (s.trapTile k q pc seq t).canonical :=
  .ite h.tel.endBy (.ite h.tel.enterHandler h.tel.endBy)

theorem State.canonical.trapSorrel {s : State} {d pc : Nat} {t : TrapInfo} (h : s.canonical) : (s.trapSorrel d pc t).canonical :=
  .ite (h.withDie (by rfl)) (h.withDie (by rfl))

theorem State.canonical.take {s : State} {t : TrapInfo} (h : s.canonical) : (s.take t).canonical := by
  unfold State.take
  split
  · exact h.trapTile
  · exact h.trapSorrel
  · exact h

theorem State.canonical.addGuilt {s : State} {c n : Nat} (h : s.canonical) : (s.addGuilt c n).canonical := h.setCtx

/-! ### The poison rule (R47) -/

theorem State.canonical.consume {s : State} {o : OrgAt} {l : List FV} (h : s.canonical) : (consume s o l).1.canonical := by
  induction l generalizing s with
  | nil => exact h
  | cons x l ih =>
    cases x with
    | quiet => exact ih h.newOrigin
    | signalling => exact ih h.newOrigin
    | poison id => exact ih h
    | fin n m e => exact ih h
    | inf n => exact ih h

theorem State.canonical.arith {s : State} {o : OrgAt} {f : Fmt} {md : Mode} {srcs : List FV} {ex : Ex} (h : s.canonical) :
    (arith s o f md srcs ex).1.canonical := by
  unfold Machine.arith
  dsimp only
  split
  · exact h.consume
  · split
    · exact h.consume.newOrigin
    · exact h.consume

theorem State.canonical.arithBits {s : State} {o : OrgAt} {srcs : List FV} {bits : Nat} (h : s.canonical) :
    (arithBits s o srcs bits).1.canonical := by
  unfold Machine.arithBits
  dsimp only
  split <;> exact h.consume

theorem State.canonical.lanesM {s : State} (h : s.canonical) {act : BitVec 64} {g : State → Nat → State × Lane} {l : List Nat}
    (hg : ∀ (s : State) (i : Nat), s.canonical → (g s i).1.canonical) : (lanesM act g l s).1.canonical := by
  induction l generalizing s with
  | nil => exact h
  | cons i l ih =>
    refine ih ?_
    split
    · exact hg s i h
    · exact h

theorem State.canonical.lanes64 {s : State} (h : s.canonical) {act : BitVec 64} {g : State → Nat → State × Lane}
    (hg : ∀ (s : State) (i : Nat), s.canonical → (g s i).1.canonical) : (lanes64 act g s).1.canonical := h.lanesM hg

theorem State.canonical.eltsM {s : State} (h : s.canonical) {g : State → Nat → State × Elt} {l : List Nat}
    (hg : ∀ (s : State) (e : Nat), s.canonical → (g s e).1.canonical) : (eltsM g l s).1.canonical := by
  induction l generalizing s with
  | nil => exact h
  | cons e l ih => exact ih (hg s e h)

/-! ### Front-end words -/

theorem State.canonical.setPc {s : State} {pc : Nat} (h : s.canonical) : (s.setPc pc).canonical := h.setCore

theorem FRes.canonical.state {r : FRes} (h : r.canonical) : r.state.canonical := by
  cases r with
  | step s => exact State.canonical.setPc h
  | goto s pc => exact State.canonical.setPc h
  | stay s => exact h
  | trap s t => exact State.canonical.take h

theorem State.canonical.predGate {s : State} (h : s.canonical) {p : BitVec 4} {body : State → FRes} (hb : (body s).canonical) :
    (predGate p s body).canonical := by
  unfold Machine.predGate
  dsimp only
  split
  · exact h
  · split
    · exact hb
    · exact h

theorem State.canonical.feWord {s : State} (h : s.canonical) {p : BitVec 4} {body : State → FRes} (hb : (body s).canonical) :
    Out.canonical (feWord p s body) := (h.predGate hb).state

theorem State.canonical.svWord {s : State} (h : s.canonical) {p : BitVec 4} {body : State → FRes} (hb : (body s).canonical) :
    Out.canonical (svWord p s body) := by
  refine FRes.canonical.state ?_
  split
  · exact h.predGate hb
  · exact h

theorem State.canonical.illHere {s : State} (h : s.canonical) : (illHere s).canonical := h

/-! ### Tokens (Table 24) -/

theorem Tile.canonical.setQueue {t : Tile} {q : Nat} {l : List QEntry} (h : t.canonical) : (t.setQueue q l).canonical := .ite h (.ite h h)

theorem Tile.canonical.takeTok {t : Tile} {f : Nat} (h : t.canonical) : (takeTok t f).canonical := h

theorem State.canonical.issueHead {hd : Hdr} {s : State} (h : s.canonical) : (issueHead hd s).canonical :=
  h.setMyTile (((h.tile _).takeTok.ite (h.tile _)).takeTok.ite ((h.tile _).takeTok.ite (h.tile _))).setQueue

theorem State.canonical.pushDone {hd : Hdr} {s : State} (h : s.canonical) : (pushDone hd s).canonical := h.setMyTile (h.tile _)

theorem State.canonical.putDue {hd : Hdr} {s : State} {lat : Nat} {dst : List Dest} {y : Option (Nat × Nat)} {acc : Option Nat} (h : s.canonical) :
    (putDue hd s lat dst y acc).canonical := h.setMyTile (h.tile _)

theorem State.canonical.qWord {s : State} (h : s.canonical) {hd : Hdr} {body : State → QRes} (hb : (body s).canonical) :
    Out.canonical (qWord hd s body) := by
  show State.canonical _
  split
  · exact h.take
  · split
    · revert hb
      cases body s with
      | wait => exact fun _ => h
      | trap s' t => exact fun hb => State.canonical.take hb
      | done s' => exact fun hb => State.canonical.pushDone (State.canonical.issueHead hb)
      | held s' => exact fun hb => State.canonical.issueHead hb
      | result s' lat dst y acc => exact fun hb => State.canonical.putDue (State.canonical.issueHead hb)
    · exact h.issueHead.pushDone

theorem State.canonical.vecRes {s : State} (h : s.canonical) {lat y r : Nat} {v : Vec} {act : BitVec 64} : (vecRes s lat y r v act).canonical := h

end Sys2Proof.Machine
end

section
/-! SUPPORT. Canonical memories: scalar, capability and front-end words (03_tile.md, 05_control_scalar.md). -/

namespace Sys2Proof.Machine

theorem State.canonical.scalWord {s : State} (h : s.canonical) {p : BitVec 4} {d : BitVec 6} {g : Core → Scal} : Out.canonical (scalWord p d s g) :=
  h.feWord h.setCore

theorem State.canonical.aluWord {s : State} (h : s.canonical) {p : BitVec 4} {f : FmtS} {op : BitVec 64 → BitVec 64 → BitVec 64} :
    Out.canonical (aluWord p f s op) := h.scalWord

theorem State.canonical.alu1Word {s : State} (h : s.canonical) {p : BitVec 4} {f : FmtS} {op : BitVec 64 → BitVec 64} :
    Out.canonical (alu1Word p f s op) := h.scalWord

theorem State.canonical.execAdd {p : BitVec 4} {f : FmtS} {s : State} (h : s.canonical) : Out.canonical (execAdd p f s) := h.aluWord

theorem State.canonical.execSub {p : BitVec 4} {f : FmtS} {s : State} (h : s.canonical) : Out.canonical (execSub p f s) := h.aluWord

theorem State.canonical.execMul {p : BitVec 4} {f : FmtS} {s : State} (h : s.canonical) : Out.canonical (execMul p f s) := h.aluWord

theorem State.canonical.execMulhs {p : BitVec 4} {f : FmtS} {s : State} (h : s.canonical) : Out.canonical (execMulhs p f s) := h.aluWord

theorem State.canonical.execMulhu {p : BitVec 4} {f : FmtS} {s : State} (h : s.canonical) : Out.canonical (execMulhu p f s) := h.aluWord

theorem State.canonical.execDivs {p : BitVec 4} {f : FmtS} {s : State} (h : s.canonical) : Out.canonical (execDivs p f s) := h.aluWord

theorem State.canonical.execDivu {p : BitVec 4} {f : FmtS} {s : State} (h : s.canonical) : Out.canonical (execDivu p f s) := h.aluWord

theorem State.canonical.execRems {p : BitVec 4} {f : FmtS} {s : State} (h : s.canonical) : Out.canonical (execRems p f s) := h.aluWord

theorem State.canonical.execRemu {p : BitVec 4} {f : FmtS} {s : State} (h : s.canonical) : Out.canonical (execRemu p f s) := h.aluWord

theorem State.canonical.execAnd {p : BitVec 4} {f : FmtS} {s : State} (h : s.canonical) : Out.canonical (execAnd p f s) := h.aluWord

theorem State.canonical.execOr {p : BitVec 4} {f : FmtS} {s : State} (h : s.canonical) : Out.canonical (execOr p f s) := h.aluWord

theorem State.canonical.execXor {p : BitVec 4} {f : FmtS} {s : State} (h : s.canonical) : Out.canonical (execXor p f s) := h.aluWord

theorem State.canonical.execAndn {p : BitVec 4} {f : FmtS} {s : State} (h : s.canonical) : Out.canonical (execAndn p f s) := h.aluWord

theorem State.canonical.execShl {p : BitVec 4} {f : FmtS} {s : State} (h : s.canonical) : Out.canonical (execShl p f s) := h.aluWord

theorem State.canonical.execShr {p : BitVec 4} {f : FmtS} {s : State} (h : s.canonical) : Out.canonical (execShr p f s) := h.aluWord

theorem State.canonical.execSar {p : BitVec 4} {f : FmtS} {s : State} (h : s.canonical) : Out.canonical (execSar p f s) := h.aluWord

theorem State.canonical.execRotr {p : BitVec 4} {f : FmtS} {s : State} (h : s.canonical) : Out.canonical (execRotr p f s) := h.aluWord

theorem State.canonical.execMin {p : BitVec 4} {f : FmtS} {s : State} (h : s.canonical) : Out.canonical (execMin p f s) := h.aluWord

theorem State.canonical.execMax {p : BitVec 4} {f : FmtS} {s : State} (h : s.canonical) : Out.canonical (execMax p f s) := h.aluWord

theorem State.canonical.execMinu {p : BitVec 4} {f : FmtS} {s : State} (h : s.canonical) : Out.canonical (execMinu p f s) := h.aluWord

theorem State.canonical.execMaxu {p : BitVec 4} {f : FmtS} {s : State} (h : s.canonical) : Out.canonical (execMaxu p f s) := h.aluWord

theorem State.canonical.execPopc {p : BitVec 4} {f : FmtS} {s : State} (h : s.canonical) : Out.canonical (execPopc p f s) := h.alu1Word

theorem State.canonical.execClz {p : BitVec 4} {f : FmtS} {s : State} (h : s.canonical) : Out.canonical (execClz p f s) := h.alu1Word

theorem State.canonical.execCtz {p : BitVec 4} {f : FmtS} {s : State} (h : s.canonical) : Out.canonical (execCtz p f s) := h.alu1Word

theorem State.canonical.execBswp {p : BitVec 4} {f : FmtS} {s : State} (h : s.canonical) : Out.canonical (execBswp p f s) := h.alu1Word

theorem State.canonical.execAddi {p : BitVec 4} {f : FmtSI} {s : State} (h : s.canonical) : Out.canonical (execAddi p f s) := h.scalWord

theorem State.canonical.execLi {p : BitVec 4} {f : FmtSI} {s : State} (h : s.canonical) : Out.canonical (execLi p f s) := h.scalWord

theorem State.canonical.execLih {p : BitVec 4} {f : FmtSI} {s : State} (h : s.canonical) : Out.canonical (execLih p f s) := h.scalWord

theorem State.canonical.execSel {p : BitVec 4} {f : FmtS} {s : State} (h : s.canonical) : Out.canonical (execSel p f s) := h.scalWord

theorem State.canonical.predWord {s : State} (h : s.canonical) {p : BitVec 4} {d : BitVec 6} {g : Core → Bool × Bool} :
    Out.canonical (predWord p d s g) := by
  refine h.feWord ?_
  split
  · exact h.illHere
  · exact h.setCore

theorem State.canonical.execCmp {p : BitVec 4} {f : FmtS} {s : State} (h : s.canonical) : Out.canonical (execCmp p f s) := h.predWord

theorem State.canonical.execCmpi {p : BitVec 4} {f : FmtSI} {s : State} (h : s.canonical) : Out.canonical (execCmpi p f s) := h.predWord

theorem State.canonical.prdWord {s : State} (h : s.canonical) {p : BitVec 4} {f : FmtS} {op : Bool → Bool → Bool} :
    Out.canonical (prdWord p f s op) := h.predWord

theorem State.canonical.execPand {p : BitVec 4} {f : FmtS} {s : State} (h : s.canonical) : Out.canonical (execPand p f s) := h.prdWord

theorem State.canonical.execPor {p : BitVec 4} {f : FmtS} {s : State} (h : s.canonical) : Out.canonical (execPor p f s) := h.prdWord

theorem State.canonical.execPxor {p : BitVec 4} {f : FmtS} {s : State} (h : s.canonical) : Out.canonical (execPxor p f s) := h.prdWord

theorem State.canonical.execPnot {p : BitVec 4} {f : FmtS} {s : State} (h : s.canonical) : Out.canonical (execPnot p f s) := h.predWord

theorem State.canonical.execExtb {p : BitVec 4} {f : FmtS} {s : State} (h : s.canonical) : Out.canonical (execExtb p f s) := h.scalWord

theorem State.canonical.execInsb {p : BitVec 4} {f : FmtS} {s : State} (h : s.canonical) : Out.canonical (execInsb p f s) := h.scalWord

theorem State.canonical.execMfsr {p : BitVec 4} {f : FmtS} {s : State} (h : s.canonical) : Out.canonical (execMfsr p f s) := h.feWord h.setCore

theorem State.canonical.execMtsr {p : BitVec 4} {f : FmtS} {s : State} (h : s.canonical) : Out.canonical (execMtsr p f s) :=
  h.feWord (.ite h h.setCore)

theorem State.canonical.execRlr {p : BitVec 4} {f : FmtS} {s : State} (h : s.canonical) : Out.canonical (execRlr p f s) :=
  .ite h.illHere.state (h.feWord h.setCore)

theorem State.canonical.capWord {s : State} (h : s.canonical) {p : BitVec 4} {d : BitVec 6} {g : Core → Except TrapInfo Cap} :
    Out.canonical (capWord p d s g) := by
  refine h.feWord ?_
  split
  · exact h.setCore
  · exact h

theorem State.canonical.execCmov {p : BitVec 4} {f : FmtS} {s : State} (h : s.canonical) : Out.canonical (execCmov p f s) := h.capWord

theorem State.canonical.execCnul {p : BitVec 4} {f : FmtS} {s : State} (h : s.canonical) : Out.canonical (execCnul p f s) := h.capWord

theorem State.canonical.execCrgt {p : BitVec 4} {f : FmtS} {s : State} (h : s.canonical) : Out.canonical (execCrgt p f s) := h.capWord

theorem State.canonical.execCseto {p : BitVec 4} {f : FmtS} {s : State} (h : s.canonical) : Out.canonical (execCseto p f s) := h.capWord

theorem State.canonical.execCinc {p : BitVec 4} {f : FmtS} {s : State} (h : s.canonical) : Out.canonical (execCinc p f s) := h.capWord

theorem State.canonical.execCder {p : BitVec 4} {f : FmtS} {s : State} (h : s.canonical) : Out.canonical (execCder p f s) := h.capWord

theorem State.canonical.execCget {p : BitVec 4} {f : FmtS} {s : State} (h : s.canonical) : Out.canonical (execCget p f s) := h.scalWord

theorem State.canonical.execCchk {p : BitVec 4} {f : FmtS} {s : State} (h : s.canonical) : Out.canonical (execCchk p f s) := h.predWord

/-! ### GCM -/

theorem State.canonical.execNop {p : BitVec 4} {_f : FmtC} {s : State} (h : s.canonical) : Out.canonical (execNop p _f s) := h.feWord h

theorem State.canonical.execBra {p : BitVec 4} {f : FmtC} {s : State} (h : s.canonical) : Out.canonical (execBra p f s) := h.feWord h

theorem State.canonical.execBrp {p : BitVec 4} {f : FmtC} {s : State} (h : s.canonical) : Out.canonical (execBrp p f s) :=
  h.feWord (.ite h (.ite h (.ite h h)))

theorem State.canonical.execJmpc {p : BitVec 4} {f : FmtC} {s : State} (h : s.canonical) : Out.canonical (execJmpc p f s) :=
  h.feWord (.ite h (.ite h h))

theorem State.canonical.callWord {s : State} (h : s.canonical) {p : BitVec 4} {body : State → FRes} (hb : (body s).canonical) :
    Out.canonical (callWord p s body) := by
  unfold Machine.callWord
  split
  · exact h
  · exact h.feWord hb

theorem State.canonical.execCall {p : BitVec 4} {f : FmtC} {s : State} (h : s.canonical) : Out.canonical (execCall p f s) :=
  h.callWord (.ite h (.ite h h.setCore))

theorem State.canonical.execRet {p : BitVec 4} {f : FmtC} {s : State} (h : s.canonical) : Out.canonical (execRet p f s) :=
  h.callWord (.ite h (.ite h (.ite h (.ite h h.setCore))))

theorem State.canonical.frameWr {s : State} {a : Nat} {bs : List Byte} (h : s.canonical) : (frameWr s a bs).canonical := by
  unfold Machine.frameWr
  split
  · exact h.wr
  · exact h.setDie (Memory.wf_mwrite bs a (h.die _))
  · exact h

theorem State.canonical.spillUnit {s : State} {u : Nat} (h : s.canonical) : (spillUnit s u).canonical := h.frameWr.frameWr

theorem State.canonical.execLstg {p : BitVec 4} {f : FmtC} {s : State} (h : s.canonical) : Out.canonical (execLstg p f s) :=
  h.feWord (.ite h.illHere h.setCore)

theorem State.canonical.execLoop {p : BitVec 4} {f : FmtC} {s : State} (h : s.canonical) : Out.canonical (execLoop p f s) :=
  h.feWord (.ite h.illHere (.ite h (.ite h.setCore h.setCore)))

theorem State.canonical.execLend {p : BitVec 4} {f : FmtC} {s : State} (h : s.canonical) : Out.canonical (execLend p f s) := by
  unfold Machine.execLend
  refine h.feWord ?_
  extract_lets _ _ _ _ _ _ _ _ u
  refine .ite h.illHere ?_
  have hu : u.canonical := (h.setMyTile (((h.tile s.me).frame (by rfl)).ite ((h.tile s.me).frame (by rfl)))).ite h
  exact .ite hu.setCore (.ite hu.setCore hu.setCore)

theorem State.canonical.execLbrk {p : BitVec 4} {f : FmtC} {s : State} (h : s.canonical) : Out.canonical (execLbrk p f s) :=
  h.feWord (.ite h.illHere h.setCore)

theorem State.canonical.execStepw {p : BitVec 4} {f : FmtC} {s : State} (h : s.canonical) : Out.canonical (execStepw p f s) :=
  .ite h.illHere.state (h.feWord (.ite h (.ite h.setCore h)))

theorem State.canonical.execHalt {p : BitVec 4} {_f : FmtC} {s : State} (h : s.canonical) : Out.canonical (execHalt p _f s) := h.feWord h.setCore

end Sys2Proof.Machine
end

section
/-! SUPPORT. Canonical memories: pages, walks, faults and the frames of the hub (09_address.md R202 to R220). -/

namespace Sys2Proof.Machine

/-! ### Supervisor operands (R218, R220, R321) -/

theorem State.canonical.putReg {s : State} {n v : Nat} (h : s.canonical) : (s.putReg n v).canonical := h.setCore

theorem State.canonical.putRegs {s : State} {n : Nat} {vs : List Nat} (h : s.canonical) : (s.putRegs n vs).canonical := by
  induction vs generalizing s n with
  | nil => exact h
  | cons v vs ih => exact ih h.putReg

theorem State.canonical.putStatus {s : State} {a st : Nat} (h : s.canonical) : (s.putStatus a st).canonical := h.putReg

theorem State.canonical.svOp {s : State} {p : BitVec 4} {f : FmtZ} {k : Nat} {body : State → Nat → List Nat → State × Nat} (h : s.canonical)
    (hb : ∀ a g, (body s a g).1.canonical) : Out.canonical (svOp p f k s body) := by
  refine h.svWord ?_
  dsimp only
  split
  · exact h.putStatus
  · exact (hb _ _).putStatus

theorem State.canonical.holdFor {s : State} {what key : Nat} (h : s.canonical) : (s.holdFor what key).canonical := h.setCore

theorem State.canonical.holdOp {s : State} {what key a : Nat} (h : s.canonical) : (s.holdOp what key a).canonical := h.setCore

theorem State.canonical.finish {s : State} {what key : Nat} {put : Nat → Nat} (h : s.canonical) : (s.finish what key put).canonical :=
  h.foldl fun _ _ h => .ite (h.withDie (by rfl)) h

theorem State.canonical.unhold {s : State} {what key : Nat} (h : s.canonical) : (s.unhold what key).canonical :=
  h.foldl fun _ _ h => .ite (h.withDie (by rfl)) h

/-! ### Frames (R205, R206) -/

theorem State.canonical.setFt {s : State} {n v : Nat} (h : s.canonical) : (s.setFt n v).canonical := h.dramWr

/-! ### The extent translation cache (R209) -/

theorem State.canonical.fillEtc {s : State} {d : Nat} {x : Xlat} (h : s.canonical) : (s.fillEtc d x).canonical := h.withDie (by rfl)

/-! ### Walks and faults (R209 to R213) -/

theorem State.canonical.stallMod {s : State} (h : s.canonical) {r : Nat} {f : Stall → Stall} : (s.stallMod r f).canonical := h.withRegion (by rfl)

theorem State.canonical.startWalk {s : State} {k srcu acc : Nat} {wr : Bool} {c o off : Nat} (h : s.canonical) :
    (s.startWalk k srcu acc wr c o off).canonical := (h.delay.withDie (by rfl)).stallMod

theorem State.canonical.setPark {s : State} {k srcu acc st : Nat} (h : s.canonical) : (s.setPark k srcu acc st).canonical :=
  h.setTile (.ite (h.tile _) (.ite (h.tile _) (h.tile _)))

theorem Die.canonical.admitHeld {D : Die} (h : D.canonical) : D.admitHeld.canonical := by
  unfold Die.admitHeld
  split
  · exact .ite h h
  · exact h

theorem Die.canonical.withdraw {D : Die} {r : Nat} (h : D.canonical) : (D.withdraw r).canonical := (h.frame (by rfl)).foldl fun _ _ h => h.admitHeld

theorem State.canonical.faultIn {s : State} {d : Nat} {r : FaultRec} (h : s.canonical) : (s.faultIn d r).canonical := by
  unfold State.faultIn
  dsimp only
  split
  · exact (((h.tel.ite h).setDie (((h.tel.ite h).die _).frame (by rfl))).ite ((h.tel.ite h).withDie (by rfl))).stallMod.setPark
  · exact (((h.tel.ite h).setDie (((h.tel.ite h).die _).frame (by rfl))).ite ((h.tel.ite h).withDie (by rfl))).withRegion (by rfl)

theorem State.canonical.walkDone {s t : State} {d : Nat} {w : Walk} (h : s.canonical) (ht : s.walkDone d w = some t) : t.canonical := by
  have hwalk : (((s.setDie d { s.die d with walks := (s.die d).walks.filter (·.id != w.id) }).stallMod (s.tile w.tile).rgn
    fun x => { x with walk := x.walk - 1 })).canonical := (h.withDie (by rfl)).stallMod
  unfold State.walkDone at ht
  dsimp only at ht
  split at ht
  · split at ht
    · cases ht
    · cases ht
      exact hwalk.fillEtc.setPark
  · cases ht
    exact hwalk.faultIn

theorem State.canonical.execTranslationWalkEnd {s : State} {d k : Nat} (h : s.canonical) : Out.canonical (execTranslationWalkEnd d k s) := by
  unfold Machine.execTranslationWalkEnd
  dsimp only
  split
  · exact h
  · split
    · exact h.delay.withDie (by rfl)
    · split
      next => trivial
      next hwalk => exact h.walkDone hwalk

theorem State.canonical.fillParts {s : State} {d c o : Nat} {l : List (Nat × Nat)} (h : s.canonical) : (s.fillParts d c o l).canonical := by
  induction l generalizing s with
  | nil => exact h
  | cons x l ih =>
    refine ih ?_
    split
    · exact h
    · split
      · exact h.ite h.fillEtc
      · exact h

theorem State.canonical.execStallWireDrop {rg : Nat} {s : State} (h : s.canonical) : Out.canonical (execStallWireDrop rg s) :=
  State.canonical.ite h (h.withRegion (by rfl))

theorem State.canonical.answered {s : State} {d : Nat} {r : FaultRec} (h : s.canonical) : (s.answered d r).canonical := (h.withDie (by rfl)).stallMod

theorem State.canonical.goOn {s : State} {r : FaultRec} (h : s.canonical) : (s.goOn r).canonical := by
  unfold State.goOn
  split
  · exact h.setPark
  · exact (h.frame (by rfl)).send

theorem State.canonical.objFlt {s : State} {d : Nat} {r : FaultRec} (h : s.canonical) : (s.objFlt d r).canonical := by
  unfold State.objFlt
  dsimp only
  split
  · exact State.canonical.send (h.answered.frame (by rfl))
  · exact h.answered.tel.endBy

/-! ### Invalidations (R217, R219) -/

theorem State.canonical.invalidate {s : State} {ds : List Nat} {sel : Xlat → Bool} {s2 : Bool} {who : Nat} (h : s.canonical) :
    (s.invalidate ds sel s2 who).canonical := (h.delay.foldl (fun _ _ h1 => h1.withDie (by rfl))).foldl fun _ _ h1 => h1.foldl fun _ _ h2 => h2.send

theorem State.canonical.peerGone {s : State} {i k : Nat} (h : s.canonical) : (s.peerGone i k).canonical := h

theorem State.canonical.peerLost {s : State} {i : Nat} (h : s.canonical) : (s.peerLost i).canonical := h

theorem State.canonical.invWord {s : State} {pkg : Bool} {sel : Xlat → Bool} (h : s.canonical) : (s.invWord pkg sel).canonical :=
  h.holdFor.invalidate

theorem State.canonical.retranslate {s : State} {v : Inval} (h : s.canonical) : (s.retranslate v).canonical := by
  refine (h.frame (by rfl)).foldl fun _ _ h => ?_
  dsimp only
  split
  · exact h.withTile (by rfl)
  · exact h
  · exact h

theorem State.canonical.execInvalidationComplete {k : Nat} {s : State} (h : s.canonical) : Out.canonical (execInvalidationComplete k s) := by
  unfold Machine.execInvalidationComplete
  dsimp only
  split
  · exact h
  · exact .ite h (State.canonical.ite (h.frame (by rfl)).retranslate.setFn (h.frame (by rfl)).retranslate.unhold)

theorem State.canonical.xinvWord {p : BitVec 4} {f : FmtZ} {s : State} {sel : Nat → Nat → Xlat → Bool} (h : s.canonical) :
    Out.canonical (xinvWord p f s sel) := h.svWord h.invWord

theorem State.canonical.execXinvAll {p : BitVec 4} {f : FmtZ} {s : State} (h : s.canonical) : Out.canonical (execXinvAll p f s) := h.xinvWord

theorem State.canonical.execXinvCtx {p : BitVec 4} {f : FmtZ} {s : State} (h : s.canonical) : Out.canonical (execXinvCtx p f s) := h.xinvWord

theorem State.canonical.execXinvObj {p : BitVec 4} {f : FmtZ} {s : State} (h : s.canonical) : Out.canonical (execXinvObj p f s) := h.xinvWord

theorem State.canonical.execXinvGfr {p : BitVec 4} {f : FmtZ} {s : State} (h : s.canonical) : Out.canonical (execXinvGfr p f s) := h.xinvWord

theorem State.canonical.execS2go {v : Nat} {s : State} (h : s.canonical) : Out.canonical (execS2go v s) := State.canonical.ite h h.setFn.invalidate

/-! ### `otwr` (R214, R220) -/

theorem State.canonical.execOtwrWr {p : BitVec 4} {f : FmtZ} {s : State} (h : s.canonical) : Out.canonical (execOtwrWr p f s) := by
  refine h.svOp fun _ _ => ?_
  dsimp only
  split
  · split
    · exact h
    · split
      · exact h
      · exact h.dramWr.invWord
  · split
    · exact h
    · split
      · exact h
      · split
        · exact h
        · exact h.dramWr.invWord

theorem State.canonical.execOtwrRd {p : BitVec 4} {f : FmtZ} {s : State} (h : s.canonical) : Out.canonical (execOtwrRd p f s) := by
  refine h.svOp fun a _ => ?_
  dsimp only
  split
  · exact h
  · exact h.putRegs

theorem State.canonical.execOtwrFpop {p : BitVec 4} {f : FmtZ} {s : State} (h : s.canonical) : Out.canonical (execOtwrFpop p f s) := by
  refine h.svOp fun _ _ => ?_
  dsimp only
  split
  · exact h.putReg
  next l _ =>
    refine State.canonical.putReg (State.canonical.putRegs (h.setDie ?_))
    refine Die.canonical.frame (Die.canonical.admitHeld ?_) (by rfl)
    exact (h.die _).frame (by rfl)

theorem State.canonical.execOtwrFret {p : BitVec 4} {f : FmtZ} {s : State} (h : s.canonical) : Out.canonical (execOtwrFret p f s) := by
  refine h.svOp fun _ _ => ?_
  dsimp only
  split
  · exact h
  · split
    · exact h.answered.goOn
    · exact h.objFlt

theorem State.canonical.execOtwrFflt {p : BitVec 4} {f : FmtZ} {s : State} (h : s.canonical) : Out.canonical (execOtwrFflt p f s) := by
  refine h.svOp fun _ _ => ?_
  dsimp only
  split
  · exact h
  · exact h.objFlt

theorem State.canonical.noteMigr {s : State} {n : Nat} {b : Bool} (h : s.canonical) : (s.noteMigr n b).canonical := h.withDie (by rfl)

theorem State.canonical.reclassify {s : State} {v : Nat} {guar : Bool} (h : s.canonical) : (s.reclassify v guar).canonical := by
  unfold State.reclassify
  split
  · split
    · exact h.setFt
    · exact h
  · exact h

theorem State.canonical.setHub {s : State} {x : Hub} (h : s.canonical) : ({ s with hub := x } : State).canonical := h

theorem State.canonical.execOtwrFrm {p : BitVec 4} {f : FmtZ} {s : State} (h : s.canonical) : Out.canonical (execOtwrFrm p f s) := by
  refine h.svOp fun a g => ?_
  have hused := fun {v n : Nat} {F : Fn} => (h.setFt (n := a % 2 ^ 19) (v := n)).setFn (v := v) (x := F)
  extract_lets
  split
  · exact h
  · split
    · exact h
    · split
      · split
        · exact h
        · exact hused
      · split
        · exact h.setFt
        · split
          · exact h.setFt
          · split
            · exact h.setFt.noteMigr
            · split
              · exact hused.reclassify.noteMigr
              · split
                · exact State.canonical.setHub hused.reclassify.noteMigr
                · exact h

theorem State.canonical.execOtwrGwr {p : BitVec 4} {f : FmtZ} {s : State} (h : s.canonical) : Out.canonical (execOtwrGwr p f s) := by
  refine h.svOp fun _ _ => ?_
  dsimp only
  split
  · exact h
  · split
    · exact h
    · exact h.dramWr.invWord

theorem State.canonical.copyFrame {s : State} {src dst : Nat} {srcHost dstHost : Bool} (h : s.canonical) :
    (s.copyFrame src dst srcHost dstHost).canonical := by
  have hcut : ∀ a b, Memory.wf (cut (if srcHost = true then s.hostMem else s.dram) a frameB b) = true := by
    intro a b
    refine Memory.wf_cut _ _ _ ?_
    split
    · exact h.hostMem
    · exact h.dram
  unfold State.copyFrame
  dsimp only
  split
  · exact ⟨h.dram, Memory.wf_blit h.hostMem (hcut _ _) cut_range, h.tile, h.pool, h.die, h.region⟩
  · exact ⟨Memory.wf_blit h.dram (hcut _ _) cut_range, h.hostMem, h.tile, h.pool, h.die, h.region⟩

theorem State.canonical.execOtwrFcp {p : BitVec 4} {f : FmtZ} {s : State} (h : s.canonical) : Out.canonical (execOtwrFcp p f s) := by
  refine h.svOp fun _ _ => ?_
  dsimp only
  split
  · split
    · split
      · exact h
      · split
        · exact h
        · exact h.copyFrame
    · split
      · exact h
      · split
        · exact h
        · exact h.copyFrame
  · split
    · split
      · exact h
      · split
        · exact h
        · exact h.copyFrame
    · split
      · exact h
      · split
        · exact h
        · exact h.copyFrame

theorem State.canonical.execOtwrQrd {p : BitVec 4} {f : FmtZ} {s : State} (h : s.canonical) : Out.canonical (execOtwrQrd p f s) :=
  h.svOp fun _ _ => h.putRegs

theorem State.canonical.execGuarWrite {v x : Nat} {s : State} (h : s.canonical) : Out.canonical (execGuarWrite v x s) := State.canonical.ite h h.setFn

theorem State.canonical.execBurstWrite {v x : Nat} {s : State} (h : s.canonical) : Out.canonical (execBurstWrite v x s) :=
  State.canonical.ite h h.setFn

theorem State.canonical.ueFound {s : State} {addr : Nat} (h : s.canonical) : (s.ueFound addr).canonical := by
  unfold State.ueFound
  dsimp only
  split
  · exact h
  · exact (State.canonical.tel h.setFt).free.withDie (by rfl)

theorem State.canonical.execDramUe {addr : Nat} {s : State} (h : s.canonical) : Out.canonical (execDramUe addr s) := by
  unfold Machine.execDramUe
  split
  · exact trivial
  · exact h.markUE.ueFound

end Sys2Proof.Machine
end

section
/-! SUPPORT. Canonical memories: loads, stores, the DRAM ports and shadow slots (08_memory_order.md R176 to R193, 16_context.md R351). -/

namespace Sys2Proof.Machine

/-! ### Sampling (R180, R182, R183) -/

theorem State.canonical.mkUE {s : State} {sp : Space} {o : OrgAt} {l : List (Nat × Nat)} (h : s.canonical) : (State.mkUE sp o l s).1.canonical := by
  induction l generalizing s with
  | nil => exact h
  | cons x l ih => exact ih (h.newOrigin.ueFound.ite h.newOrigin)

theorem State.canonical.sample {s : State} {sp : Space} {o : OrgAt} {parts : List (Nat × List (Nat × Nat × Nat))} (h : s.canonical) :
    (s.sample sp o parts).1.canonical := h.mkUE

/-! ### The DRAM ports (R187, R189, R191, R204) -/

theorem State.canonical.landPart {s : State} {bs : List Byte} {l : List (Nat × Nat × Nat)} (h : s.canonical) : (s.landPart bs l).canonical := by
  induction l generalizing s bs with
  | nil => cases bs <;> exact h
  | cons r l ih => cases bs <;> exact ih h.dramWr

theorem State.canonical.performAcc {s : State} {k : Nat} {a : DAcc} {ps : List (Part × List (Nat × Nat × Nat))} (h : s.canonical) :
    (s.performAcc k a ps).canonical := by
  unfold State.performAcc
  dsimp only
  split
  · have hland := (h.foldl (f := fun s p => s.landPart p.1.data p.2) (l := ps) fun _ _ h => h.landPart).clearUE
      (sp := .dram) (rs := ps.flatMap fun p => p.2.map Prod.snd)
    split
    · exact hland.setTag.withTile (by rfl)
    · exact hland.withTile (by rfl)
  · exact h.sample.withTile (by rfl)

theorem State.canonical.performHeld {s : State} {k : Nat} {a : DAcc} {ues : List (Nat × Nat)} (h : s.canonical) : (s.performHeld k a ues).canonical :=
  h.mkUE.withTile (by rfl)

theorem State.canonical.missAcc {s : State} {k : Nat} {a : DAcc} {off : Nat} (h : s.canonical) : (s.missAcc k a off).canonical :=
  h.fillParts.startWalk.setPark

theorem State.canonical.lookAcc {s : State} {k : Nat} {a : DAcc} (h : s.canonical) : (s.lookAcc k a).canonical := by
  unfold State.lookAcc
  split
  · exact h
  · split
    · exact h
    · exact h.missAcc

theorem State.canonical.tryAcc {s : State} {k : Nat} {a : DAcc} (h : s.canonical) : (s.tryAcc k a).1.canonical := by
  unfold State.tryAcc
  split
  · exact h
  · split
    · exact h.performHeld
    · split
      · split
        · exact h.tel.endBy
        · exact h.performAcc
      · exact h.missAcc

theorem State.canonical.tryAccs {s : State} {k : Nat} {l : List DAcc} (h : s.canonical) : (State.tryAccs k l s).1.canonical := by
  induction l generalizing s with
  | nil => exact h
  | cons a l ih =>
    unfold State.tryAccs
    dsimp only
    split
    · exact ih h.tryAcc
    · exact h.tryAcc.foldl fun _ _ h => h.lookAcc

theorem State.canonical.portAcc {s : State} {k id : Nat} (h : s.canonical) : (s.portAcc k id).1.canonical := by
  unfold State.portAcc
  dsimp only
  split
  · exact h
  · exact h.tryAccs

theorem State.canonical.execDramAccessAtPort {t k : Nat} {s : State} (h : s.canonical) : Out.canonical (execDramAccessAtPort t k s) := h.portAcc

theorem State.canonical.hurry {s : State} {k : Nat} {a : DAcc} (h : s.canonical) : (State.hurry k s a).canonical := by
  refine State.canonical.fillParts ?_
  split
  · split
    next w _ =>
      cases hwalk : s.walkDone (dieOfTile k) w with
      | none => exact h
      | some t => exact h.walkDone hwalk
    next => exact h
  · exact h

theorem State.canonical.flushAcc {s : State} {k : Nat} {sel : DAcc → Bool} (h : s.canonical) : (s.flushAcc k sel).canonical := by
  unfold State.flushAcc
  dsimp only
  split
  · exact h
  · exact (h.foldl (fun _ _ h1 => h1.hurry)).foldl fun _ _ h1 => h1.portAcc

theorem State.canonical.flushLoads {s : State} {k : Nat} (h : s.canonical) : (s.flushLoads k).canonical := h.flushAcc

theorem State.canonical.flushStores {s : State} {k : Nat} (h : s.canonical) : (s.flushStores k).canonical := h.flushAcc

theorem State.canonical.sendAcc {s : State} {write : Bool} {oid : Nat} {parts : List Part} {form : Option LoadForm} {ctag : Option Bool}
    (h : s.canonical) :
    (s.sendAcc write oid parts form ctag).canonical := h.delay.setMyTile (h.delay.tile _)

/-! ### Loads -/

theorem State.canonical.sramLoad {s : State} {sp : Space} {oid lat : Nat} {l : List (Nat × Nat × Nat)} {form : LoadForm} (h : s.canonical) :
    (sramLoad s sp oid lat l form).canonical := .ite (h.flushLoads.setMyTile (h.flushLoads.tile _)) h.flushLoads.sample

theorem State.canonical.loadWord {hd : Hdr} {s : State} {cp : BitVec 5} {n align : Nat} {chks : List Chk} {form : LoadForm} (h : s.canonical) :
    Out.canonical (loadWord hd s cp n align chks form) :=
  h.qWord (by
  dsimp only
  split
  · exact h
  · split
    · exact h
    · split
      · exact h.sramLoad
      · exact h.sendAcc)

theorem State.canonical.execLds {hd : Hdr} {f : FmtM} {s : State} (h : s.canonical) : Out.canonical (execLds hd f s) := h.loadWord

theorem State.canonical.execLdv {hd : Hdr} {f : FmtM} {s : State} (h : s.canonical) : Out.canonical (execLdv hd f s) := h.loadWord

theorem State.canonical.execLdvs {hd : Hdr} {f : FmtM} {s : State} (h : s.canonical) : Out.canonical (execLdvs hd f s) := h.loadWord

theorem State.canonical.execLdvg {hd : Hdr} {f : FmtMG} {s : State} (h : s.canonical) : Out.canonical (execLdvg hd f s) := h.loadWord

theorem State.canonical.execLdvb {hd : Hdr} {f : FmtM} {s : State} (h : s.canonical) : Out.canonical (execLdvb hd f s) := h.loadWord

theorem State.canonical.execLdo {hd : Hdr} {f : FmtM} {s : State} (h : s.canonical) : Out.canonical (execLdo hd f s) := h.loadWord

theorem State.canonical.execLdc {hd : Hdr} {f : FmtM} {s : State} (h : s.canonical) : Out.canonical (execLdc hd f s) := h.loadWord

theorem State.canonical.execRfl {hd : Hdr} {f : FmtM} {s : State} (h : s.canonical) : Out.canonical (execRfl hd f s) :=
  h.qWord (by
  split
  · exact h
  · exact h.sramLoad)

/-! ### Stores -/

theorem State.canonical.storeParts {s : State} {oid : Nat} {l : List Part} {ctag : Option Bool} (h : s.canonical) :
    (storeParts s oid l ctag).canonical := by
  unfold Machine.storeParts
  dsimp only
  split
  · split
    · exact ((h.ite h.flushStores).foldl (fun _ _ h => h.wr)).clearUE.setTag
    · exact ((h.ite h.flushStores).foldl (fun _ _ h => h.wr)).clearUE
  · exact .ite h h.sendAcc

theorem State.canonical.vstoreWord {hd : Hdr} {s : State} {cp : BitVec 5} {ds : BitVec 8} {n : Nat} {narrow : Bool} {chks : List Chk}
    (h : s.canonical) :
    Out.canonical (vstoreWord hd s cp ds n narrow chks) :=
  h.qWord (by
  dsimp only
  split
  · exact h
  · exact .ite h h.storeParts)

theorem State.canonical.execStv {hd : Hdr} {f : FmtM} {s : State} (h : s.canonical) : Out.canonical (execStv hd f s) := h.vstoreWord

theorem State.canonical.execStvs {hd : Hdr} {f : FmtM} {s : State} (h : s.canonical) : Out.canonical (execStvs hd f s) := h.vstoreWord

theorem State.canonical.execStvx {hd : Hdr} {f : FmtMG} {s : State} (h : s.canonical) : Out.canonical (execStvx hd f s) := h.vstoreWord

theorem State.canonical.execSts {hd : Hdr} {f : FmtM} {s : State} (h : s.canonical) : Out.canonical (execSts hd f s) :=
  h.qWord (by
  dsimp only
  split
  · exact h
  · exact .ite h h.storeParts)

theorem State.canonical.execStc {hd : Hdr} {f : FmtM} {s : State} (h : s.canonical) : Out.canonical (execStc hd f s) :=
  h.qWord (by
  dsimp only
  split
  · exact h
  · exact h.storeParts)

theorem State.canonical.execSpl {hd : Hdr} {f : FmtM} {s : State} (h : s.canonical) : Out.canonical (execSpl hd f s) :=
  h.qWord (by
  split
  · exact h
  · exact h.flushStores.wr)

/-! ### Marks and fences -/

theorem State.canonical.setCur {s : State} {c : Cur} (h : s.canonical) : ({ s with cur := c } : State).canonical := h

theorem State.canonical.markWord {hd : Hdr} {f : FmtF} {s : State} (h : s.canonical) : Out.canonical (markWord hd f s) := by
  refine State.canonical.ite h.take ?_
  split
  · exact h
  · split
    · exact h
    · refine State.canonical.ite (h.take.ite h) (State.canonical.ite ?_ h)
      dsimp only
      have hfirst := (h.issueHead (hd := hd)).pushDone (hd := hd)
      generalize Machine.pushDone hd (Machine.issueHead hd s) = u at hfirst
      exact State.canonical.setCur (State.canonical.pushDone (State.canonical.issueHead hfirst.setCur))

theorem State.canonical.execMarkL {hd : Hdr} {f : FmtF} {s : State} (h : s.canonical) : Out.canonical (execMarkL hd f s) := h.markWord

theorem State.canonical.execMarkS {hd : Hdr} {f : FmtF} {s : State} (h : s.canonical) : Out.canonical (execMarkS hd f s) := h.markWord

theorem State.canonical.execFeno {hd : Hdr} {f : FmtF} {s : State} (h : s.canonical) : Out.canonical (execFeno hd f s) :=
  h.qWord (State.canonical.ite h (h.setMyTile (h.tile _)))

theorem State.canonical.execFenr {hd : Hdr} {f : FmtF} {s : State} (h : s.canonical) : Out.canonical (execFenr hd f s) :=
  h.qWord (.ite h (h.delay.setMyTile (h.delay.tile _)))

theorem State.canonical.execFenq {hd : Hdr} {f : FmtF} {s : State} (h : s.canonical) : Out.canonical (execFenq hd f s) :=
  h.qWord (.ite h (h.setMyTile (h.tile _)))

theorem Tile.canonical.fenceDone {t : Tile} {x : Fence} (h : t.canonical) : (t.fenceDone x).canonical := h

theorem State.canonical.fenceCheck {s : State} {k : Nat} (h : s.canonical) : (s.fenceCheck k).canonical := by
  unfold State.fenceCheck
  dsimp only
  split
  · exact h
  · exact .ite (.ite (.ite (h.setTile (h.tile _).fenceDone) h) (.ite h (h.withTile (by rfl)))) (.ite h (h.setTile (h.tile _).fenceDone))

theorem State.canonical.execFenrRequest {t src : Nat} {s : State} (h : s.canonical) : Out.canonical (execFenrRequest t src s) := h.withTile (by rfl)

theorem State.canonical.execFenrAck {t owner : Nat} {s : State} (h : s.canonical) : Out.canonical (execFenrAck t owner s) := by
  unfold Machine.execFenrAck
  dsimp only
  split
  · exact h
  · exact State.canonical.ite h ((h.withTile (by rfl)).withTile (by rfl))

/-! ### Results and pushes (R62, R63, R66, R69) -/

theorem Tile.canonical.writeDest {t : Tile} {d : Dest} (h : t.canonical) : (t.writeDest d).canonical := by
  unfold Tile.writeDest
  dsimp only
  split
  · exact h
  · exact h
  · exact .ite h h
  · exact .ite h h

theorem Tile.canonical.land {t : Tile} {d : Due} {dst : List Dest} (h : t.canonical) : (t.land d dst).canonical := by
  unfold Tile.land
  dsimp only
  split <;> exact h.foldl fun _ _ h => h.writeDest

theorem State.canonical.needAcc {s : State} {k id : Nat} (h : s.canonical) : (s.needAcc k id).canonical := by
  unfold State.needAcc
  dsimp only
  split
  · split
    · exact h.portAcc.performHeld
    · exact h.portAcc
  · exact h.portAcc

theorem State.canonical.landDue {k : Nat} {s : State} {d : Due} (h : s.canonical) : (State.landDue k s d).canonical := by
  unfold State.landDue
  dsimp only
  split
  · exact h.setTile ((h.tile _).frame (by rfl)).land
  · split
    · exact h.needAcc
    · exact h.needAcc.setTile ((h.needAcc.tile _).frame (by rfl)).land

theorem State.canonical.execResultWriteback {t : Nat} {s : State} (h : s.canonical) : Out.canonical (execResultWriteback t s) :=
  h.foldl fun _ _ h => h.landDue

theorem State.canonical.execTokenPushWaitEnd {t : Nat} {s : State} (h : s.canonical) : Out.canonical (execTokenPushWaitEnd t s) := h.withTile (by rfl)

theorem Tile.canonical.loadMap {t : Tile} {b : Nat} {m : Memory} (h : t.canonical) : (t.loadMap b m).canonical :=
  ((h.frame (by rfl)).ite (h.frame (by rfl))).foldl fun _ _ h => .ite h h

theorem Tile.canonical.restore {t : Tile} {b : Nat} {m : Memory} {tvec : BitVec 32} (h : t.canonical) : (t.restore b m tvec).canonical := by
  unfold Tile.restore
  exact Tile.canonical.loadMap (h.frame (by rfl))

theorem Tile.canonical.setSlot {t : Tile} {b : Nat} {m : Memory} (h : t.canonical) (hm : Memory.wf m = true) : (t.setSlot b m).canonical := by
  obtain ⟨hscr, h0, h1⟩ := h
  unfold Tile.setSlot
  split
  · exact ⟨hscr, hm, h1⟩
  · exact ⟨hscr, h0, hm⟩

theorem Tile.canonical.slot {t : Tile} (h : t.canonical) (b : Nat) : Memory.wf (t.slot b) = true := by
  unfold Tile.slot
  split
  · exact h.2.1
  · exact h.2.2

theorem length_flatMap_const {α β : Type} {n : Nat} {f : α → List β} {l : List α} (hf : ∀ x, (f x).length = n) :
    (l.flatMap f).length = n * l.length := by
  simp [List.length_flatMap, hf, Nat.mul_comm]

theorem length_flatMap_leBytes {α : Type} (n : Nat) (f : α → Nat) (l : List α) : (l.flatMap fun x => leBytes n (f x)).length = n * l.length :=
  length_flatMap_const fun _ => leBytes_length n _

theorem mapBytes_fst_length (t : Tile) (m : Tab SMapE) : (mapBytes t m).1.length = 512 := by
  unfold mapBytes
  rw [length_flatMap_leBytes, List.length_range]

theorem mapBytes_snd_length (t : Tile) (m : Tab SMapE) : (mapBytes t m).2.length = 512 := by
  unfold mapBytes
  rw [length_flatMap_leBytes, List.length_range]

/-- The map and the counts of a context as they lie in its image. -/
theorem wf_mapCells (t : Tile) (m : Tab SMapE) :
    Memory.wf (ofBytes 0x6880 (mapBytes t m).1 ++ ofBytes 0x6A80 (mapBytes t m).2) = true
      ∧ ∀ c ∈ ofBytes 0x6880 (mapBytes t m).1 ++ ofBytes 0x6A80 (mapBytes t m).2, 0x6880 ≤ c.1 ∧ c.1 < 0x6880 + 0x400 := by
  have h1 := ofBytes_range (mapBytes t m).1 0x6880
  have h2 := ofBytes_range (mapBytes t m).2 0x6A80
  rw [mapBytes_fst_length] at h1
  rw [mapBytes_snd_length] at h2
  refine ⟨Memory.wf_append (Memory.wf_ofBytes _ _) (Memory.wf_ofBytes _ _) fun a ha b hb => ?_, fun c hc => ?_⟩
  · have := h1 a ha
    have := h2 b hb
    omega
  · rcases List.mem_append.mp hc with hc | hc
    · have := h1 c hc
      omega
    · have := h2 c hc
      omega

theorem Tile.canonical.syncSlot {t : Tile} {b : Nat} (h : t.canonical) : (t.syncSlot b).canonical :=
  h.setSlot (Memory.wf_blit (h.slot b) (wf_mapCells t _).1 (wf_mapCells t _).2)

end Sys2Proof.Machine
end

section
/-! SUPPORT. Canonical memories: semaphores, barriers and their maps (10_barrier.md). -/

namespace Sys2Proof.Machine

/-! ### Semaphores (R221 to R223, R225) -/

theorem Tile.canonical.setCount {t : Tile} {p n : Nat} (h : t.canonical) : (t.setCount p n).canonical := h

theorem Tile.canonical.setSmap {t : Tile} {b : Nat} {m : Tab SMapE} (h : t.canonical) : (t.setSmap b m).canonical := .ite h h

theorem State.canonical.capRgt16 {s : State} (h : s.canonical) : (capRgt16 s).canonical := h.addGuilt

theorem State.canonical.syncWord {s : State} (h : s.canonical) {hd : Hdr} {onTile : State → QRes} {onSorrel : State → FRes}
    (ht : (onTile s).canonical) (hx : (onSorrel s).canonical) : Out.canonical (syncWord hd s onTile onSorrel) := by
  unfold Machine.syncWord
  split
  · refine FRes.canonical.state ?_
    split
    · exact h.illHere
    · exact h.predGate hx
  · exact h.qWord ht

theorem State.canonical.setSorSem {s : State} {n v : Nat} (h : s.canonical) : (s.setSorSem n v).canonical := h.withDie (by rfl)

theorem State.canonical.onSem {s : State} (h : s.canonical) {f : FmtY} {body : Tile → Nat → QRes} (hb : ∀ p, (body s.myTile p).canonical) :
    (onSem s f body).canonical := by
  unfold Machine.onSem
  split
  · exact h.capRgt16
  · exact hb _

theorem State.canonical.execSemw {hd : Hdr} {f : FmtY} {s : State} (h : s.canonical) : Out.canonical (execSemw hd f s) := by
  refine h.syncWord (h.onSem fun p => ?_) (.ite h.setSorSem h)
  refine QRes.canonical.ite ?_ trivial
  exact State.canonical.setMyTile h (h.tile _)

theorem Tile.canonical.addOp {t : Tile} {o : SemOp} (h : t.canonical) : (t.addOp o).canonical := h

theorem State.canonical.execSems {hd : Hdr} {f : FmtY} {s : State} (h : s.canonical) : Out.canonical (execSems hd f s) :=
  h.syncWord (h.onSem (fun _ => h.setMyTile (h.tile _).addOp)) (.ite h.setSorSem h.setSorSem)

theorem State.canonical.execSemr {hd : Hdr} {f : FmtY} {s : State} (h : s.canonical) : Out.canonical (execSemr hd f s) :=
  h.syncWord (h.onSem (fun _ => h)) h.putReg

theorem State.canonical.execSemi {hd : Hdr} {f : FmtY} {s : State} (h : s.canonical) : Out.canonical (execSemi hd f s) :=
  h.syncWord (h.onSem (fun _ => .ite h (.ite (h.setMyTile (h.tile _).setCount) (h.setMyTile (h.tile _).addOp)))) (.ite h
    (.ite h.setSorSem h.setSorSem))

theorem Tile.canonical.applyOp {t : Tile} {o : SemOp} (h : t.canonical) : (t.applyOp o).1.canonical := by
  unfold Tile.applyOp
  split
  · exact h.setCount
  · exact Tile.canonical.setCount (h.frame (by rfl))

theorem State.canonical.semOverflow {s : State} {k : Nat} {o : SemOp} (h : s.canonical) : (s.semOverflow k o).canonical :=
  .ite h.trapTile (.ite h.send h.tel.endBy)

theorem State.canonical.applySemops {s : State} {k : Nat} (h : s.canonical) : (s.applySemops k).canonical := by
  refine State.canonical.foldl (h.withTile (by rfl)) fun s o h => ?_
  have hop : (s.setTile k ((s.tile k).applyOp o).1).canonical := h.setTile (h.tile k).applyOp
  exact hop.semOverflow.ite (hop.send.ite hop)

theorem State.canonical.incRefused {s : State} {x : RemInc} (h : s.canonical) : (s.incRefused x).canonical := h.addGuilt.tel.endBy

theorem State.canonical.incLost {s : State} {x : RemInc} {i : Nat} (h : s.canonical) : (s.incLost x i).canonical := h.tel.endBy

theorem State.canonical.execRemoteIncrement {k : Nat} {s : State} (h : s.canonical) : Out.canonical (execRemoteIncrement k s) := by
  unfold Machine.execRemoteIncrement
  dsimp only
  split
  · exact h
  · split
    · exact h
    · split
      · split
        · exact (h.frame (by rfl)).incLost
        · exact (h.frame (by rfl)).send
      · split
        · exact (h.frame (by rfl)).incRefused
        · exact (h.frame (by rfl)).setTile ((h.frame (by rfl)).tile _).addOp

theorem State.canonical.peerSigAnswer {s : State} {k code p : Nat} (h : s.canonical) : (s.peerSigAnswer k code p).canonical := by
  unfold State.peerSigAnswer
  dsimp only
  split
  · exact h
  · exact .ite (h.frame (by rfl)).tel.endBy (.ite (h.frame (by rfl)).incRefused (.ite (h.frame (by rfl)).incLost h))

/-! ### Barriers (R227 to R230, R237) -/

theorem State.canonical.setBar {s : State} {o : Nat × Nat} {b : Barrier} (h : s.canonical) : (s.setBar o b).canonical := h.withPool (by rfl)

theorem State.canonical.barWord {s : State} (h : s.canonical) {hd : Hdr} {f : FmtY} {body : State → Nat × Nat → QRes}
    (hb : ∀ o, (body s o).canonical) : Out.canonical (barWord hd f s body) := by
  refine h.qWord ?_
  split
  · exact h.capRgt16
  · exact hb _

theorem State.canonical.arrive {s : State} {o : Nat × Nat} {mode : Bool} {n : Nat} (h : s.canonical) : (s.arrive o mode n).canonical :=
  h.withRegion (by rfl)

theorem State.canonical.execBara {hd : Hdr} {f : FmtY} {s : State} (h : s.canonical) : Out.canonical (execBara hd f s) := h.barWord fun _ => h.arrive

theorem State.canonical.execBarb {hd : Hdr} {f : FmtY} {s : State} (h : s.canonical) : Out.canonical (execBarb hd f s) :=
  h.barWord fun _ => .ite h (.ite h h.arrive)

theorem State.canonical.execBarw {hd : Hdr} {f : FmtY} {s : State} (h : s.canonical) : Out.canonical (execBarw hd f s) :=
  h.barWord fun _ => .ite h (.ite (h.setMyTile (h.tile _)) trivial)

theorem State.canonical.execBarq {hd : Hdr} {f : FmtY} {s : State} (h : s.canonical) : Out.canonical (execBarq hd f s) := h.barWord fun _ => h

theorem State.canonical.closeBarriers {s : State} {r u : Nat} (h : s.canonical) : (s.closeBarriers r u).canonical :=
  (h.withRegion (by rfl)).foldl fun _ _ h => h.setBar

/-! ### `smap` and `bmap` (R232) -/

theorem State.canonical.putMap {s : State} {r k b : Nat} {t : Tile} (h : s.canonical) (ht : t.canonical) : (s.putMap r k b t).canonical :=
  h.setTile (ht.syncSlot.ite ht)

theorem State.canonical.smapOp {p : BitVec 4} {f : FmtZ} {s : State} {body : State → Nat → Nat → Nat → Nat → State × Nat} (h : s.canonical)
    (hb : ∀ k b r w, (body s k b r w).1.canonical) : Out.canonical (smapOp p f s body) := by
  refine h.svOp fun a g => ?_
  dsimp only
  split
  · exact h
  · split
    · exact h
    · split
      · exact h
      · exact hb _ _ _ _

theorem State.canonical.execSmapWr {p : BitVec 4} {f : FmtZ} {s : State} (h : s.canonical) : Out.canonical (execSmapWr p f s) := by
  refine h.smapOp fun _ _ _ _ => ?_
  dsimp only
  split
  · exact h
  · split
    · exact h
    · split
      · split
        · exact h
        · exact h.putMap (.ite (h.tile _).setSmap.setCount.setCount (h.tile _).setSmap)
      · split
        · exact h
        · exact h.putMap (.ite (h.tile _).setSmap.setCount.setCount (h.tile _).setSmap)

theorem State.canonical.execSmapRd {p : BitVec 4} {f : FmtZ} {s : State} (h : s.canonical) : Out.canonical (execSmapRd p f s) :=
  h.smapOp fun _ _ _ _ => h.putReg

theorem State.canonical.adjLater {s : State} {r k cause val : Nat} (h : s.canonical) : (s.adjLater r k cause val).canonical := h.withRegion (by rfl)

theorem State.canonical.execSmapAdj {p : BitVec 4} {f : FmtZ} {s : State} (h : s.canonical) : Out.canonical (execSmapAdj p f s) := by
  refine h.smapOp fun _ _ _ _ => ?_
  dsimp only
  split
  · exact h
  · split
    · exact h
    · split
      · exact (h.putMap (h.tile _).setCount).adjLater
      · split
        · exact (h.putMap (h.tile _).setCount).adjLater
        · exact h.putMap (h.tile _).setCount

theorem State.canonical.bindBar {s : State} {c n cl sl : Nat} {mode : Bool} {count r : Nat} (h : s.canonical) :
    (s.bindBar c n cl sl mode count r).canonical := h.setCtx.setBar

theorem State.canonical.execBmapBind {p : BitVec 4} {f : FmtZ} {s : State} (h : s.canonical) : Out.canonical (execBmapBind p f s) := by
  refine h.svOp fun _ _ => ?_
  dsimp only
  split
  · split
    · exact h
    · split
      · exact h
      · exact h.bindBar
  · split
    · exact h
    · split
      · exact h
      · exact h.bindBar

theorem State.canonical.bmapOp {p : BitVec 4} {f : FmtZ} {s : State} {body : State → Nat → Nat × Nat → State × Nat} (h : s.canonical)
    (hb : ∀ a o, (body s a o).1.canonical) : Out.canonical (bmapOp p f s body) := by
  refine h.svOp fun a g => ?_
  split
  · exact h
  · exact hb _ _

theorem State.canonical.unbindBar {s : State} {c n : Nat} (h : s.canonical) : (s.unbindBar c n).canonical := by
  unfold State.unbindBar
  dsimp only
  split
  · exact h
  · exact h.setCtx.setBar

theorem State.canonical.execBmapUnbind {p : BitVec 4} {f : FmtZ} {s : State} (h : s.canonical) : Out.canonical (execBmapUnbind p f s) := by
  refine h.bmapOp fun _ _ => ?_
  split
  · exact h
  · exact h.unbindBar

theorem State.canonical.execBmapRd {p : BitVec 4} {f : FmtZ} {s : State} (h : s.canonical) : Out.canonical (execBmapRd p f s) :=
  h.bmapOp fun _ _ => h.putRegs

theorem State.canonical.zeroWph {s : State} {r n : Nat} (h : s.canonical) : (s.zeroWph r n).canonical := by
  unfold State.zeroWph
  dsimp only
  split
  · exact h
  · split
    · exact h.foldl fun _ _ h => h.dramWr
    · exact h.foldl fun _ _ h => h.setTile ((h.tile _).setSlot (Memory.wf_blit ((h.tile _).slot _) rfl (by simp)))

theorem State.canonical.execBmapRst {p : BitVec 4} {f : FmtZ} {s : State} (h : s.canonical) : Out.canonical (execBmapRst p f s) := by
  refine h.bmapOp fun _ _ => ?_
  dsimp only
  split
  · exact h
  · exact (h.setBar.foldl (fun _ _ h => h.withTile (by rfl))).zeroWph

end Sys2Proof.Machine
end

section
/-! SUPPORT. Canonical memories: regions, their saves and moves (14_group.md R312 to R322). -/

namespace Sys2Proof.Machine

/-! ### Control blocks (15_queue.md R334) -/

theorem State.canonical.setQueue {s : State} {c q : Nat} {Q : Queue} (h : s.canonical) : (s.setQueue c q Q).canonical := h.setCtx

theorem State.canonical.modQueue {s : State} (h : s.canonical) {c q : Nat} {f : Queue → Queue} : (s.modQueue c q f).canonical := h

theorem State.canonical.ctl {s : State} (h : s.canonical) {c q : Nat} {f : CtlHalf → CtlHalf} : (s.ctl c q f).canonical := h

/-! ### Placement (R303 to R308) -/

theorem State.canonical.fenceTiles {s : State} {r b : Nat} {ks : List Nat} (h : s.canonical) : (s.fenceTiles r b ks).canonical :=
  h.foldl fun _ _ h => h.setTile (Tile.canonical.setSmap ((h.tile _).frame (by rfl)))

/-! ### `rgsta.plc` (R321, R322) -/

theorem Region.canonical_of_image {R : Region} (h : Memory.wf R.image = true) : R.canonical := h

theorem State.canonical.placeRegion {s : State} {c q : Nat} {L : Launch} {img : Memory} {rot ox oy b : Nat} (h : s.canonical)
    (himg : Memory.wf img = true) : (s.placeRegion c q L img rot ox oy b).1.canonical := by
  unfold State.placeRegion
  exact State.canonical.ctl (State.canonical.modQueue (State.canonical.fenceTiles (h.setRegion (Region.canonical_of_image himg))))

theorem State.canonical.tryPlace {s : State} {c q : Nat} {L : Launch} {p : Nat × Nat × Nat × Bool} {x : State × Nat} (h : s.canonical)
    (hx : s.tryPlace c q L p = .ok x) : x.1.canonical := by
  have himg : Memory.wf (s.slotImageOf c L.slot) = true := Memory.wf_cut _ _ _ h.dram
  unfold State.tryPlace at hx
  dsimp only at hx
  split at hx
  · split at hx
    · cases hx
    · cases hx
      exact h.placeRegion himg
  · split at hx
    · cases hx
    · split at hx
      · cases hx
      · cases hx
        exact h.placeRegion himg

theorem State.canonical.execRgstaPlc {p : BitVec 4} {f : FmtZ} {s : State} (h : s.canonical) : Out.canonical (execRgstaPlc p f s) := by
  refine h.svOp fun a g => ?_
  dsimp only
  split
  · exact h
  · split
    · exact h
    · split
      · exact h
      · split
        · exact h
        · split
          · exact h
          next hplace => exact (h.tryPlace hplace).putReg

/-! ### Starting (R72 to R74, R292, R310) -/

theorem State.canonical.rgOp {p : BitVec 4} {f : FmtZ} {k : Nat} {s : State} {body : State → Nat → Region → List Nat → State × Nat} (h : s.canonical)
    (hb : ∀ r g, (body s r (s.region r) g).1.canonical) : Out.canonical (rgOp p f k s body) := by
  refine h.svOp fun a g => ?_
  dsimp only
  split
  · exact h
  · exact hb _ _

theorem State.canonical.startAt {s : State} {r : Nat} {R : Region} (h : s.canonical) (hR : R.canonical) : (s.startAt r R).canonical :=
  h.delay.setRegion hR

theorem State.canonical.atStage4 {s : State} {r : Nat} (h : s.canonical) : (s.atStage4 r).canonical := by
  unfold State.atStage4
  dsimp only
  split
  · exact .ite (h.withRegion (by rfl)).modQueue.setCtx (h.withRegion (by rfl))
  · exact h.withRegion (by rfl)

theorem State.canonical.execRgstaGo {p : BitVec 4} {f : FmtZ} {s : State} (h : s.canonical) : Out.canonical (execRgstaGo p f s) := by
  refine h.rgOp fun _ _ => ?_
  split
  · exact h
  · exact (h.startAt (h.region _)).atStage4

theorem Tile.canonical.launchTile {s : State} {t : Tile} {R : Region} (h : t.canonical) : (launchTile s t R).canonical := h

theorem State.canonical.poolInit {s : State} {c off : Nat} {bs : List Byte} {given : List (Nat × Nat)} (h : s.canonical) :
    (s.poolInit c off bs given).canonical := .ite h.wr (h.foldl (fun _ _ h => .ite h h.wr))

theorem State.canonical.applyInit {k : Nat} {given : List (Nat × Nat)} {s : State} {r : InitRec} (h : s.canonical) :
    (State.applyInit k given s r).canonical :=
  .ite h.wr (.ite h.poolInit (h.foldl (fun _ _ h => by
  split
  · exact h
  · exact h.setTile (h.tile _).setCount)))

theorem State.canonical.startTile {r : Nat} {s : State} {k : Nat} (h : s.canonical) : (State.startTile r s k).canonical :=
  (h.setTile (((h.tile _).launchTile).foldl (fun _ _ h1 => h1.setCount))).foldl fun _ _ h1 => h1.applyInit

theorem State.canonical.execRegionColumnStart {rg col : Nat} {s : State} (h : s.canonical) : Out.canonical (execRegionColumnStart rg col s) :=
  State.canonical.ite h (State.canonical.ite ((h.foldl (fun _ _ h1 => h1.startTile)).withRegion (by rfl)) (h.foldl (fun _ _ h1 => h1.startTile)))

/-! ### The end of a grid (R121, R312, R350) -/

theorem Tile.canonical.zeroBank {t : Tile} {b : Nat} (h : t.canonical) : (t.zeroBank b).canonical := h.foldl fun _ _ h => h.setCount

theorem State.canonical.unbindAll {s : State} {r : Nat} (h : s.canonical) : (s.unbindAll r).canonical := h.foldl fun _ _ h => h.unbindBar

theorem State.canonical.dropOps {s : State} {r : Nat} (h : s.canonical) : (s.dropOps r).canonical := by
  have hdone := State.canonical.foldl (f := fun s w => s.finish w r (statusIn 3)) (l := [2, 3, 4, 6])
    (h.finish (what := 7) (key := r) (put := statusIn3 3)) fun _ _ h => h.finish
  unfold State.dropOps
  generalize [2, 3, 4, 6].foldl (fun s w => s.finish w r (statusIn 3)) (s.finish 7 r (statusIn3 3)) = u at hdone
  exact hdone.setRegion (hdone.region r)

theorem State.canonical.withdrawFaults {s : State} {r : Nat} (h : s.canonical) : (s.withdrawFaults r).canonical :=
  h.foldl fun _ _ h => h.setDie (h.die _).withdraw

theorem State.canonical.gridOver {s : State} {r : Nat} (h : s.canonical) : (s.gridOver r).canonical := by
  unfold State.gridOver
  refine State.canonical.leadSem (State.canonical.dropOps ?_)
  have hbanks := State.canonical.foldl (f := fun s x => s.setTile x.2 ((s.tile x.2).zeroBank x.1))
    (l := ((s.withdrawFaults r).region r).slotPlaces.flatMap fun p => p.2.map fun k => (p.1, k))
    (h.withdrawFaults (r := r)) fun _ _ h => h.setTile (h.tile _).zeroBank
  exact hbanks.unbindAll.setRegion ((hbanks.unbindAll.region r).frame (by rfl))

theorem Tile.canonical.stopAll {t : Tile} (h : t.canonical) : t.stopAll.canonical := h

theorem State.canonical.dropFlight {s : State} {r : Nat} (h : s.canonical) : (s.dropFlight r).canonical :=
  ((h.foldl (fun _ _ h1 => h1.send)).frame (by rfl)).foldl fun _ _ h1 => h1.withDie (by rfl)

theorem State.canonical.endGrid {s : State} {r : Nat} {rep : Report} (h : s.canonical) : (s.endGrid r rep).canonical :=
  ((h.foldl (fun _ _ h => h.setTile (h.tile _).stopAll)).dropFlight.withRegion (by rfl)).gridOver.setFn

theorem State.canonical.abort {s : State} {r n : Nat} (h : s.canonical) : (s.abort r n).canonical := h.endGrid

theorem State.canonical.settleGrid {s : State} {r : Nat} (h : s.canonical) : (s.settleGrid r).canonical := by
  unfold State.settleGrid
  split
  · exact .ite h h.endGrid
  · exact h

theorem State.canonical.settleAll {s : State} (h : s.canonical) : s.settleAll.canonical := h.foldl fun _ _ h => h.settleGrid

theorem State.canonical.retire {s : State} {r : Nat} (h : s.canonical) : (s.retire r).canonical := .ite (h.withRegion (by rfl)).gridOver h

theorem State.canonical.execTilePartEnd {t : Nat} {s : State} (h : s.canonical) : Out.canonical (execTilePartEnd t s) :=
  State.canonical.ite h ((h.withTile (by rfl)).stallMod.ite (h.withTile (by rfl))).retire

theorem Tile.canonical.scrubbed {t : Tile} {b : Nat} (h : t.canonical) : (t.scrubbed b).canonical :=
  (Tile.canonical.setSmap (t := { ({} : Tile) with
    slot0 := (t.zeroBank b).slot0, slot1 := (t.zeroBank b).slot1, smap0 := (t.zeroBank b).smap0, smap1 := (t.zeroBank b).smap1,
    sem := (t.zeroBank b).sem }) ⟨rfl, h.zeroBank.2⟩).setSlot rfl

theorem State.canonical.zeroFrames {s : State} {f n : Nat} (h : s.canonical) : (s.zeroFrames f n).canonical :=
  ⟨Memory.wf_blit h.dram rfl (by simp), h.hostMem, h.tile, h.pool, h.die, h.region⟩

theorem State.canonical.dropTiles {s : State} {b : Nat} {ks : List Nat} (h : s.canonical) : (s.dropTiles b ks).canonical :=
  State.canonical.foldl (h.foldl fun _ _ h => h.setTile (h.tile _).scrubbed) fun _ _ h => h.setPool rfl

theorem State.canonical.dropSlots {s : State} {b : Nat} {ks : List Nat} (h : s.canonical) : (s.dropSlots b ks).canonical :=
  h.foldl fun _ _ h => h.setTile ((h.tile _).zeroBank.setSmap.setSlot rfl)

theorem State.canonical.dropPeers {s : State} {r : Nat} (h : s.canonical) : (s.dropPeers r).canonical := (h.frame (by rfl)).foldl fun _ _ h => h.send

theorem State.canonical.release {s : State} {r : Nat} (h : s.canonical) : (s.release r).canonical := by
  have hgone : State.canonical ((((s.withdrawFaults r).dropFlight r).dropPeers r).unbindAll r) :=
    State.canonical.unbindAll (State.canonical.dropPeers (State.canonical.dropFlight h.withdrawFaults))
  have hslots := hgone.foldl (f := fun s p => s.dropSlots p.1 p.2) (l := (s.region r).slotPlaces) fun _ _ h => h.dropSlots
  have hfree := fun {b c : Nat} {ks ls : List Nat} {v : Nat} {x : Fn} => State.canonical.setFn (v := v) (x := x)
    (((hslots.dropTiles (b := b) (ks := ks)).dropTiles (b := c) (ks := ls)).foldl (f := fun s f => s.zeroFrames f 1)
      (l := regionFrames (s.region r)) fun _ _ h => h.zeroFrames)
  unfold State.release
  refine State.canonical.setRegion ?_ rfl
  dsimp only
  split
  · split
    · exact hfree
    · exact State.canonical.ctl (State.canonical.setQueue hfree)
  · exact hfree

theorem State.canonical.execRgretRel {p : BitVec 4} {f : FmtZ} {s : State} (h : s.canonical) : Out.canonical (execRgretRel p f s) := by
  refine h.rgOp fun _ _ => ?_
  split
  · exact h.release
  · exact h

theorem State.canonical.execRgretAbt {p : BitVec 4} {f : FmtZ} {s : State} (h : s.canonical) : Out.canonical (execRgretAbt p f s) := by
  refine h.rgOp fun _ _ => ?_
  split
  · exact h
  · exact h.abort

theorem State.canonical.execRgretRd {p : BitVec 4} {f : FmtZ} {s : State} (h : s.canonical) : Out.canonical (execRgretRd p f s) :=
  h.rgOp fun _ _ => h.putRegs

/-! ### Pre-emption, hold and save (R313 to R315) -/

theorem State.canonical.execRgpre {p : BitVec 4} {f : FmtZ} {s : State} (h : s.canonical) : Out.canonical (execRgpre p f s) := by
  refine h.rgOp fun _ _ => ?_
  split
  · exact h
  · exact (h.withRegion (by rfl)).holdOp

theorem State.canonical.latch {s : State} {r : Nat} (h : s.canonical) : (s.latch r).canonical := .ite h (h.withRegion (by rfl)).finish

theorem State.canonical.execRgfrzHold {p : BitVec 4} {f : FmtZ} {s : State} (h : s.canonical) : Out.canonical (execRgfrzHold p f s) := by
  refine h.rgOp fun _ _ => ?_
  split
  · exact h
  · exact (h.withRegion (by rfl)).holdOp

theorem State.canonical.execRgfrzRel {p : BitVec 4} {f : FmtZ} {s : State} (h : s.canonical) : Out.canonical (execRgfrzRel p f s) := by
  refine h.rgOp fun _ _ => ?_
  split
  · exact h
  · exact (h.withRegion (by rfl)).retire

theorem State.canonical.checkDraining {s : State} {r : Nat} (h : s.canonical) : (s.checkDraining r).canonical := .ite (h.withRegion (by rfl)) h

theorem State.canonical.landStores {s : State} {r : Nat} (h : s.canonical) : (s.landStores r).canonical := h.foldl fun _ _ h => h.flushAcc

/-- Segments that each end before the next begins make a canonical image. -/
theorem Memory.wf_segments {l : List (Nat × List Byte)} (hl : l.IsChain fun x y => x.1 + x.2.length ≤ y.1) :
    Memory.wf (l.flatMap fun x => ofBytes x.1 x.2) = true ∧ ∀ x ∈ l.head?, ∀ c ∈ l.flatMap fun x => ofBytes x.1 x.2, x.1 ≤ c.1 := by
  induction l with
  | nil => exact ⟨rfl, by simp⟩
  | cons x l ih =>
    obtain ⟨hwf, hge⟩ := ih hl.tail
    have hrest : ∀ c ∈ l.flatMap fun x => ofBytes x.1 x.2, x.1 + x.2.length ≤ c.1 := by
      intro c hc
      cases l with
      | nil => simp at hc
      | cons y l =>
        have := hge y rfl c hc
        have := (List.isChain_cons_cons.mp hl).1
        omega
    have hrange := ofBytes_range x.2 x.1
    refine ⟨?_, ?_⟩
    · rw [List.flatMap_cons]
      refine Memory.wf_append (Memory.wf_ofBytes _ _) hwf fun a ha b hb => ?_
      have := hrange a ha
      have := hrest b hb
      omega
    · rintro y hy c hc
      obtain rfl : x = y := Option.some.inj hy
      rcases List.mem_append.mp (List.flatMap_cons ▸ hc) with hc | hc
      · exact (hrange c hc).1
      · have := hrest c hc
        omega

theorem vecBytes_length (v : Vec) : (vecBytes v).length = 256 := by
  unfold vecBytes
  rw [length_flatMap_leBytes, List.length_range]

theorem capBytes_length (g : Nat → Cap) : (capBytes g).length = 258 := by
  unfold capBytes
  rw [List.length_append, length_flatMap_leBytes, leBytes_length, List.length_range]

theorem loopBytes_length (l : Loop) : (loopBytes l).length = 32 := by
  simp [loopBytes, leBytes_length]

theorem Memory.wf_slotImage (t : Tile) (m : Tab SMapE) : Memory.wf (slotImage t m) = true := by
  refine (Memory.wf_segments ?_).1
  simp only [List.isChain_cons_cons, List.isChain_singleton, List.length_append, slotRegs, length_flatMap_const fun r => vecBytes_length (t.v r),
    length_flatMap_const fun l => loopBytes_length (t.core.loop l),
    length_flatMap_leBytes, length_flatMap_const (leBytes_length 8), leBytes_length, capBytes_length, mapBytes_fst_length,
    mapBytes_snd_length, List.length_range, List.length_cons, List.length_nil]
  decide

theorem State.canonical.saveTile {s : State} {base b k : Nat} (h : s.canonical) : (State.saveTile base b s k).canonical := by
  unfold State.saveTile
  refine h.setTile (Tile.canonical.setSlot ((h.tile k).frame (by rfl)) ?_)
  dsimp only
  split
  · have hcells := wf_mapCells { s.tile k with roff := (s.tile k).bstep - base } (Tile.smap { s.tile k with roff := (s.tile k).bstep - base } b)
    rw [List.append_assoc]
    refine Memory.wf_append (Memory.wf_ofBytes _ _) hcells.1 fun a ha c hc => ?_
    have hend := (ofBytes_range [1] 0x6440 a ha).2
    have := (hcells.2 c hc).1
    simp only [List.length_singleton] at hend
    omega
  · exact Memory.wf_slotImage _ _

theorem State.canonical.execRegionFreeze {rg : Nat} {s : State} (h : s.canonical) : Out.canonical (execRegionFreeze rg s) := by
  refine State.canonical.ite h (State.canonical.ite (State.canonical.ite h ?_) (State.canonical.ite ?_ h))
  · exact State.canonical.finish (h.setRegion ((h.region rg).frame (by rfl)))
  · refine State.canonical.ite h.landStores ?_
    have hsaved := fun {base : Nat} {l : List Nat} => State.canonical.foldl (f := State.saveTile base (s.region rg).bank) (l := l)
      (h.landStores (r := rg)) fun _ _ h => h.saveTile
    exact hsaved.setRegion ((hsaved.region rg).frame (by rfl))

theorem State.canonical.execRegionSaveComplete {rg : Nat} {s : State} (h : s.canonical) : Out.canonical (execRegionSaveComplete rg s) :=
  State.canonical.ite h (h.withRegion (by rfl))

/-! ### Resume (R317) -/

theorem State.canonical.execRgstaRes {p : BitVec 4} {f : FmtZ} {s : State} (h : s.canonical) : Out.canonical (execRgstaRes p f s) := by
  refine h.rgOp fun _ _ => ?_
  split
  · exact h
  · exact h.startAt (h.region _)

/-- A tile whose ROFF has come resumes from its slot. -/
theorem State.canonical.resumed {s : State} {k b : Nat} {m : Memory} {v : BitVec 32} (h : s.canonical) :
    (s.setTile k { (s.tile k).restore b m v with live := true, blk := [] }).canonical := by
  have hback := Tile.canonical.restore (b := b) (m := m) (tvec := v) (h.tile k)
  generalize (s.tile k).restore b m v = t at hback
  exact h.setTile hback

theorem State.canonical.execRegionResumeStart {rg : Nat} {s : State} (h : s.canonical) : Out.canonical (execRegionResumeStart rg s) := by
  refine State.canonical.ite h ?_
  extract_lets ks go u
  have hu : u.canonical := h.foldl fun _ _ h => h.resumed
  exact State.canonical.ite (hu.setRegion ((hu.region rg).frame (by rfl))) hu

/-! ### Moves (R316, R318) -/

theorem State.canonical.sramOut {s : State} {m : Memory} {tags ue : List Nat} {n dst : Nat} (h : s.canonical) (hm : Memory.wf m = true) :
    (s.sramOut m tags ue n dst).canonical :=
  ⟨Memory.wf_blit h.dram (Memory.wf_cut _ _ _ hm) cut_range, h.hostMem, h.tile, h.pool, h.die, h.region⟩

theorem State.canonical.imageOut {s : State} {R : Region} {f : Nat} (h : s.canonical) : (s.imageOut R f).canonical :=
  h.foldl fun _ _ h => (h.sramOut (h.pool _)).foldl fun _ _ h => h.sramOut (h.tile _).1

theorem State.canonical.imageIn {s : State} {R : Region} {f : Nat} (h : s.canonical) : (s.imageIn R f).canonical := by
  refine h.foldl fun s i h => ?_
  refine State.canonical.foldl (h.setPool (Memory.wf_cut _ _ _ h.dram)) fun s j h => ?_
  exact h.setTile ⟨Memory.wf_cut _ _ _ h.dram, (h.tile _).2⟩

theorem State.canonical.carryBars {s : State} {r : Nat} {src dst : Nat → Nat} (h : s.canonical) : (s.carryBars r src dst).canonical :=
  h.unbindAll.foldl fun _ _ h => h.setCtx.setBar

theorem State.canonical.leaveTiles {s : State} {ks : List Nat} (h : s.canonical) : (s.leaveTiles ks).canonical :=
  State.canonical.foldl (h.foldl fun _ _ h => h.setTile ⟨rfl, (h.tile _).2⟩) fun _ _ h => h.setPool rfl

theorem State.canonical.beginOp {s : State} {r what a : Nat} {o : Nat × Nat × Nat} (h : s.canonical) : (s.beginOp r what a o).canonical :=
  (h.withRegion (by rfl)).holdOp

theorem State.canonical.execRgmovOut {p : BitVec 4} {f : FmtZ} {s : State} (h : s.canonical) : Out.canonical (execRgmovOut p f s) := by
  refine h.rgOp fun _ _ => ?_
  dsimp only
  split
  · exact h
  · exact h.beginOp

theorem State.canonical.outDone {s : State} {r a : Nat} (h : s.canonical) : (s.outDone r a).canonical :=
  h.imageOut.carryBars.leaveTiles.setRegion (h.region _)

theorem Memory.wf_rebaseMap {m : Memory} {b b2 : Nat} (hm : Memory.wf m = true) : Memory.wf (rebaseMap m b b2) = true := by
  unfold rebaseMap
  refine Memory.wf_blit hm (Memory.wf_ofBytes _ _) fun c hc => ?_
  have hrange := ofBytes_range _ _ c hc
  rw [length_flatMap_leBytes, List.length_range] at hrange
  exact ⟨hrange.1, by omega⟩

theorem State.canonical.moveTo {s : State} {r : Nat} {R R2 : Region} (h : s.canonical) (hR : R2.canonical) : (s.moveTo r R R2).canonical := by
  unfold State.moveTo
  extract_lets old slots olds cl oldP s1 s2 s3 s4 s5 s6 cl2
  have h2 : s2.canonical := State.canonical.dropTiles (State.canonical.dropSlots h.carryBars)
  have h4 : s4.canonical := State.canonical.fenceTiles (h2.setRegion hR)
  have h5 : s5.canonical := h4.foldl_mem fun x hx u hu => by
    obtain ⟨hold, hslot⟩ := List.of_mem_zip (List.of_mem_zip hx).2
    obtain ⟨k, -, hk⟩ := List.mem_map.mp hold
    obtain ⟨j, -, hj⟩ := List.mem_map.mp hslot
    have himg : Memory.wf (rebaseMap x.2.2 R.bank R2.bank) = true := Memory.wf_rebaseMap (hj ▸ (h.tile j).slot _)
    have hscr : Memory.wf x.2.1.scr = true := hk ▸ (h.tile k).1
    exact hu.setTile (Tile.canonical.loadMap (Tile.canonical.setSlot ⟨hscr, (hu.tile x.1).2⟩ himg))
  have h6 : s6.canonical := by
    dsimp only [s6]
    split
    · exact h5.imageIn
    · refine h5.foldl_mem fun x hx u hu => hu.setPool ?_
      obtain ⟨c, -, hc⟩ := List.mem_map.mp (List.of_mem_zip hx).2
      exact hc ▸ h.pool c
  exact h6.carryBars

theorem State.canonical.moveBack {s : State} {r : Nat} (h : s.canonical) : (s.moveBack r).canonical :=
  (h.foldl (fun _ _ h => h.withTile (by rfl))).imageIn.carryBars

theorem State.canonical.execRgmovMov {p : BitVec 4} {f : FmtZ} {s : State} (h : s.canonical) : Out.canonical (execRgmovMov p f s) := by
  refine h.rgOp fun _ _ => ?_
  dsimp only
  split
  · exact h
  · split
    · exact h
    · split
      · exact h
      · split
        · exact h
        · split
          · exact h.putReg
          · exact (((h.putReg.foldl (fun _ _ h1 => h1.withTile (by rfl))).ite h.putReg.fenceTiles).setRegion ((h.region _).frame (by rfl))).holdOp

theorem State.canonical.execRegionMoveComplete {rg : Nat} {s : State} (h : s.canonical) : Out.canonical (execRegionMoveComplete rg s) := by
  unfold Machine.execRegionMoveComplete
  dsimp only
  split
  · exact h
  · refine State.canonical.ite h (State.canonical.finish (State.canonical.ite ?_ ?_))
    · exact h.moveBack.setRegion (h.moveBack.region rg)
    · exact h.moveTo (h.region rg)

/-! ### `savc` and `rstc` (16_context.md R352) -/

theorem State.canonical.slotOp {s : State} {p : BitVec 4} {f : FmtZ} {body : State → Nat → Region → Nat → State × Nat} (h : s.canonical)
    (hb : ∀ r R g, (body s r R g).1.canonical) : Out.canonical (slotOp p f s body) := by
  refine h.svWord ?_
  dsimp only
  split
  · exact h.putReg
  · split
    · exact h.putReg
    · exact (hb _ _ _).putReg

theorem State.canonical.execSavc {p : BitVec 4} {f : FmtZ} {s : State} (h : s.canonical) : Out.canonical (execSavc p f s) := by
  refine h.slotOp fun _ _ _ => ?_
  split
  · exact h
  · exact h.beginOp

theorem State.canonical.savcDone {s : State} {r a : Nat} (h : s.canonical) : (s.savcDone r a).canonical := by
  refine State.canonical.setRegion (State.canonical.dropSlots (h.foldl fun s x h => ?_)) (h.region r)
  exact ⟨Memory.wf_blit h.dram (Memory.wf_cut _ _ _ ((h.tile _).slot _)) cut_range, h.hostMem, h.tile, h.pool, h.die, h.region⟩

theorem State.canonical.execRstc {p : BitVec 4} {f : FmtZ} {s : State} (h : s.canonical) : Out.canonical (execRstc p f s) := by
  refine h.slotOp fun _ _ _ => ?_
  split
  · split
    · exact h
    · exact h.beginOp
  · exact h

theorem State.canonical.rstcDone {s : State} {r a b : Nat} (h : s.canonical) : (s.rstcDone r a b).canonical := by
  unfold State.rstcDone
  extract_lets R u
  have hu : u.canonical := h.foldl fun s x h => by
    have himg := Memory.wf_rebaseMap (b := R.bank) (b2 := b) (Memory.wf_cut (a * frameB + 98304 * x.2) 98304 0 h.dram)
    exact h.setTile (Tile.canonical.loadMap ((h.tile x.1).setSlot himg))
  exact hu.setRegion ((h.region r).frame (by rfl))

theorem State.canonical.opDone {s : State} {r : Nat} (h : s.canonical) : (s.opDone r).canonical := by
  unfold State.opDone
  split
  · exact h.outDone.finish
  · exact h.savcDone.finish
  · exact h.rstcDone.finish
  · exact h

end Sys2Proof.Machine
end

section
/-! SUPPORT. Canonical memories: kernel slots and the copy engines (13_kernel.md, 12_copy.md R266). -/

namespace Sys2Proof.Machine

/-! ### Objects and digests -/

theorem State.canonical.extend {s : State} {c t : Nat} {d : BitVec 384} (h : s.canonical) : (s.extend c t d).canonical := h.setCtx

/-! ### Slots (R296 to R298) -/

theorem State.canonical.setSlotOf {s : State} {c sl : Nat} {x : Slot} (h : s.canonical) : (s.setSlotOf c sl x).canonical := h.setCtx

theorem State.canonical.onDie {s : State} (h : s.canonical) {d : Nat} {f : State → State} (hf : ∀ s : State, s.canonical → (f s).canonical) :
    (s.onDie d f).canonical := hf { s with cur := { s.cur with agent := .sorrel d } } h

theorem State.canonical.ksldOp {s : State} {p : BitVec 4} {f : FmtZ} {k : Nat}
    {body : State → Nat → Nat → Nat → Slot → List Nat → State × Nat} (h : s.canonical)
    (hb : ∀ a c sl x g, (body s a c sl x g).1.canonical) : Out.canonical (ksldOp p f k s body) := by
  refine h.svOp fun a g => ?_
  dsimp only
  split
  · exact h
  · exact hb _ _ _ _ _

theorem State.canonical.execKsldLd {p : BitVec 4} {f : FmtZ} {s : State} (h : s.canonical) : Out.canonical (execKsldLd p f s) := by
  refine h.ksldOp fun _ _ _ _ _ => ?_
  dsimp only
  split
  · exact h
  · split
    · exact h
    · exact h.setSlotOf.holdFor

theorem State.canonical.execKsldCheckEnd {c sl : Nat} {s : State} (h : s.canonical) : Out.canonical (execKsldCheckEnd c sl s) := by
  unfold Machine.execKsldCheckEnd
  dsimp only
  split
  · split
    · exact (h.setSlotOf.onDie (fun _ h => h.putRegs.putStatus)).unhold
    · have hput := fun {s : State} {n a st : Nat} {vs : List Nat} (h : s.canonical) => (h.putRegs (n := n) (vs := vs)).putStatus (a := a) (st := st)
      exact State.canonical.ite (h.setSlotOf.extend.onDie fun _ h => hput h).unhold (h.setSlotOf.onDie fun _ h => hput h).unhold
  · exact h

theorem State.canonical.abandonLoads {s : State} {d : Nat} (h : s.canonical) : (s.abandonLoads d).canonical := by
  refine h.foldl fun _ _ h1 => h1.foldl fun _ _ h2 => ?_
  split
  · exact .ite (h2.setSlotOf.onDie (fun _ h3 => h3.putStatus)).unhold h2
  · exact h2

theorem State.canonical.execKsldRes {p : BitVec 4} {f : FmtZ} {s : State} (h : s.canonical) : Out.canonical (execKsldRes p f s) := by
  refine h.ksldOp fun _ _ _ _ _ => ?_
  dsimp only
  split
  · exact h
  · split
    · exact h
    · split
      · exact h
      · split
        · exact h.zeroFrames.dramWr.setSlotOf
        · exact h.zeroFrames.dramWr

theorem State.canonical.execKsldEvc {p : BitVec 4} {f : FmtZ} {s : State} (h : s.canonical) : Out.canonical (execKsldEvc p f s) := by
  refine h.ksldOp fun _ _ _ _ _ => ?_
  split
  · exact h
  · split
    · exact h
    · split <;> exact h.setSlotOf

theorem State.canonical.execKsldRd {p : BitVec 4} {f : FmtZ} {s : State} (h : s.canonical) : Out.canonical (execKsldRd p f s) :=
  h.ksldOp fun _ _ _ _ _ => h.putRegs

/-! ### `meas` (R300, R302) -/

theorem State.canonical.execMeasExt {p : BitVec 4} {f : FmtZ} {s : State} (h : s.canonical) : Out.canonical (execMeasExt p f s) := by
  refine h.svOp fun _ _ => ?_
  dsimp only
  split
  · exact h
  · split
    · exact h
    · split
      · exact h
      · exact h.extend

theorem State.canonical.execMeasRd {p : BitVec 4} {f : FmtZ} {s : State} (h : s.canonical) : Out.canonical (execMeasRd p f s) :=
  h.svOp fun _ _ => h.putRegs

theorem State.canonical.execMeasSha {p : BitVec 4} {f : FmtZ} {s : State} (h : s.canonical) : Out.canonical (execMeasSha p f s) := by
  refine h.svOp fun _ _ => ?_
  dsimp only
  split
  · exact h
  · exact h.putRegs

theorem State.canonical.execMeasNode {p : BitVec 4} {f : FmtZ} {s : State} (h : s.canonical) : Out.canonical (execMeasNode p f s) :=
  h.svOp fun _ _ => h.putRegs

/-! ### Checks at issue (R267 to R270) -/

theorem State.canonical.copyWord {hd : Hdr} {f : FmtE} {s : State} {i : Instr} {sig : Bool} {q : XReq} (h : s.canonical) :
    Out.canonical (copyWord hd f s i sig q) :=
  h.qWord (by
  dsimp only
  split
  · exact trivial
  · split
    · exact State.canonical.ite h.capRgt16 h
    · exact h.setMyTile (h.tile _))

theorem State.canonical.execXcp {hd : Hdr} {f : FmtE} {s : State} (h : s.canonical) : Out.canonical (execXcp hd f s) := h.copyWord

theorem State.canonical.execXc2 {hd : Hdr} {f : FmtE} {s : State} (h : s.canonical) : Out.canonical (execXc2 hd f s) := h.copyWord

theorem State.canonical.execXcg {hd : Hdr} {f : FmtE} {s : State} (h : s.canonical) : Out.canonical (execXcg hd f s) := h.copyWord

theorem State.canonical.execXaw {hd : Hdr} {f : FmtE} {s : State} (h : s.canonical) : Out.canonical (execXaw hd f s) := h.copyWord

theorem State.canonical.execXawr {hd : Hdr} {f : FmtE} {s : State} (h : s.canonical) : Out.canonical (execXawr hd f s) := h.copyWord

theorem State.canonical.execXcas {hd : Hdr} {f : FmtE} {s : State} (h : s.canonical) : Out.canonical (execXcas hd f s) := h.copyWord

theorem State.canonical.execXsig {hd : Hdr} {f : FmtE} {s : State} (h : s.canonical) : Out.canonical (execXsig hd f s) := h.copyWord

theorem State.canonical.execXhsh {hd : Hdr} {f : FmtE} {s : State} (h : s.canonical) : Out.canonical (execXhsh hd f s) := h.copyWord

theorem State.canonical.execXopn {hd : Hdr} {f : FmtE} {s : State} (h : s.canonical) : Out.canonical (execXopn hd f s) := h.copyWord

theorem State.canonical.execXsel {hd : Hdr} {f : FmtE} {s : State} (h : s.canonical) : Out.canonical (execXsel hd f s) := h.copyWord

theorem State.canonical.execXfil {hd : Hdr} {f : FmtE} {s : State} (h : s.canonical) : Out.canonical (execXfil hd f s) := h.copyWord

theorem State.canonical.execXpop {hd : Hdr} {f : FmtY} {s : State} (h : s.canonical) : Out.canonical (execXpop hd f s) :=
  h.qWord (by
  dsimp only
  split
  · exact trivial
  · exact h.setMyTile (h.tile _))

/-! ### Starting (R271) -/

theorem State.canonical.setXe {s : State} {k : Nat} {c : XeCmd} (h : s.canonical) : (s.setXe k c).canonical := h.withTile (by rfl)

theorem State.canonical.xeFail {s : State} {k : Nat} {c : XeCmd} {t : TrapInfo} (h : s.canonical) : (s.xeFail k c t).canonical :=
  (h.withTile (by rfl)).tel.endBy

/-! ### Reading (R274) -/

theorem State.canonical.xNumber {s : State} {k : Nat} {c : XeCmd} (h : s.canonical) : (s.xNumber k c).1.canonical := by
  unfold State.xNumber
  dsimp only
  split
  · exact h
  · exact h.mkUE

/-! ### Landing (R273, R274) -/

theorem State.canonical.landAt {s : State} {sp : Space} {bs : List Byte} {l : List (Nat × Nat × Nat)} (h : s.canonical) :
    (s.landAt sp bs l).canonical := by
  induction l generalizing s bs with
  | nil => cases bs <;> exact h
  | cons r l ih => cases bs <;> exact ih h.wr

theorem State.canonical.setTags {s : State} {sp : Space} {a : Nat} {tags : List Bool} (h : s.canonical) : (s.setTags sp a tags).canonical :=
  h.foldl fun _ _ h => h.setTag

theorem State.canonical.landPiece {s : State} {k : Nat} {c : XeCmd} {p : Piece} {r : Option (Space × List (Nat × Nat × Nat))} (h : s.canonical) :
    (s.landPiece k c p r).1.canonical := by
  unfold State.landPiece
  dsimp only
  split
  · exact h.landAt.setTags.foldl (fun _ _ h1 => by
      split
      · exact h1.landAt
      · exact h1)
  · exact h
  · exact h

theorem State.canonical.xLand {s : State} {k : Nat} {l : List Piece} {c : XeCmd} (h : s.canonical) : (State.xLand k l s c).1.canonical := by
  induction l generalizing s c with
  | nil => exact h
  | cons p l ih =>
    unfold State.xLand
    split
    · split
      · exact h
      · exact ih h.landPiece
      · exact ih h.landPiece
    · exact h

theorem State.canonical.postSel {s : State} {k seq v : Nat} (h : s.canonical) : (s.postSel k seq v).canonical := h.withRegion (by rfl)

theorem State.canonical.sendPeer {s : State} {k : Nat} {c : XeCmd} (h : s.canonical) : (s.sendPeer k c).canonical := h.send

theorem State.canonical.xDone {s : State} {k : Nat} {c : XeCmd} (h : s.canonical) : (s.xDone k c).canonical := by
  unfold State.xDone
  dsimp only
  split
  · exact h.setXe.xeFail
  · split
    · exact (h.sendPeer.ite h).setXe.xeFail
    · exact .ite h.delay.sendPeer.setXe (.ite h.delay.setXe (.ite h.postSel.setXe (.ite h.delay.setXe h.delay.setXe)))

theorem State.canonical.xeWork {s : State} {k : Nat} {c : XeCmd} (h : s.canonical) : (s.xeWork k c).canonical := by
  unfold State.xeWork
  dsimp only
  split
  · exact h
  · split
    · exact h.xeFail
    · split
      · exact h.xNumber.xLand.setXe.startWalk.setPark
      · exact h.xNumber.xLand.setXe
      · exact h.xNumber.xLand.xDone

theorem State.canonical.takeWait {s t : State} {k w0 : Nat} {xe : Bool} (h : s.canonical) (ht : s.takeWait k w0 xe = some t) : t.canonical := by
  unfold State.takeWait at ht
  dsimp only at ht
  split at ht
  · cases ht
    exact h
  · split at ht
    · cases ht
    next p _ =>
      split at ht
      · cases ht
      · cases ht
        refine h.setTile ?_
        have hcount := (h.tile k).setCount (p := p) (n := (s.tile k).count p - (engWait w0).2)
        exact Tile.canonical.ite (hcount.frame (by rfl)) (hcount.frame (by rfl))

theorem State.canonical.engSignal {s : State} (h : s.canonical) {k agent pc w0 : Nat} {fail : State → TrapInfo → State}
    (hf : ∀ (s : State) (t : TrapInfo), s.canonical → (fail s t).canonical) : (s.engSignal k agent pc w0 fail).canonical := by
  refine h.ite ?_
  split
  · exact hf _ _ h.addGuilt
  · exact h.setTile (h.tile _).addOp

theorem State.canonical.xSignal {s : State} {k : Nat} {c : XeCmd} (h : s.canonical) : (s.xSignal k c).canonical :=
  .ite h (.ite (h.engSignal (fun _ _ h1 => h1.xeFail)) h)

theorem State.canonical.xeStart {s : State} {k : Nat} (h : s.canonical) : (s.xeStart k).canonical := by
  unfold State.xeStart
  dsimp only
  split
  · exact h
  · exact .ite (h.withTile (by rfl)).xSignal (h.withTile (by rfl)).xeWork

theorem State.canonical.execXeCommandStart {s : State} {k : Nat} (h : s.canonical) : Out.canonical (execXeCommandStart k s) := by
  unfold Machine.execXeCommandStart
  split
  · exact h
  · have hwork := h.foldl (f := fun s c => s.xeWork k c) (l := (s.tile k).xrun) fun _ _ h => h.xeWork
    show State.canonical _
    split
    · exact hwork
    · split
      · exact hwork
      · split
        next => exact hwork
        next hwait => exact (hwork.takeWait hwait).xeStart

/-! ### Completing (R272, R280, R285) -/

theorem State.canonical.xCredit {s : State} {k : Nat} {c : XeCmd} (h : s.canonical) : (s.xCredit k c).canonical := by
  unfold State.xCredit
  dsimp only
  split
  · exact h
  · split
    · exact h
    · exact h.withRegion (by rfl)

theorem State.canonical.execXeCommandComplete {k id : Nat} {s : State} (h : s.canonical) : Out.canonical (execXeCommandComplete k id s) := by
  unfold Machine.execXeCommandComplete
  dsimp only
  split
  · exact h
  · exact State.canonical.ite h (h.withTile (by rfl)).xCredit.xSignal

/-! ### `xopn` at the hub (R283) -/

theorem State.canonical.execXopnHeaderAtHub {k id : Nat} {s : State} (h : s.canonical) : Out.canonical (execXopnHeaderAtHub k id s) := by
  unfold Machine.execXopnHeaderAtHub
  dsimp only
  split
  · exact h
  · split
    · exact h
    · split
      · exact h.startWalk.setPark
      · split
        · exact (((h.addGuilt.ite h).mkUE.ite (h.addGuilt.ite h)).landAt.frame (by rfl)).setXe
        · exact ((h.addGuilt.ite h).mkUE.ite (h.addGuilt.ite h)).setXe

/-! ### Accumulates (R276 to R279, R197) -/

theorem State.canonical.execAccumulateArrival {k id : Nat} {s : State} (h : s.canonical) : Out.canonical (execAccumulateArrival k id s) := by
  unfold Machine.execAccumulateArrival
  split
  · exact h
  · split
    · exact h
    · split
      · exact h.startWalk.setPark
      · split
        · exact h.xeFail
        · exact (h.frame (by rfl)).setXe

theorem State.canonical.arrOp {s : State} {u : Nat} {a : Arrival} {o : BitVec 32} (h : s.canonical) : (arrOp s u a o).1.canonical := by
  unfold Machine.arrOp
  dsimp only
  split
  · exact h
  · split
    · dsimp only
      split
      · exact h.arith
      · split <;> exact h.arithBits
    · split <;> exact h

theorem State.canonical.arrPeer {s : State} {u m : Nat} {a : Arrival} {o : BitVec 32} (h : s.canonical) : (arrPeer s u m a o).1.canonical :=
  h.foldl fun _ _ h => h.send

theorem State.canonical.leave {s : State} {a : Arrival} {v : Option (BitVec 32)} (h : s.canonical) : (s.leave a v).canonical := by
  unfold State.leave
  split
  · exact .ite h h.wr
  · exact h

theorem State.canonical.numberPeer {s : State} {k seq : Nat} (h : s.canonical) : (s.numberPeer k seq).canonical := by
  unfold State.numberPeer
  split
  · exact h
  · exact h.setXe.foldl fun _ _ h => h.newOrigin

theorem State.canonical.applyArr {u : Nat} {s : State} {a : Arrival} (h : s.canonical) : (State.applyArr u s a).canonical :=
  .ite h.numberPeer.send (h.arrOp.leave.withTile (by rfl))

theorem State.canonical.applyPeer {u : Nat} {x : State × List (Nat × Nat × Nat)} {a : Arrival} (h : x.1.canonical) :
    (State.applyPeer u x a).1.canonical := (h.frame (by rfl)).arrPeer.leave.send

theorem State.canonical.peerClose {s : State} {port lseq u : Nat} {nums : List (Nat × Nat × Nat)} (h : s.canonical) :
    (s.peerClose port lseq u nums).canonical := State.canonical.foldl_fst (by exact h) fun _ _ h => State.canonical.applyPeer h

theorem State.canonical.peerOrigin {s : State} {k seq kind : Nat} (h : s.canonical) : (s.peerOrigin k seq kind).canonical := by
  unfold State.peerOrigin
  dsimp only
  split
  · exact h
  · exact .ite h.setXe.numberPeer h.setXe

theorem State.canonical.peerOld {s : State} {k seq v : Nat} (h : s.canonical) : (s.peerOld k seq v).canonical := by
  unfold State.peerOld
  split
  · exact h
  · exact h.setXe

theorem State.canonical.applyDue {s : State} {r u : Nat} (h : s.canonical) : (s.applyDue r u).canonical :=
  ((h.frame (by rfl)).foldl (fun _ _ h1 => h1.applyArr)).foldl fun _ _ h1 => h1.withTile (by rfl)

theorem State.canonical.execAccumulateCloseTimeout {rg : Nat} {s : State} (h : s.canonical) : Out.canonical (execAccumulateCloseTimeout rg s) := by
  unfold Machine.execAccumulateCloseTimeout
  dsimp only
  split
  · exact h
  · exact h.xeFail

/-! ### Peers (R270, R286, 17_link.md R373) -/

theorem State.canonical.execPeerCommandArrival {k id : Nat} {running : Bool} {ntiles : Nat} {s : State} (h : s.canonical) :
    Out.canonical (execPeerCommandArrival k id running ntiles s) := by
  unfold Machine.execPeerCommandArrival
  dsimp only
  split
  · split
    · exact h
    · exact State.canonical.ite (h.frame (by rfl)).tel.endBy (State.canonical.ite (h.frame (by rfl)).tel.endBy h)
  · exact State.canonical.ite h (State.canonical.ite h.xeFail (State.canonical.ite h.xeFail (h.withTile (by rfl))))

theorem State.canonical.peerFaulted {s : State} {k id : Nat} (h : s.canonical) : (s.peerFaulted k id).canonical := by
  unfold State.peerFaulted
  split
  · exact h
  · exact h.setXe.stallMod

theorem State.canonical.execPeerFaultAnswer {k id : Nat} {retry : Bool} {rec : List (BitVec 64)} {s : State} (h : s.canonical) :
    Out.canonical (execPeerFaultAnswer k id retry rec s) := by
  unfold Machine.execPeerFaultAnswer
  dsimp only
  split
  · exact h
  · exact State.canonical.ite h (State.canonical.ite (State.canonical.ite h.setXe.stallMod h) (h.setXe.stallMod.ite h).xeFail)

end Sys2Proof.Machine
end

section
/-! SUPPORT. Canonical memories: queues, launches and signals (15_queue.md). -/

namespace Sys2Proof.Machine

/-! ### The ring -/

theorem State.canonical.onCtx {s : State} (h : s.canonical) {c : Nat} {i : CtxEv} {f : State → State} (hf : (f s).canonical) :
    Out.canonical (s.onCtx c i f) := h.setCtx.ite hf

/-! ### Waiters (R330, R336, R337) -/

theorem State.canonical.setSig {s : State} {n : Nat} {x : Signal} (h : s.canonical) : (s.setSig n x).canonical := h

theorem State.canonical.wake {s : State} {c q code : Nat} (h : s.canonical) : (s.wake c q code).canonical := h.modQueue

theorem State.canonical.armDev {s : State} {n c q : Nat} (h : s.canonical) : (s.armDev n c q).canonical := .ite h.wake (.ite h.wake h)

theorem State.canonical.serveGo {s : State} {l : List (Nat × Nat × Nat)} (h : s.canonical) : (State.serveGo l s).canonical := by
  induction l generalizing s with
  | nil => exact h
  | cons w l ih =>
    unfold State.serveGo
    split
    · exact h
    · exact ih h.armDev

theorem State.canonical.serve {s : State} (h : s.canonical) : s.serve.canonical := h.serveGo

theorem State.canonical.freeWaiter {err : Bool} {s : State} {w : Waiter} (h : s.canonical) : (State.freeWaiter err s w).canonical :=
  .ite h.wake.leadSem h.send

theorem State.canonical.releaseBy {s : State} (h : s.canonical) {sel : Waiter → Bool} {err : Bool} : (s.releaseBy sel err).canonical :=
  ((h.frame (by rfl)).foldl fun _ _ h => h.freeWaiter).serve

theorem State.canonical.mirror {s : State} {n : Nat} (h : s.canonical) : (s.mirror n).canonical := h.foldl fun _ _ h => h.hostWr

theorem State.canonical.sigApply {s : State} {n op v : Nat} (h : s.canonical) : (s.sigApply n op v).1.canonical := by
  unfold State.sigApply
  dsimp only
  split
  · dsimp only
    split
    · exact (h.setSig.ite h.setSig.mirror).addGuilt.releaseBy
    · exact (h.setSig.ite h.setSig.mirror).releaseBy
  · dsimp only
    split
    · exact (h.setSig.ite h.setSig.mirror).addGuilt.releaseBy
    · exact (h.setSig.ite h.setSig.mirror).releaseBy

theorem State.canonical.freeSig {s : State} {n : Nat} (h : s.canonical) : (s.freeSig n).canonical :=
  ((h.frame (by rfl)).foldl (fun _ _ h => h.wake)).releaseBy

/-! ### Guilt and the bar (R335) -/

theorem State.canonical.withdraw {s : State} {c q : Nat} (h : s.canonical) : (s.withdraw c q).canonical := .ite h.setQueue (h.frame (by rfl)).serve

theorem State.canonical.forget {s : State} {c q : Nat} (h : s.canonical) : (s.forget c q).canonical := .ite h h.setQueue

theorem State.canonical.abortLaunch {s : State} {r n : Nat} (h : s.canonical) : (s.abortLaunch r n).canonical :=
  .ite h (.ite (h.withRegion (by rfl)) h.abort)

theorem State.canonical.abortCtx {s : State} {c n : Nat} (h : s.canonical) : (s.abortCtx c n).canonical := h.foldl fun _ _ h => h.abortLaunch

theorem State.canonical.barCheck {s : State} {c : Nat} (h : s.canonical) : (s.barCheck c).canonical :=
  .ite h (h.setCtx.foldl (fun _ _ h => h.withdraw.ctl)).abortCtx

theorem State.canonical.barAll {s : State} (h : s.canonical) : s.barAll.canonical := h.foldl fun _ _ h => h.barCheck

theorem State.canonical.execGlimWrite {v x : Nat} {s : State} (h : s.canonical) : Out.canonical (execGlimWrite v x s) :=
  State.canonical.ite h h.setFn.barAll

theorem State.canonical.execUnbar {c : Nat} {s : State} (h : s.canonical) : Out.canonical (execUnbar c s) :=
  h.onCtx (.ite h (h.setCtx.foldl (fun _ _ h => .ite h.forget.ctl.modQueue h)))

/-! ### Queues (R326, R331, R332) -/

theorem State.canonical.queueError {s : State} {c q : Nat} (h : s.canonical) : (s.queueError c q).canonical := .ite h.withdraw.ctl.addGuilt.barCheck h

theorem State.canonical.execDoorbell {c q v : Nat} {s : State} (h : s.canonical) : Out.canonical (execDoorbell c q v s) :=
  h.onCtx (.ite h (.ite (h.ite h.setQueue.leadSem).queueError (.ite h h.setQueue.leadSem)))

theorem State.canonical.execQueueEnable {c q : Nat} {s : State} (h : s.canonical) : Out.canonical (execQueueEnable c q s) :=
  h.onCtx (.ite h h.setQueue)

theorem State.canonical.execQueueDisable {c q : Nat} {s : State} (h : s.canonical) : Out.canonical (execQueueDisable c q s) :=
  h.onCtx (.ite h.modQueue.forget.ctl (.ite h.modQueue.withdraw.ctl (.ite h.modQueue.forget.ctl h.modQueue)))

theorem State.canonical.startPacket {s : State} {c q : Nat} (h : s.canonical) : (s.startPacket c q).canonical := h.setCtx.ctl.modQueue

theorem State.canonical.execQueueSelect {v : Nat} {s : State} (h : s.canonical) : Out.canonical (execQueueSelect v s) := by
  unfold Machine.execQueueSelect
  dsimp only
  split
  · exact h
  · split
    · exact h.setFn
    · split
      · exact h.setFn
      · exact h.setFn.startPacket

theorem State.canonical.execTimeSliceEnd {v : Nat} {s : State} (h : s.canonical) : Out.canonical (execTimeSliceEnd v s) := by
  unfold Machine.execTimeSliceEnd
  dsimp only
  split
  · exact h
  · exact State.canonical.ite h h.setFn

theorem State.canonical.execHostErrorCompletion {c q : Nat} {x : Option (Nat × Nat)} {s : State} (h : s.canonical) :
    Out.canonical (execHostErrorCompletion c q x s) := by
  unfold Machine.execHostErrorCompletion
  split
  · exact h.onCtx h.queueError
  · split
    · exact h
    · exact State.canonical.ite h.setXe h

/-! ### Packets (R327 to R330) -/

theorem State.canonical.outcome {s : State} {c q code cause rword : Nat} (h : s.canonical) : (s.outcome c q code cause rword).canonical := h.modQueue

theorem State.canonical.stage2 {s : State} (h : s.canonical) {c q : Nat} {mine : List Byte → Bool} {body : State → List Byte → State}
    (hb : ∀ p, (body s p).canonical) : Out.canonical (s.stage2 c q mine body) :=
  h.ite (h.addGuilt.outcome.barCheck.ite (h.addGuilt.outcome.barCheck.ite (hb _)))

theorem State.canonical.execSelectPacket {c q : Nat} {s : State} (h : s.canonical) : Out.canonical (execSelectPacket c q s) :=
  h.stage2 fun _ => .ite h.ctl (.ite h.addGuilt.outcome.barCheck h.outcome)

theorem State.canonical.sigPacket {s : State} (h : s.canonical) {c q : Nat} {mine : Nat → Bool} {body : State → Nat → Nat → State}
    (hb : ∀ a v, (body s a v).canonical) : Out.canonical (sigPacket c q mine s body) := h.stage2 fun _ => hb _ _

theorem State.canonical.execSignalPacketAdd {c q : Nat} {s : State} (h : s.canonical) : Out.canonical (execSignalPacketAdd c q s) :=
  h.sigPacket fun _ _ => h.sigApply.outcome.barAll

theorem State.canonical.execSignalPacketSet {c q : Nat} {s : State} (h : s.canonical) : Out.canonical (execSignalPacketSet c q s) :=
  h.sigPacket fun _ _ => h.sigApply.outcome.barAll

theorem State.canonical.execSignalPacketWait {c q : Nat} {s : State} (h : s.canonical) : Out.canonical (execSignalPacketWait c q s) := by
  refine h.sigPacket fun _ _ => ?_
  dsimp only
  split
  · exact (h.frame (by rfl)).ctl
  · split
    · exact h.armDev.outcome
    · exact h.armDev.ctl

/-! ### Launches (R299, R330) -/

theorem State.canonical.launchPlace {s : State} {c q : Nat} {L : Launch} (h : s.canonical) : (s.launchPlace c q L).canonical := by
  unfold State.launchPlace
  dsimp only
  split
  · exact h.outcome
  · split
    · exact h
    · split
      next hplace => exact h.tryPlace hplace
      next =>
        split
        · exact h.modQueue.ctl
        · exact h.outcome

theorem State.canonical.execQueueWaitEnd {c q : Nat} {s : State} (h : s.canonical) : Out.canonical (execQueueWaitEnd c q s) := by
  unfold Machine.execQueueWaitEnd
  dsimp only
  split
  · exact h
  · split
    · split
      · split
        · exact State.canonical.ite h.ctl.launchPlace h.ctl
        · exact h.ctl
      · exact h
    · split
      · split
        · exact h.ctl.modQueue
        · exact h
      · exact State.canonical.ite h.ctl h

theorem State.canonical.preload {s : State} {c : Nat} {ds : List Nat} {fuel n : Nat} {l : List Cap} {f : Nat} (h : s.canonical) :
    (State.preload c ds fuel n l f s).canonical := by
  induction fuel generalizing n l f s with
  | zero => exact h
  | succ fuel ih =>
    cases n with
    | zero => exact h
    | succ n =>
      cases l with
      | nil => exact h
      | cons x l =>
        unfold State.preload
        split
        · exact ih h
        · split
          · exact ih h
          · split
            · exact ih (h.foldl fun _ _ h => h.fillEtc)
            · exact ih h

theorem State.canonical.bindDeclared {s : State} {c r : Nat} {img : Memory} (h : s.canonical) : (s.bindDeclared c r img).canonical :=
  h.foldl fun _ _ h => h.bindBar

theorem State.canonical.refuseLaunch {s : State} {c q r code : Nat} (h : s.canonical) : (s.refuseLaunch c q r code).canonical := h.release.outcome

/-- A region that a launch starts. -/
theorem State.canonical.startLaunch {s : State} {r : Nat} {L : Launch} (h : s.canonical) : (s.startAt r { s.region r with launch := L }).canonical :=
  h.startAt ((h.region r).frame (by rfl))

theorem State.canonical.launchCheck {s : State} {c q : Nat} {L : Launch} (h : s.canonical) : (s.launchCheck c q L).canonical := by
  have hloaded : State.canonical (State.preload c (diesOf (s.region L.rgn).tiles) (2 ^ 27) 2048 (L.rl.filter Cap.tag) 0 s) := h.preload
  unfold State.launchCheck
  dsimp only
  generalize State.preload c (diesOf (s.region L.rgn).tiles) (2 ^ 27) 2048 (L.rl.filter Cap.tag) 0 s = u at hloaded ⊢
  split
  · exact h
  · split
    · exact h.refuseLaunch
    · split
      · exact h
      · split
        · exact h.addGuilt.refuseLaunch.barCheck
        · split
          · exact h
          · have hbound := fun {x : Slot} {g : Queue → Queue} => hloaded.bindDeclared (c := c) (r := L.rgn) (img := (s.region L.rgn).image)
              |>.extend (c := c) (t := 2) (d := sha (argBlock L)) |>.setSlotOf (c := c) (sl := L.slot) (x := x)
              |>.modQueue (c := c) (q := q) (f := g)
            exact State.canonical.startLaunch hbound

theorem State.canonical.execLaunchPacket {c q : Nat} {s : State} (h : s.canonical) : Out.canonical (execLaunchPacket c q s) := by
  unfold Machine.execLaunchPacket
  dsimp only
  split
  · exact State.canonical.ite h (State.canonical.ite (State.canonical.ite h.launchPlace h) h.launchCheck)
  · exact h.stage2 fun _ => (h.frame (by rfl)).modQueue

/-! ### Stages 6 and 7 (R356 to R359) -/

theorem State.canonical.hashLeaf {s : State} {c r k : Nat} {x : Leaf} {y : State × BitVec 384} (h : s.canonical)
    (hy : s.hashLeaf c r k x = some y) : y.1.canonical := by
  unfold State.hashLeaf at hy
  split at hy
  · cases hy
  · cases hy
    exact State.canonical.mkUE h

theorem State.canonical.hashLeaves {s : State} {c r k : Nat} {l : List Leaf} {y : State × List (Nat × BitVec 384)} (h : s.canonical)
    (hy : State.hashLeaves c r k l s = some y) : y.1.canonical := by
  induction l generalizing s k y with
  | nil => cases hy; exact h
  | cons x l ih =>
    unfold State.hashLeaves at hy
    split at hy
    · cases hy
    next hleaf =>
      split at hy
      · cases hy
      next b hleaves =>
        cases hy
        exact ih (y := b) (h.hashLeaf hleaf) hleaves

theorem State.canonical.signReceipt {s : State} {c : Nat} {ecdsa : Bool} {body : List Byte} (h : s.canonical) :
    (s.signReceipt c ecdsa body).canonical := h.devWr.setCtx

theorem State.canonical.stages67 {s : State} {L : Launch} {R : Region} {code cause rword : Nat} {y : State × Bool} (h : s.canonical)
    (hy : s.stages67 L R code cause rword = some y) : y.1.canonical := by
  unfold State.stages67 at hy
  split at hy
  · cases hy
  next a hleaves =>
    have ha : a.1.canonical := by
      split at hleaves
      · cases hleaves; exact h
      · exact h.hashLeaves hleaves
    have hroot := ha.ite (c := L.hmask = 0) (ha.extend (c := L.ctx) (t := 3) (d := if L.hmask = 0 then 0 else resultRoot a.2))
    dsimp only at hy
    generalize (if L.hmask = 0 then a.1 else _) = u at hy hroot
    rcases Decidable.em ((L.rcpt && (u.ctx L.ctx).rclen != 0) = true) with hc | hc
    · rw [if_pos hc] at hy
      obtain rfl := Option.some.inj hy
      exact hroot.signReceipt
    · rw [if_neg hc] at hy
      obtain rfl := Option.some.inj hy
      exact hroot

/-! ### Completion (R333) -/

theorem State.canonical.step3 {s : State} {c q : Nat} {d : Nat × Nat × Nat} (h : s.canonical) : (s.step3 c q d).canonical := h.modQueue

theorem State.canonical.land {s : State} {c q : Nat} {d : Nat × Nat × Nat} (h : s.canonical) : (s.land c q d).canonical := by
  unfold State.land
  dsimp only
  split
  · exact h.hostWr.hostWr.modQueue
  · exact .ite (.ite h.hostWr.hostWr.modQueue.setSlotOf h.hostWr.hostWr.modQueue) (h.hostWr.hostWr.modQueue.setSlotOf.ite h.hostWr.hostWr.modQueue)

theorem State.canonical.launchEnd {s : State} {c q : Nat} {L : Launch} (h : s.canonical) : (s.launchEnd c q L).canonical := by
  unfold State.launchEnd
  dsimp only
  split
  · exact h
  · split
    next => exact h
    next a hstages =>
      have ha : a.1.canonical := by
        split at hstages
        · exact h.stages67 hstages
        · cases hstages; exact h
      exact (ha.withRegion (by rfl)).outcome.land

theorem State.canonical.giveBack {s : State} {r : Nat} (h : s.canonical) : (s.giveBack r).canonical := .ite h.release h

theorem State.canonical.execPacketComplete {c q : Nat} {s : State} (h : s.canonical) : Out.canonical (execPacketComplete c q s) := by
  unfold Machine.execPacketComplete
  dsimp only
  split
  · exact h
  · split
    · exact h.setQueue
    · split
      · exact State.canonical.ite h.land (State.canonical.ite h h.step3)
      · exact h.launchEnd
      · exact h

theorem State.canonical.hubSignal {s : State} {x : SigOp} (h : s.canonical) : (s.hubSignal x).canonical := .ite h (.ite h.setQueue.sigApply.barAll h)

theorem State.canonical.execSignalOperation {k : Nat} {s : State} (h : s.canonical) : Out.canonical (execSignalOperation k s) := by
  unfold Machine.execSignalOperation
  dsimp only
  split
  · exact h
  · exact State.canonical.ite h (h.frame (by rfl)).hubSignal

theorem State.canonical.replay {s : State} {c q : Nat} (h : s.canonical) : (s.replay c q).canonical := by
  unfold State.replay
  dsimp only
  split
  · exact h
  · split
    · exact .ite h.setQueue h
    · exact h.setQueue

/-! ### Host waits and `csig` (R337, R338) -/

theorem State.canonical.armHost {s : State} {c v i x : Nat} (h : s.canonical) : (s.armHost c v i x).canonical :=
  .ite h.setFn.addGuilt.barCheck (.ite h.setFn (.ite h.setFn (h.frame (by rfl)).setFn.hostWr))

theorem State.canonical.execSwcmd {v i x : Nat} {s : State} (h : s.canonical) : Out.canonical (execSwcmd v i x s) := by
  unfold Machine.execSwcmd
  split
  · exact h
  · exact h.onCtx (.ite h.armHost h)

theorem State.canonical.csigOp {p : BitVec 4} {f : FmtZ} {k : Nat} {s : State} {body : State → Nat → Nat → List Nat → State × Nat} (h : s.canonical)
    (hb : ∀ a c g, (body s a c g).1.canonical) : Out.canonical (csigOp p f k s body) := h.svOp fun _ _ => hb _ _ _

theorem State.canonical.execCsigAlc {p : BitVec 4} {f : FmtZ} {s : State} (h : s.canonical) : Out.canonical (execCsigAlc p f s) := by
  refine h.csigOp fun _ _ _ => ?_
  dsimp only
  split
  · exact h
  · exact (h.frame (by rfl)).setSig

theorem State.canonical.execCsigFre {p : BitVec 4} {f : FmtZ} {s : State} (h : s.canonical) : Out.canonical (execCsigFre p f s) := by
  refine h.csigOp fun _ _ _ => ?_
  split
  · exact h.freeSig
  · exact h

theorem State.canonical.csigApply {s : State} {n op : Nat} {g : List Nat} (h : s.canonical) : (csigApply s n op g).1.canonical := by
  unfold Machine.csigApply
  dsimp only
  split
  · exact h
  · exact h.sigApply.barAll

theorem State.canonical.execCsigAdd {p : BitVec 4} {f : FmtZ} {s : State} (h : s.canonical) : Out.canonical (execCsigAdd p f s) :=
  h.csigOp fun _ _ _ => h.csigApply

theorem State.canonical.execCsigSet {p : BitVec 4} {f : FmtZ} {s : State} (h : s.canonical) : Out.canonical (execCsigSet p f s) :=
  h.csigOp fun _ _ _ => h.csigApply

theorem State.canonical.execCsigRd {p : BitVec 4} {f : FmtZ} {s : State} (h : s.canonical) : Out.canonical (execCsigRd p f s) :=
  h.csigOp fun _ _ _ => h.putRegs

end Sys2Proof.Machine
end

section
/-! SUPPORT. Canonical memories: contexts, links, dies and the hub (16_context.md, 17_link.md). -/

namespace Sys2Proof.Machine

/-! ### Context states (R341) -/

theorem State.canonical.execContextBind {c : Nat} {s : State} (h : s.canonical) : Out.canonical (execContextBind c s) := h.onCtx (.ite h h.setCtx)

theorem State.canonical.execContextUnbind {c : Nat} {s : State} (h : s.canonical) : Out.canonical (execContextUnbind c s) := h.onCtx (.ite h h.setCtx)

theorem State.canonical.execCtxenSet {c : Nat} {s : State} (h : s.canonical) : Out.canonical (execCtxenSet c s) := h.onCtx (.ite h.setCtx h)

theorem State.canonical.execCtxenClear {c : Nat} {s : State} (h : s.canonical) : Out.canonical (execCtxenClear c s) := h.onCtx (.ite h.setCtx h)

theorem State.canonical.execPlheadWrite {c v : Nat} {s : State} (h : s.canonical) : Out.canonical (execPlheadWrite c v s) := h.onCtx (.ite h h.setCtx)

/-! ### Scrub and reset (R342, R353) -/

theorem State.canonical.finishNow {s : State} {c q : Nat} (h : s.canonical) : (s.finishNow c q).canonical := by
  unfold State.finishNow
  split
  · exact h
  · extract_lets u mine _ _ v
    have hu : u.canonical := h.ite h.land
    have hv : v.canonical := State.canonical.foldl (hu.frame (by rfl)) fun _ _ h => h.hubSignal
    exact (hv.ite hv.step3).modQueue

theorem State.canonical.endLaunch {s : State} {c q : Nat} (h : s.canonical) : (s.endLaunch c q).canonical := by
  unfold State.endLaunch
  dsimp only
  split
  · exact h.outcome
  · exact h

theorem State.canonical.scrub1 {s : State} {c n : Nat} {back : Bool} (h : s.canonical) : (s.scrub1 c n back).canonical :=
  ((h.abortCtx.foldl (fun _ _ h1 => h1.endLaunch.finishNow)).ite h.abortCtx).foldl fun _ _ h1 => h1.withdraw

theorem State.canonical.scrub2 {s : State} {c : Nat} (h : s.canonical) : (s.scrub2 c).canonical := h.foldl fun _ _ h => h.release

theorem State.canonical.scrub3 {s : State} {c : Nat} (h : s.canonical) : (s.scrub3 c).canonical := by
  refine State.canonical.setCtx (h.foldl fun s x h => ?_)
  split
  · exact State.canonical.unhold (h.onDie fun _ h => h.putStatus)
  · exact h

theorem State.canonical.scrub45 {s : State} {c : Nat} (h : s.canonical) : (s.scrub45 c).canonical :=
  ((h.foldl (fun _ _ h1 => h1.unbindBar)).foldl (fun _ _ h1 => h1.freeSig)).setCtx

theorem State.canonical.zeroSaves {s : State} {c : Nat} (h : s.canonical) : (s.zeroSaves c).canonical := h.foldl fun _ _ h => h.zeroFrames

theorem State.canonical.scrubCtx {s : State} {c : Nat} (h : s.canonical) : (s.scrubCtx c).canonical :=
  .ite h (.ite h.setCtx h.zeroSaves.scrub1.scrub2.scrub3.scrub45.setCtx)

theorem State.canonical.execScrub {c : Nat} {s : State} (h : s.canonical) : Out.canonical (execScrub c s) := h.onCtx (.ite h h.scrubCtx)

theorem State.canonical.execScrubComplete {c : Nat} {s : State} (h : s.canonical) : Out.canonical (execScrubComplete c s) :=
  State.canonical.ite h (h.frame (by rfl)).barCheck

theorem State.canonical.abandon {s : State} {c : Nat} (h : s.canonical) : (s.abandon c).canonical := h.foldl fun _ _ h => h.finish

theorem State.canonical.flrCtx {s : State} {c : Nat} (h : s.canonical) : (s.flrCtx c).canonical :=
  .ite h h.abandon.zeroSaves.scrub1.scrub2.scrub3.scrub45.setCtx

theorem State.canonical.eraseKeys {s : State} {v : Nat} (h : s.canonical) : (s.eraseKeys v).canonical := h

theorem State.canonical.execFlr {v : Nat} {s : State} (h : s.canonical) : Out.canonical (execFlr v s) := by
  unfold Machine.execFlr
  dsimp only
  split
  · exact trivial
  · exact ((h.frame (by rfl)).foldl (fun _ _ h => h.flrCtx)).setFn

theorem State.canonical.execTdispError {v : Nat} {s : State} (h : s.canonical) : Out.canonical (execTdispError v s) := by
  unfold Machine.execTdispError
  dsimp only
  split
  · exact trivial
  · exact (h.foldl (fun _ _ h => h.scrubCtx)).setFn.eraseKeys

/-! ### `trap` and `tret` (R348, R349) -/

theorem State.canonical.execTrap {p : BitVec 4} {f : FmtZ} {s : State} (h : s.canonical) : Out.canonical (execTrap p f s) := h.feWord h

theorem Tile.canonical.skipHead {t : Tile} {q : Nat} (h : t.canonical) : (t.skipHead q).canonical := by
  unfold Tile.skipHead
  split
  · exact h
  · exact h.setQueue

theorem State.canonical.execTret {p : BitVec 4} {_f : FmtZ} {s : State} (h : s.canonical) : Out.canonical (execTret p _f s) :=
  h.feWord (.ite h.illHere (.ite h (.ite h.setCore (h.setMyTile ((h.tile _).skipHead.ite (h.tile _))))))

theorem State.canonical.execHandlerTimeout {k : Nat} {s : State} (h : s.canonical) : Out.canonical (execHandlerTimeout k s) :=
  State.canonical.ite h h.endBy

/-! ### `rcpt` (R360) -/

theorem State.canonical.execRcpt {p : BitVec 4} {f : FmtZ} {s : State} (h : s.canonical) : Out.canonical (execRcpt p f s) := by
  refine h.svOp fun _ _ => ?_
  dsimp only
  split
  · exact h
  · split
    · exact h
    · exact h.signReceipt

/-! ### States and their changes (R378) -/

theorem State.canonical.putLink {s : State} {i : Nat} {L : Link} (h : s.canonical) : (s.putLink i L).canonical := h

theorem State.canonical.bumpE4 {s : State} (h : s.canonical) : s.bumpE4.canonical := h.foldl fun _ _ h => .ite (h.withDie (by rfl)) h

theorem State.canonical.linkLost {s : State} {i k srca pc : Nat} (h : s.canonical) : (s.linkLost i k srca pc).canonical := h.tel.endBy

theorem State.canonical.losePeers {s : State} {i : Nat} (h : s.canonical) : (s.losePeers i).canonical :=
  (((h.frame (by rfl)).foldl (fun _ _ h1 => h1.send)).foldl (fun _ _ h1 => h1.send)).foldl fun _ _ h1 => h1.send

theorem State.canonical.peerCmdLost {s : State} {k seq i : Nat} (h : s.canonical) : (s.peerCmdLost k seq i).canonical := by
  unfold State.peerCmdLost
  split
  · exact h
  · exact h.linkLost

theorem State.canonical.loseAccesses {s : State} {i : Nat} (h : s.canonical) : (s.loseAccesses i).canonical := by
  refine State.canonical.settleAll (State.canonical.foldl h.losePeers fun s x h => ?_)
  extract_lets k t s1 s2 s3
  split
  · exact h
  · have h1 : s1.canonical := by
      dsimp only [s1]
      split
      · exact h.linkLost
      · exact h
    have h2 : s2.canonical := by
      dsimp only [s2]
      split
      · exact h1.linkLost
      · exact h1
    have h3 : s3.canonical := by
      dsimp only [s3]
      split
      · exact h2.linkLost
      · exact h2
    split
    · exact h3.linkLost
    · exact h3

theorem State.canonical.dropWire {s : State} {i : Nat} (h : s.canonical) : (s.dropWire i).canonical := h

theorem State.canonical.leaveRunning {s : State} {i : Nat} (h : s.canonical) : (s.leaveRunning i).canonical :=
  h.putLink.peerLost.loseAccesses.dropWire.foldl fun _ _ h => h.setCtx

theorem State.canonical.rejoin {s : State} (h : s.canonical) : s.rejoin.canonical := h

theorem State.canonical.linkTo {s : State} {i st : Nat} (h : s.canonical) : (s.linkTo i st).canonical :=
  .ite h (.ite (h.putLink.bumpE4.rejoin.ite h.putLink.bumpE4).leaveRunning (.ite h.putLink.bumpE4.rejoin h.putLink.bumpE4))

theorem State.canonical.linkDown {s : State} {i : Nat} (h : s.canonical) : (s.linkDown i).canonical := h.linkTo.putLink

theorem State.canonical.linkQuar {s : State} {i q : Nat} (h : s.canonical) : (s.linkQuar i q).canonical := h.linkTo.putLink

theorem State.canonical.dieTo {s : State} {d st : Nat} (h : s.canonical) : (s.dieTo d st).canonical := .ite h (h.withDie (by rfl)).bumpE4

theorem State.canonical.bringUp {s : State} (h : s.canonical) : s.bringUp.canonical := h.foldl fun _ _ h => .ite h.linkTo h

theorem Die.canonical.startSorrel {D : Die} (h : D.canonical) : (startSorrel D).canonical := h

theorem State.canonical.runDies {s : State} (h : s.canonical) : s.runDies.canonical :=
  h.foldl fun _ _ h => .ite (h.setDie (h.die _).startSorrel).dieTo h

theorem State.canonical.settleLinks {s : State} (h : s.canonical) : s.settleLinks.canonical := h.bringUp.runDies

/-! ### Dies (R362 to R364) -/

theorem State.canonical.dropLease {s : State} {d : Nat} (h : s.canonical) : (s.dropLease d).canonical := .ite (h.frame (by rfl)).abandonLoads h

theorem Die.canonical.fresh {D : Die} (h : D.canonical) : D.fresh.canonical := h

theorem State.canonical.loseTiles {s : State} {r d : Nat} (h : s.canonical) : (s.loseTiles r d).canonical := h.withRegion (by rfl)

theorem State.canonical.resetDie {s : State} {d : Nat} (h : s.canonical) : (s.resetDie d).canonical := by
  unfold State.resetDie
  extract_lets s1 rs s2 s3 s4 ks s5 s6 D
  have h1 : s1.canonical := h.foldl fun _ _ h => h.linkDown
  have h2 : s2.canonical := h1.foldl fun _ _ h => h.ite h.endGrid
  have h3 : s3.canonical := h2.foldl fun _ _ h => h.loseTiles
  have h5 : s5.canonical := h3.dropLease.foldl fun _ _ h => h.setTile Tile.canonical_empty
  have h6 : s6.canonical := h5.foldl fun _ _ h => h.setPool rfl
  exact State.canonical.settleLinks (State.canonical.dieTo (h6.setDie (Die.canonical.frame (h6.die d).fresh.startSorrel rfl)))

theorem Out.canonical.dieEv {s : State} {d : Nat} {f : State → State} (hf : (f s).canonical) : Out.canonical (dieEv d s f) := by
  unfold Machine.dieEv
  split
  · trivial
  · exact hf

theorem State.canonical.execSupplyInRegulation {d : Nat} {s : State} (h : s.canonical) : Out.canonical (execSupplyInRegulation d s) :=
  .dieEv (.ite (h.setDie ((h.die _).fresh.frame (by rfl))).dieTo h)

theorem State.canonical.execSupplyLost {d : Nat} {s : State} (h : s.canonical) : Out.canonical (execSupplyLost d s) :=
  .dieEv (h.setDie (h.die _).fresh).dieTo.dropLease.settleLinks

theorem State.canonical.execDieResetRelease {d : Nat} {s : State} (h : s.canonical) : Out.canonical (execDieResetRelease d s) :=
  .dieEv (.ite (h.setDie (h.die _).fresh).dieTo h)

theorem State.canonical.execDieMeasurementDone {d : Nat} {pass : Bool} {g : BitVec 384} {s : State} (h : s.canonical) :
    Out.canonical (execDieMeasurementDone d pass g s) :=
  .dieEv (.ite h (h.setDie (((h.die _).frame (by rfl)).ite ((h.die _).frame (by rfl)))).dieTo.settleLinks)

theorem State.canonical.execDieAdmissionCheckEnd {d q : Nat} {s : State} (h : s.canonical) : Out.canonical (execDieAdmissionCheckEnd d q s) :=
  .dieEv (.ite h (.ite (h.withDie (by rfl)).dieTo.settleLinks (h.withDie (by rfl))))

theorem State.canonical.execDieWatchdog {d : Nat} {s : State} (h : s.canonical) : Out.canonical (execDieWatchdog d s) := .dieEv (.ite h h.resetDie)

/-! ### Links (R365, R367 to R369) -/

theorem Out.canonical.linkEv {s : State} {i : Nat} {f : State → Link → State} (hf : ∀ l, (f s l).canonical) : Out.canonical (linkEv i s f) := by
  unfold Machine.linkEv
  split
  · trivial
  · exact hf _

theorem State.canonical.startWaiting {s : State} {i : Nat} (h : s.canonical) : (s.startWaiting i).canonical := .ite h.putLink.linkTo h

theorem State.canonical.toRunning {s : State} {i : Nat} (h : s.canonical) : (s.toRunning i).canonical :=
  h.linkTo.linkTo.linkTo.startWaiting.settleLinks

theorem State.canonical.execLinkTrainingEnd {i : Nat} {ok : Bool} {s : State} (h : s.canonical) : Out.canonical (execLinkTrainingEnd i ok s) :=
  .linkEv fun _ => .ite h (.ite h.linkTo (.ite h.linkTo.putLink.tel.toRunning h.linkTo))

theorem State.canonical.execLinkAttestEnd {i q : Nat} {peer : BitVec 384} {s : State} (h : s.canonical) :
    Out.canonical (execLinkAttestEnd i q peer s) :=
  .linkEv fun _ => .ite h (.ite (.ite h.linkQuar (.ite h.putLink.toRunning h.free.linkQuar)) (.ite h.linkQuar
    (.ite h.linkQuar h.putLink.putLink.linkTo)))

theorem State.canonical.execLinkErrorBurst {i : Nat} {s : State} (h : s.canonical) : Out.canonical (execLinkErrorBurst i s) :=
  .linkEv fun _ => .ite h h.linkTo.putLink

theorem State.canonical.execRolloverStart {i dir : Nat} {s : State} (h : s.canonical) : Out.canonical (execRolloverStart i dir s) :=
  .linkEv fun _ => .ite h.putLink.linkTo (.ite h.putLink h)

/-! ### The sync domain (R370, R371) -/

theorem State.canonical.putFlit {s : State} {i dir gen cnt : Nat} {payload : List Byte} (h : s.canonical) :
    (s.putFlit i dir gen cnt payload).canonical := h.send

theorem State.canonical.flitAck {s : State} {i dir g n : Nat} {replay : Bool} (h : s.canonical) : (s.flitAck i dir g n replay).canonical := by
  unfold State.flitAck
  dsimp only
  split
  · exact h
  · split
    · split
      · exact h.putFlit
      · exact h
    · exact h.putLink

theorem State.canonical.askReplay {s : State} {i dir g cnt : Nat} (h : s.canonical) : (s.askReplay i dir g cnt).canonical := .ite h.flitAck h.send

theorem State.canonical.flitLast {s : State} {i dir n : Nat} (h : s.canonical) : (s.flitLast i dir n).canonical := .ite h h.putLink

theorem State.canonical.execFlitReceive {i dir : Nat} {crcOk tagOk : Bool} {g cnt : Nat} {s : State} (h : s.canonical) :
    Out.canonical (execFlitReceive i dir crcOk tagOk g cnt s) :=
  .linkEv fun _ => .ite h (.ite h.askReplay (.ite h.putLink (.ite h.putLink.linkQuar h.putLink.askReplay)))

theorem State.canonical.pressRoll {s : State} {i dir : Nat} (h : s.canonical) : (s.pressRoll i dir).canonical :=
  .ite h (.ite h.putLink.linkTo (.ite h.putLink h))

theorem State.canonical.raiseWire {s : State} {i : Nat} (h : s.canonical) : (s.raiseWire i).canonical := h

theorem State.canonical.flitSend {s : State} {i dir : Nat} {payload : List Byte} (h : s.canonical) : (s.flitSend i dir payload).canonical :=
  .ite h (.ite h.putLink.raiseWire h.putLink.putFlit.pressRoll)

theorem State.canonical.execRolloverAck {i dir : Nat} {s : State} (h : s.canonical) : Out.canonical (execRolloverAck i dir s) :=
  .linkEv fun _ => .ite h (h.putLink.foldl (fun _ _ h => h.flitSend))

theorem State.canonical.execRolloverEnd {i dir : Nat} {s : State} (h : s.canonical) : Out.canonical (execRolloverEnd i dir s) :=
  .linkEv fun _ => .ite h (.ite h.putLink h.putLink.linkTo.tel.startWaiting.settleLinks)

/-! ### Joining domains (R370, R371) -/

theorem State.canonical.execDomainStallRaise {i : Nat} {s : State} (h : s.canonical) : Out.canonical (execDomainStallRaise i s) :=
  .linkEv fun _ => .ite h.raiseWire h

theorem State.canonical.execDomainStallDrop {i : Nat} {s : State} (h : s.canonical) : Out.canonical (execDomainStallDrop i s) :=
  .linkEv fun _ => .ite h.dropWire h

theorem State.canonical.align {s : State} {i : Nat} (h : s.canonical) : (s.align i).canonical := ((h.frame (by rfl)).ite (h.send.ite h)).linkTo

theorem State.canonical.peerTells {s : State} {i : Nat} {m : List Nat} {x n : Nat} (h : s.canonical) : (s.peerTells i m x n).canonical :=
  .ite h.putLink (.ite h h.putLink.rejoin)

/-! ### `lnkc` and `lnkq` (R378, R379) -/

theorem State.canonical.lnkcOp {p : BitVec 4} {f : FmtZ} {top : Nat} {s : State} {body : State → Nat → Link → State × Nat} (h : s.canonical)
    (hb : ∀ i, (body s i (s.link i)).1.canonical) : Out.canonical (lnkcOp p f top s body) := by
  refine h.svOp fun a g => ?_
  dsimp only
  split
  · exact h
  · split
    · exact h
    · exact hb _

theorem State.canonical.execLnkcUp {p : BitVec 4} {f : FmtZ} {s : State} (h : s.canonical) : Out.canonical (execLnkcUp p f s) := by
  refine h.lnkcOp fun _ => ?_
  split
  · exact h
  · exact h.linkTo

theorem State.canonical.execLnkcDown {p : BitVec 4} {f : FmtZ} {s : State} (h : s.canonical) : Out.canonical (execLnkcDown p f s) := by
  refine h.lnkcOp fun _ => ?_
  split
  · exact h
  · exact h.linkDown

theorem State.canonical.execLnkcRkey {p : BitVec 4} {f : FmtZ} {s : State} (h : s.canonical) : Out.canonical (execLnkcRkey p f s) := by
  refine h.lnkcOp fun _ => ?_
  split
  · exact h
  · exact h.putLink.linkTo

theorem State.canonical.execLnkcAlgn {p : BitVec 4} {f : FmtZ} {s : State} (h : s.canonical) : Out.canonical (execLnkcAlgn p f s) := by
  refine h.lnkcOp fun _ => ?_
  split
  · exact h
  · exact h.align

theorem State.canonical.execLnkcRun {p : BitVec 4} {f : FmtZ} {s : State} (h : s.canonical) : Out.canonical (execLnkcRun p f s) := by
  refine h.lnkcOp fun _ => ?_
  split
  · exact h
  · dsimp only
    exact State.canonical.startWaiting h.linkTo

theorem State.canonical.execLnkcQrl {p : BitVec 4} {f : FmtZ} {s : State} (h : s.canonical) : Out.canonical (execLnkcQrl p f s) := by
  refine h.lnkcOp fun _ => ?_
  split
  · exact h
  · dsimp only
    exact State.canonical.settleLinks h.linkDown

theorem State.canonical.lnkcDie {p : BitVec 4} {f : FmtZ} {s : State} {body : State → Nat → Die → State × Nat} (h : s.canonical)
    (hb : ∀ d, (body s d (s.die d)).1.canonical) : Out.canonical (lnkcDie p f s body) := by
  refine h.svOp fun a g => ?_
  split
  · exact h
  · exact hb _

theorem State.canonical.execLnkcDrst {p : BitVec 4} {f : FmtZ} {s : State} (h : s.canonical) : Out.canonical (execLnkcDrst p f s) := by
  refine h.lnkcDie fun _ => ?_
  split
  · exact h
  · dsimp only
    exact h.resetDie

theorem State.canonical.execLnkcDqrl {p : BitVec 4} {f : FmtZ} {s : State} (h : s.canonical) : Out.canonical (execLnkcDqrl p f s) := by
  refine h.lnkcDie fun _ => ?_
  split
  · exact h
  · exact (h.setDie (h.die _).fresh).dieTo

theorem State.canonical.execLnkqLnk {p : BitVec 4} {f : FmtZ} {s : State} (h : s.canonical) : Out.canonical (execLnkqLnk p f s) :=
  h.lnkcOp fun _ => h.putRegs

theorem State.canonical.execLnkqDie {p : BitVec 4} {f : FmtZ} {s : State} (h : s.canonical) : Out.canonical (execLnkqDie p f s) :=
  h.lnkcDie fun _ => h.putRegs

theorem State.canonical.execLnkqDom {p : BitVec 4} {f : FmtZ} {s : State} (h : s.canonical) : Out.canonical (execLnkqDom p f s) :=
  h.svOp fun _ _ => h.putRegs

/-! ### The host link, IDE and TDISP (R374, R375) -/

theorem State.canonical.execHostLinkRetrain {s : State} (h : s.canonical) : Out.canonical (execHostLinkRetrain s) := h.tel

theorem State.canonical.execIdeKeyRefresh {s : State} (h : s.canonical) : Out.canonical (execIdeKeyRefresh s) := h.tel

theorem State.canonical.execIdeKm {v : Nat} {key : BitVec 256} {s : State} (h : s.canonical) : Out.canonical (execIdeKm v key s) := by
  unfold Machine.execIdeKm
  dsimp only
  split
  · exact trivial
  · exact h.setFn

theorem State.canonical.tdispMove {v old new : Nat} {s : State} (h : s.canonical) : Out.canonical (tdispMove v old new s) := by
  unfold Machine.tdispMove
  dsimp only
  split
  · exact trivial
  · exact State.canonical.ite h.setFn h

theorem State.canonical.execTdispLock {v : Nat} {s : State} (h : s.canonical) : Out.canonical (execTdispLock v s) := h.tdispMove

theorem State.canonical.execTdispRun {v : Nat} {s : State} (h : s.canonical) : Out.canonical (execTdispRun v s) := h.tdispMove

/-! ### Key slots and peers (R372, R373, R376, R377) -/

theorem State.canonical.execKsvf {n x : Nat} {s : State} (h : s.canonical) : Out.canonical (execKsvf n x s) := State.canonical.ite h h

theorem State.canonical.setKey {s : State} {n : Nat} {x : KeySlot} (h : s.canonical) : (s.setKey n x).canonical := h

theorem State.canonical.execKeySlotLoad {n v : Nat} {t : Bool} {s : State} (h : s.canonical) : Out.canonical (execKeySlotLoad n v t s) :=
  State.canonical.ite h.setKey h

theorem State.canonical.execKeySlotClr {n v : Nat} {t : Bool} {s : State} (h : s.canonical) : Out.canonical (execKeySlotClr n v t s) :=
  State.canonical.ite h.setKey h

theorem State.canonical.execPeerEntryWrite {c e x : Nat} {s : State} (h : s.canonical) : Out.canonical (execPeerEntryWrite c e x s) :=
  State.canonical.ite h h.setCtx.send

theorem State.canonical.execPeerPairConfirm {c e : Nat} {s : State} (h : s.canonical) : Out.canonical (execPeerPairConfirm c e s) :=
  State.canonical.ite h.setCtx h

theorem State.canonical.unpair {s : State} {c e : Nat} (h : s.canonical) : (s.unpair c e).canonical := .ite h.setCtx h

theorem State.canonical.execPeeridWrite {i : Nat} {x : BitVec 384} {s : State} (h : s.canonical) : Out.canonical (execPeeridWrite i x s) :=
  State.canonical.ite h h

theorem State.canonical.execRemoteInvalidation {i c o first count : Nat} {s : State} (h : s.canonical) :
    Out.canonical (execRemoteInvalidation i c o first count s) := State.canonical.ite h.putLink.send h.putLink.putLink

/-! ### What a peer's commands do here (R270, R281, R373) -/

theorem State.canonical.serve1 {s : State} {i : Nat} {x : Xlat} (h : s.canonical) : (s.serve1 i x).canonical := .ite h h.putLink

theorem State.canonical.landFrames {s : State} {port c o : Nat} {l : List (Nat × Nat)} {bs : List Byte} {ts : List Bool} (h : s.canonical) :
    (State.landFrames port c o l bs ts s).1.canonical := by
  induction l generalizing s bs ts with
  | nil => exact h
  | cons x l ih =>
    unfold State.landFrames
    split
    · exact h
    · split
      · exact h
      · exact ih h.dramWr.setTags.serve1

theorem State.canonical.peerDone {s : State} {x : PeerStore} {code : Nat} (h : s.canonical) : (s.peerDone x code).canonical := (h.frame (by rfl)).send

theorem State.canonical.peerPark {s : State} {x : PeerStore} {kind : Nat} (h : s.canonical) : (s.peerPark x kind).canonical :=
  (h.frame (by rfl)).send.faultIn

theorem State.canonical.peerIn {s : State} {x : PeerStore} {a : Arrival} {space unit addr : Nat} {via : Option Xlat} (h : s.canonical) :
    (s.peerIn x a space unit addr via).canonical := (h.frame (by rfl)).peerDone

theorem State.canonical.placeArr {s : State} {x : PeerStore} {a : Arrival} (h : s.canonical) : (s.placeArr x a).canonical := by
  unfold State.placeArr
  dsimp only
  split
  · split
    · exact h.peerDone
    · exact .ite h.peerIn h.peerIn
  · split
    · exact h.peerPark
    · exact .ite h.peerPark h.serve1.peerIn

theorem State.canonical.landBytes {s : State} {x : PeerStore} (h : s.canonical) : (s.landBytes x).canonical := by
  unfold State.landBytes
  dsimp only
  split
  · split
    · exact h.peerDone
    · exact h.wr.setTags.peerDone
  · split
    · exact h.landFrames.peerDone
    · exact h.landFrames.peerPark

theorem State.canonical.peerLand {s : State} {x : PeerStore} (h : s.canonical) : (s.peerLand x).canonical := by
  unfold State.peerLand
  split
  · exact h
  · split
    · exact h.peerDone
    · split
      · exact h.placeArr
      · exact h.landBytes

theorem State.canonical.peerLanding {s : State} {port c : Nat} {f : Nat → Nat → PeerStore} (h : s.canonical) :
    (s.peerLanding port c f).canonical := by
  unfold State.peerLanding
  dsimp only
  split
  · exact h.send
  · exact (h.frame (by rfl)).peerLand

theorem State.canonical.peerStore {s : State} {port c : Nat} {dtx : Option Nat} {o off : Nat} {bs : List Byte} {tags : List Bool} {tix step : Nat}
    (h : s.canonical) : (s.peerStore port c dtx o off bs tags tix step).canonical := h.peerLanding

theorem State.canonical.peerArrival {s : State} {port c : Nat} {dtx : Option Nat} {o off step : Nat} {a : Arrival} (h : s.canonical) :
    (s.peerArrival port c dtx o off step a).canonical := h.peerLanding

theorem State.canonical.peerRegion {s : State} {i c w : Nat} (h : s.canonical) : (s.peerRegion i c w).canonical := .ite h h.putLink

theorem State.canonical.landSignal {s : State} {x : PeerSig} (h : s.canonical) : (s.landSignal x).canonical := by
  unfold State.landSignal
  split
  · exact h.send
  · exact h.send
  · split
    · exact h.send
    · split
      · exact h.send
      · exact h.setTile (h.tile _).addOp

theorem State.canonical.peerSignal {s : State} {x : PeerSig} (h : s.canonical) : (s.peerSignal x).canonical := .ite h h.landSignal

theorem State.canonical.peerTurn {s : State} (h : s.canonical) : s.peerTurn.canonical :=
  (h.ite ((h.frame (by rfl)).foldl (fun _ _ h1 => h1.landSignal))).foldl fun _ _ h1 => h1.peerLand

/-! ### Power-on and telemetry (R25 to R30) -/

theorem State.canonical.execPowerOn {s : State} (h : s.canonical) : Out.canonical (execPowerOn s) := by
  have hfresh : ({ hostMem := s.hostMem, inputs := s.inputs, agenda := s.agenda, freeCtr := s.freeCtr, outbox := s.outbox, powered := true
                   dies := [0, 1, 2].map fun d => (d, { defect := (s.die d).defect })
                   hub := { flash0 := s.hub.flash0, flash1 := s.hub.flash1, tel := ((newerBank s.hub.flash0 s.hub.flash1).getD ([], [])).1
                            fresh := (newerBank s.hub.flash0 s.hub.flash1).isNone
                            retired := ((newerBank s.hub.flash0 s.hub.flash1).getD ([], [])).2 } } : State).canonical := by
    refine ⟨rfl, h.hostMem, fun _ => ⟨rfl, rfl, rfl⟩, fun _ => rfl, fun d => ?_, fun _ => rfl⟩
    simp only [State.die, List.map_cons, List.map_nil, tget]
    split
    · rfl
    · split
      · rfl
      · split <;> rfl
  exact ((hfresh.foldl fun _ _ h => h.setFt).foldl fun _ _ h => h.setFt).tel

theorem State.canonical.execTelemetrySample {temps : List Int} {droops : List Nat} {s : State} (h : s.canonical) :
    Out.canonical (execTelemetrySample temps droops s) := (h.foldl (fun _ _ h1 => h1.tel)).foldl fun _ _ h1 => h1.tel

theorem State.canonical.execPwrMinTick {s : State} (h : s.canonical) : Out.canonical (execPwrMinTick s) := h.tel

theorem State.canonical.execTelemetryFlashWrite {s : State} (h : s.canonical) : Out.canonical (execTelemetryFlashWrite s) := State.canonical.ite h h

theorem State.canonical.execSnap {v : BitVec 32} {s : State} (h : s.canonical) : Out.canonical (execSnap v s) := State.canonical.ite h h

theorem State.canonical.execMctpSnapshotRequest {s : State} (h : s.canonical) : Out.canonical (execMctpSnapshotRequest s) := h

theorem State.canonical.execSnapshotComplete {mgmt : Bool} {s : State} (h : s.canonical) : Out.canonical (execSnapshotComplete mgmt s) :=
  State.canonical.ite h h

theorem State.canonical.execTelemetryUnsupportedAccess {wr : Bool} {off width : Nat} {s : State} (h : s.canonical) :
    Out.canonical (execTelemetryUnsupportedAccess wr off width s) := State.canonical.ite h h.send

theorem State.canonical.winRead {s : State} {off width : Nat} (h : s.canonical) : (s.winRead off width).canonical := .ite h.send h.send

theorem State.canonical.flashBank {s : State} {second : Bool} {recs : Tab Nat} {retired : List Nat} {crc : BitVec 32} (h : s.canonical) :
    (s.flashBank second recs retired crc).canonical := h

theorem State.canonical.dramCe {s : State} {addr : Nat} (h : s.canonical) : (s.dramCe addr).canonical := .ite h h.tel.free

theorem State.canonical.execMctpTelemetryRead {off len : Nat} {s : State} (h : s.canonical) : Out.canonical (execMctpTelemetryRead off len s) :=
  State.canonical.ite h.send h

/-! ### The lease (R23) -/

theorem State.canonical.execLeaseRenew {d : Nat} {s : State} (h : s.canonical) : Out.canonical (execLeaseRenew d s) := State.canonical.ite h h

theorem State.canonical.replayAll {s : State} (h : s.canonical) : s.replayAll.canonical := h.foldl fun _ _ h1 => h1.foldl fun _ _ h2 => h2.replay

theorem State.canonical.leaseDropped {s : State} (h : s.canonical) : s.leaseDropped.canonical := by
  unfold State.leaseDropped
  split
  · exact State.canonical.abandonLoads (h.frame (by rfl))
  · exact h

theorem State.canonical.leaseTaken {s : State} {d : Nat} (h : s.canonical) : (s.leaseTaken d).canonical := by
  have hu := State.canonical.frame (t := { s with hub := { s.hub with lease := some d, leaseLeft := leaseNs } }) h rfl
  have hset := hu.withDie (d := d) (D := { s.die d with sem := tset (tset (tset (s.die d).sem 1 1) 2 1) 3 1 }) rfl
  exact hset.ite hset.replayAll

theorem State.canonical.execLeaseLapse {s : State} (h : s.canonical) : Out.canonical (execLeaseLapse s) := by
  show Out.canonical (exec .leaseLapse s)
  cases hgone : s.leaseGone with
  | false => rw [leaseLapse_stands hgone]; exact h
  | true =>
    rw [leaseLapse_gone hgone]
    cases s.nextLeader with
    | none => exact h.leaseDropped
    | some d => exact h.leaseDropped.leaseTaken

/-! ### Power cap and step period (14_group.md R319, R320) -/

theorem State.canonical.execPowerCapWrite {v : Nat} {s : State} (h : s.canonical) : Out.canonical (execPowerCapWrite v s) := h

theorem State.canonical.execStepPeriodChange {ms : List Nat} {s : State} (h : s.canonical) : Out.canonical (execStepPeriodChange ms s) := h

/-! ### The partition block (14_group.md R307) -/

theorem State.canonical.execPartitionWrite {v : Nat} {field : PartField} {x : Nat} {s : State} (h : s.canonical) :
    Out.canonical (execPartitionWrite v field x s) := by
  unfold Machine.execPartitionWrite
  dsimp only
  split
  · exact h
  · split <;> exact State.canonical.ite h h.setFn

/-! ### Registers without an event of their own (R7) -/

theorem State.canonical.fnReg {s : State} (h : s.canonical) {v : Nat} {f : Fn → Fn} : (s.fnReg v f).canonical := h.ite h.setFn

theorem State.canonical.vfReg {s : State} (h : s.canonical) {v : Nat} {f : Fn → Fn} : (s.vfReg v f).canonical := h.ite h.fnReg

theorem State.canonical.ctxReg {s : State} (h : s.canonical) {c : Nat} {reg : HostReg} {v : Nat} {f : Ctx → Ctx} :
    Out.canonical (ctxReg c reg v s f) :=
  h.onCtx (h.setCtx.ite h)

theorem State.canonical.queueReg {s : State} (h : s.canonical) {c q : Nat} {reg : HostReg} {v : Nat} {ok : Queue → Bool} {f : Queue → Queue} :
    Out.canonical (queueReg c q reg v s ok f) := h.onCtx (h.ite h.modQueue)

theorem State.canonical.keyReg {s : State} (h : s.canonical) {n v : Nat} {t : Bool} {f : KeySlot → KeySlot} : (s.keyReg n v t f).canonical :=
  h.setKey.ite h

theorem State.canonical.execRegisterWrite {reg : HostReg} {v : Nat} {s : State} (h : s.canonical) : Out.canonical (execRegisterWrite reg v s) := by
  unfold Machine.execRegisterWrite
  dsimp only
  split
  · exact h.vfReg
  · exact h.vfReg
  · exact h.vfReg
  · exact h.vfReg
  · exact h.vfReg
  · exact h.queueReg
  · exact h.queueReg
  · exact h.queueReg
  · exact h.fnReg
  · exact State.canonical.ite h h.setFn
  · exact State.canonical.ite h h.setFn
  · exact h.onCtx (.ite h h.setCtx)
  · exact h.onCtx (.ite h h.setCtx)
  · exact h.ctxReg
  · exact h.ctxReg
  · exact h.ctxReg
  · exact h.ctxReg
  · exact h.ctxReg
  · exact h.ctxReg
  · exact h.ctxReg
  · exact h.ctxReg
  · exact h.keyReg
  · exact State.canonical.ite h.keyReg h
  · exact h.keyReg
  · exact State.canonical.ite h h.setFn
  · exact h

/-! ### Reads of the host (R7) -/

theorem State.canonical.hostEvent {s : State} {e : CtxEv} (h : s.canonical) : Out.canonical (s.hostEvent e) := by
  unfold State.hostEvent
  split
  · exact h.execDoorbell
  · exact h.execQueueEnable
  · exact h.execQueueDisable
  · exact h.execSwcmd
  · exact h.execUnbar
  · exact h.execContextUnbind
  · exact h.execContextBind
  · exact h.execScrub
  · exact h.execCtxenSet
  · exact h.execCtxenClear
  · exact h.execPlheadWrite
  · exact h.execRegisterWrite
  · exact h.execHostErrorCompletion

end Sys2Proof.Machine
end

section
/-! SUPPORT. Canonical memories: vector words (06_vector_arith.md, 07_vector_data.md). -/

namespace Sys2Proof.Machine

theorem State.canonical.vWord {s : State} (h : s.canonical) {hd : Hdr} {r : BitVec 8} {mask : BitVec 3} {lat y : Nat}
    {lane : State → Nat → State × Lane} (hl : ∀ (s : State) (i : Nat), s.canonical → (lane s i).1.canonical) :
    Out.canonical (vWord hd s r mask lat y lane) := h.qWord (h.lanes64 hl).vecRes

theorem State.canonical.fpWord {s : State} (h : s.canonical) {hd : Hdr} {f : FmtV} {lat : Nat}
    {srcs : (Nat → Lane) → (Nat → Lane) → (Nat → Lane) → List (Nat → Lane)} {op : Mode → List FV → Ex} : Out.canonical (fpWord hd f s lat srcs op) :=
  h.vWord fun _ _ h => h.eltsM fun _ _ h => h.arith

theorem State.canonical.fp2 {s : State} (h : s.canonical) {hd : Hdr} {f : FmtV} {lat : Nat} {op : Mode → FV → FV → Ex} :
    Out.canonical (fp2 hd f s lat op) := h.fpWord

theorem State.canonical.fp3 {s : State} (h : s.canonical) {hd : Hdr} {f : FmtV} {lat : Nat} {op : Mode → FV → FV → FV → Ex} :
    Out.canonical (fp3 hd f s lat op) := h.fpWord

theorem State.canonical.fp1 {s : State} (h : s.canonical) {hd : Hdr} {f : FmtV} {lat : Nat} {op : FV → Ex} : Out.canonical (fp1 hd f s lat op) :=
  h.fpWord

theorem State.canonical.execVadd {hd : Hdr} {f : FmtV} {s : State} (h : s.canonical) : Out.canonical (execVadd hd f s) := h.fp2

theorem State.canonical.execVsub {hd : Hdr} {f : FmtV} {s : State} (h : s.canonical) : Out.canonical (execVsub hd f s) := h.fp2

theorem State.canonical.execVmul {hd : Hdr} {f : FmtV} {s : State} (h : s.canonical) : Out.canonical (execVmul hd f s) := h.fp2

theorem State.canonical.execVfma {hd : Hdr} {f : FmtV} {s : State} (h : s.canonical) : Out.canonical (execVfma hd f s) := h.fp3

theorem State.canonical.execVfms {hd : Hdr} {f : FmtV} {s : State} (h : s.canonical) : Out.canonical (execVfms hd f s) := h.fp3

theorem State.canonical.execVfnma {hd : Hdr} {f : FmtV} {s : State} (h : s.canonical) : Out.canonical (execVfnma hd f s) := h.fp3

theorem State.canonical.execVrcp {hd : Hdr} {f : FmtV} {s : State} (h : s.canonical) : Out.canonical (execVrcp hd f s) := h.fp1

theorem State.canonical.execVrsq {hd : Hdr} {f : FmtV} {s : State} (h : s.canonical) : Out.canonical (execVrsq hd f s) := h.fp1

theorem State.canonical.execVsqr {hd : Hdr} {f : FmtV} {s : State} (h : s.canonical) : Out.canonical (execVsqr hd f s) := h.fp1

theorem State.canonical.execVdiv {hd : Hdr} {f : FmtV} {s : State} (h : s.canonical) : Out.canonical (execVdiv hd f s) := h.fp2

theorem State.canonical.execVex2 {hd : Hdr} {f : FmtV} {s : State} (h : s.canonical) : Out.canonical (execVex2 hd f s) := h.fp1

theorem State.canonical.execVlg2 {hd : Hdr} {f : FmtV} {s : State} (h : s.canonical) : Out.canonical (execVlg2 hd f s) := h.fp1

theorem State.canonical.fpBits {hd : Hdr} {f : FmtV} {s : State} {two : Bool} {op : FV → FV → Nat → Nat → Nat} (h : s.canonical) :
    Out.canonical (fpBits hd f s two op) := h.vWord fun _ _ h1 => h1.eltsM fun _ _ h2 => h2.arithBits

theorem State.canonical.execVmin {hd : Hdr} {f : FmtV} {s : State} (h : s.canonical) : Out.canonical (execVmin hd f s) := h.fpBits

theorem State.canonical.execVmax {hd : Hdr} {f : FmtV} {s : State} (h : s.canonical) : Out.canonical (execVmax hd f s) := h.fpBits

theorem State.canonical.execVabs {hd : Hdr} {f : FmtV} {s : State} (h : s.canonical) : Out.canonical (execVabs hd f s) := h.fpBits

theorem State.canonical.execVneg {hd : Hdr} {f : FmtV} {s : State} (h : s.canonical) : Out.canonical (execVneg hd f s) := h.fpBits

theorem State.canonical.execVcps {hd : Hdr} {f : FmtV} {s : State} (h : s.canonical) : Out.canonical (execVcps hd f s) := h.fpBits

theorem State.canonical.execVdp2 {hd : Hdr} {f : FmtV} {s : State} (h : s.canonical) : Out.canonical (execVdp2 hd f s) := h.vWord fun _ _ h => h.arith

/-! ### Integers (R147) -/

theorem State.canonical.intWord {hd : Hdr} {f : FmtV} {s : State} {srcs : Nat} {op : Nat → Int → Int → Int → Int} (h : s.canonical) :
    Out.canonical (intWord hd f s srcs op) := h.vWord fun _ _ h => h

theorem State.canonical.execViadd {hd : Hdr} {f : FmtV} {s : State} (h : s.canonical) : Out.canonical (execViadd hd f s) := h.intWord

theorem State.canonical.execVisub {hd : Hdr} {f : FmtV} {s : State} (h : s.canonical) : Out.canonical (execVisub hd f s) := h.intWord

theorem State.canonical.execVimul {hd : Hdr} {f : FmtV} {s : State} (h : s.canonical) : Out.canonical (execVimul hd f s) := h.intWord

theorem State.canonical.execVimad {hd : Hdr} {f : FmtV} {s : State} (h : s.canonical) : Out.canonical (execVimad hd f s) := h.intWord

theorem State.canonical.execVimulh {hd : Hdr} {f : FmtV} {s : State} (h : s.canonical) : Out.canonical (execVimulh hd f s) := h.intWord

theorem State.canonical.execVimin {hd : Hdr} {f : FmtV} {s : State} (h : s.canonical) : Out.canonical (execVimin hd f s) := h.intWord

theorem State.canonical.execVimax {hd : Hdr} {f : FmtV} {s : State} (h : s.canonical) : Out.canonical (execVimax hd f s) := h.intWord

theorem State.canonical.execVadds {hd : Hdr} {f : FmtV} {s : State} (h : s.canonical) : Out.canonical (execVadds hd f s) := h.intWord

theorem State.canonical.execVsubs {hd : Hdr} {f : FmtV} {s : State} (h : s.canonical) : Out.canonical (execVsubs hd f s) := h.intWord

theorem State.canonical.execVdp4 {hd : Hdr} {f : FmtV} {s : State} (h : s.canonical) : Out.canonical (execVdp4 hd f s) := h.vWord fun _ _ h => h

theorem State.canonical.bitWord {hd : Hdr} {f : FmtV} {s : State} {srcs : Nat} {op : BitVec 32 → BitVec 32 → BitVec 32} (h : s.canonical) :
    Out.canonical (bitWord hd f s srcs op) := h.vWord fun _ _ h => h

theorem State.canonical.execVand {hd : Hdr} {f : FmtV} {s : State} (h : s.canonical) : Out.canonical (execVand hd f s) := h.bitWord

theorem State.canonical.execVor {hd : Hdr} {f : FmtV} {s : State} (h : s.canonical) : Out.canonical (execVor hd f s) := h.bitWord

theorem State.canonical.execVxor {hd : Hdr} {f : FmtV} {s : State} (h : s.canonical) : Out.canonical (execVxor hd f s) := h.bitWord

theorem State.canonical.execVandn {hd : Hdr} {f : FmtV} {s : State} (h : s.canonical) : Out.canonical (execVandn hd f s) := h.bitWord

theorem State.canonical.execVpopc {hd : Hdr} {f : FmtV} {s : State} (h : s.canonical) : Out.canonical (execVpopc hd f s) := h.bitWord

theorem State.canonical.execVclz {hd : Hdr} {f : FmtV} {s : State} (h : s.canonical) : Out.canonical (execVclz hd f s) := h.bitWord

theorem State.canonical.shiftWord {hd : Hdr} {f : FmtV} {s : State} {op : Nat → Nat → Nat → Nat} (h : s.canonical) :
    Out.canonical (shiftWord hd f s op) := h.vWord fun _ _ h => h

theorem State.canonical.execVshl {hd : Hdr} {f : FmtV} {s : State} (h : s.canonical) : Out.canonical (execVshl hd f s) := h.shiftWord

theorem State.canonical.execVshr {hd : Hdr} {f : FmtV} {s : State} (h : s.canonical) : Out.canonical (execVshr hd f s) := h.shiftWord

theorem State.canonical.execVsar {hd : Hdr} {f : FmtV} {s : State} (h : s.canonical) : Out.canonical (execVsar hd f s) := h.shiftWord

/-! ### Compares, classification, selection -/

theorem State.canonical.jWord {s : State} (h : s.canonical) {hd : Hdr} {jd : BitVec 8} {act : BitVec 64} {g : State → Nat → State × Bool}
    (hg : ∀ (s : State) (i : Nat), s.canonical → (g s i).1.canonical) : Out.canonical (jWord hd s jd act g) := by
  refine h.qWord (State.canonical.foldl_fst (x := (s, 0)) h fun x i h => ?_)
  split
  · exact hg _ _ h
  · exact h

theorem State.canonical.execVcmp {s : State} {hd : Hdr} {f : FmtV} (h : s.canonical) : Out.canonical (execVcmp hd f s) := by
  unfold Machine.execVcmp
  refine h.jWord fun s i h => ?_
  dsimp only
  split
  · exact h.consume
  · exact h

theorem State.canonical.execVcls {hd : Hdr} {f : FmtV} {s : State} (h : s.canonical) : Out.canonical (execVcls hd f s) := h.vWord fun _ _ h => h

theorem State.canonical.execVsel {hd : Hdr} {f : FmtV} {s : State} (h : s.canonical) : Out.canonical (execVsel hd f s) := h.vWord fun _ _ h => h

/-! ### Conversion (R151 to R154) -/

theorem State.canonical.cvtElem {s : State} {st dt : Nat} {ovp : Bool} {md : Mode} {fv : FV} {iv : Int} {ipois : Option Nat} (h : s.canonical) :
    (cvtElem s st dt ovp md fv iv ipois).1.canonical := by
  unfold Machine.cvtElem
  dsimp only
  split
  · split
    · exact h
    · split
      · exact h
      · split
        · exact h.newOrigin
        · exact h
  · split
    · exact h.consume
    · split
      · split <;> exact h
      · split
        · exact h.newOrigin
        · exact h

theorem State.canonical.cvtOf {s : State} {f : FmtVX} {i L : Nat} {l : Lane} {e : Nat} (h : s.canonical) : (cvtOf s f i L l e).1.canonical :=
  h.cvtElem

theorem State.canonical.cvtLane {s : State} {f : FmtVX} {i : Nat} (h : s.canonical) : (cvtLane s f i).1.canonical := by
  unfold Machine.cvtLane
  dsimp only
  split <;> exact h.eltsM fun _ _ h => h.cvtOf

theorem State.canonical.groupRes {s : State} (h : s.canonical) {lat vd k : Nat} {act : BitVec 64} {rows : List (List Lane)} :
    (groupRes s lat vd k act rows).canonical := h

theorem State.canonical.rowsM {s : State} (h : s.canonical) {act : BitVec 64} {g : State → Nat → State × List Lane} {l : List Nat}
    (hg : ∀ (s : State) (i : Nat), s.canonical → (g s i).1.canonical) : (rowsM act g l s).1.canonical := by
  induction l generalizing s with
  | nil => exact h
  | cons i l ih =>
    refine ih ?_
    split
    · exact hg s i h
    · exact h

theorem State.canonical.execVcvt {hd : Hdr} {f : FmtVX} {s : State} (h : s.canonical) : Out.canonical (execVcvt hd f s) :=
  h.qWord (h.rowsM (fun _ _ h => h.cvtLane)).groupRes

theorem State.canonical.execVrnd {hd : Hdr} {f : FmtV} {s : State} (h : s.canonical) : Out.canonical (execVrnd hd f s) := h.fpWord

/-! ### Moves and permutes (R157 to R159) -/

theorem State.canonical.mvWord {s : State} (h : s.canonical) {hd : Hdr} {f : FmtV} {lane : Nat → Lane} : Out.canonical (mvWord hd f s lane) :=
  h.vWord fun _ _ h => h

theorem State.canonical.execVmov {hd : Hdr} {f : FmtV} {s : State} (h : s.canonical) : Out.canonical (execVmov hd f s) := h.mvWord

theorem State.canonical.execVsplat {hd : Hdr} {f : FmtV} {s : State} (h : s.canonical) : Out.canonical (execVsplat hd f s) := h.mvWord

theorem State.canonical.execViota {hd : Hdr} {f : FmtV} {s : State} (h : s.canonical) : Out.canonical (execViota hd f s) := h.mvWord

theorem State.canonical.execVext {hd : Hdr} {f : FmtV} {s : State} (h : s.canonical) : Out.canonical (execVext hd f s) := h.mvWord

theorem State.canonical.execVins {hd : Hdr} {f : FmtV} {s : State} (h : s.canonical) : Out.canonical (execVins hd f s) :=
  h.qWord (by
  dsimp only
  split <;> exact h.vecRes)

theorem State.canonical.execVperm {hd : Hdr} {f : FmtV} {s : State} (h : s.canonical) : Out.canonical (execVperm hd f s) := h.mvWord

theorem State.canonical.execVshuf {hd : Hdr} {f : FmtV} {s : State} (h : s.canonical) : Out.canonical (execVshuf hd f s) := h.mvWord

theorem State.canonical.execVrot {hd : Hdr} {f : FmtV} {s : State} (h : s.canonical) : Out.canonical (execVrot hd f s) := h.mvWord

theorem State.canonical.execVcmprs {hd : Hdr} {f : FmtV} {s : State} (h : s.canonical) : Out.canonical (execVcmprs hd f s) := h.qWord h.vecRes

theorem State.canonical.execVexpd {hd : Hdr} {f : FmtV} {s : State} (h : s.canonical) : Out.canonical (execVexpd hd f s) := h.qWord h.vecRes

/-! ### Reductions and scans (R160 to R165) -/

theorem State.canonical.combine {op : RedOp} {ty : Nat} {md : Mode} {s : State} {a b : Elt} (h : s.canonical) :
    (combine op ty md s a b).1.canonical := by
  unfold Machine.combine
  split
  · exact h
  · exact h
  · exact h
  · split
    · split
      · exact h.arith
      · exact h
    · exact h
    · exact h
    · exact h
    · exact h
    · exact h

theorem State.canonical.adopt {ty : Nat} {s : State} {l : Lane} (h : s.canonical) : (adopt ty s l).1.canonical := by
  unfold Machine.adopt
  split
  · exact h.arithBits
  · exact h

theorem State.canonical.entries {ty ident : Nat} {act : BitVec 64} {v : Vec} {s : State} (h : s.canonical) :
    (entries ty ident act v s).1.canonical := by
  refine h.eltsM fun _ _ h => ?_
  split
  · exact h.adopt
  · exact h

theorem State.canonical.pairLevel {α : Type} {g : State → α → α → State × α} (hg : ∀ (s : State) (a b : α), s.canonical → (g s a b).1.canonical) :
    ∀ (l : List α) (s : State), s.canonical → (pairLevel g l s).1.canonical
  | [], _, h => h
  | [_], _, h => h
  | a :: b :: l, s, h => pairLevel hg l (g s a b).1 (hg s a b h)

theorem State.canonical.treeOf {α : Type} {s : State} (h : s.canonical) {g : State → α → α → State × α} {n : Nat} {l : List α}
    (hg : ∀ (s : State) (a b : α), s.canonical → (g s a b).1.canonical) : (treeOf g n l s).1.canonical := by
  induction n generalizing l s with
  | zero => exact h
  | succ n ih => exact ih (State.canonical.pairLevel hg l s h)

theorem State.canonical.execVred {hd : Hdr} {f : FmtV} {s : State} (h : s.canonical) : Out.canonical (execVred hd f s) :=
  h.qWord (h.entries.treeOf (fun _ _ _ h => h.combine)).vecRes

theorem State.canonical.execVredx {hd : Hdr} {f : FmtV} {s : State} (h : s.canonical) : Out.canonical (execVredx hd f s) :=
  h.qWord (h.entries.treeOf (fun _ _ _ h => h))

theorem State.canonical.scanLevel {s : State} (h : s.canonical) {g : State → Elt → Elt → State × Elt} {d : Nat} {l : List Elt}
    (hg : ∀ (s : State) (a b : Elt), s.canonical → (g s a b).1.canonical) : (scanLevel g d l s).1.canonical := by
  refine h.eltsM fun s i h => ?_
  split
  · exact h
  · exact hg s _ _ h

theorem State.canonical.execVscan {s : State} {hd : Hdr} {f : FmtV} (h : s.canonical) : Out.canonical (execVscan hd f s) := by
  unfold Machine.execVscan
  refine h.qWord (State.canonical.vecRes ?_)
  refine State.canonical.foldl_fst h.entries fun _ _ h => ?_
  exact h.scanLevel fun _ _ _ h => h.combine

/-! ### Quantisation (R166 to R171) -/

theorem State.canonical.quantBlock {f : FmtVX} {s : State} {b : Nat} (h : s.canonical) : (quantBlock f s b).1.canonical := by
  unfold Machine.quantBlock
  dsimp only
  split
  · exact h.consume
  · split
    · exact h.consume.newOrigin
    · exact h.consume

theorem State.canonical.blocksM {s : State} (h : s.canonical) {g : State → Nat → State × (List Lane × Lane)} {l : List Nat}
    (hg : ∀ (s : State) (b : Nat), s.canonical → (g s b).1.canonical) : (blocksM g l s).1.canonical := by
  induction l generalizing s with
  | nil => exact h
  | cons b l ih => exact ih (hg s b h)

theorem State.canonical.execVmqnt {hd : Hdr} {f : FmtVX} {s : State} (h : s.canonical) : Out.canonical (execVmqnt hd f s) :=
  h.qWord (h.blocksM (fun _ _ h => h.quantBlock))

theorem State.canonical.dqLane {f : FmtVX} {s : State} {i : Nat} {fb : Option (Nat × Nat)} (h : s.canonical) : (dqLane f s i fb).1.canonical := by
  unfold Machine.dqLane
  dsimp only
  split
  · exact h
  · split
    · split
      · exact h
      · exact h.newOrigin
    · exact h.newOrigin
  · exact h.eltsM fun _ _ h => h.arith

theorem State.canonical.execVmdq {s : State} {hd : Hdr} {f : FmtVX} (h : s.canonical) : Out.canonical (execVmdq hd f s) := by
  unfold Machine.execVmdq
  refine h.qWord (State.canonical.groupRes ?_)
  exact State.canonical.foldl_fst h fun _ _ h => State.canonical.dqLane h

theorem State.canonical.scaleIds {s : State} {l : Lane} (h : s.canonical) : (scaleIds s l).1.canonical := by
  unfold Machine.scaleIds
  dsimp only
  split
  · exact h
  · exact h
  · exact h.newOrigin

theorem State.canonical.execVscl {hd : Hdr} {f : FmtVX} {s : State} (h : s.canonical) : Out.canonical (execVscl hd f s) := by
  refine h.vWord fun _ _ h => ?_
  dsimp only
  split
  · exact h.consume.scaleIds.scaleIds
  · exact h.consume.scaleIds.scaleIds.arith

theorem State.canonical.execVlqd {hd : Hdr} {f : FmtVX} {s : State} (h : s.canonical) : Out.canonical (execVlqd hd f s) := h.qWord h

/-! ### Poison instructions (R172 to R174) -/

theorem State.canonical.execVpsn {hd : Hdr} {f : FmtV} {s : State} (h : s.canonical) : Out.canonical (execVpsn hd f s) :=
  h.qWord (.ite h.vecRes h.newOrigin.vecRes)

theorem State.canonical.execVpid {hd : Hdr} {f : FmtV} {s : State} (h : s.canonical) : Out.canonical (execVpid hd f s) := h.mvWord

theorem State.canonical.execVprep {hd : Hdr} {f : FmtV} {s : State} (h : s.canonical) : Out.canonical (execVprep hd f s) :=
  h.qWord (.ite h.vecRes (.ite h.vecRes h.logEntry.vecRes))

/-! ### Lane masks (R175) -/

theorem State.canonical.jmWord {s : State} (h : s.canonical) {hd : Hdr} {f : FmtV} {op : BitVec 64 → BitVec 64 → BitVec 64} :
    Out.canonical (jmWord hd f s op) := h.qWord h

theorem State.canonical.execJand {hd : Hdr} {f : FmtV} {s : State} (h : s.canonical) : Out.canonical (execJand hd f s) := h.jmWord

theorem State.canonical.execJor {hd : Hdr} {f : FmtV} {s : State} (h : s.canonical) : Out.canonical (execJor hd f s) := h.jmWord

theorem State.canonical.execJxor {hd : Hdr} {f : FmtV} {s : State} (h : s.canonical) : Out.canonical (execJxor hd f s) := h.jmWord

theorem State.canonical.execJnot {hd : Hdr} {f : FmtV} {s : State} (h : s.canonical) : Out.canonical (execJnot hd f s) := h.jmWord

theorem State.canonical.execJpopc {hd : Hdr} {f : FmtV} {s : State} (h : s.canonical) : Out.canonical (execJpopc hd f s) := h.mvWord

theorem State.canonical.execJffs {hd : Hdr} {f : FmtV} {s : State} (h : s.canonical) : Out.canonical (execJffs hd f s) := h.mvWord

end Sys2Proof.Machine
end

section
/-! SUPPORT. Canonical memories: the matrix engine (11_matrix.md). -/

namespace Sys2Proof.Machine

/-! ### Shape registers (R240, R241) -/

theorem State.canonical.execHset {hd : Hdr} {f : FmtV} {s : State} (h : s.canonical) : Out.canonical (execHset hd f s) :=
  h.qWord (.ite h (h.setMyTile (h.tile _)))

theorem State.canonical.execHswp {hd : Hdr} {f : FmtV} {s : State} (h : s.canonical) : Out.canonical (execHswp hd f s) :=
  h.qWord (h.setMyTile (h.tile _))

theorem State.canonical.execHrd {hd : Hdr} {f : FmtV} {s : State} (h : s.canonical) : Out.canonical (execHrd hd f s) := h.qWord h

/-! ### The accumulator from the vector unit (R257 to R259) -/

theorem Tile.canonical.setAccRow {t : Tile} {i : Nat} {l : List (BitVec 32)} (h : t.canonical) : (t.setAccRow i l).canonical := h

theorem State.canonical.freeLanes {s : State} (h : s.canonical) : s.freeLanes.2.canonical := h

theorem State.canonical.execMxrv {hd : Hdr} {f : FmtV} {s : State} (h : s.canonical) : Out.canonical (execMxrv hd f s) :=
  h.qWord (by
  dsimp only
  split
  · exact h.vecRes
  · exact (h.freeLanes.ite h).vecRes)

theorem State.canonical.execMxwv {hd : Hdr} {f : FmtV} {s : State} (h : s.canonical) : Out.canonical (execMxwv hd f s) :=
  h.qWord (by
  dsimp only
  split
  · exact h
  · exact (h.freeLanes.ite h).setMyTile (h.tile _).setAccRow.setAccRow)

/-! ### Issue of engine commands (R242, R249) -/

theorem State.canonical.meWord {hd : Hdr} {f : FmtE} {s : State} {i : Instr} {shape : Nat} {q : Option MReq} (h : s.canonical) :
    Out.canonical (meWord hd f s i shape q) :=
  h.qWord (by
  dsimp only
  split
  · exact trivial
  · split
    · exact State.canonical.ite h.capRgt16 h
    · exact h.setMyTile (h.tile _))

theorem State.canonical.execMxla {hd : Hdr} {f : FmtE} {s : State} (h : s.canonical) : Out.canonical (execMxla hd f s) := h.meWord

theorem State.canonical.execMxlb {hd : Hdr} {f : FmtE} {s : State} (h : s.canonical) : Out.canonical (execMxlb hd f s) := h.meWord

theorem State.canonical.execMxmma {hd : Hdr} {f : FmtE} {s : State} (h : s.canonical) : Out.canonical (execMxmma hd f s) := h.meWord

theorem State.canonical.execMxz {hd : Hdr} {f : FmtE} {s : State} (h : s.canonical) : Out.canonical (execMxz hd f s) := h.meWord

theorem State.canonical.execMxprm {hd : Hdr} {f : FmtE} {s : State} (h : s.canonical) : Out.canonical (execMxprm hd f s) := h.meWord

theorem State.canonical.execMxst {hd : Hdr} {f : FmtE} {s : State} (h : s.canonical) : Out.canonical (execMxst hd f s) := h.meWord

theorem State.canonical.execMxspl {hd : Hdr} {f : FmtE} {s : State} (h : s.canonical) : Out.canonical (execMxspl hd f s) := h.meWord

theorem State.canonical.execMxfil {hd : Hdr} {f : FmtE} {s : State} (h : s.canonical) : Out.canonical (execMxfil hd f s) := h.meWord

theorem State.canonical.execMxgng {hd : Hdr} {f : FmtE} {s : State} (h : s.canonical) : Out.canonical (execMxgng hd f s) := h.meWord

theorem State.canonical.execMxrp {hd : Hdr} {f : FmtE} {s : State} (h : s.canonical) : Out.canonical (execMxrp hd f s) := h.meWord

/-! ### Banks (R243, R244) -/

theorem Tile.canonical.clearBank {t : Tile} {b : Nat} (h : t.canonical) : (t.clearBank b).canonical := h

theorem State.canonical.setMe {s : State} {k : Nat} {c : MeCmd} (h : s.canonical) : (s.setMe k c).canonical := h.withTile (by rfl)

theorem State.canonical.meFail {s : State} {k : Nat} {c : MeCmd} {t : TrapInfo} (h : s.canonical) : (s.meFail k c t).canonical :=
  (h.withTile (by rfl)).tel.endBy

theorem State.canonical.meEnd {s : State} {k : Nat} {c : MeCmd} (h : s.canonical) : (s.meEnd k c).canonical := h.delay.setMe

theorem State.canonical.mePark {s : State} {k : Nat} {c : MeCmd} {wr : Bool} {miss : Nat × Nat} (h : s.canonical) :
    (s.mePark k c wr miss).canonical := h.setMe.startWalk.setPark

theorem State.canonical.meUE {s : State} {k : Nat} {c : MeCmd} {l : List Reached} (h : s.canonical) : (s.meUE k c l).1.canonical := by
  unfold State.meUE
  dsimp only
  split
  · exact h
  · exact h.mkUE

theorem Tile.canonical.loadRow {t : Tile} {b fmt K r : Nat} {bytes : List Byte} {ids : List (Option Nat)} (h : t.canonical) :
    (t.loadRow b fmt K r bytes ids).canonical := by
  refine (h.frame (by rfl)).foldl fun _ _ h => ?_
  split <;> exact h

theorem State.canonical.meLoad {s : State} {k : Nat} {c : MeCmd} (h : s.canonical) : (s.meLoad k c).canonical := by
  unfold State.meLoad
  dsimp only
  split
  · exact h.meFail
  · split
    · exact (h.meUE.foldl (fun _ _ h => h.setTile (h.tile _).loadRow)).mePark
    · exact (h.meUE.foldl (fun _ _ h => h.setTile (h.tile _).loadRow)).meEnd

/-! ### Elements (R246) -/

theorem State.canonical.panelElem {g : OrgAt} {fmt b r k : Nat} {x : State × Foreign} (h : x.1.canonical) :
    (panelElem g fmt b r k x).1.1.canonical := by
  unfold Machine.panelElem
  dsimp only
  split
  · exact h
  · split
    · split
      · exact h
      · split
        · exact h
        · exact h.newOrigin
    · split
      · exact h.newOrigin
      · exact h.newOrigin
      · exact h

theorem State.canonical.panelElems {g : OrgAt} {fmt b k : Nat} {l : List Nat} {x : State × Foreign} (h : x.1.canonical) :
    (panelElems g fmt b k l x).1.1.canonical := by
  induction l generalizing x with
  | nil => exact h
  | cons r l ih => exact ih (State.canonical.panelElem h)

/-! ### Cells and promotion (R245, R247, R248, R53) -/

theorem Tile.canonical.setCells {t : Tile} {c : Cells} (h : t.canonical) : (t.setCells c).canonical := h

theorem State.canonical.promote1 {g : OrgAt} {s : State} {x : BitVec 32} {v : FV} (h : s.canonical) : (promote1 g s x v).1.canonical := h.arith

theorem State.canonical.promoteRow {g : OrgAt} {cls sa : Nat} {bs : List Nat} {vs : List Int} {ps : List (Option Nat)} {xs : List (BitVec 32)}
    {s : State} (h : s.canonical) : (promoteRow g cls sa bs vs ps xs s).1.canonical := by
  induction bs generalizing vs ps xs s with
  | nil => exact h
  | cons sb bs ih =>
    cases vs with
    | nil => exact h
    | cons v vs =>
      cases ps with
      | nil => exact h
      | cons p ps =>
        cases xs with
        | nil => exact h
        | cons x xs => exact ih h.promote1

theorem State.canonical.promoteRows {g : OrgAt} {c : Cells} {l : List Nat} {vs : List (List Int)} {ps : List (List (Option Nat))} {s : State}
    (h : s.canonical) : (promoteRows g c l vs ps s).canonical := by
  induction l generalizing vs ps s with
  | nil => exact h
  | cons i l ih =>
    cases vs with
    | nil => exact h
    | cons v vs =>
      cases ps with
      | nil => exact h
      | cons p ps => exact ih (State.canonical.withTile h.promoteRow (by rfl))

theorem State.canonical.promoteAll {g : OrgAt} {x : State × Cells} (h : x.1.canonical) : (promoteAll g x).1.canonical := h.promoteRows

theorem State.canonical.macCell {g : OrgAt} {cls fr : Nat} {a b : MxE} {v : Int} {p : Option Nat} {s : State} (h : s.canonical) :
    (macCell g cls fr a b v p s).1.canonical := by
  unfold Machine.macCell
  dsimp only
  split
  · exact h
  · split
    · split <;> exact h.arith
    · exact h

theorem State.canonical.macRow {g : OrgAt} {cls fr : Nat} {a : MxE} {bs : List MxE} {vs : List Int} {ps : List (Option Nat)} {s : State}
    (h : s.canonical) : (macRow g cls fr a bs vs ps s).1.canonical := by
  induction bs generalizing fr vs ps s with
  | nil => exact h
  | cons b bs ih =>
    cases vs with
    | nil => exact h
    | cons v vs =>
      cases ps with
      | nil => exact h
      | cons p ps => exact ih h.macCell

theorem State.canonical.macRows {g : OrgAt} {cls fr : Nat} {b l : List MxE} {vs : List (List Int)} {ps : List (List (Option Nat))}
    {s : State} (h : s.canonical) : (macRows g cls fr b l vs ps s).1.canonical := by
  induction l generalizing fr vs ps s with
  | nil => exact h
  | cons a l ih =>
    cases vs with
    | nil => exact h
    | cons v vs =>
      cases ps with
      | nil => exact h
      | cons p ps => exact ih h.macRow

theorem State.canonical.setFreeCtr {s : State} {n : Nat} (h : s.canonical) : ({ s with freeCtr := n } : State).canonical := h

theorem State.canonical.kStep {g : OrgAt} {m : Mma} {x : State × Foreign × Cells} {k : Nat} (h : x.1.canonical) : (kStep g m x k).1.canonical := by
  unfold Machine.kStep
  extract_lets t ka kb y ea eb fr _ r c z
  have hy : y.1.canonical := by
    dsimp only [y]
    split
    · exact State.canonical.promoteAll h
    · exact h
  have ha : ea.1.1.canonical := State.canonical.panelElems hy
  have hb : eb.1.1.canonical := State.canonical.panelElems ha
  have hr : r.1.canonical := State.canonical.macRows hb.setFreeCtr
  show z.1.canonical
  dsimp only [z]
  split
  · exact State.canonical.promoteAll hr
  · exact hr

theorem State.canonical.meMma {s : State} {k : Nat} {c : MeCmd} (h : s.canonical) : (s.meMma k c).canonical := by
  have hsteps := State.canonical.foldl_fst (x := (s, ([] : Foreign), (s.tile k).cells)) (f := Machine.kStep (s.orgM k c 0) (mmaOf c.w1))
    (l := (List.range (mmaOf c.w1).kn).map ((mmaOf c.w1).klo + ·)) h fun x k hx => hx.kStep
  exact (hsteps.setTile (hsteps.tile k).setCells).meEnd

theorem State.canonical.mePrm {s : State} {k : Nat} {c : MeCmd} (h : s.canonical) : (s.mePrm k c).canonical :=
  .ite h.meEnd (h.promoteAll.setTile (h.promoteAll.tile _).setCells).meEnd

theorem State.canonical.meZero {s : State} {k : Nat} {c : MeCmd} (h : s.canonical) : (s.meZero k c).canonical :=
  (h.setTile (((h.tile _).ite ((h.tile _).frame (by rfl))).setCells.ite ((h.tile _).ite ((h.tile _).frame (by rfl))))).meEnd

/-! ### Storing, spilling and filling (R260 to R263) -/

theorem State.canonical.mxstElems {s : State} {g : OrgAt} {es : Nat} {l : List (BitVec 32)} (h : s.canonical) : (mxstElems g es l s).1.canonical := by
  induction l generalizing s with
  | nil => exact h
  | cons x l ih =>
    unfold Machine.mxstElems
    refine ih ?_
    split
    · exact h
    · exact h.arith

theorem State.canonical.setTval {s : State} {k v : Nat} (h : s.canonical) : (s.setTval k v).canonical := h.withTile (by rfl)

/-- What the rows of `mxst` come to, whether they all go or one stops the command. -/
def MxstRes.canonical : Except State State → Prop
  | .ok s | .error s => s.canonical

theorem State.canonical.mxstRows {s : State} {k : Nat} {c : MeCmd} {l : List Reached} (h : s.canonical) : MxstRes.canonical (mxstRows k c l s) := by
  induction l generalizing s with
  | nil => exact h
  | cons x l ih =>
    unfold Machine.mxstRows
    dsimp only
    split
    · split
      · exact ih h.mxstElems.landAt
      · exact h.mxstElems.setTval.meFail
    · exact ih h.mxstElems.landAt

theorem State.canonical.meStore {s : State} {k : Nat} {c : MeCmd} (h : s.canonical) : (s.meStore k c).canonical := by
  have hrows := h.mxstRows (k := k) (c := c) (l := (s.meReach k c.cap.oid
    (c.rowsOf (shRows c.shape.toNat) (shStr c.shape.toNat) (32 * (quarters (c.es % 16)).length * mxstE c.es))).1)
  unfold State.meStore
  dsimp only
  split
  · exact h.meFail
  · split
    next hstop => rw [hstop] at hrows; exact hrows
    next hall =>
      rw [hall] at hrows
      split
      · exact State.canonical.mePark hrows
      · exact State.canonical.meEnd hrows

theorem State.canonical.meSpill {s : State} {k : Nat} {c : MeCmd} (h : s.canonical) : (s.meSpill k c).canonical := by
  unfold State.meSpill
  dsimp only
  split
  · exact h.meFail
  · split
    · exact (h.foldl (fun _ _ h => h.landAt)).mePark
    · exact (h.foldl (fun _ _ h => h.landAt)).meEnd

theorem Tile.canonical.fillAcc {t : Tile} {q : Nat} {bs : List Byte} {ids : List (Option Nat)} (h : t.canonical) : (t.fillAcc q bs ids).canonical :=
  h.foldl fun _ _ h => h.setAccRow

theorem State.canonical.meFill {s : State} {k : Nat} {c : MeCmd} (h : s.canonical) : (s.meFill k c).canonical := by
  unfold State.meFill
  dsimp only
  split
  · exact h.meFail
  · split
    · exact (h.meUE.foldl (fun _ _ h => h.setTile ((h.tile _).setCells.ite (h.tile _).fillAcc))).mePark
    · exact (h.meUE.foldl (fun _ _ h => h.setTile ((h.tile _).setCells.ite (h.tile _).fillAcc))).meEnd

/-! ### Gangs (R254 to R256) -/

theorem State.canonical.meGang {s : State} {k : Nat} {c : MeCmd} (h : s.canonical) : (s.meGang k c).canonical := (h.withTile (by rfl)).meEnd

theorem State.canonical.execGangImageArrival {s : State} {k : Nat} (h : s.canonical) : Out.canonical (execGangImageArrival k s) := by
  unfold Machine.execGangImageArrival
  show State.canonical _
  split
  · exact h
  · split
    · exact h
    · refine (h.setTile ?_).meEnd
      refine Tile.canonical.foldl (h.tile k).clearBank fun t r ht => ?_
      refine Tile.canonical.foldl (ht.frame (by rfl)) fun t b ht => ?_
      split
      · exact ht.frame (by rfl)
      · exact ht

/-! ### Command processing (R249 to R251) -/

theorem State.canonical.meDo {s : State} {k : Nat} {c : MeCmd} (h : s.canonical) : (s.meDo k c).canonical := by
  unfold State.meDo
  split
  · exact h.meLoad
  · exact h.meLoad
  · exact h.meMma
  · exact h.meZero
  · exact h.mePrm
  · exact h.meStore
  · exact h.meSpill
  · exact h.meFill
  · exact h.meGang
  · exact .ite h.meEnd h

theorem State.canonical.meWork {s : State} {k : Nat} {c : MeCmd} (h : s.canonical) : (s.meWork k c).canonical := .ite h (.ite h h.meDo)

theorem State.canonical.meBegin {s : State} {k : Nat} {c : MeCmd} (h : s.canonical) : (s.meBegin k c).1.canonical := by
  unfold State.meBegin
  have hbegun : Tile.canonical { s.tile k with meStarted := true } := (h.tile k).frame (by rfl)
  have hclear : Tile.canonical (Tile.clearBank { s.tile k with meStarted := true } c.bank) := hbegun.clearBank
  dsimp only
  split
  · exact h.setTile (hclear.frame (by rfl))
  · split
    · exact h.setTile hclear
    · split
      · exact h.setTile (hbegun.frame (by rfl))
      · exact h.setTile hbegun

theorem State.canonical.meStart {s : State} {k : Nat} (h : s.canonical) : (s.meStart k).canonical := by
  unfold State.meStart
  dsimp only
  split
  · exact h
  · exact h.meBegin.setMe.meWork

theorem State.canonical.execMeCommandStart {s : State} {k : Nat} (h : s.canonical) : Out.canonical (execMeCommandStart k s) := by
  have hwork := h.foldl (f := fun s c => s.meWork k c) (l := (s.tile k).meq) fun _ _ h => h.meWork
  unfold Machine.execMeCommandStart
  show State.canonical _
  split
  · exact hwork
  · split
    · exact hwork
    · split
      next => exact hwork
      next hwait => exact (hwork.takeWait hwait).meStart

theorem State.canonical.execMeCommandComplete {k id : Nat} {s : State} (h : s.canonical) : Out.canonical (execMeCommandComplete k id s) := by
  unfold Machine.execMeCommandComplete
  dsimp only
  split
  · exact h
  · split
    · exact h
    · split
      · split
        · exact (h.withTile (by rfl)).setMe.engSignal fun _ _ h => h.meFail
        · exact (h.withTile (by rfl)).engSignal fun _ _ h => h.meFail
      · exact (h.withTile (by rfl)).engSignal fun _ _ h => h.meFail

end Sys2Proof.Machine
end

section
/-! SUPPORT. Canonical memories: the front ends, the dispatch of all instructions, and the step. -/

namespace Sys2Proof.Machine

theorem State.canonical.atWord {s : State} {a : Agent} {pc w0 w1 seq : Nat} (h : s.canonical) : (s.atWord a pc w0 w1 seq).canonical := h

theorem State.canonical.handle {s : State} {k w0 w1 : Nat} (h : s.canonical) : (s.handle k w0 w1).canonical := (h.withTile (by rfl)).atWord

theorem State.canonical.dispatch {s : State} {k : Nat} {i : Instr} {w0 w1 : Nat} (h : s.canonical) : (s.dispatch k i w0 w1).canonical :=
  h.setTile (h.tile _).setQueue

theorem State.canonical.feTrap {s : State} {k : Nat} {x : TrapInfo} (h : s.canonical) : (s.feTrap k x).canonical :=
  ((h.withTile (by rfl)).withRegion (by rfl)).trapTile

theorem State.canonical.atEntry {s : State} {k q : Nat} {e : QEntry} (h : s.canonical) : (s.atEntry k q e).canonical := h

theorem State.canonical.execStepwRelease {k : Nat} {s : State} (h : s.canonical) : Out.canonical (execStepwRelease k s) := by
  unfold Machine.execStepwRelease
  dsimp only
  split
  · exact State.canonical.ite (h.withTile (by rfl)) h
  · exact h

/-! ### Satisfiers and probes (R235) -/

theorem State.canonical.waitCyc {s : State} {k a : Nat} {w : Wait} {orphan : Bool} {path : List (BitVec 32)} (h : s.canonical) :
    (s.waitCyc k a w orphan path).canonical := by
  unfold State.waitCyc
  dsimp only
  split
  · exact h.trapTile
  · split
    · split
      · exact h.meFail
      · exact h
    · split
      · exact h.xeFail
      · exact h

theorem State.canonical.forward {s : State} {path : List (BitVec 32)} {sender k a : Nat} {w : Wait} (h : s.canonical) :
    (s.forward path sender k a w).canonical := h.foldl fun _ _ h => h

theorem State.canonical.execProbeSend {k a : Nat} {s : State} (h : s.canonical) : Out.canonical (execProbeSend k a s) := by
  unfold Machine.execProbeSend
  dsimp only
  split
  · exact State.canonical.ite h (State.canonical.ite (h.withTile (by rfl)).waitCyc (h.withTile (by rfl)).forward)
  · exact h

theorem State.canonical.execProbeReceive {n : Nat} {s : State} (h : s.canonical) : Out.canonical (execProbeReceive n s) := by
  unfold Machine.execProbeReceive
  dsimp only
  split
  · exact h
  · split
    · exact h
    · exact State.canonical.ite (State.canonical.ite (h.frame (by rfl)).waitCyc h) (State.canonical.ite h (h.frame (by rfl)).forward)

/-! ### The close of a region step -/

theorem State.canonical.countBlocked {s : State} {k : Nat} (h : s.canonical) : (s.countBlocked k).canonical := h.withTile (by rfl)

theorem Tile.canonical.nextStep {t : Tile} (h : t.canonical) : t.nextStep.canonical := .ite h h

theorem State.canonical.execRegionStepClose {r : Nat} {s : State} (h : s.canonical) : Out.canonical (execRegionStepClose r s) :=
  State.canonical.ite h (((h.applyDue.closeBarriers.foldl (fun _ _ h1 => h1.countBlocked)).latch.foldl (fun _ _ h1 => h1.setTile
    (h1.tile _).nextStep)).withRegion (by rfl))

theorem Out.canonical.andThen {o : Out} (h : Out.canonical o) {f : State → Out} (hf : ∀ s : State, s.canonical → Out.canonical (f s)) :
    Out.canonical (andThen o f) := by
  cases o with
  | next s => exact hf s h
  | fault r => trivial
  | refused r => trivial

/-! ### The dispatch -/

theorem State.canonical.exec {i : Instr} {s : State} (h : s.canonical) : Out.canonical (exec i s) := by
  cases i with
  | nop _ f => exact h.execNop (_f := f)
  | bra => exact h.execBra
  | brp => exact h.execBrp
  | jmpc => exact h.execJmpc
  | call => exact h.execCall
  | ret => exact h.execRet
  | loop => exact h.execLoop
  | lend => exact h.execLend
  | lstg => exact h.execLstg
  | lbrk => exact h.execLbrk
  | stepw => exact h.execStepw
  | halt _ f => exact h.execHalt (_f := f)
  | add => exact h.execAdd
  | sub => exact h.execSub
  | mul => exact h.execMul
  | mulhs => exact h.execMulhs
  | mulhu => exact h.execMulhu
  | divs => exact h.execDivs
  | divu => exact h.execDivu
  | rems => exact h.execRems
  | remu => exact h.execRemu
  | and => exact h.execAnd
  | or => exact h.execOr
  | xor => exact h.execXor
  | andn => exact h.execAndn
  | shl => exact h.execShl
  | shr => exact h.execShr
  | sar => exact h.execSar
  | rotr => exact h.execRotr
  | min => exact h.execMin
  | max => exact h.execMax
  | minu => exact h.execMinu
  | maxu => exact h.execMaxu
  | popc => exact h.execPopc
  | clz => exact h.execClz
  | ctz => exact h.execCtz
  | bswp => exact h.execBswp
  | addi => exact h.execAddi
  | li => exact h.execLi
  | lih => exact h.execLih
  | sel => exact h.execSel
  | cmp => exact h.execCmp
  | cmpi => exact h.execCmpi
  | pand => exact h.execPand
  | por => exact h.execPor
  | pxor => exact h.execPxor
  | pnot => exact h.execPnot
  | extb => exact h.execExtb
  | insb => exact h.execInsb
  | mfsr => exact h.execMfsr
  | mtsr => exact h.execMtsr
  | rlr => exact h.execRlr
  | cmov => exact h.execCmov
  | cder => exact h.execCder
  | cseto => exact h.execCseto
  | cinc => exact h.execCinc
  | crgt => exact h.execCrgt
  | cget => exact h.execCget
  | cchk => exact h.execCchk
  | cnul => exact h.execCnul
  | vadd => exact h.execVadd
  | vsub => exact h.execVsub
  | vmul => exact h.execVmul
  | vfma => exact h.execVfma
  | vfms => exact h.execVfms
  | vfnma => exact h.execVfnma
  | vmin => exact h.execVmin
  | vmax => exact h.execVmax
  | vabs => exact h.execVabs
  | vneg => exact h.execVneg
  | vcps => exact h.execVcps
  | vdp2 => exact h.execVdp2
  | vrcp => exact h.execVrcp
  | vrsq => exact h.execVrsq
  | vsqr => exact h.execVsqr
  | vdiv => exact h.execVdiv
  | vex2 => exact h.execVex2
  | vlg2 => exact h.execVlg2
  | viadd => exact h.execViadd
  | visub => exact h.execVisub
  | vimul => exact h.execVimul
  | vimad => exact h.execVimad
  | vimulh => exact h.execVimulh
  | vimin => exact h.execVimin
  | vimax => exact h.execVimax
  | vdp4 => exact h.execVdp4
  | vadds => exact h.execVadds
  | vsubs => exact h.execVsubs
  | vand => exact h.execVand
  | vor => exact h.execVor
  | vxor => exact h.execVxor
  | vandn => exact h.execVandn
  | vpopc => exact h.execVpopc
  | vclz => exact h.execVclz
  | vshl => exact h.execVshl
  | vshr => exact h.execVshr
  | vsar => exact h.execVsar
  | vcmp => exact h.execVcmp
  | vcls => exact h.execVcls
  | vsel => exact h.execVsel
  | vcvt => exact h.execVcvt
  | vrnd => exact h.execVrnd
  | vmov => exact h.execVmov
  | vsplat => exact h.execVsplat
  | viota => exact h.execViota
  | vext => exact h.execVext
  | vins => exact h.execVins
  | vperm => exact h.execVperm
  | vshuf => exact h.execVshuf
  | vrot => exact h.execVrot
  | vcmprs => exact h.execVcmprs
  | vexpd => exact h.execVexpd
  | vred => exact h.execVred
  | vredx => exact h.execVredx
  | vscan => exact h.execVscan
  | vmqnt => exact h.execVmqnt
  | vmdq => exact h.execVmdq
  | vscl => exact h.execVscl
  | vlqd => exact h.execVlqd
  | vpsn => exact h.execVpsn
  | vpid => exact h.execVpid
  | vprep => exact h.execVprep
  | jand => exact h.execJand
  | jor => exact h.execJor
  | jxor => exact h.execJxor
  | jnot => exact h.execJnot
  | jpopc => exact h.execJpopc
  | jffs => exact h.execJffs
  | lds => exact h.execLds
  | ldv => exact h.execLdv
  | ldvs => exact h.execLdvs
  | ldvg => exact h.execLdvg
  | ldvb => exact h.execLdvb
  | ldo => exact h.execLdo
  | ldc => exact h.execLdc
  | rfl => exact h.execRfl
  | markL => exact h.execMarkL
  | sts => exact h.execSts
  | stv => exact h.execStv
  | stvs => exact h.execStvs
  | stvx => exact h.execStvx
  | stc => exact h.execStc
  | spl => exact h.execSpl
  | markS => exact h.execMarkS
  | feno => exact h.execFeno
  | fenr => exact h.execFenr
  | fenq => exact h.execFenq
  | hset => exact h.execHset
  | hswp => exact h.execHswp
  | hrd => exact h.execHrd
  | mxrv => exact h.execMxrv
  | mxwv => exact h.execMxwv
  | mxla => exact h.execMxla
  | mxlb => exact h.execMxlb
  | mxmma => exact h.execMxmma
  | mxz => exact h.execMxz
  | mxprm => exact h.execMxprm
  | mxst => exact h.execMxst
  | mxspl => exact h.execMxspl
  | mxfil => exact h.execMxfil
  | mxgng => exact h.execMxgng
  | mxrp => exact h.execMxrp
  | xpop => exact h.execXpop
  | semw => exact h.execSemw
  | sems => exact h.execSems
  | semr => exact h.execSemr
  | semi => exact h.execSemi
  | bara => exact h.execBara
  | barb => exact h.execBarb
  | barw => exact h.execBarw
  | barq => exact h.execBarq
  | xcp => exact h.execXcp
  | xc2 => exact h.execXc2
  | xcg => exact h.execXcg
  | xaw => exact h.execXaw
  | xawr => exact h.execXawr
  | xcas => exact h.execXcas
  | xsig => exact h.execXsig
  | xhsh => exact h.execXhsh
  | xopn => exact h.execXopn
  | xsel => exact h.execXsel
  | xfil => exact h.execXfil
  | trap => exact h.execTrap
  | tret _ f => exact h.execTret (_f := f)
  | savc => exact h.execSavc
  | rstc => exact h.execRstc
  | rgstaPlc => exact h.execRgstaPlc
  | rgstaGo => exact h.execRgstaGo
  | rgstaRes => exact h.execRgstaRes
  | rgpre => exact h.execRgpre
  | rgfrzHold => exact h.execRgfrzHold
  | rgfrzRel => exact h.execRgfrzRel
  | rgmovMov => exact h.execRgmovMov
  | rgmovOut => exact h.execRgmovOut
  | rgretRel => exact h.execRgretRel
  | rgretAbt => exact h.execRgretAbt
  | rgretRd => exact h.execRgretRd
  | xinvAll => exact h.execXinvAll
  | xinvCtx => exact h.execXinvCtx
  | xinvObj => exact h.execXinvObj
  | xinvGfr => exact h.execXinvGfr
  | otwrWr => exact h.execOtwrWr
  | otwrRd => exact h.execOtwrRd
  | otwrFpop => exact h.execOtwrFpop
  | otwrFret => exact h.execOtwrFret
  | otwrFflt => exact h.execOtwrFflt
  | otwrFrm => exact h.execOtwrFrm
  | otwrGwr => exact h.execOtwrGwr
  | otwrFcp => exact h.execOtwrFcp
  | otwrQrd => exact h.execOtwrQrd
  | smapWr => exact h.execSmapWr
  | smapRd => exact h.execSmapRd
  | smapAdj => exact h.execSmapAdj
  | bmapBind => exact h.execBmapBind
  | bmapUnbind => exact h.execBmapUnbind
  | bmapRd => exact h.execBmapRd
  | bmapRst => exact h.execBmapRst
  | lnkcUp => exact h.execLnkcUp
  | lnkcDown => exact h.execLnkcDown
  | lnkcRkey => exact h.execLnkcRkey
  | lnkcAlgn => exact h.execLnkcAlgn
  | lnkcRun => exact h.execLnkcRun
  | lnkcQrl => exact h.execLnkcQrl
  | lnkcDrst => exact h.execLnkcDrst
  | lnkcDqrl => exact h.execLnkcDqrl
  | lnkqLnk => exact h.execLnkqLnk
  | lnkqDie => exact h.execLnkqDie
  | lnkqDom => exact h.execLnkqDom
  | measExt => exact h.execMeasExt
  | measRd => exact h.execMeasRd
  | measSha => exact h.execMeasSha
  | measNode => exact h.execMeasNode
  | rcpt => exact h.execRcpt
  | ksldLd => exact h.execKsldLd
  | ksldRes => exact h.execKsldRes
  | ksldEvc => exact h.execKsldEvc
  | ksldRd => exact h.execKsldRd
  | csigAlc => exact h.execCsigAlc
  | csigFre => exact h.execCsigFre
  | csigAdd => exact h.execCsigAdd
  | csigSet => exact h.execCsigSet
  | csigRd => exact h.execCsigRd
  | powerOn => exact h.execPowerOn
  | supplyInRegulation => exact h.execSupplyInRegulation
  | supplyLost => exact h.execSupplyLost
  | dieResetRelease => exact h.execDieResetRelease
  | dieMeasurementDone => exact h.execDieMeasurementDone
  | dieAdmissionCheckEnd => exact h.execDieAdmissionCheckEnd
  | dieWatchdog => exact h.execDieWatchdog
  | telemetrySample => exact h.execTelemetrySample
  | pwrMinTick => exact h.execPwrMinTick
  | telemetryFlashWrite => exact h.execTelemetryFlashWrite
  | snap => exact h.execSnap
  | snapshotComplete => exact h.execSnapshotComplete
  | telemetryUnsupportedAccess => exact h.execTelemetryUnsupportedAccess
  | mctpSnapshotRequest => exact h.execMctpSnapshotRequest
  | mctpTelemetryRead => exact h.execMctpTelemetryRead
  | leaseRenew => exact h.execLeaseRenew
  | leaseLapse => exact h.execLeaseLapse
  | stepwRelease => exact h.execStepwRelease
  | tilePartEnd => exact h.execTilePartEnd
  | fenrRequest => exact h.execFenrRequest
  | fenrAck => exact h.execFenrAck
  | dramAccessAtPort => exact h.execDramAccessAtPort
  | resultWriteback => exact h.execResultWriteback
  | tokenPushWaitEnd => exact h.execTokenPushWaitEnd
  | meCommandStart => exact h.execMeCommandStart
  | meCommandComplete => exact h.execMeCommandComplete
  | gangImageArrival => exact h.execGangImageArrival
  | xeCommandStart => exact h.execXeCommandStart
  | xeCommandComplete => exact h.execXeCommandComplete
  | xopnHeaderAtHub => exact h.execXopnHeaderAtHub
  | accumulateArrival => exact h.execAccumulateArrival
  | remoteIncrement => exact h.execRemoteIncrement
  | peerCommandArrival => exact h.execPeerCommandArrival
  | regionStepClose => exact h.execRegionStepClose
  | probeSend => exact h.execProbeSend
  | probeReceive => exact h.execProbeReceive
  | accumulateCloseTimeout => exact h.execAccumulateCloseTimeout
  | handlerTimeout => exact h.execHandlerTimeout
  | regionColumnStart => exact h.execRegionColumnStart
  | regionFreeze => exact h.execRegionFreeze
  | regionSaveComplete => exact h.execRegionSaveComplete
  | regionResumeStart => exact h.execRegionResumeStart
  | regionMoveComplete => exact h.execRegionMoveComplete
  | stepPeriodChange => exact h.execStepPeriodChange
  | invalidationComplete => exact h.execInvalidationComplete
  | translationWalkEnd => exact h.execTranslationWalkEnd
  | stallWireDrop => exact h.execStallWireDrop
  | dramUe => exact h.execDramUe
  | linkTrainingEnd => exact h.execLinkTrainingEnd
  | linkAttestEnd => exact h.execLinkAttestEnd
  | linkErrorBurst => exact h.execLinkErrorBurst
  | flitReceive => exact h.execFlitReceive
  | rolloverStart => exact h.execRolloverStart
  | rolloverAck => exact h.execRolloverAck
  | rolloverEnd => exact h.execRolloverEnd
  | domainStallRaise => exact h.execDomainStallRaise
  | domainStallDrop => exact h.execDomainStallDrop
  | hostLinkRetrain => exact h.execHostLinkRetrain
  | ideKeyRefresh => exact h.execIdeKeyRefresh
  | hostErrorCompletion => exact h.execHostErrorCompletion
  | ideKm => exact h.execIdeKm
  | tdispLock => exact h.execTdispLock
  | tdispRun => exact h.execTdispRun
  | tdispError => exact h.execTdispError
  | flr => exact h.execFlr
  | ksldCheckEnd => exact h.execKsldCheckEnd
  | doorbell => exact h.execDoorbell
  | queueEnable => exact h.execQueueEnable
  | queueDisable => exact h.execQueueDisable
  | queueSelect => exact h.execQueueSelect
  | timeSliceEnd => exact h.execTimeSliceEnd
  | launchPacket => exact h.execLaunchPacket
  | selectPacket => exact h.execSelectPacket
  | signalPacketWait => exact h.execSignalPacketWait
  | signalPacketAdd => exact h.execSignalPacketAdd
  | signalPacketSet => exact h.execSignalPacketSet
  | queueWaitEnd => exact h.execQueueWaitEnd
  | packetComplete => exact h.execPacketComplete
  | signalOperation => exact h.execSignalOperation
  | swcmd => exact h.execSwcmd
  | unbar => exact h.execUnbar
  | glimWrite => exact h.execGlimWrite
  | contextBind => exact h.execContextBind
  | contextUnbind => exact h.execContextUnbind
  | scrub => exact h.execScrub
  | scrubComplete => exact h.execScrubComplete
  | ctxenSet => exact h.execCtxenSet
  | ctxenClear => exact h.execCtxenClear
  | plheadWrite => exact h.execPlheadWrite
  | s2go => exact h.execS2go
  | guarWrite => exact h.execGuarWrite
  | burstWrite => exact h.execBurstWrite
  | partitionWrite => exact h.execPartitionWrite
  | powerCapWrite => exact h.execPowerCapWrite
  | peerEntryWrite => exact h.execPeerEntryWrite
  | peeridWrite => exact h.execPeeridWrite
  | ksvf => exact h.execKsvf
  | keySlotLoad => exact h.execKeySlotLoad
  | keySlotClr => exact h.execKeySlotClr
  | registerWrite => exact h.execRegisterWrite
  | remoteInvalidation => exact h.execRemoteInvalidation
  | peerFaultAnswer => exact h.execPeerFaultAnswer
  | peerPairConfirm => exact h.execPeerPairConfirm

/-! ### One tile's cycle -/

theorem State.canonical.issueOf {s : State} {k q : Nat} (h : s.canonical) : Out.canonical (s.issueOf k q) := by
  unfold State.issueOf
  split
  · exact h
  · split
    · exact h
    · exact State.canonical.exec h.atEntry

theorem State.canonical.takeSems {s : State} {k : Nat} {o : SemOp} (h : s.canonical) : (s.takeSems k o).canonical :=
  (h.setTile (h.tile _).setCount).trapTile

theorem State.canonical.fetchTile {s : State} {k : Nat} {second : Bool} (h : s.canonical) : Out.canonical (s.fetchTile k second) := by
  unfold State.fetchTile
  refine Out.canonical.ite h (Out.canonical.ite h ?_)
  cases s.front k with
  | hold => exact h
  | wait _ _ => exact h
  | trap x => exact h.feTrap
  | run i w0 w1 => exact State.canonical.exec h.handle
  | queue i w0 w1 => exact h.dispatch

theorem State.canonical.feTurn {s : State} {k : Nat} {second : Bool} (h : s.canonical) : Out.canonical (s.feTurn k second) :=
  h.execStepwRelease.andThen fun _ h => h.fetchTile

theorem State.canonical.trial {s : State} {k : Nat} (h : s.canonical) : Out.canonical (s.trial k) := by
  unfold State.trial
  split
  · exact h
  · split
    · exact h
    · exact h.issueOf
    · exact h.takeSems
    · exact .ite h.takeSems h.issueOf

theorem State.canonical.fetchSorrel {s : State} {d : Nat} {first : Bool} (h : s.canonical) : Out.canonical (s.fetchSorrel d first) := by
  unfold State.fetchSorrel
  have hrun := fun {i : Instr} {pc w0 w1 : Nat} => State.canonical.exec (i := i)
    (State.canonical.atWord (a := .sorrel d) (pc := pc) (w0 := w0) (w1 := w1) (seq := 0)
      (State.canonical.ite (c := first = true) (s := { s with agenda := s.agenda.erase (.fetch true d false) }) (t := s) h h))
  refine Out.canonical.ite h ?_
  cases s.frontS d with
  | hold => exact h
  | wait _ _ => exact h
  | trap x => exact State.canonical.ite h h.trapSorrel
  | run i w0 w1 => exact Out.canonical.ite h hrun
  | queue i w0 w1 => exact Out.canonical.ite h hrun

theorem State.canonical.winStep {s : State} (h : s.canonical) : s.winStep.canonical := by
  unfold State.winStep
  dsimp only
  split
  · exact h
  · split
    · exact h.setCore.spillUnit
    · exact h.setCore.spillUnit.setCore
    · exact h.setCore
    · exact .ite h.setCore.setCore (h.setCore.setMyTile (h.setCore.tile _))

theorem State.canonical.window {s : State} {k : Nat} (h : s.canonical) : (s.window k).canonical := .ite (h.frame (by rfl)).winStep h

theorem State.canonical.countCycle {s : State} {k : Nat} (h : s.canonical) : (s.countCycle k).canonical :=
  .ite (h.withTile (by rfl)).stallMod (h.withTile (by rfl))

theorem State.canonical.endTile {s : State} {k : Nat} (h : s.canonical) : Out.canonical (s.endTile k) :=
  .ite (h.execResultWriteback.andThen fun _ h => h.fenceCheck.applySemops.execTokenPushWaitEnd.andThen fun _ h => h.countCycle)
    ((h.ite h.fenceCheck.applySemops).withTile (by rfl))

/-! ### What takes its time -/

theorem Tile.canonical.tick {t : Tile} (h : t.canonical) : t.tick.canonical := h

/-- What holds of the default and is kept by a map over the values holds of every entry. -/
theorem tget_map {α : Type} {P : α → Prop} {d : α} {g : Nat × α → Nat × α} {t : Tab α} {k : Nat} (hd : P d) (hkey : ∀ x, (g x).1 = x.1)
    (hval : ∀ x, P x.2 → P (g x).2) (ht : P (tget d t k)) : P (tget d (t.map g) k) := by
  induction t with
  | nil => exact hd
  | cons x t ih =>
    rw [List.map_cons]
    unfold tget at ht ⊢
    rw [hkey]
    split
    next hx => exact hval x (by simpa [hx] using ht)
    next hx => exact ih (by simpa [hx] using ht)

theorem State.canonical.timers {s : State} (h : s.canonical) : s.timers.canonical := by
  unfold State.timers
  split
  · exact h
  · have hticked := h.foldl (f := fun s k => s.setTile k (s.tile k).tick) (l := s.busyTiles) fun _ _ h => h.setTile (h.tile _).tick
    exact ⟨hticked.dram, hticked.hostMem, hticked.tile, hticked.pool,
      fun d => tget_map (P := Die.canonical) rfl (fun _ => rfl) (fun _ h => h.frame (by rfl)) (hticked.die d), hticked.region⟩

/-! ### The boundary of a domain step -/

theorem State.canonical.noteLate {s : State} {r : Nat} (h : s.canonical) : (s.noteLate r).canonical := h.foldl fun _ _ h => h.withTile (by rfl)

theorem State.canonical.boundaryOf {x : State × List Task} {r : Nat} (h : x.1.canonical) : (State.boundaryOf x r).1.canonical := by
  unfold State.boundaryOf
  dsimp only
  split
  · exact h
  · split
    · exact State.canonical.stallMod (State.canonical.noteLate h)
    · exact State.canonical.stallMod h

theorem State.canonical.coin {s : State} (h : s.canonical) : s.coin.2.canonical := h

theorem State.canonical.choose {s : State} {l : List DevEv} (h : s.canonical) : (choose l s).1.canonical := by
  induction l generalizing s with
  | nil => exact h
  | cons e l ih => exact ih h.coin

theorem State.canonical.events {s : State} (h : s.canonical) : s.events.canonical := by
  have hchecked := h.foldl (f := fun s r => s.checkDraining r.1) (l := s.regions) fun _ _ h => h.checkDraining
  unfold State.events
  generalize s.regions.foldl (fun s r => s.checkDraining r.1) s = u at hchecked
  extract_lets _ due H w r
  have hr : r.1.canonical := State.canonical.choose (hchecked.frame (by rfl))
  exact hr.frame (by rfl)

/-! ### The next step -/

theorem State.canonical.passStep {s : State} (h : s.canonical) : s.passStep.canonical := h

theorem State.canonical.adoptCount {s : State} {n : Int} (h : s.canonical) : (s.adoptCount n).canonical :=
  ⟨h.dram, h.hostMem, fun k => tget_map (P := Tile.canonical) Tile.canonical_empty (fun _ => rfl) (fun _ h => h.frame (by rfl)) (h.tile k),
    h.pool, h.die, fun r => tget_map (P := Region.canonical) rfl (fun _ => rfl) (fun _ h => (h.frame (by rfl)).ite h) (h.region r)⟩

theorem Region.canonical.begin {R : Region} (h : R.canonical) : R.begin.canonical := (h.frame (by rfl)).ite h

/-- The regions at the start of a step. -/
theorem State.canonical.beginAll {s : State} (h : s.canonical) :
    ({ s with regions := s.regions.map fun (r : Nat × Region) => (r.1, r.2.begin) } : State).canonical :=
  ⟨h.dram, h.hostMem, h.tile, h.pool, h.die,
    fun r => tget_map (P := Region.canonical) rfl (fun _ => rfl) (fun _ h => h.begin) (h.region r)⟩

theorem State.canonical.newStep {s : State} (h : s.canonical) : s.newStep.canonical := by
  have hpass := h.passStep
  unfold State.newStep
  dsimp only
  split
  · exact hpass
  · split
    · exact hpass
    · split
      · exact (State.canonical.adoptCount (hpass.frame (by rfl))).beginAll
      · exact State.canonical.beginAll (hpass.frame (by rfl))

/-! ### The tasks of a cycle -/

theorem State.canonical.packet {s : State} {c q : Nat} (h : s.canonical) : Out.canonical (s.packet c q) :=
  .ite h.execSelectPacket (.ite (.ite h.execSignalPacketAdd (.ite h.execSignalPacketSet h.execSignalPacketWait)) h.execLaunchPacket)

theorem State.canonical.sampleDies {s : State} (h : s.canonical) : Out.canonical s.sampleDies := (h.frame (by rfl)).execTelemetrySample

theorem State.canonical.devEvent {s : State} {e : DevEv} (h : s.canonical) : Out.canonical (s.devEvent e) := by
  cases e with
  | walkEnd => exact h.execTranslationWalkEnd
  | accAtPort => exact h.execDramAccessAtPort
  | fenrRequest => exact h.execFenrRequest
  | fenrAck => exact h.execFenrAck
  | meEnd => exact h.execMeCommandComplete
  | gangImage => exact h.execGangImageArrival
  | xeEnd => exact h.execXeCommandComplete
  | xopnAtHub => exact h.execXopnHeaderAtHub
  | awIn => exact h.execAccumulateArrival
  | remInc => exact h.execRemoteIncrement
  | invalEnd => exact h.execInvalidationComplete
  | partEnd => exact h.execTilePartEnd
  | handlerLimit => exact h.execHandlerTimeout
  | stepClose => exact h.execRegionStepClose
  | columnStart => exact h.execRegionColumnStart
  | resumeStart => exact h.execRegionResumeStart
  | freeze => exact h.execRegionFreeze
  | saveDone => exact h.execRegionSaveComplete
  | moveDone => exact h.execRegionMoveComplete
  | wireDrop => exact h.execStallWireDrop
  | awLimit => exact h.execAccumulateCloseTimeout
  | probeSend => exact h.execProbeSend
  | probe => exact h.execProbeReceive
  | queueSelect => exact h.execQueueSelect
  | sliceEnd => exact h.execTimeSliceEnd
  | packet => exact h.packet
  | waitEnd => exact h.execQueueWaitEnd
  | packetDone => exact h.execPacketComplete
  | sigOp => exact h.execSignalOperation
  | scrubDone => exact h.execScrubComplete
  | leaseRenew => exact h.execLeaseRenew
  | leaseLapse => exact h.execLeaseLapse
  | ksldEnd => exact h.execKsldCheckEnd
  | snapshotDone => exact h.execSnapshotComplete
  | minute => exact h.execPwrMinTick
  | flashWrite => exact h.execTelemetryFlashWrite
  | sample => exact h.sampleDies
  | opDone => exact h.opDone
  | giveBack => exact h.giveBack

theorem State.canonical.asDev {s : State} (h : s.canonical) : s.asDev.canonical := h

theorem State.canonical.endCycle {s : State} (h : s.canonical) : s.endCycle.canonical :=
  (h.settleAll.foldl (fun _ _ h1 => h1.checkDraining)).barAll.peerTurn.foldl fun _ _ h1 => h1.ite (h1.putLink.foldl (fun _ _ h2 => h2.send))

theorem State.canonical.runTask {s : State} {t : Task} (h : s.canonical) : Out.canonical (runTask t s) := by
  cases t with
  | timers => exact h.timers
  | trial k => exact h.trial
  | fetch sorrel k flag =>
    cases sorrel with
    | true => exact h.fetchSorrel
    | false => exact h.feTurn
  | issue k q => exact h.issueOf
  | engine k xe => exact Out.canonical.ite h.execXeCommandStart h.execMeCommandStart
  | window k => exact h.window
  | engineEnds k => exact h
  | arrive => exact h
  | endTile k => exact h.endTile
  | endSorrel d => exact (State.canonical.winStep (h.frame (by rfl))).setCore
  | endCycle => exact h.endCycle
  | host e => exact h.asDev.hostEvent
  | dev e => exact h.asDev.devEvent
  | boundary => exact State.canonical.foldl_fst (x := (s.settleAll, [])) h.settleAll fun _ _ h => State.canonical.boundaryOf h
  | events => exact h.events
  | newStep => exact h.newStep

/-! ### Outside agents -/

theorem State.canonical.apply {i : Input} {s : State} (h : s.canonical) : Out.canonical (Input.apply i s) := by
  cases i with
  | event => exact Out.canonical.ite (State.canonical.exec h.asDev) h
  | hostStore => exact h.hostWr
  | hostRead => exact h.send
  | winRead => exact h.winRead
  | dramCe => exact h.dramCe
  | flashBank => exact h.flashBank
  | flitSend => exact h.flitSend
  | flitAck => exact h.flitAck
  | flitLast => exact h.flitLast
  | driverStore => exact Out.canonical.ite trivial h.devWr
  | peerDomain => exact h.peerTells
  | peerRegion => exact h.peerRegion
  | peerStore => exact h.peerStore
  | peerSignal => exact h.peerSignal
  | peerArrival => exact h.peerArrival
  | peerClose => exact h.peerClose
  | peerOrigin => exact h.peerOrigin
  | peerOld => exact h.peerOld
  | peerAnswer => exact h.peerSigAnswer
  | peerLost => exact h.peerCmdLost
  | peerFault => exact h.peerFaulted
  | peerInvalidated => exact h.peerGone
  | peerUnpair => exact h.unpair

theorem State.canonical.between {s : State} (h : s.canonical) : Out.canonical s.between := by
  unfold State.between
  split
  · exact h
  · exact .ite (h.frame (by rfl)).apply h

/-! ### A single word to run -/

theorem State.canonical.step {s : State} (h : s.canonical) : Out.canonical (step s) := by
  unfold Machine.step
  split
  · exact (h.frame (by rfl)).runTask
  · exact h.between

end Sys2Proof.Machine
end

section
/-! The statements of 08_memory_order.md: the canonical form of the memories. -/

namespace Sys2Proof.Proofs
open Machine

/-- Settles O2: each operation of the machine keeps the form (the lemmas `State.canonical.f`), so the step does. -/
theorem stepKeepsCanonicalMemory : Obligations.StepKeepsCanonicalMemory := by
  intro s t hs hstep
  have hout : Out.canonical (step s) := hs.step
  rw [hstep] at hout
  exact hout

end Sys2Proof.Proofs
end

section
/-! SUPPORT. The key of an arrival is a linear order (08_memory_order.md R197), and the arrivals of a close are sorted by it. -/

namespace Sys2Proof.Machine

/-- The order of R197: launch, tile, command, element. -/
theorem Arrival.le_iff {a b : Arrival} : a.le b = true ↔ a.lseq < b.lseq ∨ a.lseq = b.lseq ∧ (a.tix < b.tix ∨ a.tix = b.tix ∧
    (a.seq < b.seq ∨ a.seq = b.seq ∧ a.elem ≤ b.elem)) := by
  unfold Arrival.le
  simp only [List.zip_cons_cons, List.zip_nil_left, List.find?_cons, List.find?_nil]
  by_cases hl : a.lseq = b.lseq
  · by_cases ht : a.tix = b.tix
    · by_cases hs : a.seq = b.seq
      · by_cases he : a.elem = b.elem
        · simp [hl, ht, hs, he]
        · simp [hl, ht, hs, bne_iff_ne.mpr he, Nat.lt_iff_le_and_ne, he]
      · simp [hl, ht, hs, bne_iff_ne.mpr hs]
    · simp [hl, ht, bne_iff_ne.mpr ht]
  · simp [hl, bne_iff_ne.mpr hl]

theorem Arrival.le_total {a b : Arrival} (h : a.le b = false) : b.le a = true := by
  rw [← Bool.not_eq_true, Arrival.le_iff] at h
  rw [Arrival.le_iff]
  omega

theorem Arrival.le_trans {a b c : Arrival} (hab : a.le b = true) (hbc : b.le c = true) : a.le c = true := by
  rw [Arrival.le_iff] at *
  omega

/-- The key of R197. -/
def Arrival.key (a : Arrival) : Nat × Nat × Nat × Nat := (a.lseq, a.tix, a.seq, a.elem)

theorem Arrival.key_eq_of_le {a b : Arrival} (hab : a.le b = true) (hba : b.le a = true) : a.key = b.key := by
  rw [Arrival.le_iff] at hab hba
  simp only [Arrival.key, Prod.mk.injEq]
  omega

/-- Two arrivals of distinct keys go in in either order. -/
theorem insArr_comm {a b : Arrival} (hkey : a.key ≠ b.key) (l : List Arrival) : insArr a (insArr b l) = insArr b (insArr a l) := by
  have hone : a.le b = true → b.le a = false := fun hab => Bool.eq_false_iff.mpr fun hba => hkey (Arrival.key_eq_of_le hab hba)
  induction l with
  | nil =>
    cases hab : a.le b with
    | true => simp [insArr, hab, hone hab]
    | false => simp [insArr, hab, Arrival.le_total hab]
  | cons c l ih =>
    cases hca : c.le a with
    | true =>
      cases hcb : c.le b with
      | true => simp [insArr, hca, hcb, ih]
      | false =>
        have hba := Arrival.le_trans (Arrival.le_total hcb) hca
        simp [insArr, hca, hcb, hba]
    | false =>
      cases hcb : c.le b with
      | true =>
        have hab := Arrival.le_trans (Arrival.le_total hca) hcb
        simp [insArr, hca, hcb, hab]
      | false =>
        cases hab : a.le b with
        | true => simp [insArr, hca, hcb, hab, hone hab]
        | false => simp [insArr, hca, hcb, hab, Arrival.le_total hab]

/-- Arrivals of distinct keys come to one order, whatever is put in after them. -/
theorem inOrder_append_perm {l m : List Arrival} (hperm : l.Perm m) (hkeys : (l.map Arrival.key).Nodup) (rest : List Arrival) :
    inOrder (l ++ rest) = inOrder (m ++ rest) := by
  have hsame : inOrder l = inOrder m := hperm.foldl_eq' (fun a ha b hb done => by
    by_cases hab : a = b
    · rw [hab]
    · exact insArr_comm (fun hkey => hab (List.inj_on_of_nodup_map hkeys ha hb hkey.symm)) done) []
  unfold inOrder at hsame ⊢
  rw [List.foldl_append, List.foldl_append, hsame]

theorem inOrder_perm_eq {l m : List Arrival} (hperm : l.Perm m) (hkeys : (l.map Arrival.key).Nodup) : inOrder l = inOrder m := by
  simpa using inOrder_append_perm hperm hkeys []

end Sys2Proof.Machine
end

section
/-! The statements of 08_memory_order.md: the arrivals of a close. -/

namespace Sys2Proof.Proofs
open Machine

/-- A close that takes every arrival there is. -/
theorem filter_arrivals_all {sel : Arrival → Bool} {l : List Arrival} (h : ∀ a ∈ l, sel a = true) :
    l.filter sel = l ∧ (l.filter fun a => !sel a) = [] :=
  ⟨List.filter_eq_self.mpr h, List.filter_eq_nil_iff.mpr fun a ha => by simp [h a ha]⟩

/-- Settles O3: both closes take all the arrivals, and sorting them by distinct keys gives one list. -/
theorem arrivalOrderDoesNotMatter : Obligations.ArrivalOrderDoesNotMatter := by
  intro s l m hperm hkeys
  refine ⟨fun r u hl => ?_, fun p n u z hl => ?_⟩
  · have hall : ∀ a ∈ l, (a.port.isNone && a.rgn == r && decide (a.due ≤ u)) = true := fun a ha => by
      obtain ⟨hport, hrgn, hdue⟩ := hl a ha
      simp [hport, hrgn, hdue]
    obtain ⟨hsel, hrest⟩ := filter_arrivals_all hall
    obtain ⟨hsel', hrest'⟩ := filter_arrivals_all fun a ha => hall a (hperm.mem_iff.mpr ha)
    unfold State.applyDue
    simp only [hsel, hrest, hsel', hrest']
    rw [show ({ s with arrivals := m } : State).peerArrs r u = ({ s with arrivals := l } : State).peerArrs r u from rfl,
      inOrder_append_perm hperm hkeys]
  · have hall : ∀ a ∈ l, (a.port == some p && a.lseq == n && decide (a.due ≤ u)) = true := fun a ha => by
      obtain ⟨hport, hlseq, hdue⟩ := hl a ha
      simp [hport, hlseq, hdue]
    obtain ⟨hsel, hrest⟩ := filter_arrivals_all hall
    obtain ⟨hsel', hrest'⟩ := filter_arrivals_all fun a ha => hall a (hperm.mem_iff.mpr ha)
    unfold State.peerClose
    simp only [hsel, hrest, hsel', hrest', inOrder_perm_eq hperm hkeys]

end Sys2Proof.Proofs
end

section
/-! SUPPORT. `Cap.Check` case by case (03_tile.md R83) and the checks of an access in lane order (08_memory_order.md R178). -/

namespace Sys2Proof.Machine

/-! ### The fields of a capability (Table 78) -/

theorem Cap.oid_eq (c : Cap) : c.oid = (c.bits.extractLsb' 104 24).toNat := by
  have := c.bits.isLt
  rw [BitVec.extractLsb'_toNat, Nat.shiftRight_eq_div_pow, Nat.mod_eq_of_lt (by omega), Cap.oid]

theorem Cap.cur_eq (c : Cap) : c.cur = (c.bits.extractLsb' 48 48).toNat := by
  rw [BitVec.extractLsb'_toNat, Nat.shiftRight_eq_div_pow, Cap.cur]

theorem Cap.exp_eq (c : Cap) : c.exp = (c.bits.extractLsb' 42 6).toNat := by
  rw [BitVec.extractLsb'_toNat, Nat.shiftRight_eq_div_pow, Cap.exp]

theorem Cap.lo_eq (c : Cap) : c.lo = (c.bits.extractLsb' 21 21).toNat * 2 ^ (c.bits.extractLsb' 42 6).toNat := by
  rw [← Cap.exp_eq, BitVec.extractLsb'_toNat, Nat.shiftRight_eq_div_pow, Cap.lo]

theorem Cap.hi_eq (c : Cap) : c.hi = (c.bits.extractLsb' 0 21).toNat * 2 ^ (c.bits.extractLsb' 42 6).toNat := by
  rw [← Cap.exp_eq, BitVec.extractLsb'_toNat, Nat.shiftRight_eq_div_pow, Nat.pow_zero, Nat.div_one, Cap.hi]

/-- Bit i of the rights. -/
theorem Cap.testBit_rights (c : Cap) {i : Nat} (hi : i < 8) : c.rights.testBit i = c.bits.getLsbD (96 + i) := by
  rw [Cap.rights, ← Nat.shiftRight_eq_div_pow, Nat.testBit_mod_two_pow, Nat.testBit_shiftRight, BitVec.testBit_toNat]
  simp [hi]

/-- A mask of rights is held when no right of it is missing. -/
theorem Cap.has_iff (c : Cap) {m : Nat} (hm : m < 2 ^ 8) :
    c.has m = true ↔ ¬ ∃ i, i < 8 ∧ m.testBit i = true ∧ c.bits.getLsbD (96 + i) = false := by
  rw [Cap.has, beq_iff_eq]
  constructor
  · rintro hand ⟨i, hi, hmi, hci⟩
    have hbit := congrArg (·.testBit i) hand
    simp [Nat.testBit_and, hmi, c.testBit_rights hi, hci] at hbit
  · intro hall
    refine Nat.eq_of_testBit_eq fun i => ?_
    rw [Nat.testBit_and]
    by_cases hmi : m.testBit i = true
    · have hi : i < 8 := by
        by_contra hge
        rw [Nat.testBit_lt_two_pow (lt_of_lt_of_le hm (Nat.pow_le_pow_right (by decide) (Nat.le_of_not_lt hge)))] at hmi
        cases hmi
      have hci : c.bits.getLsbD (96 + i) = true := by
        by_contra hci
        exact hall ⟨i, hi, hmi, Bool.eq_false_iff.mpr hci⟩
      rw [hmi, c.testBit_rights hi, hci, Bool.and_self]
    · rw [Bool.eq_false_iff.mpr hmi, Bool.false_and]

/-! ### `Cap.Check` (R83) -/

section
variable {c : Cap} {off : Int} {n m align : Nat}

theorem capCheck_null (hbits : c.bits = 0) (htag : c.tag = false) : capCheck c off n m align = .error cCAPNUL := by
  simp [capCheck, capNTR, hbits, htag]

theorem capCheck_untagged (hbits : c.bits ≠ 0) (htag : c.tag = false) : capCheck c off n m align = .error cCAPTAG := by
  have hnull : ¬ (c.bits = 0 ∧ c.tag = false) := fun hc => hbits hc.1
  rw [capCheck, capNTR, if_neg hnull, if_pos htag]

theorem capCheck_missing (htag : c.tag = true) (hm : c.has m = false) : capCheck c off n m align = .error cCAPRGT := by
  simp [capCheck, capNTR, htag, hm]

variable (htag : c.tag = true) (hm : c.has m = true)
include htag hm

theorem capCheck_outside (hout : ¬ (6 ≤ c.exp ∧ c.exp ≤ 40 ∧ (c.lo : Int) ≤ c.cur + off ∧ c.cur + off + n ≤ c.hi)) :
    capCheck c off n m align = .error cCAPBND := by
  have hbnd : c.exp < 6 ∨ 40 < c.exp ∨ (c.cur : Int) + off < c.lo ∨ (c.hi : Int) < c.cur + off + n := by omega
  simp [capCheck, capNTR, htag, hm, hbnd]

variable (hin : 6 ≤ c.exp ∧ c.exp ≤ 40 ∧ (c.lo : Int) ≤ c.cur + off ∧ c.cur + off + n ≤ c.hi)
include hin

theorem capCheck_misaligned (hal : ((c.cur : Int) + off) % align ≠ 0) : capCheck c off n m align = .error cALIGN := by
  have hbnd : ¬ (c.exp < 6 ∨ 40 < c.exp ∨ (c.cur : Int) + off < c.lo ∨ (c.hi : Int) < c.cur + off + n) := by omega
  have hntr : capNTR c m = .ok c.oid := by simp [capNTR, htag, hm]
  rw [capCheck, hntr]
  exact (if_neg hbnd).trans (if_pos hal)

theorem capCheck_met (hal : ((c.cur : Int) + off) % align = 0) : capCheck c off n m align = .ok (c.oid, ((c.cur : Int) + off).toNat) := by
  have hbnd : ¬ (c.exp < 6 ∨ 40 < c.exp ∨ (c.cur : Int) + off < c.lo ∨ (c.hi : Int) < c.cur + off + n) := by omega
  have hntr : capNTR c m = .ok c.oid := by simp [capNTR, htag, hm]
  rw [capCheck, hntr]
  exact (if_neg hbnd).trans (if_neg (not_not.mpr hal))

end

/-- The object and the offset of a check that is met; the offset is aligned. -/
theorem capCheck_ok {c : Cap} {off : Int} {n m align : Nat} {z : Nat × Nat} (h : capCheck c off n m align = .ok z) :
    z.1 = c.oid ∧ (z.2 : Int) = c.cur + off ∧ (z.2 : Int) % align = 0 := by
  unfold capCheck capNTR at h
  split at h
  · cases h
  next oid hoid =>
    split at hoid
    · cases hoid
    · split at hoid
      · cases hoid
      · split at hoid
        · cases hoid
        · cases hoid
          dsimp only at h
          split at h
          · cases h
          · split at h
            · cases h
            next hal =>
              cases h
              have hlo : (0 : Int) ≤ c.lo := Int.natCast_nonneg _
              have hadr : ((c.cur + off).toNat : Int) = c.cur + off := Int.toNat_of_nonneg (by omega)
              exact ⟨rfl, hadr, (congrArg (· % (align : Int)) hadr).trans (not_not.mp hal)⟩

/-! ### The checks of an access (R178) -/

section
variable {c : Cap} {n m align : Nat}

/-- Checks that are all met give the place of every lane, and the checks behind them decide. -/
theorem checkAll_append {l : List Chk} (hl : ∀ y ∈ l, y.pois = none ∧ ∃ z, capCheck c y.off n m align = .ok z) :
    ∃ q, checkAll c n m align l = .ok q ∧ q.map Prod.fst = l.map Chk.lane ∧ q.map (fun z => (z.2 : Int)) = l.map (fun y => (c.cur : Int) + y.off)
      ∧ ∀ r t, checkAll c n m align r = .error t → checkAll c n m align (l ++ r) = .error t := by
  induction l with
  | nil => exact ⟨[], rfl, rfl, rfl, fun _ _ h => h⟩
  | cons y l ih =>
    obtain ⟨⟨hpois, z, hz⟩, hrest⟩ := List.forall_mem_cons.mp hl
    obtain ⟨q, hq, hlanes, hplaces, hfail⟩ := ih hrest
    refine ⟨(y.lane, z.2) :: q, ?_, ?_, ?_, fun r t hr => ?_⟩
    · simp [checkAll, hpois, hz, hq]
    · simp [hlanes]
    · simp [hplaces, (capCheck_ok hz).2.1]
    · simp [checkAll, hpois, hz, hfail r t hr]

theorem checkAll_poisoned {x : Chk} {v : Nat} (hx : x.pois = some v) (r : List Chk) :
    checkAll c n m align (x :: r) = .error { cause := cPOISADR, val := v } := by
  simp [checkAll, hx]

theorem checkAll_failed {x : Chk} {e : Nat} (hx : x.pois = none) (he : capCheck c x.off n m align = .error e) (r : List Chk) :
    checkAll c n m align (x :: r) = .error { cause := e, val := (x.off % 2 ^ 64).toNat } := by
  simp [checkAll, hx, he, accTrap, wrapN]

end

/-! ### Words whose checks fail -/

theorem qWord_trap {s : State} {k : Nat} (hs : s.issues k) {h : Hdr} {body : State → QRes} {t : TrapInfo} (hb : body s = .trap s t) :
    qWord h s body = .next (s.take t) := by
  rw [qWord_issues hs, hb]

section
variable {s : State} {k : Nat} (hs : s.issues k) {h : Hdr} {t : TrapInfo}
include hs

theorem loadWord_trap {cp : BitVec 5} {n align : Nat} {chks : List Chk} {form : LoadForm}
    (hfail : checkAll (s.cur.snap.capP cp.toNat) n rtR align chks = .error t) : loadWord h s cp n align chks form = .next (s.take t) := by
  refine qWord_trap hs ?_
  dsimp only
  rw [hfail]

theorem vstoreWord_trap {cp : BitVec 5} {ds : BitVec 8} {n : Nat} {narrow : Bool} {chks : List Chk}
    (hfail : checkAll (s.cur.snap.capP cp.toNat) n rtW n chks = .error t) : vstoreWord h s cp ds n narrow chks = .next (s.take t) := by
  refine qWord_trap hs ?_
  dsimp only
  rw [hfail]

theorem execSts_trap {f : FmtM} (hfail : checkAll (s.cur.snap.capP f.cp.toNat) (szBytes f.sz) rtW (szBytes f.sz) (chkOne s f) = .error t) :
    execSts h f s = .next (s.take t) := by
  refine qWord_trap hs ?_
  dsimp only
  rw [hfail]

theorem execStc_trap {f : FmtM} (hfail : checkAll (s.cur.snap.capP f.cp.toNat) 16
    (if (s.cur.snap.cap (f.ds.toNat % 16)).tag then rtW + rtD else rtW) 16 (chkOne s f) = .error t) : execStc h f s = .next (s.take t) := by
  refine qWord_trap hs ?_
  dsimp only
  rw [hfail]

theorem execRfl_trap {f : FmtM} (hfail : recCheck s f rtR = .error t) : execRfl h f s = .next (s.take t) :=
  qWord_trap hs (by rw [hfail])

theorem execSpl_trap {f : FmtM} (hfail : recCheck s f rtW = .error t) : execSpl h f s = .next (s.take t) :=
  qWord_trap hs (by rw [hfail])

end

theorem recCheck_trap {s : State} {f : FmtM} {rights : Nat} {t : TrapInfo}
    (hfail : checkAll (s.cur.snap.capP f.cp.toNat) 272 rights 16 (chkOne s f) = .error t) : recCheck s f rights = .error t := by
  simp [recCheck, hfail]

/-- `spl` and `rfl` reach the tile's own scratchpad only. -/
theorem recCheck_other {s : State} {f : FmtM} {rights : Nat} {l : List (Nat × Nat)}
    (hmet : checkAll (s.cur.snap.capP f.cp.toNat) 272 rights 16 (chkOne s f) = .ok l) (hoid : (s.cur.snap.capP f.cp.toNat).oid ≠ oidScr) :
    recCheck s f rights = .error { cause := cCAPRGT, val := ((memOff s f).1 % 2 ^ 64).toNat } := by
  simp only [recCheck, hmet, hoid, if_false]
  rfl

end Sys2Proof.Machine
end

section
/-! The statements of 08_memory_order.md: accesses whose checks fail. -/

namespace Sys2Proof.Proofs
open Machine

/-- Settles O22: `Cap.Check` by its cases, the checks of an access by induction over the lanes, the words by their bodies. -/
theorem failedChecksTrap : Obligations.FailedChecksTrap := by
  refine ⟨?check, ?lanes, ?own, ?words⟩
  case check =>
    intro c off n m align _ hm e lo hi adr missing inside
    have hhas : c.has m = true ↔ ¬ missing := c.has_iff hm
    have hin : inside ↔ (6 ≤ c.exp ∧ c.exp ≤ 40 ∧ (c.lo : Int) ≤ c.cur + off ∧ (c.cur : Int) + off + n ≤ c.hi) := by
      rw [Cap.exp_eq, Cap.lo_eq, Cap.hi_eq, Cap.cur_eq]
    have hadr : adr = c.cur + off := by rw [Cap.cur_eq]
    refine ⟨capCheck_null, capCheck_untagged, fun htag hmiss => ?_, fun htag hmiss hout => ?_, fun htag hmiss hinside hal => ?_,
      fun htag hmiss hinside hal => ?_⟩
    · exact capCheck_missing htag (Bool.eq_false_iff.mpr fun hc => hhas.mp hc hmiss)
    · exact capCheck_outside htag (hhas.mpr hmiss) fun hc => hout (hin.mpr hc)
    · exact capCheck_misaligned htag (hhas.mpr hmiss) (hin.mp hinside) (hadr ▸ hal)
    · have hmet := capCheck_met htag (hhas.mpr hmiss) (hin.mp hinside) (hadr ▸ hal)
      refine ⟨_, ?_, c.oid_eq ▸ hmet⟩
      rw [hadr]
      exact (capCheck_ok hmet).2.1
  case lanes =>
    intro c n m align l r x hl
    obtain ⟨q, hq, hlanes, hplaces, hfail⟩ := checkAll_append hl
    exact ⟨⟨q, hq, hlanes, hplaces⟩, fun v hv => hfail _ _ (checkAll_poisoned hv r), fun e hx he => hfail _ _ (checkAll_failed hx he r)⟩
  case own =>
    intro h f s k hs c other
    exact ⟨fun l hl hoid => execRfl_trap hs (recCheck_other hl hoid), fun l hl hoid => execSpl_trap hs (recCheck_other hl hoid)⟩
  case words =>
    intro h f g s k t hs c cg n fails
    exact ⟨fun hf => loadWord_trap hs hf, fun hf => loadWord_trap hs hf, fun hf => loadWord_trap hs hf, fun hf => loadWord_trap hs hf,
      fun hf => loadWord_trap hs hf, fun hf => loadWord_trap hs hf, fun hf => loadWord_trap hs hf,
      fun hf => execRfl_trap hs (recCheck_trap hf), fun hf => execStc_trap hs hf, fun hf => execSts_trap hs hf,
      fun hf => vstoreWord_trap hs hf, fun hf => vstoreWord_trap hs hf, fun hf => vstoreWord_trap hs hf,
      fun hf => execSpl_trap hs (recCheck_trap hf)⟩

end Sys2Proof.Proofs
end

section
/-! SUPPORT. The issue of marks and fences (08_memory_order.md R190 to R193). -/

namespace Sys2Proof.Machine

/-! ### A word that completes as it issues -/

@[simp] theorem Tile.headIssued_fence (t : Tile) (h : Hdr) (q seq : Nat) : (t.headIssued h q seq).fence = t.fence := by
  rw [Tile.headIssued_frame]

/-- The pushes of a word of queue q that completes as it issues (R62, R63). -/
def donePushes (h : Hdr) (q seq : Nat) : List (Nat × Nat) :=
  (if h.pshl then [(seq, pushLeft q)] else []) ++ if h.pshr then [(seq, pushRight q)] else []

/-- A word that completes as it issues: its head has issued, and its pushes are among those of the cycle. -/
theorem pushDone_issueHead {s : State} {k : Nat} (hs : s.byTile k) (h : Hdr) :
    pushDone h (issueHead h s) = s.setTile k { (s.tile k).headIssued h s.cur.q s.cur.seq with
      pushnow := ((s.tile k).headIssued h s.cur.q s.cur.seq).pushnow ++ donePushes h s.cur.q s.cur.seq } := by
  have hme : (s.setTile k ((s.tile k).headIssued h s.cur.q s.cur.seq)).me = k := State.me_tile hs
  rw [issueHead_eq hs, pushDone]
  simp only [State.setMyTile, State.myTile, hme, State.tile_setTile_self, State.setTile_setTile_self, State.setTile_cur]
  rfl

/-- What its queue is left with. -/
theorem pushDone_issueHead_queue_self {s : State} {k q : Nat} (hs : s.byTile k) (h : Hdr) (hq : s.cur.q = q) :
    ((pushDone h (issueHead h s)).tile k).queue q = ((s.tile k).queue q).drop 1 := by
  subst hq
  rw [pushDone_issueHead hs, State.tile_setTile_self]
  exact Tile.headIssued_queue_self _ _ _ s.cur.seq

/-- The other queues are as they were. -/
theorem pushDone_issueHead_queue_ne {s : State} {k p : Nat} (hs : s.byTile k) (h : Hdr) (hp : 1 ≤ p ∧ p ≤ 3) (hq : 1 ≤ s.cur.q ∧ s.cur.q ≤ 3)
    (hne : p ≠ s.cur.q) : ((pushDone h (issueHead h s)).tile k).queue p = (s.tile k).queue p := by
  rw [pushDone_issueHead hs, State.tile_setTile_self]
  exact Tile.headIssued_queue_ne _ _ s.cur.seq hp hq hne

/-! ### A queued word by what its body answers -/

theorem qWord_done {s s' : State} {k : Nat} (hs : s.issues k) {h : Hdr} {body : State → QRes} (hb : body s = .done s') :
    qWord h s body = .next (pushDone h (issueHead h s')) := by
  rw [qWord_issues hs, hb]

theorem qWord_held {s s' : State} {k : Nat} (hs : s.issues k) {h : Hdr} {body : State → QRes} (hb : body s = .held s') :
    qWord h s body = .next (issueHead h s') := by
  rw [qWord_issues hs, hb]

/-- A fence that the issue of its word leaves. -/
theorem issueHead_fence {s : State} {k : Nat} (hs : s.byTile k) (h : Hdr) (T : Tile) :
    ((issueHead h (s.setTile k T)).tile k).fence = T.fence := by
  rw [issueHead_eq (k := k) (s := s.setTile k T) hs, State.tile_setTile_self, Tile.headIssued_fence, State.tile_setTile_self]

/-! ### Marks -/

theorem Tile.headNow_of_head {t : Tile} {q : Nat} {e : QEntry} {l : List QEntry} (hq : t.queue q = e :: l) (hidle : q ∉ t.issued) :
    t.headNow q = some e := by
  simp [Tile.headNow, hq, hidle]

theorem Tile.canIssue_idle {t : Tile} {q : Nat} (h : t.canIssue q = true) : q ∉ t.issued := by
  unfold Tile.canIssue at h
  split at h
  · cases h
  · simp only [Bool.and_eq_true, Bool.not_eq_true', List.contains_eq_mem, decide_eq_false_iff_not] at h
    exact h.1.1.1.1.1

/-- A pair of marks that fits to issue, p in its own queue and o in its partner's: both leave their queues (R190). -/
theorem markWord_pair {s : State} {k p o : Nat} (hs : s.issues k) (h : Hdr) {f : FmtF} {e : QEntry} {l : List QEntry} (hp : s.cur.q = p)
    (hpo : p = 1 ∧ o = 3 ∨ p = 3 ∧ o = 1) (hq : (s.tile k).queue o = e :: l) (hmark : markOf o e.instr = some f.mkn)
    (hself : (s.tile k).canIssue p = true) (hother : (s.tile k).canIssue o = true) :
    ∃ u, markWord h f s = .next u ∧ (u.tile k).queue o = l ∧ (u.tile k).queue p = ((s.tile k).queue p).drop 1 := by
  obtain ⟨htile, -⟩ := hs
  have hme : s.myTile = s.tile k := by rw [State.myTile, State.me_tile htile]
  have ho : (if p = 1 then 3 else 1) = o := by obtain ⟨rfl, rfl⟩ | ⟨rfl, rfl⟩ := hpo <;> rfl
  have hhead := Tile.headNow_of_head hq (Tile.canIssue_idle hother)
  have hrp : 1 ≤ p ∧ p ≤ 3 := by omega
  have hro : 1 ≤ o ∧ o ≤ 3 := by omega
  have hne : o ≠ p := by omega
  have hfirst : ((pushDone h (issueHead h s)).tile k).queue p = ((s.tile k).queue p).drop 1 := pushDone_issueHead_queue_self htile h hp
  have hkept : ((pushDone h (issueHead h s)).tile k).queue o = (s.tile k).queue o := pushDone_issueHead_queue_ne htile h hro (hp ▸ hrp) (hp ▸ hne)
  have hcur : (pushDone h (issueHead h s)).cur = s.cur := rfl
  let v : State := { pushDone h (issueHead h s) with cur := { s.cur with q := o, pc := e.pc, w0 := e.w0, w1 := e.w1, seq := e.seq } }
  refine ⟨{ pushDone (hdrOf e.w0) (issueHead (hdrOf e.w0) v) with cur := s.cur }, ?_, ?_, ?_⟩
  · simp only [markWord, State.onSorrel_tile htile, hme, hp, ho, hhead, hmark, hself, hother, ne_eq, not_true_eq_false, Bool.false_eq_true,
      Bool.and_self, if_true, if_false, hcur]
    rfl
  · have := pushDone_issueHead_queue_self (s := v) (k := k) (q := o) htile (hdrOf e.w0) rfl
    exact this.trans (by rw [show (v.tile k).queue o = _ from hkept, hq]; rfl)
  · have := pushDone_issueHead_queue_ne (s := v) (k := k) (p := p) htile (hdrOf e.w0) hrp hro hne.symm
    exact this.trans hfirst

end Sys2Proof.Machine
end

section
/-! The statements of 08_memory_order.md: marks and fences. -/

namespace Sys2Proof.Proofs
open Machine

/-- Settles O25: a pair of marks by its two issues, a mismatch by the clash of the heads, the fences by their words. -/
theorem marksAndFences : Obligations.MarksAndFences := by
  intro h f s k hs t R
  have htile : s.byTile k := hs.1
  have hme : s.me = k := State.me_tile htile
  have hmy : s.myTile = s.tile k := by rw [State.myTile, hme]
  refine ⟨?pairL, ?pairS, ?clash, ?feno, ?fenr, ?outside, ?idle, ?waits⟩
  case pairL =>
    intro e g l ho hcur hsq hinstr hg h1 h3
    exact markWord_pair hs h hcur (.inl ⟨rfl, rfl⟩) hsq (by rw [hinstr]; exact congrArg some hg) h1 h3
  case pairS =>
    intro e g l ho hcur hlq hinstr hg h1 h3
    exact markWord_pair hs h hcur (.inr ⟨rfl, rfl⟩) hlq (by rw [hinstr]; exact congrArg some hg) h3 h1
  case clash =>
    intro a b la lb ha hb g hcur hlq hsq hia hib hg hda hdb h1 h3 hseq
    have hl : (s.tile k).headNow 1 = some a := Tile.headNow_of_head hlq h1
    have hr : (s.tile k).headNow 3 = some b := Tile.headNow_of_head hsq h3
    have hma : markOf 1 a.instr = some f.mkn := by rw [hia]; rfl
    have hmb : markOf 3 b.instr = some g.mkn := by rw [hib]; rfl
    have hclash : (s.tile k).markClash = some 1 := by
      simp only [Tile.markClash, hl, hr, hma, hmb, ne_eq, Ne.symm hg, not_false_eq_true, true_and, if_pos hseq]
      exact if_pos ⟨hda, hdb⟩
    show markWord h f s = _
    simp only [markWord, State.onSorrel_tile htile, hmy, hcur, hr, hmb, hclash, ne_eq, hg, not_false_eq_true, if_true, Bool.false_eq_true, if_false]
  case feno =>
    show execFeno h f s = _
    rw [execFeno, qWord_issues hs]
    simp only [State.setMyTile, hmy, hme, t]
  case fenr =>
    intro hin
    have hfits : ¬ (f.all = 0 ∧ R.w * R.h ≤ f.tix.toNat) := by
      rintro ⟨hall, hout⟩
      rcases hin with hone | hlt
      · rw [hall] at hone; exact absurd hone (by decide)
      · omega
    let x : Fence := ⟨true, f.scp.toNat, f.all == 1, t.dord, t.xseq, false, fenrOwners s f.scp.toNat (f.all == 1) f.tix.toNat, s.cur.seq, h.pshl,
      h.pshr, s.delay.1⟩
    refine ⟨issueHead h (s.delay.2.setTile k { t with fence := some x }), x, ?_, issueHead_fence (s := s.delay.2) htile h _, rfl, rfl, rfl, rfl⟩
    show execFenr h f s = _
    refine qWord_held hs ?_
    rw [hme, if_neg hfits]
    show QRes.held (s.delay.2.setTile s.me { s.tile s.me with fence := some ⟨true, f.scp.toNat, f.all == 1, (s.tile s.me).dord, (s.tile s.me).xseq, false,
      fenrOwners s f.scp.toNat (f.all == 1) f.tix.toNat, s.cur.seq, h.pshl, h.pshr, s.delay.1⟩ }) = _
    rw [hme]
  case outside =>
    intro hall hout
    show execFenr h f s = _
    refine qWord_trap hs ?_
    rw [hme, if_pos ⟨hall, hout⟩]
  case idle =>
    intro hstores hcopies
    show execFenq h f s = _
    refine qWord_done hs ?_
    have hidle : ((decide (f.scp = 0) || !s.myTile.storesBefore s.myTile.dord) && (!(f.all == 1) || !s.myTile.copiesBefore s.myTile.xseq)) = true := by
      rw [hmy]
      rcases hstores with hscp | hst <;> rcases hcopies with hall | hcp <;> simp [*, t]
    exact if_pos hidle
  case waits =>
    intro hscp hstores
    let x : Fence := ⟨false, f.scp.toNat, f.all == 1, t.dord, t.xseq, false, [], s.cur.seq, h.pshl, h.pshr, 0⟩
    refine ⟨issueHead h (s.setTile k { t with fence := some x }), x, ?_, issueHead_fence htile h _, rfl, rfl⟩
    show execFenq h f s = _
    refine qWord_held hs ?_
    have hwaits : ((decide (f.scp = 0) || !s.myTile.storesBefore s.myTile.dord) && (!(f.all == 1) || !s.myTile.copiesBefore s.myTile.xseq)) = false := by
      rw [hmy, decide_eq_false hscp, show (s.tile k).storesBefore (s.tile k).dord = true from hstores]
      rfl
    refine (if_neg (Bool.eq_false_iff.mp hwaits)).trans ?_
    show QRes.held (s.setTile s.me { s.myTile with fence := some ⟨false, f.scp.toNat, f.all == 1, s.myTile.dord, s.myTile.xseq, false, [],
      s.cur.seq, h.pshl, h.pshr, 0⟩ }) = _
    rw [hmy, hme]

end Sys2Proof.Proofs
end

section
/-! SUPPORT. What loads take: samples of memory without errors, the destinations of their bytes, and the issue of a load (08_memory_order.md R180,
R182, R185, R187). -/

namespace Sys2Proof.Machine

/-! ### Samples -/

/-- No byte of a memory is in error. -/
def State.clean (s : State) (sp : Space) : Prop := ∀ a n, s.ueIn sp a n = []

theorem State.clean_scr {s : State} {k : Nat} (h : (s.tile k).scrUE = []) : s.clean (.scr k) := fun a n => by simp [State.ueIn, h]
theorem State.clean_pool {s : State} {c : Nat} (h : (s.pool c).ue = []) : s.clean (.pool c) := fun a n => by simp [State.ueIn, h]
theorem State.clean_dram {s : State} (h : s.dramUE = []) : s.clean .dram := fun a n => by simp [State.ueIn, h]

theorem State.ueOf_clean {s : State} {sp : Space} (h : s.clean sp) (rs : List (Nat × Nat × Nat)) : s.ueOf sp rs = [] := by
  have hnil : (rs.flatMap fun r => (s.ueIn sp r.2.1 r.2.2).map fun g => (r.1 + g * sp.gran - r.2.1, g)) = [] :=
    List.flatMap_eq_nil_iff.mpr fun r _ => by rw [h r.2.1 r.2.2, List.map_nil]
  rw [State.ueOf, hnil, List.foldl_nil]

/-- What a lane of a load gets of a range at `a` of a memory without errors. -/
def State.got (s : State) (sp : Space) (lane a n : Nat) : Got := ⟨lane, s.rd sp a n, none, s.tagAt sp a⟩

/-- A sample of one range for each lane. -/
theorem State.sample_clean {α : Type} {s : State} {sp : Space} (h : s.clean sp) (o : OrgAt) (lane off adr len : α → Nat) (l : List α) :
    s.sample sp o (l.map fun x => (lane x, [(off x, adr x, len x)])) = (s, l.map fun x => s.got sp (lane x) (adr x) (len x)) := by
  simp [State.sample, State.ueOf_clean h, State.mkUE, ueId, mergeId, State.got]

@[simp] theorem State.rd_length (s : State) (sp : Space) (a n : Nat) : (s.rd sp a n).length = n := by
  cases sp <;> simp [State.rd, mread]

/-! ### Destinations -/

theorem Got.find?_lane {l : List Got} (hlanes : (l.map Got.lane).Nodup) {g : Got} (hg : g ∈ l) : l.find? (·.lane == g.lane) = some g := by
  induction l with
  | nil => cases hg
  | cons x l ih =>
    rw [List.map_cons, List.nodup_cons] at hlanes
    obtain ⟨hx, hlanes⟩ := hlanes
    rcases List.mem_cons.mp hg with rfl | hg
    · simp
    · have hne : ¬ x.lane = g.lane := fun he => hx (he ▸ List.mem_map_of_mem hg)
      simp [hne, ih hlanes hg]

/-- Each lane of a vector load takes its own bytes. -/
theorem loadDest_vec {l : List Got} (hlanes : (l.map Got.lane).Nodup) (r : Nat) (act : BitVec 64) :
    ∃ v, loadDest (.vec r act) l = [.vec r v act] ∧ ∀ g ∈ l, g.lane < 64 → g.id = none →
      v.at g.lane = ⟨BitVec.ofNat 32 (leVal g.bytes), false⟩ := by
  refine ⟨_, rfl, fun g hg hlane hid => ?_⟩
  rw [mkVec_at _ hlane, Got.find?_lane hlanes hg]
  simp [gotLane, hid]

theorem leVal_lt (bs : List Byte) : leVal bs < 256 ^ bs.length := by
  induction bs with
  | nil => simp [leVal]
  | cons b bs ih =>
    have := b.isLt
    rw [leVal, List.length_cons, Nat.pow_succ]
    omega

theorem leVal_take_drop (bs : List Byte) (m : Nat) : leVal bs = leVal (bs.take m) + 256 ^ m * leVal (bs.drop m) := by
  induction m generalizing bs with
  | zero => simp [leVal]
  | succ m ih =>
    cases bs with
    | nil => simp [leVal]
    | cons b bs =>
      rw [List.take_succ_cons, List.drop_succ_cons, leVal, leVal, ih bs, Nat.pow_succ]
      ring

theorem leVal_take_lt (bs : List Byte) (m : Nat) : leVal (bs.take m) < 256 ^ m :=
  (leVal_lt _).trans_le (Nat.pow_le_pow_right (by decide) (List.length_take_le _ _))

/-- The bytes of a number from one place on, and up to one. -/
theorem leVal_drop (bs : List Byte) (m : Nat) : leVal bs / 256 ^ m = leVal (bs.drop m) := by
  rw [leVal_take_drop bs m, Nat.add_mul_div_left _ _ (by positivity), Nat.div_eq_of_lt (leVal_take_lt bs m), Nat.zero_add]
theorem leVal_take (bs : List Byte) (m : Nat) : leVal bs % 256 ^ m = leVal (bs.take m) := by
  rw [leVal_take_drop bs m, Nat.add_mul_mod_self_left, Nat.mod_eq_of_lt (leVal_take_lt bs m)]

/-- A list of 1, 2 or 4 bytes repeated to 4 has it at each of its multiples. -/
theorem splat_take_drop {bs : List Byte} (hn : bs.length = 1 ∨ bs.length = 2 ∨ bs.length = 4) {e : Nat} (he : e < 4 / bs.length) :
    ((((List.replicate 4 bs).flatten).take 4).drop (bs.length * e)).take bs.length = bs := by
  obtain hn | hn | hn := hn
  · obtain ⟨a, rfl⟩ := List.length_eq_one_iff.mp hn
    have he' : e < 4 := by simpa using he
    interval_cases e <;> rfl
  · obtain ⟨a, b, rfl⟩ := List.length_eq_two.mp hn
    have he' : e < 2 := by simpa using he
    interval_cases e <;> rfl
  · rw [hn] at he
    obtain rfl : e = 0 := by omega
    rw [Nat.mul_zero, List.drop_zero, List.replicate_succ, List.flatten_cons, ← hn, List.take_left, List.take_length]

/-- The bytes of an element repeated to 32 bits. -/
theorem leVal_splat {bs : List Byte} (hn : bs.length = 1 ∨ bs.length = 2 ∨ bs.length = 4) {e : Nat} (he : e < 4 / bs.length) :
    leVal (((List.replicate 4 bs).flatten).take 4) % 2 ^ 32 / 2 ^ (8 * bs.length * e) % 2 ^ (8 * bs.length) = leVal bs := by
  have hpow (m : Nat) : 2 ^ (8 * m) = 256 ^ m := by rw [Nat.pow_mul]
  have hlt : leVal (((List.replicate 4 bs).flatten).take 4) < 2 ^ 32 := leVal_take_lt _ 4
  rw [Nat.mod_eq_of_lt hlt, Nat.mul_assoc, hpow, hpow, leVal_drop, leVal_take, splat_take_drop hn he]

/-- Every lane of a broadcast load has the element's bytes over and over. -/
theorem loadDest_splat {g : Got} (hid : g.id = none) (hn : g.bytes.length = 1 ∨ g.bytes.length = 2 ∨ g.bytes.length = 4) (r : Nat) (act : BitVec 64) :
    ∃ v, loadDest (.splat r act) [g] = [.vec r v act] ∧ ∀ i, i < 64 → (v.at i).tag = false ∧ ∀ e, e < 4 / g.bytes.length →
      (v.at i).bits.toNat / 2 ^ (8 * g.bytes.length * e) % 2 ^ (8 * g.bytes.length) = leVal g.bytes := by
  refine ⟨_, rfl, fun i hi => ?_⟩
  rw [mkVec_at _ hi]
  simp only [gotLane, hid, BitVec.toNat_ofNat]
  exact ⟨trivial, fun e he => leVal_splat hn he⟩

theorem loadDest_scal {g : Got} (hid : g.id = none) {ph : Nat} (hph : ph ≠ 0) (sgn : Bool) : loadDest (.scal ph sgn) [g] =
    [.scal ph ⟨if sgn then BitVec.ofInt 64 (sextN (8 * g.bytes.length) (leVal g.bytes)) else BitVec.ofNat 64 (leVal g.bytes), false⟩] := by
  simp [loadDest, hph, hid]

theorem loadDest_cap {g : Got} (hid : g.id = none) (n : Nat) (d : Bool) :
    loadDest (.cap n d) [g] = [.cap n ⟨BitVec.ofNat 128 (leVal g.bytes), g.tag && d⟩] := by
  simp [loadDest, hid]

/-- The lanes of a record, and their tags behind them (R185). -/
theorem loadDest_rec {l : List Got} {b : Nat → List Byte} (hl : ∀ i, i < 65 → ∃ g, l[i]? = some g ∧ g.id = none ∧ g.bytes = b i) (r : Nat) :
    ∃ v, loadDest (.rec_ r) l = [.vec r v (BitVec.allOnes 64)] ∧ ∀ j, j < 64 →
      v.at j = ⟨BitVec.ofNat 32 (leVal (b j)), bitN (leVal (b 64)) j⟩ := by
  refine ⟨_, rfl, fun j hj => ?_⟩
  obtain ⟨g, hg, hid, hb⟩ := hl j (by omega)
  obtain ⟨tg, htg, htid, htb⟩ := hl 64 (by omega)
  rw [mkVec_at _ hj]
  simp [List.getD_eq_getElem?_getD, hg, htg, hid, htid, hb, htb, mergeId]

/-- A register that a word names by a number other than 0 is not the first one. -/
theorem Core.phys_ne_zero (c : Core) {n : Nat} (hn : n ≠ 0) : c.phys n ≠ 0 := by
  unfold Core.phys
  split <;> omega

/-! ### The lanes of an access -/

theorem checkAll_lanes {c : Cap} {n m align : Nat} {l : List Chk} {q : List (Nat × Nat)} (h : checkAll c n m align l = .ok q) :
    q.map Prod.fst = l.map Chk.lane := by
  induction l generalizing q with
  | nil => cases h; rfl
  | cons y l ih =>
    unfold checkAll at h
    split at h
    · cases h
    · split at h
      · cases h
      · split at h
        next hrest => cases h; simp [ih hrest]
        · cases h

theorem lanesOf_lt {act : BitVec 64} {n : Nat} (h : n ∈ lanesOf act) : n < 64 := List.mem_range.mp (List.mem_filter.mp h).1
theorem lanesOf_rising (act : BitVec 64) : (lanesOf act).Pairwise (· < ·) := List.pairwise_lt_range.filter _

/-- Checks of lanes of a vector in rising order. -/
def lanewise (chks : List Chk) : Prop := (chks.map Chk.lane).Pairwise (· < ·) ∧ ∀ n ∈ chks.map Chk.lane, n < 64

theorem lanewise_map {act : BitVec 64} {chk : Nat → Chk} (h : ∀ n, (chk n).lane = n) : lanewise ((lanesOf act).map chk) := by
  have hmap : ((lanesOf act).map chk).map Chk.lane = lanesOf act := by simp [Function.comp_def, h]
  unfold lanewise
  rw [hmap]
  exact ⟨lanesOf_rising act, fun n hn => lanesOf_lt hn⟩

theorem lanewise_chkContig (s : State) (f : FmtM) : lanewise (chkContig s f) := lanewise_map fun _ => rfl
theorem lanewise_chkStride (s : State) (f : FmtM) : lanewise (chkStride s f) := lanewise_map fun _ => rfl
theorem lanewise_chkIdx (s : State) (f : FmtMG) : lanewise (chkIdx s f) := lanewise_map fun _ => rfl

/-! ### The issue of a load -/

section
variable {s : State} {k : Nat}

/-- With no access under way there is nothing to wait for. -/
theorem State.flushAcc_none (h : (s.tile k).dacc = []) (sel : DAcc → Bool) : s.flushAcc k sel = s := by
  simp [State.flushAcc, h]

variable (hs : s.issues k)
include hs

/-- The own SRAMs of the executing tile and their latencies (R179, Table 31). -/
theorem sramOf_own {o : Nat} {sp : Space} {lat : Nat} (h : (o, sp, lat) ∈ [(oidScr, Space.scr k, 10), (oidPool, .pool (clusterOf k), 26)]) :
    sramOf s o = some sp ∧ loadLat o = lat := by
  have hme : s.me = k := State.me_tile hs.1
  simp only [List.mem_cons, Prod.mk.injEq, List.not_mem_nil, or_false] at h
  obtain ⟨rfl, rfl, rfl⟩ | ⟨rfl, rfl, rfl⟩ := h
  · exact ⟨by simp [sramOf, hme], rfl⟩
  · exact ⟨by simp [sramOf, hme], rfl⟩

/-- A load from an SRAM without errors, with no access under way. -/
theorem sramLoad_clean {sp : Space} (hclean : s.clean sp) (hidle : (s.tile k).dacc = []) (oid lat : Nat) (l : List (Nat × Nat × Nat)) (form : LoadForm) :
    sramLoad s sp oid lat l form = .result s lat (loadDest form (l.map fun x => s.got sp x.1 x.2.1 x.2.2)) (loadY form) none := by
  have hme : s.me = k := State.me_tile hs.1
  have hflush : s.flushLoads s.me = s := by rw [hme]; exact State.flushAcc_none hidle _
  have hues : s.ueOf sp (l.map fun x => (x.2.1, x.2.1, x.2.2)) = [] := State.ueOf_clean hclean _
  have hsample := State.sample_clean hclean (s.orgL oid) (fun x : Nat × Nat × Nat => x.1) (fun x => x.2.1) (fun x => x.2.1) (fun x => x.2.2) l
  unfold sramLoad
  simp only [hflush, hues, ne_eq, not_true_eq_false, false_and, if_false, hsample]

/-- A queued word with some result issues. -/
theorem qWord_resultAny {h : Hdr} {body : State → QRes} {lat : Nat} (hb : ∃ s' dst y acc, body s = .result s' lat dst y acc) :
    ∃ s' dst y acc, qWord h s body = (.next (putDue h (issueHead h s') lat dst y acc) : Out) := by
  obtain ⟨s', dst, y, acc, hb⟩ := hb
  exact ⟨s', dst, y, acc, by rw [qWord_issues hs, hb]⟩

omit hs in
/-- A load from an SRAM gives a result with the latency of its object. -/
theorem sramLoad_result (s : State) (sp : Space) (oid lat : Nat) (l : List (Nat × Nat × Nat)) (form : LoadForm) :
    ∃ s' dst y acc, sramLoad s sp oid lat l form = .result s' lat dst y acc := by
  unfold sramLoad
  dsimp only
  split
  · exact ⟨_, _, _, _, rfl⟩
  · exact ⟨_, _, _, _, rfl⟩

theorem loadWord_sram {h : Hdr} {cp : BitVec 5} {n align : Nat} {chks : List Chk} {form : LoadForm} {sp : Space} {lat : Nat} {l : List (Nat × Nat)}
    (hown : sramOf s (s.cur.snap.capP cp.toNat).oid = some sp ∧ loadLat (s.cur.snap.capP cp.toNat).oid = lat)
    (hclean : s.clean sp) (hidle : (s.tile k).dacc = []) (hl : checkAll (s.cur.snap.capP cp.toNat) n rtR align chks = .ok l) :
    loadWord h s cp n align chks form = .next (s.issued h lat (loadDest form (l.map fun x => s.got sp x.1 x.2 n)) (loadY form)) := by
  obtain ⟨hsp, hlat⟩ := hown
  refine qWord_result hs ?_
  dsimp only
  rw [hl, hsp, hlat]
  dsimp only
  split
  next hnil => rw [hnil]; rfl
  · rw [sramLoad_clean hs hclean hidle, List.map_map]
    rfl

/-- Whatever it reaches, a load whose checks pass issues with the latency of its object. -/
theorem loadWord_issues {h : Hdr} {cp : BitVec 5} {n align : Nat} {chks : List Chk} {form : LoadForm} {l : List (Nat × Nat)}
    (hl : checkAll (s.cur.snap.capP cp.toNat) n rtR align chks = .ok l) : ∃ s' dst y acc,
    loadWord h s cp n align chks form = (.next (putDue h (issueHead h s') (loadLat (s.cur.snap.capP cp.toNat).oid) dst y acc) : Out) := by
  refine qWord_resultAny hs ?_
  dsimp only
  rw [hl]
  dsimp only
  split
  · exact ⟨_, _, _, _, rfl⟩
  · split
    · exact sramLoad_result ..
    · exact ⟨_, _, _, _, rfl⟩

/-! ### Loads from the tile's own SRAMs -/

section
variable {o lat : Nat} {sp : Space} (hown : sramOf s o = some sp ∧ loadLat o = lat) (hclean : s.clean sp) (hidle : (s.tile k).dacc = []) {h : Hdr}
  {cp : BitVec 5} (hoid : (s.cur.snap.capP cp.toNat).oid = o) {n align : Nat}
include hown hclean hidle hoid

theorem loadWord_vec {chks : List Chk} (hlw : lanewise chks) {l : List (Nat × Nat)} (hl : checkAll (s.cur.snap.capP cp.toNat) n rtR align chks = .ok l)
    (r : Nat) (act : BitVec 64) : ∃ v, loadWord h s cp n align chks (.vec r act) = .next (s.issued h lat [.vec r v act] (some (2, r)))
      ∧ ∀ x ∈ l, v.at x.1 = ⟨BitVec.ofNat 32 (leVal (s.rd sp x.2 n)), false⟩ := by
  obtain ⟨hrising, hlt⟩ := hlw
  have hnodup : (chks.map Chk.lane).Nodup := hrising.imp Nat.ne_of_lt
  have hlanes : (l.map fun x => s.got sp x.1 x.2 n).map Got.lane = chks.map Chk.lane := by
    rw [← checkAll_lanes hl, List.map_map]
    rfl
  obtain ⟨v, hv, hat⟩ := loadDest_vec (l := l.map fun x => s.got sp x.1 x.2 n) (hlanes ▸ hnodup) r act
  refine ⟨v, ?_, fun x hx => hat _ (List.mem_map_of_mem hx) (hlt _ ?_) rfl⟩
  · rw [loadWord_sram hs (hoid ▸ hown) hclean hidle hl, hv]
    rfl
  · rw [← checkAll_lanes hl]
    exact List.mem_map_of_mem hx

/-- A load of one place. -/
theorem loadWord_one {chks : List Chk} {x a : Nat} (hl : checkAll (s.cur.snap.capP cp.toNat) n rtR align chks = .ok [(x, a)]) (form : LoadForm) :
    loadWord h s cp n align chks form = .next (s.issued h lat (loadDest form [s.got sp x a n]) (loadY form)) :=
  loadWord_sram hs (hoid ▸ hown) hclean hidle hl

end

theorem execRfl_own (hclean : s.clean (.scr k)) (hidle : (s.tile k).dacc = []) {h : Hdr} {f : FmtM} (hoid : (s.cur.snap.capP f.cp.toNat).oid = oidScr)
    {x a : Nat} (hl : checkAll (s.cur.snap.capP f.cp.toNat) 272 rtR 16 (chkOne s f) = .ok [(x, a)]) :
    ∃ v, execRfl h f s = .next (s.issued h 10 [.vec f.ds.toNat v (BitVec.allOnes 64)] (some (2, f.ds.toNat))) ∧ ∀ j, j < 64 →
      v.at j = ⟨BitVec.ofNat 32 (leVal (s.rd (.scr k) (a + 4 * j) 4)), bitN (leVal (s.rd (.scr k) (a + 256) 16)) j⟩ := by
  have hme : s.me = k := State.me_tile hs.1
  have hcheck : recCheck s f rtR = .ok a := by simp [recCheck, hl, hoid]
  obtain ⟨v, hv, hat⟩ := loadDest_rec (b := fun i => s.rd (.scr k) (a + 4 * i) (if i < 64 then 4 else 16))
    (l := ((List.range 65).map fun i => (i, a + 4 * i, if i < 64 then 4 else 16)).map fun x => s.got (.scr k) x.1 x.2.1 x.2.2)
    (fun i hi => ⟨s.got (.scr k) i (a + 4 * i) (if i < 64 then 4 else 16), by simp [hi], rfl, rfl⟩) f.ds.toNat
  refine ⟨v, qWord_result hs ?_, fun j hj => ?_⟩
  · rw [hcheck]
    dsimp only
    rw [hme, sramLoad_clean hs hclean hidle, hv]
    rfl
  · simpa [hj] using hat j hj

/-! ### Loads that leave for DRAM (R187) -/

omit hs in
theorem sramOf_far {o : Nat} (hscr : o ≠ oidScr) (hpool : o ≠ oidPool) : sramOf s o = none ∧ loadLat o = 1024 := by
  simp [sramOf, loadLat, hscr, hpool]

/-- An access leaves for its port as the last of those under way, and changes no byte of DRAM. -/
theorem sendAcc_tile (write : Bool) (oid : Nat) (parts : List Part) (form : Option LoadForm) (ctag : Option Bool) :
    ∃ x, ((s.sendAcc write oid parts form ctag).tile k).dacc = (s.tile k).dacc ++ [x] ∧ (s.sendAcc write oid parts form ctag).dram = s.dram
      ∧ x.id = (s.tile k).dord ∧ x.write = write ∧ x.epoch = (s.tile k).depoch ∧ x.oid = oid ∧ x.parts = parts ∧ x.form = form ∧ x.ctag = ctag
      ∧ x.st = 0 ∧ x.ues = none := by
  have hme : s.delay.2.me = k := State.me_tile hs.1
  simp only [State.sendAcc, State.myTile, State.setMyTile, hme, State.tile_setTile_self]
  exact ⟨_, rfl, rfl, rfl, rfl, rfl, rfl, rfl, rfl, rfl, rfl, rfl⟩

theorem loadWord_sends {h : Hdr} {cp : BitVec 5} {n align : Nat} {chks : List Chk} {form : LoadForm} {l : List (Nat × Nat)}
    (hscr : (s.cur.snap.capP cp.toNat).oid ≠ oidScr) (hpool : (s.cur.snap.capP cp.toNat).oid ≠ oidPool)
    (hl : checkAll (s.cur.snap.capP cp.toNat) n rtR align chks = .ok l) (hne : l ≠ []) : ∃ s' x,
      loadWord h s cp n align chks form = (.next (putDue h (issueHead h s') 1024 [] (loadY form) (some x.id)) : Out)
        ∧ (s'.tile k).dacc = (s.tile k).dacc ++ [x] ∧ x.write = false ∧ x.oid = (s.cur.snap.capP cp.toNat).oid ∧ x.st = 0 ∧ x.ues = none
        ∧ x.form = some form ∧ x.parts = l.map (fun z => ⟨z.1, z.2, n, []⟩) ∧ s'.dram = s.dram := by
  obtain ⟨hsp, hlat⟩ := sramOf_far (s := s) hscr hpool
  obtain ⟨x, hdacc, hdram, hid, hwrite, -, hoid, hparts, hform, -, hst, hues⟩ :=
    sendAcc_tile hs false (s.cur.snap.capP cp.toNat).oid (l.map fun z => ⟨z.1, z.2, n, []⟩) (some form) none
  refine ⟨_, x, ?_, hdacc, hwrite, hoid, hst, hues, hform, hparts, hdram⟩
  have hme : s.me = k := State.me_tile hs.1
  rw [loadWord, qWord_issues hs]
  dsimp only
  rw [hl]
  dsimp only
  rw [if_neg hne, hsp, hlat, hid, State.myTile, hme]

end

/-! ### At the port (R187) -/

section
variable {s : State} {k : Nat} {a : DAcc}

theorem State.accPhys_reaches {d c oid : Nat} {adr : Part → Nat} {parts : List Part}
    (h : ∀ p ∈ parts, s.phys d c oid p.off p.n = .ok [(p.off, adr p, p.n)]) :
    s.accPhys d c oid parts = .ok (parts.map fun p => (p, [(p.off, adr p, p.n)])) := by
  induction parts with
  | nil => rfl
  | cons p l ih =>
    obtain ⟨hp, hl⟩ := List.forall_mem_cons.mp h
    simp [State.accPhys, hp, ih hl]

/-- The only access of a tile takes effect at its port when its ranges translate and no link is down. -/
theorem State.portAcc_reaches {adr : Part → Nat} (hdacc : (s.tile k).dacc = [a]) (hst : a.st = 0) (hues : a.ues = none)
    (hr : s.reaches k a.oid a.parts adr) :
    (s.portAcc k a.id).1 = s.performAcc k a (a.parts.map fun p => (p, [(p.off, adr p, p.n)])) := by
  obtain ⟨hphys, hpath⟩ := hr
  have htry : s.tryAcc k a = (s.performAcc k a (a.parts.map fun p => (p, [(p.off, adr p, p.n)])), true) := by
    have hranges : (a.parts.map fun p => (p, [(p.off, adr p, p.n)])).flatMap Prod.snd = a.parts.map fun p => (p.off, adr p, p.n) := by
      rw [List.flatMap_map, List.map_eq_flatMap]
    simp only [State.tryAcc, hst, hues, State.accPhys_reaches hphys, hranges, hpath, ne_eq, not_true_eq_false, if_false]
  simp [State.portAcc, hdacc, hst, State.accClosure, State.tryAccs, htry]

/-- A load that takes effect in DRAM without errors keeps its value. -/
theorem State.performAcc_load {adr : Part → Nat} {form : LoadForm} (hdacc : (s.tile k).dacc = [a]) (hwrite : a.write = false)
    (hform : a.form = some form) (hclean : s.clean .dram) :
    s.performAcc k a (a.parts.map fun p => (p, [(p.off, adr p, p.n)])) =
      s.setTile k { s.tile k with dacc := [{ a with st := 3, val := loadDest form (a.parts.map fun p => s.got .dram p.lane (adr p) p.n) }] } := by
  have hsample (o : OrgAt) := State.sample_clean hclean o Part.lane Part.off adr Part.n a.parts
  simp [State.performAcc, hwrite, hform, hdacc, List.map_map, Function.comp_def, hsample]

/-- A result whose access has sampled is written with its value (R69). -/
theorem landDue_sampled {x : Due} {y : DAcc} (hdue : (s.tile k).due = [x]) (hacc : x.acc = some y.id) (hdacc : (s.tile k).dacc = [y]) (hst : y.st = 3) :
    State.landDue k s x = s.setTile k (Tile.land { s.tile k with due := [], dacc := [] } x y.val) := by
  have hport : s.portAcc k y.id = (s, true) := by simp [State.portAcc, hdacc, hst]
  have hneed : s.needAcc k y.id = s := by simp [State.needAcc, hport, hdacc, hst]
  simp [State.landDue, hacc, hneed, hdacc, hst, hdue]

end

end Sys2Proof.Machine
end

section
/-! The statements of 08_memory_order.md: what loads give. -/

namespace Sys2Proof.Proofs
open Machine

/-- Settles O23: the samples of clean memories, through the destinations of each form; a DRAM load by the four steps of its access. -/
theorem loadWords : Obligations.LoadWords := by
  refine ⟨?own, ?issue, ?sends, ?port, ?written⟩
  case own =>
    intro h f g s k hs hscr hpool hidle o sp lat hmem c cg n ds rd vec
    have hown := sramOf_own hs hmem
    have hclean : s.clean sp := by
      simp only [List.mem_cons, Prod.mk.injEq, List.not_mem_nil, or_false] at hmem
      obtain ⟨-, rfl, -⟩ | ⟨-, rfl, -⟩ := hmem
      · exact State.clean_scr hscr
      · exact State.clean_pool hpool
    refine ⟨fun ho l hl => ?_, fun ho l hl => ?_, fun _ ho l hl => ?_, fun ho l hl => ?_, fun ho x a hl hds => ?_, fun ho x a hl => ?_,
      fun ho hsz x a hl => ?_, fun hscro ho x a hl => ?_⟩
    · exact loadWord_vec hs hown hclean hidle ho (lanewise_chkContig s f) hl ds _
    · exact loadWord_vec hs hown hclean hidle ho (lanewise_chkContig s f) hl ds _
    · exact loadWord_vec hs hown hclean hidle ho (lanewise_chkStride s f) hl ds _
    · exact loadWord_vec hs hown hclean hidle ho (lanewise_chkIdx s g) hl _ _
    · refine (loadWord_one hs hown hclean hidle ho hl _).trans ?_
      rw [if_neg hds, loadDest_scal rfl (Core.phys_ne_zero _ hds)]
      simp [State.got, loadY, rd, ds]
    · refine (loadWord_one hs hown hclean hidle ho hl _).trans ?_
      rw [loadDest_cap rfl]
      rfl
    · have hlen : (s.got sp x a n).bytes.length = n := State.rd_length ..
      have hn : n = 1 ∨ n = 2 ∨ n = 4 := by
        have : f.sz.toNat = 0 ∨ f.sz.toNat = 1 ∨ f.sz.toNat = 2 := by omega
        obtain h0 | h0 | h0 := this <;> simp [n, h0]
      obtain ⟨v, hv, hat⟩ := loadDest_splat (g := s.got sp x a n) rfl (hlen.symm ▸ hn) ds (actOf s f.mask)
      rw [hlen] at hat
      refine ⟨v, (loadWord_one hs hown hclean hidle ho hl _).trans ?_, hat⟩
      rw [hv]
      rfl
    · subst hscro
      obtain ⟨rfl, rfl⟩ : sp = .scr k ∧ lat = 10 := by simpa [oidScr, oidPool] using hmem
      exact execRfl_own hs hclean hidle ho hl
  case issue =>
    intro h f g s k hs c cg n issues
    exact ⟨fun l hl => loadWord_issues hs hl, fun l hl => loadWord_issues hs hl, fun l hl => loadWord_issues hs hl, fun l hl => loadWord_issues hs hl,
      fun l hl => loadWord_issues hs hl, fun l hl => loadWord_issues hs hl, fun l hl => loadWord_issues hs hl⟩
  case sends =>
    intro h f g s k hs c cg n ds sends
    exact ⟨fun h1 h2 l hl => loadWord_sends hs h1 h2 hl, fun h1 h2 l hl => loadWord_sends hs h1 h2 hl, fun h1 h2 l hl => loadWord_sends hs h1 h2 hl,
      fun h1 h2 l hl => loadWord_sends hs h1 h2 hl, fun h1 h2 l hl => loadWord_sends hs h1 h2 hl, fun h1 h2 l hl => loadWord_sends hs h1 h2 hl,
      fun h1 h2 l hl => loadWord_sends hs h1 h2 hl⟩
  case port =>
    intro s k j a form adr hdacc ha hform hr hue rd
    obtain ⟨hst, rfl, hwrite, hues⟩ : a.st = 0 ∧ a.id = j ∧ a.write = false ∧ a.ues = none := by simpa using ha
    have hexec : exec (.dramAccessAtPort k a.id) s = .next (s.portAcc k a.id).1 := rfl
    rw [State.portAcc_reaches hdacc hst hues hr, State.performAcc_load hdacc hwrite hform (State.clean_dram hue)] at hexec
    refine ⟨_, { a with st := 3, val := loadDest form (a.parts.map fun p => s.got .dram p.lane (adr p) p.n) }, hexec, rfl,
      by rw [State.tile_setTile_self], rfl, rfl, fun r act hf hnodup => ?_, fun ph sgn p hf hph hp => ?_, fun r act p hf hp hn => ?_, fun n d p hf hp => ?_⟩
    all_goals subst hf; dsimp only
    · obtain ⟨v, hv, hat⟩ := loadDest_vec (l := a.parts.map fun p => s.got .dram p.lane (adr p) p.n)
        (by rw [List.map_map]; exact hnodup) r act
      exact ⟨v, hv, fun p hp hlt => hat _ (List.mem_map_of_mem hp) hlt rfl⟩
    · have hlen : (s.got .dram p.lane (adr p) p.n).bytes.length = p.n := State.rd_length s .dram (adr p) p.n
      rw [hp, List.map_singleton, loadDest_scal rfl hph, hlen]
      rfl
    · rw [hp, List.map_singleton]
      have hlen : (s.got .dram p.lane (adr p) p.n).bytes.length = p.n := State.rd_length s .dram (adr p) p.n
      obtain ⟨v, hv, hat⟩ := loadDest_splat (g := s.got .dram p.lane (adr p) p.n) rfl (by rw [hlen]; simpa using hn) r act
      rw [hlen] at hat
      exact ⟨v, hv, hat⟩
    · rw [hp, List.map_singleton, loadDest_cap rfl]
      rfl
  case written =>
    intro s k x y t hdue hat hacc hdacc hst
    have hresults : ((t.due.filter fun d => d.at_ ≤ t.now).foldl (fun l d => insDue d l) []) = [x] := by simp [hdue, hat, insDue]
    show execResultWriteback k s = _
    rw [execResultWriteback, hresults, List.foldl_cons, List.foldl_nil, landDue_sampled hdue hacc hdacc hst]

end Sys2Proof.Proofs
end

section
/-! SUPPORT. What stores leave: the bytes and the tags of a memory after writes at a list of places, their poison, and the issue of a store
(08_memory_order.md R181, R182, R184, R185, R187). -/

namespace Sys2Proof.Machine

/-! ### The bytes and the tags of a memory -/

/-- The bytes of a memory. -/
def State.bytesOf (s : State) : Space → Memory
  | .scr k => (s.tile k).scr
  | .pool c => (s.pool c).mem
  | .dram => s.dram

/-- The granules of a memory that have a tag. -/
def State.tagsOf (s : State) : Space → List Nat
  | .scr k => (s.tile k).scrTag
  | .pool c => (s.pool c).tags
  | .dram => s.dramTag

theorem State.rd_eq (s : State) (sp : Space) (a n : Nat) : s.rd sp a n = mread (s.bytesOf sp) a n := by cases sp <;> rfl
theorem State.tagAt_eq (s : State) (sp : Space) (a : Nat) : s.tagAt sp a = (s.tagsOf sp).contains (a / 16) := by cases sp <;> rfl

/-- The memories but `sp` are as they were, and so is the word being executed. -/
structure onlySpace (sp : Space) (s t : State) : Prop where
  bytes : ∀ q, q ≠ sp → t.bytesOf q = s.bytesOf q
  slots : ∀ j, (t.tile j).slot0 = (s.tile j).slot0 ∧ (t.tile j).slot1 = (s.tile j).slot1
  host : t.hostMem = s.hostMem
  sram : ∀ d, (t.die d).sram = (s.die d).sram
  image : ∀ r, (t.region r).image = (s.region r).image
  cur : t.cur = s.cur

theorem onlySpace.trans {sp : Space} {s t u : State} (h : onlySpace sp s t) (g : onlySpace sp t u) : onlySpace sp s u where
  bytes q hq := (g.bytes q hq).trans (h.bytes q hq)
  slots j := ⟨(g.slots j).1.trans (h.slots j).1, (g.slots j).2.trans (h.slots j).2⟩
  host := g.host.trans h.host
  sram d := (g.sram d).trans (h.sram d)
  image r := (g.image r).trans (h.image r)
  cur := g.cur.trans h.cur

/-- A tile whose shadow slots stay: a store to its scratchpad, or to none. -/
theorem onlySpace_setTile {s : State} {k : Nat} {T : Tile} (h0 : T.slot0 = (s.tile k).slot0) (h1 : T.slot1 = (s.tile k).slot1) :
    onlySpace (.scr k) s (s.setTile k T) where
  bytes q hq := by
    cases q with
    | scr j => exact congrArg Tile.scr (State.tile_setTile_ne s T fun hj => hq (hj ▸ rfl))
    | pool _ => rfl
    | dram => rfl
  slots j := by
    by_cases hj : j = k
    · subst hj
      rw [State.tile_setTile_self]
      exact ⟨h0, h1⟩
    · rw [State.tile_setTile_ne s T hj]
      exact ⟨rfl, rfl⟩
  host := rfl
  sram _ := rfl
  image _ := rfl
  cur := rfl

theorem onlySpace_setPool {s : State} {c : Nat} {P : Pool} : onlySpace (.pool c) s (s.setPool c P) where
  bytes q hq := by
    cases q with
    | scr _ => rfl
    | pool j => exact congrArg Pool.mem (tget_tset_ne _ _ _ fun hj => hq (hj ▸ rfl))
    | dram => rfl
  slots _ := ⟨rfl, rfl⟩
  host := rfl
  sram _ := rfl
  image _ := rfl
  cur := rfl

theorem onlySpace_dram {s : State} {m : Memory} {tags ue : List Nat} : onlySpace .dram s { s with dram := m, dramTag := tags, dramUE := ue } where
  bytes q hq := by
    cases q with
    | scr _ => rfl
    | pool _ => rfl
    | dram => exact absurd rfl hq
  slots _ := ⟨rfl, rfl⟩
  host := rfl
  sram _ := rfl
  image _ := rfl
  cur := rfl

/-- Tile state beside the memories changes none of them. -/
theorem bytesOf_setTile {s : State} {k : Nat} {T : Tile} (h : T.scr = (s.tile k).scr) (sp : Space) : (s.setTile k T).bytesOf sp = s.bytesOf sp := by
  cases sp with
  | scr j =>
    by_cases hj : j = k
    · subst hj
      exact (congrArg Tile.scr (State.tile_setTile_self s j T)).trans h
    · exact congrArg Tile.scr (State.tile_setTile_ne s T hj)
  | pool _ => rfl
  | dram => rfl

theorem tagsOf_setTile {s : State} {k : Nat} {T : Tile} (h : T.scrTag = (s.tile k).scrTag) (sp : Space) :
    (s.setTile k T).tagsOf sp = s.tagsOf sp := by
  cases sp with
  | scr j =>
    by_cases hj : j = k
    · subst hj
      exact (congrArg Tile.scrTag (State.tile_setTile_self s j T)).trans h
    · exact congrArg Tile.scrTag (State.tile_setTile_ne s T hj)
  | pool _ => rfl
  | dram => rfl

theorem bytesOf_setPool {s : State} {c : Nat} {P : Pool} (h : P.mem = (s.pool c).mem) : (s.setPool c P).bytesOf (.pool c) = s.bytesOf (.pool c) :=
  (congrArg Pool.mem (State.pool_setPool_self s c P)).trans h

theorem tagsOf_setPool {s : State} {c : Nat} {P : Pool} (h : P.tags = (s.pool c).tags) : (s.setPool c P).tagsOf (.pool c) = s.tagsOf (.pool c) :=
  (congrArg Pool.tags (State.pool_setPool_self s c P)).trans h

/-! ### One write, and the marks behind it -/

section
variable (s : State) (sp : Space)

theorem State.wr_bytes (a : Nat) (bs : List Byte) : (s.wr sp a bs).bytesOf sp = mwrite (s.bytesOf sp) a bs := by
  cases sp with
  | scr k => exact congrArg Tile.scr (State.tile_setTile_self s k _)
  | pool c => exact congrArg Pool.mem (State.pool_setPool_self s c _)
  | dram => rfl

theorem State.wr_tags (a : Nat) (bs : List Byte) : (s.wr sp a bs).tagsOf sp = (granules a bs.length 16).foldl srem (s.tagsOf sp) := by
  cases sp with
  | scr k => exact congrArg Tile.scrTag (State.tile_setTile_self s k _)
  | pool c => exact congrArg Pool.tags (State.pool_setPool_self s c _)
  | dram => rfl

theorem State.wr_only (a : Nat) (bs : List Byte) : onlySpace sp s (s.wr sp a bs) := by
  cases sp with
  | scr k => exact onlySpace_setTile rfl rfl
  | pool c => exact onlySpace_setPool
  | dram => exact onlySpace_dram

theorem State.clearUE_bytes (rs : List (Nat × Nat)) : (s.clearUE sp rs).bytesOf sp = s.bytesOf sp := by
  cases sp with
  | scr k =>
    refine bytesOf_setTile ?_ _
    rfl
  | pool c => exact bytesOf_setPool rfl
  | dram => rfl

theorem State.clearUE_tags (rs : List (Nat × Nat)) : (s.clearUE sp rs).tagsOf sp = s.tagsOf sp := by
  cases sp with
  | scr k =>
    refine tagsOf_setTile ?_ _
    rfl
  | pool c => exact tagsOf_setPool rfl
  | dram => rfl

theorem State.clearUE_only (rs : List (Nat × Nat)) : onlySpace sp s (s.clearUE sp rs) := by
  cases sp with
  | scr k => exact onlySpace_setTile rfl rfl
  | pool c => exact onlySpace_setPool
  | dram => exact onlySpace_dram

theorem State.setTag_bytes (a : Nat) (b : Bool) : (s.setTag sp a b).bytesOf sp = s.bytesOf sp := by
  cases sp with
  | scr k =>
    refine bytesOf_setTile ?_ _
    rfl
  | pool c => exact bytesOf_setPool rfl
  | dram => rfl

theorem State.setTag_tags (a : Nat) (b : Bool) :
    (s.setTag sp a b).tagsOf sp = if b then sins (s.tagsOf sp) (a / 16) else srem (s.tagsOf sp) (a / 16) := by
  cases sp with
  | scr k => exact congrArg Tile.scrTag (State.tile_setTile_self s k _)
  | pool c => exact congrArg Pool.tags (State.pool_setPool_self s c _)
  | dram => rfl

theorem State.setTag_only (a : Nat) (b : Bool) : onlySpace sp s (s.setTag sp a b) := by
  cases sp with
  | scr k => exact onlySpace_setTile rfl rfl
  | pool c => exact onlySpace_setPool
  | dram => exact onlySpace_dram

end

/-! ### Several writes -/

/-- Bytes written at several places, in order. -/
def mwrites (m : Memory) (l : List (Nat × List Byte)) : Memory := l.foldl (fun m x => mwrite m x.1 x.2) m

/-- The granules that keep a tag after bytes are written at several places. -/
def untag (tags : List Nat) (l : List (Nat × List Byte)) : List Nat := l.foldl (fun g x => (granules x.1 x.2.length 16).foldl srem g) tags

/-- A store of bytes at several places of a memory. -/
structure wrote (sp : Space) (l : List (Nat × List Byte)) (s t : State) : Prop where
  bytes : t.bytesOf sp = mwrites (s.bytesOf sp) l
  only : onlySpace sp s t

theorem wrote_wr (s : State) (sp : Space) (a : Nat) (bs : List Byte) : wrote sp [(a, bs)] s (s.wr sp a bs) :=
  ⟨State.wr_bytes .., State.wr_only ..⟩

theorem wrote_foldl (sp : Space) (l : List (Nat × List Byte)) (s : State) : wrote sp l s (l.foldl (fun s x => s.wr sp x.1 x.2) s)
    ∧ (l.foldl (fun s x => s.wr sp x.1 x.2) s).tagsOf sp = untag (s.tagsOf sp) l := by
  induction l generalizing s with
  | nil => exact ⟨⟨rfl, ⟨fun _ _ => rfl, fun _ => ⟨rfl, rfl⟩, rfl, fun _ => rfl, fun _ => rfl, rfl⟩⟩, rfl⟩
  | cons x l ih =>
    obtain ⟨⟨hbytes, honly⟩, htags⟩ := ih (s.wr sp x.1 x.2)
    rw [State.wr_bytes] at hbytes
    rw [State.wr_tags] at htags
    exact ⟨⟨hbytes, (State.wr_only s sp x.1 x.2).trans honly⟩, htags⟩

theorem mget_mwrites_out {l : List (Nat × List Byte)} {m : Memory} {a : Nat} (h : ∀ x ∈ l, a < x.1 ∨ x.1 + x.2.length ≤ a) :
    mget (mwrites m l) a = mget m a := by
  induction l generalizing m with
  | nil => rfl
  | cons x l ih =>
    obtain ⟨hx, hl⟩ := List.forall_mem_cons.mp h
    exact (ih hl).trans (mget_mwrite_out x.2 hx)

theorem mread_mwrites_out {l : List (Nat × List Byte)} {m : Memory} {a n : Nat} (h : ∀ x ∈ l, a + n ≤ x.1 ∨ x.1 + x.2.length ≤ a) :
    mread (mwrites m l) a n = mread m a n := by
  induction l generalizing m with
  | nil => rfl
  | cons x l ih =>
    obtain ⟨hx, hl⟩ := List.forall_mem_cons.mp h
    exact (ih hl).trans (mread_mwrite_out x.2 hx)

theorem wf_mwrites {l : List (Nat × List Byte)} {m : Memory} (hm : Memory.wf m = true) : Memory.wf (mwrites m l) = true := by
  induction l generalizing m with
  | nil => exact hm
  | cons x l ih => exact ih (Memory.wf_mwrite x.2 x.1 hm)

/-- Bytes that no later write of the same store covers remain. -/
theorem mread_mwrites_last {l r : List (Nat × List Byte)} {x : Nat × List Byte} {m : Memory} (hm : Memory.wf m = true)
    (hr : ∀ y ∈ r, x.1 + x.2.length ≤ y.1 ∨ y.1 + y.2.length ≤ x.1) : mread (mwrites m (l ++ x :: r)) x.1 x.2.length = x.2 := by
  have hsplit : mwrites m (l ++ x :: r) = mwrites (mwrite (mwrites m l) x.1 x.2) r := List.foldl_append
  rw [hsplit, mread_mwrites_out hr, mread_mwrite x.2 x.1 (wf_mwrites hm)]

/-! ### Tags -/

theorem mem_foldl_srem {l tags : List Nat} {g : Nat} : g ∈ l.foldl srem tags ↔ g ∈ tags ∧ g ∉ l := by
  induction l generalizing tags with
  | nil => simp
  | cons y l ih => rw [List.foldl_cons, ih]; simp [srem, and_assoc]

theorem mem_granules {a n g : Nat} (hn : 0 < n) : g ∈ granules a n 16 ↔ a / 16 ≤ g ∧ g ≤ (a + n - 1) / 16 := by
  simp only [granules, if_neg hn.ne', List.mem_map, List.mem_range]
  constructor
  · rintro ⟨i, hi, rfl⟩
    omega
  · rintro ⟨hlo, hhi⟩
    exact ⟨g - a / 16, by omega, by omega⟩

theorem mem_sins {l : List Nat} {x g : Nat} : g ∈ sins l x ↔ g = x ∨ g ∈ l := by
  induction l with
  | nil => simp [sins]
  | cons y l ih =>
    unfold sins
    split
    · simp
    · split
      · next h => subst h; simp
      · rw [List.mem_cons, ih, List.mem_cons]
        tauto

theorem mem_untag {l : List (Nat × List Byte)} (hl : ∀ x ∈ l, 0 < x.2.length) {tags : List Nat} {g : Nat} :
    g ∈ untag tags l ↔ g ∈ tags ∧ ∀ x ∈ l, g < x.1 / 16 ∨ (x.1 + x.2.length - 1) / 16 < g := by
  induction l generalizing tags with
  | nil => simp [untag]
  | cons x l ih =>
    obtain ⟨hx, hl⟩ := List.forall_mem_cons.mp hl
    rw [untag, List.foldl_cons, ← untag, ih hl, mem_foldl_srem, mem_granules hx, List.forall_mem_cons, and_assoc]
    have hneg : ¬ (x.1 / 16 ≤ g ∧ g ≤ (x.1 + x.2.length - 1) / 16) ↔ g < x.1 / 16 ∨ (x.1 + x.2.length - 1) / 16 < g := by omega
    rw [hneg]

/-! ### What a store leaves, place by place -/

section
variable {sp : Space} {w : Nat} {s t : State}

theorem storesAt_of_wrote {l : List (Nat × List Byte)} (h : wrote sp l s t) (hw : ∀ x ∈ l, x.2.length = w) : storesAt sp w (l.map Prod.fst) s t := by
  obtain ⟨hbytes, honly⟩ := h
  refine ⟨fun a ha => ?_, fun q a n hq => ?_, honly.slots, honly.host, honly.sram, honly.image⟩
  · rw [State.rd_eq, State.rd_eq, hbytes]
    have hout : mget (mwrites (s.bytesOf sp) l) a = mget (s.bytesOf sp) a :=
      mget_mwrites_out fun x hx => hw x hx ▸ ha x.1 (List.mem_map_of_mem hx)
    simp [mread, hout]
  · rw [State.rd_eq, State.rd_eq, honly.bytes q hq]

/-- A memory that keeps the tags of the granules no place of a store touches. -/
theorem tagsAt_of_untag {l : List (Nat × List Byte)} (h : t.tagsOf sp = untag (s.tagsOf sp) l) (hw : ∀ x ∈ l, x.2.length = w) (hpos : 0 < w) :
    tagsAt sp w (l.map Prod.fst) false s t := by
  have hlen : ∀ x ∈ l, 0 < x.2.length := fun x hx => hw x hx ▸ hpos
  intro a
  rw [State.tagAt_eq, State.tagAt_eq, h]
  refine ⟨fun hin => ?_, fun hout => ?_⟩
  · obtain ⟨_, hp, hlo, hhi⟩ := hin
    obtain ⟨x, hx, rfl⟩ := List.mem_map.mp hp
    rw [Bool.eq_false_iff, Ne, List.contains_iff_mem, mem_untag hlen]
    rintro ⟨-, hall⟩
    have := hall x hx
    rw [hw x hx] at this
    omega
  · rw [Bool.eq_iff_iff, List.contains_iff_mem, List.contains_iff_mem, mem_untag hlen]
    exact and_iff_left fun x hx => (hw x hx).symm ▸ hout x.1 (List.mem_map_of_mem hx)

/-- The granule of a capability store takes the tag of its source. -/
theorem tagsAt_of_setTag {a : Nat} {bs : List Byte} {b : Bool} (halign : a % 16 = 0) (hlen : bs.length = 16)
    (h : t.tagsOf sp = if b then sins (untag (s.tagsOf sp) [(a, bs)]) (a / 16) else srem (untag (s.tagsOf sp) [(a, bs)]) (a / 16)) :
    tagsAt sp 16 [a] b s t := by
  have hpos : ∀ x ∈ [(a, bs)], 0 < x.2.length := by simp [hlen]
  have hmem (g : Nat) : g ∈ t.tagsOf sp ↔ if g = a / 16 then b = true else g ∈ s.tagsOf sp := by
    have hother : g ∈ untag (s.tagsOf sp) [(a, bs)] ↔ g ∈ s.tagsOf sp ∧ g ≠ a / 16 := by
      rw [mem_untag hpos]
      simp only [List.mem_singleton, forall_eq, hlen]
      exact and_congr_right' (by omega)
    rw [h]
    cases b
    · simp [srem, hother, and_comm]
    · rw [if_pos rfl, mem_sins, hother]
      split <;> simp_all
  intro g
  rw [State.tagAt_eq, State.tagAt_eq]
  refine ⟨fun hin => ?_, fun hout => ?_⟩
  · obtain ⟨_, hp, hlo, hhi⟩ := hin
    have hg : g / 16 = a / 16 := by
      rw [List.mem_singleton.mp hp] at hlo hhi
      omega
    rw [Bool.eq_iff_iff, List.contains_iff_mem, hmem, if_pos hg]
  · have hg : g / 16 ≠ a / 16 := by
      have := hout a (List.mem_singleton.mpr rfl)
      omega
    rw [Bool.eq_iff_iff, List.contains_iff_mem, List.contains_iff_mem, hmem, if_neg hg]

end

/-! ### Stores to the tile's own SRAMs -/

/-- No DRAM store of an earlier epoch is under way (R191). -/
def State.storesLanded (s : State) (k : Nat) : Prop := ∀ a ∈ (s.tile k).dacc, a.write = true → (s.tile k).depoch ≤ a.epoch

theorem State.flushStores_landed {s : State} {k : Nat} (h : s.storesLanded k) : s.flushStores k = s := by
  have hnone : ((s.tile k).dacc.filter fun a => a.st != 3 && (a.write && decide (a.epoch < (s.tile k).depoch))) = [] := by
    refine List.filter_eq_nil_iff.mpr fun a ha hsel => ?_
    simp only [Bool.and_eq_true, decide_eq_true_eq] at hsel
    obtain ⟨-, hwrite, hlt⟩ := hsel
    exact absurd (h a ha hwrite) (Nat.not_le.mpr hlt)
  simp [State.flushStores, State.flushAcc, hnone]

/-- The places and the bytes of the parts of an access. -/
def Part.writes (l : List Part) : List (Nat × List Byte) := l.map fun p => (p.off, p.data)

section
variable {s : State} {k : Nat} {sp : Space} {oid : Nat}

/-- A store whose parts land as it issues. -/
theorem wrote_parts (l : List Part) (rs : List (Nat × Nat)) : let t := (l.foldl (fun s p => s.wr sp p.off p.data) s).clearUE sp rs
    wrote sp (Part.writes l) s t ∧ t.tagsOf sp = untag (s.tagsOf sp) (Part.writes l) := by
  have hfold : l.foldl (fun s p => s.wr sp p.off p.data) s = (Part.writes l).foldl (fun s x => s.wr sp x.1 x.2) s := by
    rw [Part.writes, List.foldl_map]
  obtain ⟨⟨hbytes, honly⟩, htags⟩ := wrote_foldl sp (Part.writes l) s
  rw [hfold]
  exact ⟨⟨(State.clearUE_bytes ..).trans hbytes, honly.trans (State.clearUE_only ..)⟩, (State.clearUE_tags ..).trans htags⟩

variable (hs : s.issues k) (hsp : sramOf s oid = some sp) (hlanded : s.storesLanded k)
include hs hsp hlanded

theorem storeParts_own (l : List Part) : wrote sp (Part.writes l) s (storeParts s oid l none)
    ∧ (storeParts s oid l none).tagsOf sp = untag (s.tagsOf sp) (Part.writes l) := by
  have hflush : (if l = [] then s else s.flushStores s.me) = s := by
    rw [State.me_tile hs.1, State.flushStores_landed hlanded, ite_self]
  rw [storeParts, hsp]
  dsimp only
  rw [hflush]
  exact wrote_parts l _

theorem storeParts_own_tag (p : Part) (b : Bool) : wrote sp [(p.off, p.data)] s (storeParts s oid [p] (some b))
    ∧ (storeParts s oid [p] (some b)).tagsOf sp =
      if b then sins (untag (s.tagsOf sp) [(p.off, p.data)]) (p.off / 16) else srem (untag (s.tagsOf sp) [(p.off, p.data)]) (p.off / 16) := by
  have hflush : (if [p] = [] then s else s.flushStores s.me) = s := by
    rw [State.me_tile hs.1, State.flushStores_landed hlanded, ite_self]
  rw [storeParts, hsp]
  dsimp only
  rw [hflush]
  obtain ⟨⟨hbytes, honly⟩, htags⟩ := wrote_parts (s := s) (sp := sp) [p] ([p].map fun p => (p.off, p.n))
  exact ⟨⟨(State.setTag_bytes ..).trans hbytes, honly.trans (State.setTag_only ..)⟩, by rw [State.setTag_tags, htags]; rfl⟩

end

/-- What a word that completes as it issues leaves of the memories is what its body left. -/
theorem wrote.completes {s t : State} {k : Nat} {sp : Space} {l : List (Nat × List Byte)} (hs : s.issues k) (h : wrote sp l s t) (hd : Hdr) :
    wrote sp l s (pushDone hd (issueHead hd t)) ∧ (pushDone hd (issueHead hd t)).tagsOf sp = t.tagsOf sp := by
  have ht : t.byTile k := (congrArg Cur.agent h.only.cur).trans hs.1
  have hframe := (t.tile k).headIssued_frame hd t.cur.q t.cur.seq
  have hbytes (q : Space) : (pushDone hd (issueHead hd t)).bytesOf q = t.bytesOf q := by
    rw [pushDone_issueHead ht]
    exact bytesOf_setTile (by rw [hframe]) q
  refine ⟨⟨(hbytes sp).trans h.bytes, h.only.trans ⟨fun q _ => hbytes q, fun j => ?_, ?_, ?_, ?_, ?_⟩⟩, ?_⟩
  all_goals rw [pushDone_issueHead ht]
  · exact (onlySpace_setTile (by rw [hframe]) (by rw [hframe])).slots j
  · rfl
  · exact fun _ => rfl
  · exact fun _ => rfl
  · rfl
  · exact tagsOf_setTile (by rw [hframe]) sp

/-! ### What is read back -/

section
variable {sp : Space} {w : Nat} {s t : State} (hwf : Memory.wf (s.bytesOf sp) = true)
include hwf

theorem wrote.rd_one {a : Nat} {bs : List Byte} (h : wrote sp [(a, bs)] s t) (hw : bs.length = w) : t.rd sp a w = bs := by
  subst hw
  rw [State.rd_eq, h.bytes]
  exact mread_mwrite bs a hwf

/-- Of lanes that overlap the higher one's bytes remain. -/
theorem wrote.rd_lane {data : Nat → List Byte} (hw : ∀ j, (data j).length = w) {l : List (Nat × Nat)} (hrising : (l.map Prod.fst).Pairwise (· < ·))
    (h : wrote sp (l.map fun x => (x.2, data x.1)) s t) {x : Nat × Nat} (hx : x ∈ l)
    (hclear : ∀ y ∈ l, x.1 < y.1 → x.2 + w ≤ y.2 ∨ y.2 + w ≤ x.2) : t.rd sp x.2 w = data x.1 := by
  obtain ⟨l, r, rfl⟩ := List.append_of_mem hx
  rw [List.map_append, List.map_cons, List.pairwise_append, List.pairwise_cons] at hrising
  obtain ⟨-, ⟨habove, -⟩, -⟩ := hrising
  have hlast := mread_mwrites_last (l := l.map fun x => (x.2, data x.1)) (r := r.map fun x => (x.2, data x.1)) (x := (x.2, data x.1)) hwf
    (List.forall_mem_map.mpr fun y hy => by
      rw [hw, hw]
      exact hclear y (List.mem_append_right _ (List.mem_cons_of_mem _ hy)) (habove _ (List.mem_map_of_mem hy)))
  rw [hw] at hlast
  rw [State.rd_eq, h.bytes, List.map_append, List.map_cons]
  exact hlast

end

@[simp] theorem splRecord_length (v : Vec) : (splRecord v).length = 272 := by
  simp [splRecord, List.length_flatMap]

/-! ### Poison (R184) -/

/-- A poisoned lane that no store may take. -/
def refusedLane (v : Vec) (narrow hasP : Bool) (j : Nat) : Prop :=
  (v.at j).tag = true ∧ (narrow = true ∨ hasP = false ∨ (v.at j).bits.toNat / 2 ^ 22 = 0)

/-- One lane's part of `poisLanes`. -/
def poisStep (v : Vec) (narrow hasP : Bool) (r : Nat × Bool) (j : Nat) : Nat × Bool :=
  if (v.at j).tag then (r.1 + 2 ^ j, r.2 || narrow || !hasP || (v.at j).bits.toNat / 2 ^ 22 == 0) else r

theorem testBit_add_two_pow {m i : Nat} (hm : m < 2 ^ i) (j : Nat) : (m + 2 ^ i).testBit j = true ↔ m.testBit j = true ∨ j = i := by
  have hor := Nat.two_pow_add_eq_or_of_lt hm 1
  rw [Nat.mul_one] at hor
  rw [Nat.add_comm, hor, Nat.testBit_or, Nat.testBit_two_pow, Bool.or_eq_true, decide_eq_true_eq, or_comm, @eq_comm _ i]

theorem poisStep_foldl (v : Vec) (narrow hasP : Bool) {lanes : List Nat} (hrising : lanes.Pairwise (· < ·)) {r : Nat × Bool}
    (hr : ∀ i ∈ lanes, r.1 < 2 ^ i) :
    (∀ j, (lanes.foldl (poisStep v narrow hasP) r).1.testBit j = true ↔ r.1.testBit j = true ∨ j ∈ lanes ∧ (v.at j).tag = true)
      ∧ ((lanes.foldl (poisStep v narrow hasP) r).2 = true ↔ r.2 = true ∨ ∃ j ∈ lanes, refusedLane v narrow hasP j) := by
  induction lanes generalizing r with
  | nil => simp
  | cons i l ih =>
    rw [List.pairwise_cons] at hrising
    obtain ⟨hi, hl⟩ := hrising
    obtain ⟨hri, hrl⟩ := List.forall_mem_cons.mp hr
    rw [List.foldl_cons]
    by_cases htag : (v.at i).tag = true
    · have hstep : poisStep v narrow hasP r i = (r.1 + 2 ^ i, r.2 || narrow || !hasP || (v.at i).bits.toNat / 2 ^ 22 == 0) := if_pos htag
      have hbound : ∀ j ∈ l, r.1 + 2 ^ i < 2 ^ j := fun j hj => by
        have hpow : 2 ^ (i + 1) ≤ 2 ^ j := Nat.pow_le_pow_right (by decide) (hi j hj)
        rw [Nat.pow_succ] at hpow
        omega
      obtain ⟨hmask, htrap⟩ := ih hl (r := poisStep v narrow hasP r i) (by rw [hstep]; exact hbound)
      refine ⟨fun j => ?_, ?_⟩
      · rw [hmask, hstep, testBit_add_two_pow hri, List.mem_cons]
        constructor
        · rintro ((hb | rfl) | ⟨hj, ht⟩)
          · exact .inl hb
          · exact .inr ⟨.inl rfl, htag⟩
          · exact .inr ⟨.inr hj, ht⟩
        · rintro (hb | ⟨rfl | hj, ht⟩)
          · exact .inl (.inl hb)
          · exact .inl (.inr rfl)
          · exact .inr ⟨hj, ht⟩
      · rw [htrap, hstep, List.exists_mem_cons_iff]
        have hlane : (narrow || !hasP || (v.at i).bits.toNat / 2 ^ 22 == 0) = true ↔ refusedLane v narrow hasP i := by
          simp only [refusedLane, htag, Bool.or_eq_true, Bool.not_eq_true', beq_iff_eq, true_and, or_assoc]
        rw [← hlane, ← or_assoc, ← Bool.or_eq_true, Bool.or_assoc, Bool.or_assoc, Bool.or_assoc]
    · have hstep : poisStep v narrow hasP r i = r := if_neg htag
      obtain ⟨hmask, htrap⟩ := ih hl (r := r) hrl
      rw [hstep]
      refine ⟨fun j => ?_, ?_⟩
      · rw [hmask, List.mem_cons]
        constructor
        · rintro (hb | ⟨hj, ht⟩)
          · exact .inl hb
          · exact .inr ⟨.inr hj, ht⟩
        · rintro (hb | ⟨rfl | hj, ht⟩)
          · exact .inl hb
          · exact absurd ht htag
          · exact .inr ⟨hj, ht⟩
      · rw [htrap, List.exists_mem_cons_iff]
        simp [refusedLane, htag]

/-- The mask of the poisoned lanes, and whether one of them may not be stored. -/
theorem poisLanes_iff (v : Vec) (narrow hasP : Bool) {lanes : List Nat} (hrising : lanes.Pairwise (· < ·)) :
    (∀ j, (poisLanes v lanes narrow hasP).1.testBit j = true ↔ j ∈ lanes ∧ (v.at j).tag = true)
      ∧ ((poisLanes v lanes narrow hasP).2 = true ↔ ∃ j ∈ lanes, refusedLane v narrow hasP j) := by
  obtain ⟨hmask, htrap⟩ := poisStep_foldl v narrow hasP hrising (r := (0, false)) fun i _ => Nat.two_pow_pos i
  exact ⟨fun j => (hmask j).trans (by simp), htrap.trans (by simp)⟩

/-! ### The words -/

section
variable {s : State} {k : Nat} (hs : s.issues k) {h : Hdr}
include hs

section
variable {cp : BitVec 5} {ds : BitVec 8} {n : Nat} {narrow : Bool} {chks : List Chk} {l : List (Nat × Nat)}
  (hl : checkAll (s.cur.snap.capP cp.toNat) n rtW n chks = .ok l) (hlw : lanewise chks)
include hl hlw

theorem vstoreWord_done (hok : ∀ x ∈ l, ¬ refusedLane ((s.tile k).v ds.toNat) narrow ((s.cur.snap.capP cp.toNat).has rtP) x.1) :
    vstoreWord h s cp ds n narrow chks = .next (pushDone h (issueHead h (storeParts s (s.cur.snap.capP cp.toNat).oid
      (l.map fun x => ⟨x.1, x.2, n, leBytes n (((s.tile k).v ds.toNat).at x.1).bits.toNat⟩) none))) := by
  have hme : s.me = k := State.me_tile hs.1
  obtain ⟨-, htrap⟩ := poisLanes_iff ((s.tile k).v ds.toNat) narrow ((s.cur.snap.capP cp.toNat).has rtP) (checkAll_lanes hl ▸ hlw.1)
  have hstored : (poisLanes ((s.tile k).v ds.toNat) (l.map Prod.fst) narrow ((s.cur.snap.capP cp.toNat).has rtP)).2 = false := by
    refine Bool.eq_false_iff.mpr fun hp => ?_
    obtain ⟨j, hj, hrefused⟩ := htrap.mp hp
    obtain ⟨x, hx, rfl⟩ := List.mem_map.mp hj
    exact hok x hx hrefused
  refine qWord_done hs ?_
  have htile : s.myTile = s.tile k := by rw [State.myTile, hme]
  dsimp only
  rw [hl, htile]
  exact if_neg (Bool.eq_false_iff.mp hstored)

theorem vstoreWord_refused (hbad : ∃ x ∈ l, refusedLane (s.myTile.v ds.toNat) narrow ((s.cur.snap.capP cp.toNat).has rtP) x.1) :
    ∃ m, vstoreWord h s cp ds n narrow chks = .next (s.take { cause := cPOISST, val := m })
      ∧ ∀ j, m.testBit j = true ↔ j ∈ l.map Prod.fst ∧ ((s.myTile.v ds.toNat).at j).tag = true := by
  obtain ⟨hmask, htrap⟩ := poisLanes_iff (s.myTile.v ds.toNat) narrow ((s.cur.snap.capP cp.toNat).has rtP) (checkAll_lanes hl ▸ hlw.1)
  obtain ⟨x, hx, hrefused⟩ := hbad
  refine ⟨_, qWord_trap hs ?_, hmask⟩
  dsimp only
  rw [hl]
  exact if_pos (htrap.mpr ⟨x.1, List.mem_map_of_mem hx, hrefused⟩)

end

variable {f : FmtM} {l : List (Nat × Nat)}

theorem execSts_done (hl : checkAll (s.cur.snap.capP f.cp.toNat) (szBytes f.sz) rtW (szBytes f.sz) (chkOne s f) = .ok l)
    (hclean : (s.cur.snap.s (f.ds.toNat % 64)).tag = false) : execSts h f s = .next (pushDone h (issueHead h
      (storeParts s (s.cur.snap.capP f.cp.toNat).oid
        (l.map fun x => ⟨0, x.2, szBytes f.sz, leBytes (szBytes f.sz) (s.cur.snap.s (f.ds.toNat % 64)).bits.toNat⟩) none))) := by
  refine qWord_done hs ?_
  dsimp only
  rw [hl, hclean]
  rfl

/-- A poisoned scalar is never stored. -/
theorem execSts_poisoned (hl : checkAll (s.cur.snap.capP f.cp.toNat) (szBytes f.sz) rtW (szBytes f.sz) (chkOne s f) = .ok l)
    (hpois : (s.cur.snap.s (f.ds.toNat % 64)).tag = true) : execSts h f s = .next (s.take { cause := cPOISST, val := 1 }) := by
  refine qWord_trap hs ?_
  dsimp only
  rw [hl, hpois]
  rfl

theorem execStc_done (hl : checkAll (s.cur.snap.capP f.cp.toNat) 16 (if (s.cur.snap.cap (f.ds.toNat % 16)).tag then rtW + rtD else rtW) 16
    (chkOne s f) = .ok l) : execStc h f s = .next (pushDone h (issueHead h (storeParts s (s.cur.snap.capP f.cp.toNat).oid
      (l.map fun x => ⟨0, x.2, 16, leBytes 16 (s.cur.snap.cap (f.ds.toNat % 16)).bits.toNat⟩) (some (s.cur.snap.cap (f.ds.toNat % 16)).tag)))) := by
  refine qWord_done hs ?_
  dsimp only
  rw [hl]

theorem execSpl_own (hlanded : s.storesLanded k) (hoid : (s.cur.snap.capP f.cp.toNat).oid = oidScr) {y a : Nat}
    (hl : checkAll (s.cur.snap.capP f.cp.toNat) 272 rtW 16 (chkOne s f) = .ok [(y, a)]) :
    execSpl h f s = .next (pushDone h (issueHead h (s.wr (.scr k) a (splRecord ((s.tile k).v f.ds.toNat))))) := by
  have hme : s.me = k := State.me_tile hs.1
  have hcheck : recCheck s f rtW = .ok a := by simp [recCheck, hl, hoid]
  refine qWord_done hs ?_
  rw [hcheck]
  dsimp only [State.myTile]
  rw [hme, State.flushStores_landed hlanded]

/-- A store to an object beyond the tile leaves for its port (R187). -/
theorem storeParts_far {oid : Nat} (hscr : oid ≠ oidScr) (hpool : oid ≠ oidPool) {l : List Part} (hne : l ≠ []) (ctag : Option Bool) :
    ∃ x, ((storeParts s oid l ctag).tile k).dacc = (s.tile k).dacc ++ [x] ∧ (storeParts s oid l ctag).dram = s.dram ∧ x.write = true
      ∧ x.epoch = (s.tile k).depoch ∧ x.oid = oid ∧ x.parts = l ∧ x.ctag = ctag ∧ x.st = 0 ∧ x.ues = none := by
  have hparts : storeParts s oid l ctag = s.sendAcc true oid l none ctag := by
    rw [storeParts, (sramOf_far hscr hpool).1]
    exact if_neg hne
  obtain ⟨x, hdacc, hdram, -, hwrite, hepoch, hoid, hl, -, hctag, hst, hues⟩ := sendAcc_tile hs true oid l none ctag
  rw [hparts]
  exact ⟨x, hdacc, hdram, hwrite, hepoch, hoid, hl, hctag, hst, hues⟩

end

/-! ### A store at its port (R187) -/

section
variable {s : State} {k : Nat}

theorem State.phys_length_pos {d c o off adr n : Nat} (h : s.phys d c o off n = .ok [(off, adr, n)]) : 0 < n := by
  rcases Nat.eq_zero_or_pos n with rfl | hn
  · cases h
  · exact hn

/-- Writes to DRAM leave the tiles. -/
theorem foldl_wr_dram_tile (l : List (Nat × List Byte)) (s : State) : (l.foldl (fun s x => s.wr .dram x.1 x.2) s).tile k = s.tile k := by
  induction l generalizing s with
  | nil => rfl
  | cons x l ih => exact ih _

/-- Its bytes land, the tags of their granules clear, and that of a capability follows. -/
theorem State.performAcc_store {a : DAcc} {adr : Part → Nat} (hdacc : (s.tile k).dacc = [a]) (hwrite : a.write = true)
    (hlen : ∀ p ∈ a.parts, p.data.length = p.n) : ∃ t, wrote .dram (a.parts.map fun p => (adr p, p.data)) s t
      ∧ s.performAcc k a (a.parts.map fun p => (p, [(p.off, adr p, p.n)])) = t.setTile k { s.tile k with dacc := [] }
      ∧ (a.ctag = none → t.tagsOf .dram = untag (s.tagsOf .dram) (a.parts.map fun p => (adr p, p.data)))
      ∧ ∀ b p, a.ctag = some b → a.parts = [p] → t.tagAt .dram (adr p) = b := by
  have hland : (a.parts.map fun p => (p, [(p.off, adr p, p.n)])).foldl (fun s p => s.landPart p.1.data p.2) s =
      (a.parts.map fun p => (adr p, p.data)).foldl (fun s x => s.wr .dram x.1 x.2) s := by
    have htake : (a.parts.map fun p => (adr p, p.data)) = a.parts.map fun p => (adr p, p.data.take p.n) :=
      List.map_congr_left fun p hp => by rw [← hlen p hp, List.take_length]
    rw [htake, List.foldl_map, List.foldl_map]
    rfl
  obtain ⟨⟨hbytes, honly⟩, htags⟩ := wrote_foldl .dram (a.parts.map fun p => (adr p, p.data)) s
  have htile := foldl_wr_dram_tile (k := k) (a.parts.map fun p => (adr p, p.data)) s
  generalize hfold : (a.parts.map fun p => (adr p, p.data)).foldl (fun s x => s.wr .dram x.1 x.2) s = t at hbytes honly htags htile
  rw [hfold] at hland
  generalize hrs : (a.parts.map fun p => (p, [(p.off, adr p, p.n)])).flatMap (fun p => p.2.map Prod.snd) = rs
  have hclear : wrote .dram (a.parts.map fun p => (adr p, p.data)) s (t.clearUE .dram rs) := ⟨hbytes, honly.trans (State.clearUE_only ..)⟩
  have hkept : (t.clearUE .dram rs).tile k = s.tile k := htile
  have htagged : (t.clearUE .dram rs).tagsOf .dram = untag (s.tagsOf .dram) (a.parts.map fun p => (adr p, p.data)) := htags
  have hleaves (u : State) (hu : u.tile k = s.tile k) :
      u.setTile k { u.tile k with dacc := (u.tile k).dacc.filter (·.id != a.id) } = u.setTile k { s.tile k with dacc := [] } := by
    rw [hu, hdacc]
    simp
  rw [State.performAcc, if_pos hwrite]
  dsimp only
  rw [hland, hrs]
  cases hctag : a.ctag with
  | none => exact ⟨_, hclear, hleaves _ hkept, fun _ => htagged, fun _ _ h => nomatch h⟩
  | some b =>
    cases hparts : a.parts with
    | nil =>
      rw [hparts] at hclear
      exact ⟨t.clearUE .dram rs, hclear, hleaves _ hkept, by simp, by simp⟩
    | cons p l =>
      rw [hparts] at hclear
      obtain ⟨hbytes, honly⟩ := hclear
      refine ⟨(t.clearUE .dram rs).setTag .dram (adr p) b, ⟨(State.setTag_bytes ..).trans hbytes, honly.trans (State.setTag_only ..)⟩,
        hleaves _ hkept, by simp, fun b' q hb hq => ?_⟩
      cases hb
      cases hq
      rw [State.tagAt_eq, State.setTag_tags]
      cases b
      · simp [srem]
      · simp [mem_sins]

end

/-! ### A store to an own SRAM that issues -/

section
variable {s : State} {k : Nat} {sp : Space} {oid : Nat} (hs : s.issues k) (hsp : sramOf s oid = some sp) (hlanded : s.storesLanded k) (h : Hdr) {w : Nat}
include hs hsp hlanded

/-- A store of no capability, of w bytes at each place. -/
theorem storeParts_issued {l : List Part} (hw : ∀ p ∈ l, p.data.length = w) (hpos : 0 < w) :
    let t := pushDone h (issueHead h (storeParts s oid l none))
    wrote sp (Part.writes l) s t ∧ storesAt sp w (l.map Part.off) s t ∧ tagsAt sp w (l.map Part.off) false s t := by
  intro t
  obtain ⟨hwrote, htags⟩ := storeParts_own hs hsp hlanded l
  obtain ⟨hdone, hkept⟩ := hwrote.completes hs h
  have hlen : ∀ x ∈ Part.writes l, x.2.length = w := List.forall_mem_map.mpr hw
  have hplaces : (Part.writes l).map Prod.fst = l.map Part.off := by rw [Part.writes, List.map_map]; rfl
  exact ⟨hdone, hplaces ▸ storesAt_of_wrote hdone hlen, hplaces ▸ tagsAt_of_untag (hkept.trans htags) hlen hpos⟩

/-- A store of a capability. -/
theorem storeParts_issued_tag {p : Part} (hw : p.data.length = 16) (halign : p.off % 16 = 0) (b : Bool) :
    let t := pushDone h (issueHead h (storeParts s oid [p] (some b)))
    wrote sp [(p.off, p.data)] s t ∧ storesAt sp 16 [p.off] s t ∧ tagsAt sp 16 [p.off] b s t := by
  intro t
  obtain ⟨hwrote, htags⟩ := storeParts_own_tag hs hsp hlanded p b
  obtain ⟨hdone, hkept⟩ := hwrote.completes hs h
  exact ⟨hdone, storesAt_of_wrote hdone (by simpa using hw), tagsAt_of_setTag halign hw (hkept.trans htags)⟩

variable (hwf : Memory.wf (s.bytesOf sp) = true) {cp : BitVec 5} (hoid : (s.cur.snap.capP cp.toNat).oid = oid) {l : List (Nat × Nat)}
include hwf hoid

theorem vstoreWord_own {ds : BitVec 8} {narrow : Bool} {chks : List Chk} (hpos : 0 < w) (hlw : lanewise chks)
    (hl : checkAll (s.cur.snap.capP cp.toNat) w rtW w chks = .ok l)
    (hok : ∀ x ∈ l, ¬ refusedLane ((s.tile k).v ds.toNat) narrow ((s.cur.snap.capP cp.toNat).has rtP) x.1) :
    ∃ t, vstoreWord h s cp ds w narrow chks = .next t ∧ storesAt sp w (l.map Prod.snd) s t ∧ tagsAt sp w (l.map Prod.snd) false s t
      ∧ ∀ x ∈ l, (∀ y ∈ l, x.1 < y.1 → x.2 + w ≤ y.2 ∨ y.2 + w ≤ x.2) →
        t.rd sp x.2 w = leBytes w (((s.tile k).v ds.toNat).at x.1).bits.toNat := by
  subst hoid
  obtain ⟨hwrote, hstores, htags⟩ := storeParts_issued hs hsp hlanded h (w := w)
    (l := l.map fun x => ⟨x.1, x.2, w, leBytes w (((s.tile k).v ds.toNat).at x.1).bits.toNat⟩)
    (List.forall_mem_map.mpr fun _ _ => leBytes_length ..) hpos
  rw [List.map_map] at hstores htags
  rw [Part.writes, List.map_map] at hwrote
  refine ⟨_, vstoreWord_done hs hl hlw hok, hstores, htags, fun x hx hclear => ?_⟩
  exact hwrote.rd_lane (data := fun j => leBytes w (((s.tile k).v ds.toNat).at j).bits.toNat) hwf (fun _ => leBytes_length ..)
    (checkAll_lanes hl ▸ hlw.1) hx hclear

end

/-- The one place of a checked access of an aligned word. -/
theorem checkAll_aligned {c : Cap} {n m align : Nat} {l : List Chk} {q : List (Nat × Nat)} (h : checkAll c n m align l = .ok q) :
    ∀ x ∈ q, x.2 % align = 0 := by
  induction l generalizing q with
  | nil => cases h; simp
  | cons y l ih =>
    unfold checkAll at h
    split at h
    · cases h
    · split at h
      · cases h
      next z hz =>
        split at h
        next hrest =>
          cases h
          refine List.forall_mem_cons.mpr ⟨?_, ih hrest⟩
          exact_mod_cast (capCheck_ok hz).2.2
        · cases h

/-- The places of a checked access of lane 0. -/
theorem chkOne_parts {s : State} {f : FmtM} {c : Cap} {n m align : Nat} {l : List (Nat × Nat)} (hl : checkAll c n m align (chkOne s f) = .ok l)
    (w : Nat) (bs : List Byte) : (l.map fun x => (⟨0, x.2, w, bs⟩ : Part)) = l.map fun x => ⟨x.1, x.2, w, bs⟩ := by
  refine List.map_congr_left fun x hx => ?_
  have hlane : x.1 ∈ (chkOne s f).map Chk.lane := checkAll_lanes hl ▸ List.mem_map_of_mem hx
  have hzero : x.1 = 0 := by simpa [chkOne] using hlane
  rw [hzero]

section
variable {s : State} {k : Nat} (hs : s.issues k) {h : Hdr} {body : Out} {oid : Nat} (hscr : oid ≠ oidScr) (hpool : oid ≠ oidPool) {ctag : Option Bool}
include hs hscr hpool

/-- A store whose parts leave for DRAM as it issues. -/
theorem storeParts_sends (w : Nat) (data : Nat → List Byte) {l : List (Nat × Nat)} (hne : l ≠ [])
    (hbody : body = .next (pushDone h (issueHead h (storeParts s oid (l.map fun z => ⟨z.1, z.2, w, data z.1⟩) ctag)))) :
    ∃ s' x, body = .next (pushDone h (issueHead h s')) ∧ (s'.tile k).dacc = (s.tile k).dacc ++ [x] ∧ x.write = true ∧ x.oid = oid
      ∧ x.st = 0 ∧ x.ues = none ∧ x.epoch = (s.tile k).depoch ∧ x.ctag = ctag ∧ x.parts = l.map (fun z => ⟨z.1, z.2, w, data z.1⟩)
      ∧ s'.dram = s.dram := by
  obtain ⟨x, hdacc, hdram, hwrite, hepoch, hoid, hparts, htag, hst, hues⟩ := storeParts_far hs hscr hpool
    (l := l.map fun z => ⟨z.1, z.2, w, data z.1⟩) (by simpa using hne) ctag
  exact ⟨_, x, hbody, hdacc, hwrite, hoid, hst, hues, hepoch, htag, hparts, hdram⟩

end

end Sys2Proof.Machine
end

section
/-! The statements of 08_memory_order.md: what stores leave. -/

namespace Sys2Proof.Proofs
open Machine

/-- Settles O24: the writes of a store one by one, on the bytes and the tags of one memory; poison by induction over the lanes. -/
theorem storeWords : Obligations.StoreWords := by
  refine ⟨?own, ?sends, ?port, ?refused⟩
  case own =>
    intro h f g s k hs hscr hpool hlanded o sp hmem c cg n v cv scal vec
    have hme : s.me = k := State.me_tile hs.1
    have hspace : sramOf s o = some sp ∧ Memory.wf (s.bytesOf sp) = true := by
      simp only [List.mem_cons, Prod.mk.injEq, List.not_mem_nil, or_false] at hmem
      obtain ⟨rfl, rfl⟩ | ⟨rfl, rfl⟩ := hmem
      · exact ⟨by simp [sramOf, hme], hscr⟩
      · exact ⟨by simp [sramOf, hme], hpool⟩
    obtain ⟨hsp, hwf⟩ := hspace
    have hn : 0 < n := Nat.two_pow_pos _
    have hstored {reg : Nat} {narrow : Bool} {cap : Cap} {l : List (Nat × Nat)} (hok : ∀ x ∈ l, (((s.tile k).v reg).at x.1).tag = false
        ∨ narrow = false ∧ cap.has rtP = true ∧ (((s.tile k).v reg).at x.1).bits.toNat / 2 ^ 22 ≠ 0) :
        ∀ x ∈ l, ¬ refusedLane ((s.tile k).v reg) narrow (cap.has rtP) x.1 := by
      rintro x hx ⟨htag, hbad⟩
      obtain hclean | ⟨hnarrow, hp, hbits⟩ := hok x hx
      · rw [hclean] at htag
        cases htag
      · obtain h | h | h := hbad
        · rw [hnarrow] at h
          cases h
        · rw [hp] at h
          cases h
        · exact hbits h
    refine ⟨fun ho => ⟨fun hclean y a hl => ?_, fun y a hl => ?_, fun l hl hok => ?_, fun l hl hok => ?_, fun hscro y a hl => ?_⟩,
      fun ho l hl hok => ?_⟩
    · obtain ⟨hwrote, hstores, htags⟩ := storeParts_issued hs (ho ▸ hsp) hlanded h (w := n) (l := [⟨0, a, n, leBytes n v.bits.toNat⟩])
        (by simp) hn
      exact ⟨_, execSts_done hs hl hclean, hwrote.rd_one hwf (leBytes_length ..), hstores, htags⟩
    · obtain ⟨hwrote, hstores, htags⟩ := storeParts_issued_tag hs (ho ▸ hsp) hlanded h (p := ⟨0, a, 16, leBytes 16 cv.bits.toNat⟩)
        (leBytes_length ..) (checkAll_aligned hl _ (List.mem_singleton.mpr rfl)) cv.tag
      exact ⟨_, execStc_done hs hl, hwrote.rd_one hwf (leBytes_length ..), hstores, htags⟩
    · exact vstoreWord_own hs hsp hlanded h hwf ho (by decide) (lanewise_chkContig s f) hl (hstored hok)
    · exact vstoreWord_own hs hsp hlanded h hwf ho hn (lanewise_chkStride s f) hl (hstored hok)
    · subst hscro
      obtain rfl : sp = .scr k := by simpa [oidScr, oidPool] using hmem
      obtain ⟨hdone, hkept⟩ := (wrote_wr s (.scr k) a (splRecord ((s.tile k).v f.ds.toNat))).completes hs h
      exact ⟨_, execSpl_own hs hlanded ho hl, hdone.rd_one hwf (splRecord_length _), storesAt_of_wrote hdone (by simp),
        tagsAt_of_untag (w := 272) (l := [(a, splRecord ((s.tile k).v f.ds.toNat))]) (hkept.trans (State.wr_tags ..)) (by simp) (by decide)⟩
    · exact vstoreWord_own hs hsp hlanded h hwf ho (by decide) (lanewise_chkIdx s g) hl (hstored hok)
  case sends =>
    intro h f g s k hs c cg n v cv sends lanes bits
    have hclean {reg : Nat} {narrow hasP : Bool} {w rights : Nat} {cap : Cap} {chks : List Chk} {l : List (Nat × Nat)} (hlanes : lanes reg)
        (hlw : lanewise chks) (hl : checkAll cap w rights w chks = .ok l) : ∀ x ∈ l, ¬ refusedLane ((s.tile k).v reg) narrow hasP x.1 := by
      rintro x hx ⟨htag, -⟩
      have hlt : x.1 < 64 := hlw.2 _ (checkAll_lanes hl ▸ List.mem_map_of_mem hx)
      rw [hlanes x.1 hlt] at htag
      cases htag
    refine ⟨fun hv h1 h2 l hl hne => ?_, fun h1 h2 l hl hne => ?_, fun hlanes => ⟨fun h1 h2 l hl hne => ?_, fun h1 h2 l hl hne => ?_⟩,
      fun hlanes h1 h2 l hl hne => ?_⟩
    · exact storeParts_sends hs h1 h2 n (fun _ => leBytes n v.bits.toNat) hne ((execSts_done hs hl hv).trans (by rw [chkOne_parts hl]; rfl))
    · exact storeParts_sends hs h1 h2 16 (fun _ => leBytes 16 cv.bits.toNat) hne ((execStc_done hs hl).trans (by rw [chkOne_parts hl]))
    · exact storeParts_sends hs h1 h2 4 (fun j => leBytes 4 (bits f.ds.toNat j)) hne
        (vstoreWord_done hs hl (lanewise_chkContig s f) (hclean hlanes (lanewise_chkContig s f) hl))
    · exact storeParts_sends hs h1 h2 n (fun j => leBytes n (bits f.ds.toNat j)) hne
        (vstoreWord_done hs hl (lanewise_chkStride s f) (hclean hlanes (lanewise_chkStride s f) hl))
    · exact storeParts_sends hs h1 h2 4 (fun j => leBytes 4 (bits g.ds.toNat j)) hne
        (vstoreWord_done hs hl (lanewise_chkIdx s g) (hclean hlanes (lanewise_chkIdx s g) hl))
  case port =>
    intro s k j a adr hdacc ha hr hlen hwf
    obtain ⟨hst, rfl, hwrite, hues⟩ : a.st = 0 ∧ a.id = j ∧ a.write = true ∧ a.ues = none := by simpa using ha
    obtain ⟨t, ⟨hbytes, honly⟩, hperform, htags, hctag⟩ := State.performAcc_store (adr := adr) hdacc hwrite hlen
    have hpos : ∀ x ∈ a.parts.map fun p => (adr p, p.data), 0 < x.2.length :=
      List.forall_mem_map.mpr fun p hp => (hlen p hp).symm ▸ State.phys_length_pos (hr.1 p hp)
    have hexec : exec (.dramAccessAtPort k a.id) s = .next (s.portAcc k a.id).1 := rfl
    rw [State.portAcc_reaches hdacc hst hues hr, hperform] at hexec
    refine ⟨_, hexec, by rw [State.tile_setTile_self], fun b hb => ?_, fun l p r hparts hafter => ?_, fun hnone b => ?_, fun b p hb hp => ?_⟩
    · show mget (t.bytesOf .dram) b = _
      rw [hbytes]
      exact mget_mwrites_out (List.forall_mem_map.mpr fun p hp => (hlen p hp).symm ▸ hb p hp)
    · have hmem (q : Machine.Part) (hq : q ∈ p :: r) : q ∈ a.parts := hparts ▸ List.mem_append_right _ hq
      show mread (t.bytesOf .dram) _ _ = _
      rw [hbytes, hparts, List.map_append, List.map_cons, ← hlen p (hmem p List.mem_cons_self)]
      refine mread_mwrites_last (x := (adr p, p.data)) hwf (List.forall_mem_map.mpr fun q hq => ?_)
      rw [hlen p (hmem p List.mem_cons_self), hlen q (hmem q (List.mem_cons_of_mem _ hq))]
      exact hafter q hq
    · show t.tagAt .dram b = true ↔ _
      rw [State.tagAt_eq, State.tagAt_eq, htags hnone, List.contains_iff_mem, List.contains_iff_mem, mem_untag hpos, List.forall_mem_map]
      exact and_congr_right' (forall₂_congr fun p hp => by rw [hlen p hp])
    · exact hctag b p hb hp
  case refused =>
    intro h f g s k hs c cg n refused
    exact ⟨fun l hl hpois => execSts_poisoned hs hl hpois, fun l hl hbad => vstoreWord_refused hs hl (lanewise_chkContig s f) hbad,
      fun l hl hbad => vstoreWord_refused hs hl (lanewise_chkStride s f) hbad,
      fun l hl hbad => vstoreWord_refused hs hl (lanewise_chkIdx s g) hbad⟩

end Sys2Proof.Proofs
end
